-- ==== Sys2Proof/Word.lean ====
section
/-!
DEFINITION. The word types of the block: a register word, a line of 64 bytes and its byte mask.
-/

namespace Sys2Proof

/-- A register of the control window is 32 bits (00_scope.md R12). -/
abbrev W32 := BitVec 32

/-- One byte. -/
abbrev Byte := BitVec 8

/-- The data of one host line of 64 B (01_architecture.md R21); byte `k` is bits `8k+7 : 8k`. -/
abbrev Line := BitVec 512

/-- One bit per byte of a line, bit `k` for byte `k` (03_stockpot.md R97). -/
abbrev Mask := BitVec 64

end Sys2Proof
end

