-- ==== Sys2Proof/Syntax.lean ====
section
/-!
DEFINITION. The commands the block takes: one constructor per row of spec/opcode_table.json, with its operands.
-/

namespace Sys2Proof

/-- The path a register access or a mailbox command comes on: a link, or MCTP (19 R524). -/
inductive Path where
  | link (n : Fin 32)
  | mctp
deriving DecidableEq, Repr

/-- The drain streams of the stockpot (03 R103, 05 R165). -/
inductive Stream where
  | host
  | upkeep
  | rebuild
  | journal
  | checkpoint
  | spike
deriving DecidableEq, Repr

/-- Where an accepted write comes from (03 R95, 08 R244): a link's Accept rail, a whisk channel, or the zero-a-line
operation of a port's ladle. -/
inductive AcceptSrc where
  | link (n : Fin 32)
  | whisk (c : Fin 64)
  | zero (p : Fin 8)
deriving DecidableEq, Repr

/-- Requesters with a sideband in the pass (08 R252). -/
inductive Requester where
  | link (n : Nat)
  | whisk (c : Nat)
  | stream (q : Nat)
  | scraper
  | taster
  | rebuild
deriving DecidableEq, Repr

/-- What training found for a die (06 R200): read delay, write delay, VREF code, window width, and whether it passed. -/
structure TrainRes where
  rd : Byte
  wr : Byte
  vref : Byte
  margin : Byte
  ok : Bool
deriving DecidableEq, Repr

/-- The MetaValue of a request's Meta0-State field (10 R301): I, S, A or No-Op. -/
inductive MetaV where
  | inv
  | shared
  | any
  | noOp
deriving DecidableEq, Repr

/-- What asks for a test (17 R486): the device itself, a register write, or Run Test with its target and argument. -/
inductive TestSrc where
  | internal
  | register (path : Path)
  | runTest (path : Path) (target arg : Byte)
deriving DecidableEq, Repr

/-- A word of a BAR0 write by its byte enables (19 R521): all set, with the data; some set; none set. -/
inductive WordIn where
  | whole (data : BitVec 32)
  | part
  | skipped
deriving DecidableEq, Repr

/-- A ticket rail (01 R37), with its instance. -/
inductive RailId where
  | accept (n : Fin 32)
  | lookup (p : Fin 8)
  | translate (i : Fin 4)
  | mediaReq (b : Fin 32)
  | mediaRes (b : Fin 32)
  | invalidate (p : Fin 8)
  | snoop (p : Fin 8)
  | snoopResp (p : Fin 8)
  | journal
  | event
deriving DecidableEq, Repr

/-- What an uncorrectable word held (13 R385): frame data or the byte-mask entry of a line, a frame tag, a value with a
second copy, the parity of a stripe row (stripe, page) or of an open block, a ladle way, a spice-rack set (or none it
names), a hook cell, an entry-cache line, a journal staging slot, steward memory, whisk staging of a channel, the save area
of a context, a rail entry, an ingress entry's data or both copies of its header, a victim-buffer entry, a spike staging
slot, a tally counter or histogram bin, a scrubber list entry, a key slot (and whether its reload works), a map-stack
line, the state of the scraper (0), the taster (1) or rebuild (2), that of a stockpot stream (14 R406). -/
inductive BadWord where
  | frameData (f : Nat) (line : Fin 4)
  | frameMask (f : Nat) (line : Fin 4)
  | frameTag (f : Nat)
  | second
  | rowParity (stripe page : Nat)
  | blockParity (pb : Nat)
  | ladleWay (p : Fin 8) (way : Nat)
  | spiceSet (set : Option (Fin 262144))
  | hookCell (h : Fin 4096)
  | entryCache
  | staging
  | steward (c : Fin 12)
  | whiskStaging (ctx : Fin 256)
  | saveArea (ctx : Fin 256)
  | railEntry (r : RailId)
  | ingressData (n : Fin 32) (seq : BitVec 16)
  | ingressHeader (n : Fin 32) (seq : BitVec 16)
  | victim (p : Fin 8) (k : Nat)
  | spikeSlot (slot : Fin 4096)
  | counter (n : Fin 768)
  | bin (k : Fin 1024)
  | scrubList (k : Fin 64)
  | keySlot (n : Fin 1024) (reloaded : Bool)
  | mapLine
  | engine (e : Fin 3)
  | stream (q : Fin 4)
deriving DecidableEq, Repr

/-- A fault report as it reaches the ledger (14 R398): the oldest one a block has made; one of a source with the ID of the
unit it charges; a corrected word (13 R382); an uncorrectable word (13 R385). -/
inductive FaultIn where
  | queued
  | unit (source : Fin 18) (uid : Nat)
  | corrected (domain : Fin 9) (inst : Fin 8) (off : Nat) (pos0 pos1 : Fin 128)
  | uncorrectable (domain : Fin 9) (inst : Fin 8) (off : Nat) (w : BadWord)
deriving DecidableEq, Repr

/-- A raw access (12 R373): a read or a write of a line by its DPA[44:6], a read of a sector by its address. -/
inductive RawOp where
  | readDpa (line : BitVec 39)
  | writeDpa (line : BitVec 39) (data : Line)
  | readMedia (addr : BitVec 38)
deriving DecidableEq, Repr

/-- A word that a scrub finds in error (13 R393). -/
inductive WordErr where
  | corrected (off : Nat) (pos0 pos1 : Fin 128)
  | bad (off : Nat) (w : BadWord)
deriving DecidableEq, Repr

/-- The commands of the block: one constructor per row of the table of operations and events. -/
inductive Instr where
  /-- MEM_RD (R28) -/
  | memRd (n : Fin 32) (tag : BitVec 16) (hpa : BitVec 64) (m : MetaV) (other : Bool)
  /-- MEM_RD_DATA (R301) -/
  | memRdData (n : Fin 32) (tag : BitVec 16) (hpa : BitVec 64) (noOp : Bool)
  /-- MEM_WR (R87) -/
  | memWr (n : Fin 32) (tag : BitVec 16) (hpa : BitVec 64) (data : Line) (poison : Bool) (m : MetaV)
  /-- MEM_WR_PTL (R87) -/
  | memWrPtl (n : Fin 32) (tag : BitVec 16) (hpa : BitVec 64) (data : Line) (mask : Mask) (poison : Bool) (m : MetaV)
  /-- MEM_INV (R301) -/
  | memInv (n : Fin 32) (tag : BitVec 16) (hpa : BitVec 64) (m : MetaV)
  /-- MEM_INV_NT (R301) -/
  | memInvNt (n : Fin 32) (tag : BitVec 16) (hpa : BitVec 64) (m : MetaV)
  /-- MEM_CLN_EVCT (R301) -/
  | memClnEvct (n : Fin 32) (tag : BitVec 16) (hpa : BitVec 64)
  /-- MEM_SPEC_RD (R301) -/
  | memSpecRd (_n : Fin 32) (_hpa : BitVec 64)
  /-- ACCEPTANCE (R96) -/
  | acceptance (src : AcceptSrc)
  /-- LADLE_INVALIDATE (R237) -/
  | ladleInvalidate (p : Fin 8)
  /-- TRANSLATE_LOOKUP (R122) -/
  | translateLookup (i : Fin 4)
  /-- MEDIA_REQUEST_ENTRY (R248) -/
  | mediaRequestEntry (b : Fin 32)
  /-- PASS_GRANT (R249) -/
  | passGrant (b : Fin 32)
  /-- REQUESTER_MASK (R252) -/
  | requesterMask (r : Requester) (v : Bool)
  /-- MEDIA_RESULT (R30) -/
  | mediaResult (b : Fin 32) (bad : BitVec 16)
  /-- PAGE_ASSEMBLY (R104) -/
  | pageAssembly (q : Stream)
  /-- PAD_FILL_EXPIRY (R104) -/
  | padFillExpiry (q : Stream)
  /-- AGE_MAX_EXPIRY (R103) -/
  | ageMaxExpiry
  /-- PAGE_TARGETING (R127) -/
  | pageTargeting
  /-- ALIGNED_PAGE_WAIT_EXPIRY (R126) -/
  | alignedPageWaitExpiry
  /-- SLICE_WAIT_REJUDGE (R127) -/
  | sliceWaitRejudge
  /-- PROGRAM_RESULT (R105) -/
  | programResult (b : Fin 32)
  /-- ROW_PAD_EXPIRY (R163) -/
  | rowPadExpiry
  /-- FREEZE (R115) -/
  | freeze (path : Path) (v : Bool)
  /-- RAIL_RESET (R86) -/
  | railReset (r : RailId)
  /-- GPF_PHASE_1 (R60) -/
  | gpfPhase1 (n : Fin 32)
  /-- GPF_PHASE_2 (R60) -/
  | gpfPhase2 (n : Fin 32)
  /-- DEMOTION_FOLD (R132) -/
  | demotionFold
  /-- FLUSH_MARK (R138) -/
  | flushMark
  /-- CHECKPOINT_START (R140) -/
  | checkpointStart
  /-- CKPT_NOW (R148) -/
  | ckptNow (path : Path)
  /-- SEAL_SCAN (R170) -/
  | sealScan
  /-- VICTIM_CHOICE (R209) -/
  | victimChoice
  /-- ON_DECK (R207) -/
  | onDeck (q : Stream)
  /-- GOVERNOR_WINDOW (R214) -/
  | governorWindow
  /-- DRIFT_CLOCK_TICK (R216) -/
  | driftClockTick
  /-- PATROL_READ (R220) -/
  | patrolRead
  /-- READ_LEVEL_CALIBRATION (R222) -/
  | readLevelCalibration (src : TestSrc) (die : Fin 320) (bucket : Fin 16) (best : List (List (Fin 7))) (us : Fin 2001)
  /-- PATROL_RESTART (R232) -/
  | patrolRestart (path : Path)
  /-- UPKEEP_STATUS (R228) -/
  | upkeepStatus (p : Path)
  /-- RETIRE_BURNER (R229) -/
  | retireBurner (p : Path) (b : Byte)
  /-- REBUILD_STATUS (R229) -/
  | rebuildStatus (p : Path)
  /-- RETIRE_DIE (R230) -/
  | retireDie (p : Path) (b : Byte) (ce : Byte)
  /-- RANGE_INVALIDATION (R243) -/
  | rangeInvalidation (path : Path) (p : Fin 8)
  /-- RANGE_INVALIDATION_END (R243) -/
  | rangeInvalidationEnd (p : Fin 8)
  /-- ZERO_A_LINE (R244) -/
  | zeroALine (path : Path) (p : Fin 8) (lines : Fin 8192) (keyslot : Fin 1024)
  /-- LADLE_ENABLE (R240) -/
  | ladleEnable (path : Path) (p : Fin 8)
  /-- LADLE_DISABLE (R240) -/
  | ladleDisable (path : Path) (p : Fin 8)
  /-- FENCE_LINK (R271) -/
  | fenceLink (n : Fin 32) (read : Bool)
  /-- FENCE_PORT (R271) -/
  | fencePort (n : Fin 32) (read : Bool)
  /-- FENCE_DEV (R271) -/
  | fenceDev (n : Fin 32) (read : Bool)
  /-- FENCE_COMPLETE (R275) -/
  | fenceComplete (n : Fin 32)
  /-- FENCE_DISCARD_EXPIRY (R277) -/
  | fenceDiscardExpiry (n : Fin 32) (h : Option (Fin 4096))
  /-- HELD_WRITE_DELIVERY (R277) -/
  | heldWriteDelivery (n : Fin 32)
  /-- HOOK_ACQUIRE (R283) -/
  | hookAcquire (n : Fin 32) (h : Fin 4096)
  /-- HOOK_RELEASE (R285) -/
  | hookRelease (n : Fin 32) (h : Fin 4096) (serial : BitVec 16)
  /-- HOOK_RENEW (R285) -/
  | hookRenew (n : Fin 32) (h : Fin 4096) (serial : BitVec 16)
  /-- HOOK_RELEASE_FENCE_COMPLETE (R286) -/
  | hookReleaseFenceComplete (h : Fin 4096)
  /-- HOOK_LEASE_EXPIRY (R287) -/
  | hookLeaseExpiry (h : Fin 4096)
  /-- HOOK_BREAK (R293) -/
  | hookBreak (path : Path) (h : Fin 4096)
  /-- SET_HOOK_LEASE (R291) -/
  | setHookLease (p : Path) (first : Nat) (count : Nat) (lease : Nat)
  /-- BI_RSP_I (R302) -/
  | biRspI (n : Fin 32) (tag : BitVec 12)
  /-- BI_RSP_S (R302) -/
  | biRspS (n : Fin 32) (tag : BitVec 12)
  /-- BI_RSP_E (R302) -/
  | biRspE (n : Fin 32) (tag : BitVec 12)
  /-- BI_CONFLICT (R316) -/
  | biConflict (n : Fin 32) (tag : BitVec 12)
  /-- SNOOP_TIMEOUT (R318) -/
  | snoopTimeout (n : Fin 32)
  /-- DIRECTORY_FLUSH (R320) -/
  | directoryFlush (path : Path)
  /-- DIRECTORY_FLUSH_END (R320) -/
  | directoryFlushEnd
  /-- CTX_TAIL (R334) -/
  | ctxTail (path : Path) (i : Fin 256) (v : BitVec 32)
  /-- NOP (R336) -/
  | nop (i : Fin 256)
  /-- COPY (R336) -/
  | copy (i : Fin 256)
  /-- FILL (R336) -/
  | fill (i : Fin 256)
  /-- ZERO (R336) -/
  | zero (i : Fin 256)
  /-- COMPARE (R336) -/
  | compare (i : Fin 256)
  /-- CRC_32C (R338) -/
  | crc32c (i : Fin 256)
  /-- SCAN (R339) -/
  | scan (i : Fin 256)
  /-- WHISK_CHUNK (R340) -/
  | whiskChunk (i : Fin 256)
  /-- DESCRIPTOR_COMPLETE (R347) -/
  | descriptorComplete (i : Fin 256)
  /-- CTX_PAUSE (R344) -/
  | ctxPause (path : Path) (i : Fin 256)
  /-- CTX_RESUME (R344) -/
  | ctxResume (path : Path) (i : Fin 256)
  /-- CTX_ABORT (R344) -/
  | ctxAbort (path : Path) (i : Fin 256)
  /-- TLB_INV (R333) -/
  | tlbInv (path : Path) (i : Fin 256)
  /-- CHANNEL_RESTART (R343) -/
  | channelRestart (path : Path) (c : Fin 64)
  /-- GET_KEY_INFO (R371) -/
  | getKeyInfo (p : Path) (group : Byte)
  /-- GENERATE_KEY (R371) -/
  | generateKey (p : Path) (slot : BitVec 16)
  /-- ERASE_KEY (R372) -/
  | eraseKey (p : Path) (slot : BitVec 16)
  /-- GET_AUTH_NONCE (R370) -/
  | getAuthNonce (p : Path)
  /-- SET_OWNER_SECRET (R371) -/
  | setOwnerSecret (p : Path) (input : List Byte)
  /-- NONCE_EXPIRY (R370) -/
  | nonceExpiry
  /-- AUTH_LOCKOUT_END (R370) -/
  | authLockoutEnd
  /-- CLEAR_ALARM_RESUME (R369) -/
  | clearAlarmResume (p : Path) (blk : List Byte)
  /-- CLEAR_ALARM_REFORMAT (R369) -/
  | clearAlarmReformat (p : Path) (action : Byte) (blk : List Byte)
  /-- FORCE_LID (R376) -/
  | forceLid (path : Path)
  /-- IDE_CHECK_FAIL (R62) -/
  | ideCheckFail (n : Fin 32) (stream : Fin 6)
  /-- GET_VERSION (R374) -/
  | getVersion (n : Fin 32)
  /-- GET_CAPABILITIES (R374) -/
  | getCapabilities (n : Fin 32)
  /-- NEGOTIATE_ALGORITHMS (R374) -/
  | negotiateAlgorithms (n : Fin 32)
  /-- GET_DIGESTS (R374) -/
  | getDigests (n : Fin 32)
  /-- GET_CERTIFICATE (R374) -/
  | getCertificate (n : Fin 32)
  /-- CHALLENGE (R374) -/
  | challenge (n : Fin 32)
  /-- GET_MEASUREMENTS (R374) -/
  | getMeasurements (n : Fin 32)
  /-- KEY_EXCHANGE (R374) -/
  | keyExchange (n : Fin 32)
  /-- FINISH (R374) -/
  | finish (n : Fin 32) (ok : Bool)
  /-- HEARTBEAT (R374) -/
  | heartbeat (n : Fin 32)
  /-- END_SESSION (R374) -/
  | endSession (n : Fin 32)
  /-- QUERY (R374) -/
  | query (n : Fin 32)
  /-- KEY_PROG (R374) -/
  | keyProg (n : Fin 32) (stream : Fin 6) (set : Fin 2) (tx : Bool)
  /-- K_SET_GO (R374) -/
  | kSetGo (n : Fin 32) (stream : Fin 6) (set : Fin 2) (tx : Bool)
  /-- K_SET_STOP (R374) -/
  | kSetStop (n : Fin 32) (stream : Fin 6) (set : Fin 2) (tx : Bool)
  /-- BUCKET_LEAK (R383) -/
  | bucketLeak (d : Fin 9)
  /-- MAP_STACK_RECONSTRUCTION (R389) -/
  | mapStackReconstruction
  /-- RAW_WRITE (R392) -/
  | rawWrite (path : Path) (row : Bool)
  /-- RAW_READ (R392) -/
  | rawRead (path : Path) (row : Bool)
  /-- CHECKED_READ (R392) -/
  | checkedRead (path : Path) (row : Bool)
  /-- SCRUB_GO (R393) -/
  | scrubGo (path : Path) (domain : Fin 16) (inst : Fin 8)
  /-- SCRUB_RANGE (R394) -/
  | scrubRange (p : Path) (domain : Byte) (inst : Byte) (start : BitVec 64) (len : BitVec 64)
  /-- SCRUB_END (R393) -/
  | scrubEnd (found : List WordErr)
  /-- FAULT_REPORT (R398) -/
  | faultReport (x : FaultIn)
  /-- RETRY_BACKOFF_EXPIRY (R399) -/
  | retryBackoffExpiry
  /-- CLR_LANES (R405) -/
  | clrLanes (path : Path)
  /-- WATCHDOG_EXPIRY (R409) -/
  | watchdogExpiry (c : Fin 12)
  /-- LINK_DOWN (R71) -/
  | linkDown (n : Fin 32) (surprise : Bool)
  /-- LINK_UP (R452) -/
  | linkUp (n : Fin 32) (width : Fin 7) (rate : Fin 7) (flit256 : Bool) (msix : Bool)
  /-- FO_FAILOVER (R55) -/
  | foFailover
  /-- PERST_ASSERT (R452) -/
  | perstAssert (p : Fin 8)
  /-- PERST_DEASSERT (R452) -/
  | perstDeassert (p : Fin 8)
  /-- SECTOR_READ (R183) -/
  | sectorRead (b : Fin 32)
  /-- DATA_OUT (R183) -/
  | dataOut (b : Fin 32) (iters : Option (Fin 64)) (corrected : Fin 1024)
  /-- PROGRAM_LOAD (R184) -/
  | programLoad (b : Fin 32)
  /-- PROGRAM_CONFIRM (R184) -/
  | programConfirm (b : Fin 32) (ce : Fin 10)
  /-- BLOCK_RESET (R183) -/
  | blockReset (b : Fin 32)
  /-- SUSPEND (R189) -/
  | suspend (b : Fin 32) (ce : Fin 10)
  /-- RESUME (R190) -/
  | resume (b : Fin 32) (ce : Fin 10)
  /-- READ_LEVEL_SET (R195) -/
  | readLevelSet (b : Fin 32)
  /-- STATUS (R187) -/
  | status (b : Fin 32) (ce : Fin 10) (w : W32)
  /-- TEMPERATURE (R183) -/
  | temperature (b : Fin 32) (ce : Fin 10) (raw : BitVec 16)
  /-- PARAMETER_PAGE (R198) -/
  | parameterPage (b : Fin 32) (ce : Fin 10) (bytes : List Byte)
  /-- OWNER_READ (R199) -/
  | ownerRead (b : Fin 32) (ce : Fin 10) (blank : Bool) (bytes : List Byte)
  /-- OWNER_WRITE (R199) -/
  | ownerWrite (b : Fin 32) (ce : Fin 10)
  /-- TRAIN_READ (R200) -/
  | trainRead (b : Fin 32) (ce : Fin 10)
  /-- TRAIN_WRITE (R200) -/
  | trainWrite (b : Fin 32) (ce : Fin 10) (pattern : List Byte)
  /-- TRAIN_READBACK (R200) -/
  | trainReadback (b : Fin 32) (ce : Fin 10)
  /-- DIE_RESET (R183) -/
  | dieReset (b : Fin 32) (ce : Fin 10)
  /-- DIE_TIMEOUT (R188) -/
  | dieTimeout (b : Fin 32) (ce : Fin 10)
  /-- ALERT_N (R187) -/
  | alertN (b : Fin 32) (words : List W32) (temps : List (BitVec 16))
  /-- MIN_RUN_EXPIRY (R189) -/
  | minRunExpiry (b : Fin 32) (ce : Fin 10)
  /-- SUSPEND_WINDOW_EXPIRY (R190) -/
  | suspendWindowExpiry (b : Fin 32) (ce : Fin 10)
  /-- QUICK_TRIM (R202) -/
  | quickTrim (src : TestSrc) (b : Fin 32) (ce : Fin 10) (r : TrainRes)
  /-- FULL_TRAINING (R200) -/
  | fullTraining (src : TestSrc) (b : Fin 32) (res : List TrainRes)
  /-- SENSOR_SELF_CHECK (R486) -/
  | sensorSelfCheck (src : TestSrc)
  /-- CODEC_SELF_TEST (R486) -/
  | codecSelfTest (src : TestSrc) (fails : BitVec 32) (us : Fin 2001)
  /-- MAP_STACK_TRAINING (R488) -/
  | mapStackTraining (src : TestSrc) (ok : Bool)
  /-- HOUSEKEEPING_ROUND (R477) -/
  | housekeepingRound (ctl : List (Option (BitVec 16))) (stack : List (Option (BitVec 16))) (media : List (Option (BitVec 16))) (supply : BitVec 16) (kettle : BitVec 16) (answers : List (Option (List Byte))) (late : Bool)
  /-- VAUX_GOOD (R417) -/
  | vauxGood (addr : Fin 16) (answers : BitVec 16)
  /-- VAUX_LOSS (R422) -/
  | vauxLoss (second : Bool)
  /-- START_RAMPING (R440) -/
  | startRamping (supply : BitVec 16)
  /-- RAIL_QUALIFIED (R419) -/
  | railQualified (i : Fin 8) (strap : Fin 4)
  /-- RAIL_RAMP_TIMEOUT (R419) -/
  | railRampTimeout (i : Fin 8) (status : BitVec 16)
  /-- POWER_GOOD_LOSS (R420) -/
  | powerGoodLoss (i : Fin 8) (status : BitVec 16)
  /-- RAIL_OFF (R421) -/
  | railOff (i : Fin 8)
  /-- DISCHARGE_TIMEOUT (R421) -/
  | dischargeTimeout (i : Fin 8)
  /-- UNDERVOLTAGE (R423) -/
  | undervoltage (i : Fin 8)
  /-- OVERVOLTAGE (R423) -/
  | overvoltage (i : Fin 8)
  /-- PMB_ALERT (R424) -/
  | pmbAlert
  /-- PAGE (R424) -/
  | page (i : Fin 8)
  /-- CLEAR_FAULTS (R424) -/
  | clearFaults (i : Fin 8) (ok : Bool)
  /-- VOUT_MODE (R424) -/
  | voutMode (i : Fin 8) (v : Option Byte)
  /-- STATUS_WORD (R424) -/
  | statusWord (i : Fin 8) (v : Option (BitVec 16))
  /-- STATUS_VOUT (R424) -/
  | statusVout (i : Fin 8) (v : Option Byte)
  /-- STATUS_IOUT (R424) -/
  | statusIout (i : Fin 8) (v : Option Byte)
  /-- STATUS_INPUT (R424) -/
  | statusInput (i : Fin 8) (v : Option Byte)
  /-- STATUS_TEMPERATURE (R424) -/
  | statusTemperature (i : Fin 8) (v : Option Byte)
  /-- READ_VIN (R424) -/
  | readVin (i : Fin 8) (v : Option (BitVec 16))
  /-- READ_VOUT (R424) -/
  | readVout (i : Fin 8) (v : Option (BitVec 16))
  /-- READ_IOUT (R424) -/
  | readIout (i : Fin 8) (v : Option (BitVec 16))
  /-- READ_TEMPERATURE_1 (R424) -/
  | readTemperature1 (i : Fin 8) (v : Option (BitVec 16))
  /-- PMBUS_REVISION (R424) -/
  | pmbusRevision (i : Fin 8) (v : Option Byte)
  /-- KETTLE_READY (R427) -/
  | kettleReady (v0 : BitVec 16)
  /-- KETTLE_TEST_DISCHARGE (R427) -/
  | kettleTestDischarge (us : BitVec 32)
  /-- KETTLE_TEST_TIMEOUT (R427) -/
  | kettleTestTimeout
  /-- KETTLE_CAPACITANCE_TEST (R430) -/
  | kettleCapacitanceTest (src : TestSrc)
  /-- WRITE_HOLD (R429) -/
  | writeHold (v : BitVec 16)
  /-- WRITE_HOLD_END (R429) -/
  | writeHoldEnd (v : BitVec 16)
  /-- SUPPLY_FAIL (R431) -/
  | supplyFail
  /-- BROWNOUT (R431) -/
  | brownout (us : Fin 2000)
  /-- KETTLE_FLOOR (R429) -/
  | kettleFloor
  /-- FLUSH_REQ (R431) -/
  | flushReq (high : Bool)
  /-- REFERENCE_CLOCK_ABSENT (R431) -/
  | referenceClockAbsent
  /-- FLUSH_ABANDON (R434) -/
  | flushAbandon
  /-- SIMMER_ENTRY (R437) -/
  | simmerEntry (p : Path) (link : Byte)
  /-- SIMMER_WAKE (R438) -/
  | simmerWake (p : Path) (fails : BitVec 32) (rate : Fin 6)
  /-- YV_IDENTIFY (R444) -/
  | yvIdentify
  /-- YV_STATUS (R445) -/
  | yvStatus
  /-- POWER_ON (R444) -/
  | powerOn
  /-- POWER_OFF (R444) -/
  | powerOff (broadcast : Bool)
  /-- CLEAR_FAULT (R444) -/
  | clearFault (broadcast : Bool)
  /-- KETTLE_INFO (R444) -/
  | kettleInfo
  /-- YULVOGA_FALLBACK (R448) -/
  | yulvogaFallback
  /-- YV_CMD_GO (R450) -/
  | yvCmdGo (path : Path) (addr : Fin 16) (cmd : Byte) (again : Fin 10) (result : Fin 4) (status : Byte) (payload : List Byte)
  /-- WARM_RESET (R453) -/
  | warmReset (path : Path)
  /-- WARM_RESET_TIMEOUT (R453) -/
  | warmResetTimeout
  /-- FW_CONFIRMATION (R459) -/
  | fwConfirmation
  /-- COMMIT (R471) -/
  | commit (path : Path)
  /-- DISCARD (R471) -/
  | discard (path : Path)
  /-- COMMIT_APPLY (R472) -/
  | commitApply
  /-- QUIESCE_REACHED (R473) -/
  | quiesceReached
  /-- QUIESCE_TIMEOUT (R473) -/
  | quiesceTimeout
  /-- SPIKE_EVENT (R504) -/
  | spikeEvent
  /-- TALLY_CLEAR (R497) -/
  | tallyClear (path : Path) (v : BitVec 32)
  /-- SNAPSHOT (R497) -/
  | snapshot (path : Path)
  /-- TALLY_SNAPSHOT (R501) -/
  | tallySnapshot (p : Path) (first : BitVec 16) (count : BitVec 16) (units : Bool)
  /-- READ_SPIKE (R510) -/
  | readSpike (p : Path) (start : BitVec 32) (count : BitVec 16) (older : Bool)
  /-- CLEAR_SPIKE (R511) -/
  | clearSpike (p : Path) (blk : List Byte)
  /-- SPIKE_READ_GO (R515) -/
  | spikeReadGo (path : Path)
  /-- REGISTER_WRITE (R522) -/
  | registerWrite (path : Path) (off : Fin 0x4000000) (words : List WordIn)
  /-- IRQ_STAT_CLEAR (R519) -/
  | irqStatClear (path : Path) (off : Fin 0x4000000) (v : BitVec 32)
  /-- IRQ_FORCE (R519) -/
  | irqForce (path : Path) (off : Fin 0x4000000) (v : BitVec 32)
  /-- LO_REGISTER_READ (R521) -/
  | loRegisterRead (path : Path) (off : Fin 0x4000000) (words : Fin 1025)
  /-- TRK_OCC_READ (R325) -/
  | trkOccRead (path : Path)
  /-- MCTP_READ (R523) -/
  | mctpRead (off : BitVec 32) (count : Byte)
  /-- MCTP_WRITE (R523) -/
  | mctpWrite (off : BitVec 32) (words : List (BitVec 32))
  /-- BACKGROUND_COMMAND_STARTED (R63) -/
  | backgroundCommandStarted (p : Path)
  /-- IDENTIFY (R64) -/
  | identify (p : Path)
  /-- BACKGROUND_OPERATION_STATUS (R63) -/
  | backgroundOperationStatus (p : Path)
  /-- GET_RESPONSE_MESSAGE_LIMIT (R64) -/
  | getResponseMessageLimit (p : Path)
  /-- GET_EVENT_RECORDS (R64) -/
  | getEventRecords (p : Path) (log : Fin 5)
  /-- CLEAR_EVENT_RECORDS (R64) -/
  | clearEventRecords (p : Path) (log : Fin 5) (all : Bool) (handles : List (BitVec 16))
  /-- GET_EVENT_INTERRUPT_POLICY (R64) -/
  | getEventInterruptPolicy (p : Path)
  /-- SET_EVENT_INTERRUPT_POLICY (R64) -/
  | setEventInterruptPolicy (p : Path) (bytes : List Byte)
  /-- GET_FW_INFO (R461) -/
  | getFwInfo (p : Path)
  /-- TRANSFER_FW (R461) -/
  | transferFw (p : Path) (action : Fin 5) (slot : Byte) (offset : BitVec 32) (data : List Byte) (key : BitVec 384) (sigOk : Bool)
  /-- ACTIVATE_FW (R461) -/
  | activateFw (p : Path) (online : Bool) (slot : Byte)
  /-- GET_TIMESTAMP (R64) -/
  | getTimestamp (p : Path)
  /-- SET_TIMESTAMP (R64) -/
  | setTimestamp (p : Path) (ns : BitVec 64)
  /-- GET_SUPPORTED_LOGS (R64) -/
  | getSupportedLogs (p : Path)
  /-- GET_LOG (R64) -/
  | getLog (p : Path) (uuid : BitVec 128) (offset : BitVec 32) (length : BitVec 32)
  /-- IDENTIFY_MEMORY_DEVICE (R64) -/
  | identifyMemoryDevice (p : Path)
  /-- GET_PARTITION_INFO (R64) -/
  | getPartitionInfo (p : Path)
  /-- SET_PARTITION_INFO (R64) -/
  | setPartitionInfo (p : Path)
  /-- GET_LSA (R64) -/
  | getLsa (p : Path) (offset : BitVec 32) (length : BitVec 32)
  /-- SET_LSA (R64) -/
  | setLsa (p : Path) (offset : BitVec 32) (data : List Byte)
  /-- GET_HEALTH_INFO (R61) -/
  | getHealthInfo (p : Path)
  /-- GET_ALERT_CONFIGURATION (R64) -/
  | getAlertConfiguration (p : Path)
  /-- SET_ALERT_CONFIGURATION (R64) -/
  | setAlertConfiguration (p : Path) (bytes : List Byte)
  /-- GET_SHUTDOWN_STATE (R64) -/
  | getShutdownState (p : Path)
  /-- SET_SHUTDOWN_STATE (R61) -/
  | setShutdownState (p : Path) (v : Byte)
  /-- GET_POISON_LIST (R64) -/
  | getPoisonList (p : Path) (dpa : BitVec 64) (lines : BitVec 64)
  /-- INJECT_POISON (R64) -/
  | injectPoison (p : Path) (dpa : BitVec 64)
  /-- CLEAR_POISON (R64) -/
  | clearPoison (p : Path) (dpa : BitVec 64) (data : Line)
  /-- GET_SCAN_MEDIA_CAPABILITIES (R64) -/
  | getScanMediaCapabilities (p : Path) (dpa : BitVec 64) (lines : BitVec 64)
  /-- SCAN_MEDIA (R64) -/
  | scanMedia (p : Path) (dpa : BitVec 64) (lines : BitVec 64)
  /-- GET_SCAN_MEDIA_RESULTS (R64) -/
  | getScanMediaResults (p : Path)
  /-- SANITIZE (R372) -/
  | sanitize (p : Path)
  /-- SECURE_ERASE (R372) -/
  | secureErase (p : Path)
  /-- MEDIA_OPERATIONS_ZERO (R144) -/
  | mediaOperationsZero (p : Path) (ranges : List (BitVec 64 × BitVec 64))
  /-- GET_DYNAMIC_CAPACITY_CONFIGURATION (R64) -/
  | getDynamicCapacityConfiguration (p : Path) (first : Byte) (count : Byte)
  /-- GET_DYNAMIC_CAPACITY_EXTENT_LIST (R64) -/
  | getDynamicCapacityExtentList (p : Path) (first : BitVec 32) (count : BitVec 32)
  /-- ADD_DYNAMIC_CAPACITY_RESPONSE (R64) -/
  | addDynamicCapacityResponse (p : Path) (ranges : List (Nat × Nat))
  /-- RELEASE_DYNAMIC_CAPACITY (R59) -/
  | releaseDynamicCapacity (p : Path) (ranges : List (Nat × Nat))
  /-- GET_DCD_INFO (R57) -/
  | getDcdInfo (p : Path)
  /-- GET_HOST_DC_REGION_CONFIGURATION (R57) -/
  | getHostDcRegionConfiguration (p : Path) (host : Fin 32) (first : Byte) (count : Byte)
  /-- SET_DC_REGION_CONFIGURATION (R57) -/
  | setDcRegionConfiguration (p : Path) (k : Fin 8) (base : BitVec 32) (len : BitVec 32)
  /-- GET_DC_REGION_EXTENT_LISTS (R57) -/
  | getDcRegionExtentLists (p : Path) (host : Fin 32) (first : BitVec 32) (count : BitVec 32)
  /-- INITIATE_DYNAMIC_CAPACITY_ADD (R57) -/
  | initiateDynamicCapacityAdd (p : Path) (host : Fin 32) (k : Fin 8) (tag : BitVec 128) (ranges : List (Nat × Nat))
  /-- INITIATE_DYNAMIC_CAPACITY_RELEASE (R58) -/
  | initiateDynamicCapacityRelease (p : Path) (host : Fin 32) (forced : Bool) (ranges : List (Nat × Nat))
  /-- GET_DEVICE_STATE (R66) -/
  | getDeviceState (p : Path)
  /-- DISCARD_RANGE (R67) -/
  | discardRange (p : Path) (dpa : BitVec 64) (len : BitVec 64)
  /-- FABRIC_OWNER_TRANSFER (R69) -/
  | fabricOwnerTransfer (p : Path) (port : Byte) (blk : List Byte)
  /-- LINK_STATUS (R70) -/
  | linkStatus (p : Path) (n : Fin 32)
  /-- LINK_DISABLE (R70) -/
  | linkDisable (p : Path) (n : Fin 32)
  /-- LINK_ENABLE (R70) -/
  | linkEnable (p : Path) (n : Fin 32)
  /-- LINK_RETRAIN (R70) -/
  | linkRetrain (p : Path) (n : Fin 32)
  /-- HDM_DECODER_COMMIT (R47) -/
  | hdmDecoderCommit (n : Fin 32) (k : Fin 16) (set : Bool) (base : BitVec 64) (size : BitVec 64) (ways : Nat) (gran : Nat)
  /-- VIRAL_RECEIVED (R41) -/
  | viralReceived (n : Fin 32)
  /-- UNSUPPORTED_COMMAND (R371) -/
  | unsupportedCommand (p : Path) (opcode : BitVec 16)
  /-- RAW_ACCESS (R373) -/
  | rawAccess (debug : Bool) (op : RawOp)
  /-- TAP_INSTRUCTION (R551) -/
  | tapInstruction (k : Fin 8)
  /-- VAULT_COPY_WRITTEN (R358) -/
  | vaultCopyWritten (kind : Fin 3) (ok : Bool)
  /-- FIRMWARE_FAULT (R409) -/
  | firmwareFault (c : Fin 12)
  /-- YULVOGA_BAD_FRAME (R443) -/
  | yulvogaBadFrame (unknown : Bool)
deriving DecidableEq, Repr

end Sys2Proof
end

