-- ==== Sys2Proof/Decode.lean ====
section
/-!
DEFINITION. The command that a word spells by the bits of the command table.
-/

namespace Sys2Proof

/-- The table of commands gives no row any bits: its commands are accesses, protocol messages, events and device operations, so no
word spells one. -/
def decodeTableWord (_nbits _w : Nat) : Option Instr := none

end Sys2Proof
end

