-- ==== Sys2Proof/Machine/Bits.lean ====
section
/-!
DEFINITION. Bit fields of words and the byte order of messages: every multi-byte field of the spec's messages is
little-endian (18_observability.md R502, 19_register_architecture.md worked example).
-/

namespace Sys2Proof.Machine

/-- The field of a word whose highest bit is `hi` and lowest bit `lo`, as a number. -/
def fld {w : Nat} (x : BitVec w) (hi lo : Nat) : Nat :=
  x.toNat / 2 ^ lo % 2 ^ (hi + 1 - lo)

/-- One bit of a word. -/
def bitOf {w : Nat} (x : BitVec w) (i : Nat) : Bool := x.getLsbD i

/-- A number placed at bit `lo` of a 32-bit word. -/
def at32 (n lo : Nat) : W32 := BitVec.ofNat 32 (n * 2 ^ lo)

/-- A flag placed at bit `i` of a 32-bit word. -/
def bit32 (b : Bool) (i : Nat) : W32 := if b then BitVec.ofNat 32 (2 ^ i) else 0

/-- A number that sticks at the largest value of `n` bits. -/
def sat (n x : Nat) : Nat := min x (2 ^ n - 1)

/-- The low 8 bits of a number as a byte. -/
def byteOf (n : Nat) : Byte := BitVec.ofNat 8 n

/-- The `k` bytes of a number, little-endian. -/
def leBytes : Nat → Nat → List Byte
  | 0, _ => []
  | k + 1, n => byteOf n :: leBytes k (n / 256)

/-- The number a little-endian list of bytes stands for. -/
def leNat : List Byte → Nat
  | [] => 0
  | b :: bs => b.toNat + 256 * leNat bs

/-- Bytes `i` to `i + k - 1` of a message as a number; bytes past the end read 0. -/
def field (p : List Byte) (i k : Nat) : Nat := leNat ((p.drop i).take k)

/-- The list of the numbers of set bits below `n`. -/
def bitsSet (n x : Nat) : List Nat := (List.range n).filter (fun i => x.testBit i)

/-- Byte `k` of a line. -/
def lineByte (l : Line) (k : Nat) : Byte := l.extractLsb' (8 * k) 8

/-- The 512-bit mask that covers the bytes a byte mask names. -/
def spreadMask : Nat → Mask → Line
  | 0, _ => 0
  | k + 1, m =>
    spreadMask k m ||| (if m.getLsbD k then (0xFF : Line) <<< (8 * k) else 0)

/-- The bytes of `new` that the mask names, over `old`. -/
def mergeLine (old new : Line) (m : Mask) : Line :=
  (old &&& ~~~ spreadMask 64 m) ||| (new &&& spreadMask 64 m)

/-- The mask that names all 64 bytes. -/
def fullMask : Mask := BitVec.allOnes 64

/-- Splits a list into pieces of `n`, at most `fuel` pieces. -/
def chunksOf {α : Type} (n : Nat) : Nat → List α → List (List α)
  | 0, _ => []
  | fuel + 1, xs => if xs.isEmpty then [] else xs.take n :: chunksOf n fuel (xs.drop n)

/-- Takes the first element a test admits, with the rest of the list in order. -/
def takeFirst {α : Type} (p : α → Bool) : List α → Option (α × List α)
  | [] => none
  | x :: xs =>
    if p x then some (x, xs)
    else match takeFirst p xs with
      | none => none
      | some (y, ys) => some (y, x :: ys)

/-- Replaces element `i` of a list by its image. -/
def updAt {α : Type} (f : α → α) : Nat → List α → List α
  | _, [] => []
  | 0, x :: xs => f x :: xs
  | i + 1, x :: xs => x :: updAt f i xs

/-- Counts the elements a test admits. -/
def countIf {α : Type} (p : α → Bool) (xs : List α) : Nat := (xs.filter p).length

/-- Adds an element that is not there yet. -/
def insertNew {α : Type} [BEq α] (xs : List α) (x : α) : List α :=
  if xs.contains x then xs else xs ++ [x]

end Sys2Proof.Machine
end

