-- ==== Sys2Proof/Machine/Aes.lean ====
section
/-!
DEFINITION. The integrity function of the device (12_protection.md R360): AES-256 (FIPS 197) and the GHASH of GMAC (NIST
SP 800-38D), which the spec names; it decides whether an authorisation block passes (R370).
-/

namespace Sys2Proof.Machine

/-! ### AES-256 -/

/-- Multiplication by x in the AES field, polynomial 0x11B. -/
def aesX (a : Byte) : Byte := if a.getLsbD 7 then (a <<< 1) ^^^ 0x1B else a <<< 1

/-- Product in the AES field, over the low `n` bits of the second factor. -/
def aesMulBits : Nat → Byte → Byte → Byte
  | 0, _, _ => 0
  | n + 1, a, b => (if b.getLsbD 0 then a else 0) ^^^ aesMulBits n (aesX a) (b >>> 1)

/-- Product in the AES field. -/
def aesMul (a b : Byte) : Byte := aesMulBits 8 a b

/-- The inverse in the AES field, 0 for 0: the 254th power. -/
def aesInv (a : Byte) : Byte :=
  let a2 := aesMul a a
  let a4 := aesMul a2 a2
  let a8 := aesMul a4 a4
  let a16 := aesMul a8 a8
  let a32 := aesMul a16 a16
  let a64 := aesMul a32 a32
  let a128 := aesMul a64 a64
  aesMul a128 (aesMul a64 (aesMul a32 (aesMul a16 (aesMul a8 (aesMul a4 a2)))))

/-- The S-box: the inverse and the affine map. -/
def sbox (a : Byte) : Byte :=
  let b := aesInv a
  b ^^^ b.rotateLeft 1 ^^^ b.rotateLeft 2 ^^^ b.rotateLeft 3 ^^^ b.rotateLeft 4 ^^^ 0x63

/-- Exclusive or of two lists of bytes. -/
def xorBytes (a b : List Byte) : List Byte := List.zipWith (· ^^^ ·) a b

/-- The round constants' bytes. -/
def rcon : Nat → Byte
  | 0 => 1
  | n + 1 => aesX (rcon n)

/-- The key schedule of AES-256: from the words so far, newest first, `n` more words. -/
def expand : Nat → Nat → List (List Byte) → List (List Byte)
  | 0, _, ws => ws
  | n + 1, i, ws =>
    let prev := ws.headD []
    let old := ws.getD 7 []
    let t := if i % 8 = 0 then
        match (prev.drop 1 ++ prev.take 1).map sbox with
        | x :: xs => (x ^^^ rcon (i / 8 - 1)) :: xs
        | [] => []
      else if i % 8 = 4 then prev.map sbox
      else prev
    expand n (i + 1) (xorBytes old t :: ws)

/-- The 15 round keys of AES-256, 16 bytes each. -/
def roundKeys (k : List Byte) : List (List Byte) :=
  let ws := (expand 52 8 ((chunksOf 4 8 k).reverse)).reverse
  (chunksOf 4 15 ws).map List.flatten

/-- Shifts the rows of the state, which stands in column order. -/
def shiftRows (s : List Byte) : List Byte := (List.range 16).map (fun i => s.getD ((i + 4 * (i % 4)) % 16) 0)

/-- Mixes one column. -/
def mixCol (c : List Byte) : List Byte :=
  (List.range 4).map (fun i =>
    aesX (c.getD i 0) ^^^ (aesX (c.getD ((i + 1) % 4) 0) ^^^ c.getD ((i + 1) % 4) 0) ^^^ c.getD ((i + 2) % 4) 0 ^^^
      c.getD ((i + 3) % 4) 0)

/-- Mixes the columns of the state. -/
def mixCols (s : List Byte) : List Byte := ((chunksOf 4 4 s).map mixCol).flatten

/-- AES-256 of one block of 16 bytes. -/
def aes256 (k x : List Byte) : List Byte :=
  let ks := roundKeys k
  let s0 := xorBytes x (ks.getD 0 [])
  let s1 := (List.range 13).foldl
    (fun s r => xorBytes (mixCols (shiftRows (s.map sbox))) (ks.getD (r + 1) [])) s0
  xorBytes (shiftRows (s1.map sbox)) (ks.getD 14 [])

/-! ### GHASH -/

/-- A block of 16 bytes as GHASH reads it: byte 0 most significant. -/
def beBlock (bs : List Byte) : BitVec 128 := bs.foldl (fun a b => (a <<< 8) ||| b.setWidth 128) 0

/-- The 16 bytes of a GHASH block. -/
def blockBytes (x : BitVec 128) : List Byte := (List.range 16).map (fun i => x.extractLsb' (8 * (15 - i)) 8)

/-- Multiplication in GF(2^128) of GHASH, over the `n` bits still to take of `x`, with `v` the shifted factor. -/
def ghMulBits : Nat → BitVec 128 → BitVec 128 → BitVec 128 → BitVec 128
  | 0, _, _, z => z
  | n + 1, x, v, z =>
    ghMulBits n (x <<< 1) ((v >>> 1) ^^^ (if v.getLsbD 0 then 0xE1000000000000000000000000000000 else 0))
      (if x.getLsbD 127 then z ^^^ v else z)

/-- Product in GF(2^128) of GHASH. -/
def ghMul (x y : BitVec 128) : BitVec 128 := ghMulBits 128 x y 0

/-- GHASH over a message whose length is a multiple of 16. -/
def ghash (h : BitVec 128) (bs : List Byte) : BitVec 128 :=
  (chunksOf 16 bs.length bs).foldl (fun y c => ghMul (y ^^^ beBlock c) h) 0

/-- The `k` bytes of a number, big-endian. -/
def beBytes (k n : Nat) : List Byte := (leBytes k n).reverse

/-- `tag(k, a)` of R360: the 16 bytes of t. -/
def tagOf (k a : List Byte) : List Byte :=
  let h := beBlock (aes256 k (List.replicate 16 0))
  aes256 k (blockBytes (ghash h (a ++ beBytes 8 (8 * a.length) ++ beBytes 8 0)))

/-- Pads a message with zeros to a multiple of 16. -/
def pad16 (a : List Byte) : List Byte := a ++ List.replicate ((16 - a.length % 16) % 16) 0

end Sys2Proof.Machine
end

