-- ==== Sys2Proof/Machine/Codes.lean ====
section
/-!
DEFINITION. Checksums and codes: CRC-32C (11 R338, 18 R502), the field of the outer code and its parities (05 R161,
R164).
-/

namespace Sys2Proof.Machine

/-- One bit of the reflected Castagnoli CRC: polynomial 0x1EDC_6F41, reflected 0x82F6_3B78. -/
def crcBit (c : BitVec 32) : BitVec 32 :=
  if c.getLsbD 0 then (c >>> 1) ^^^ 0x82F63B78 else c >>> 1

/-- One byte of the CRC register. -/
def crcByte (c : BitVec 32) (b : Byte) : BitVec 32 :=
  let d := c ^^^ b.setWidth 32
  crcBit (crcBit (crcBit (crcBit (crcBit (crcBit (crcBit (crcBit d)))))))

/-- The CRC register after a list of bytes. -/
def crcRun (c : BitVec 32) (bs : List Byte) : BitVec 32 := bs.foldl crcByte c

/-- CRC-32C of a message: register preset to all ones and inverted at the end. -/
def crc32c (bs : List Byte) : BitVec 32 := ~~~ (crcRun 0xFFFFFFFF bs)

/-- Multiplication by 0x02 in GF(2^8) with polynomial 0x11D (05 R161). -/
def gdouble (a : Byte) : Byte := if a.getLsbD 7 then (a <<< 1) ^^^ 0x1D else a <<< 1

/-- `pow(0x02, n)` in GF(2^8). -/
def gpow2 : Nat → Byte
  | 0 => 1
  | n + 1 => gdouble (gpow2 n)

/-- Product in GF(2^8), over the low `n` bits of the first factor (05 R161). -/
def gmulBits : Nat → Byte → Byte → Byte
  | 0, _, _ => 0
  | n + 1, a, b => gmulBits n a b ^^^ (if a.getLsbD n then (List.range n).foldl (fun x _ => gdouble x) b else 0)

/-- Product in GF(2^8) (05 R161). -/
def gmul (a b : Byte) : Byte := gmulBits 8 a b

/-- The inverse in GF(2^8): the 254th power; 0 for 0. -/
def ginv (a : Byte) : Byte := (List.range 253).foldl (fun x _ => gmul x a) a

/-- Quotient in GF(2^8) (05 R164). -/
def gdiv (a b : Byte) : Byte := gmul a (ginv b)

/-- P of a column of data bytes, by data index (05 R161). -/
def parityP (d : List Byte) : Byte := d.foldl (· ^^^ ·) 0

/-- Q of a column of data bytes, by data index (05 R161). -/
def parityQ (d : List Byte) : Byte := d.zipIdx.foldl (fun q e => q ^^^ gmul (gpow2 e.2) e.1) 0

/-- The byte of one lost data member: P combined with the survivors (05 R164). -/
def rebuildOne (px : Byte) : Byte := px

/-- The bytes of two lost data members a and b from Px and Qx (05 R164). -/
def rebuildTwo (a b : Nat) (px qx : Byte) : Byte × Byte :=
  let db := gdiv (qx ^^^ gmul (gpow2 a) px) (gpow2 a ^^^ gpow2 b)
  (px ^^^ db, db)

/-- The byte of a lost data member a when P is lost too, from Qx (05 R164). -/
def rebuildQ (a : Nat) (qx : Byte) : Byte := gdiv qx (gpow2 a)

end Sys2Proof.Machine
end

