-- ==== Sys2Proof/Config.lean ====
section
/-!
DEFINITION. What an implementation fixes (the speed grade and its clocks), the sizes the spec fixes, and the free
values: values the spec leaves open, as constants without a body, so that no proof can see what they are.
-/

namespace Sys2Proof

/-- The speed grade of the part, fixed by a fuse (00_scope.md R6). -/
inductive Grade where
  | g30
  | g24
deriving DecidableEq, Repr

namespace Config

/-- Ticks of 1/12 ns in one fabric cycle: 1/3 ns on -30, 5/12 ns on -24 (00_scope.md R5, R7). -/
def ticksPerFc : Grade → Nat
  | .g30 => 4
  | .g24 => 5

/-- Ticks of 1/12 ns in a nanosecond. -/
def ns : Nat := 12
/-- Ticks in a microsecond. -/
def us : Nat := 12000
/-- Ticks in a millisecond. -/
def ms : Nat := 12000000
/-- Ticks in a second. -/
def sec : Nat := 12000000000

/-- Fabric cycles in a microsecond (08_read_path_and_pass.md R248). -/
def fcPerUs : Grade → Nat
  | .g30 => 3000
  | .g24 => 2400

/-- A value the spec leaves open, numbered by the state's counter `free`: 64 bits of it (log entry 2). -/
opaque freeWord : Nat → BitVec 64

/-- The bytes of a message part whose layout or value the spec leaves to a standard outside it, numbered by the
state's counter `free` (log entries 2 and 12). -/
opaque freeBytes : Nat → List Byte

/-- The data of a line whose bytes the spec gives no meaning to (a poisoned or uncorrectable line). -/
opaque freeLine : Nat → Line

/-- The size of the label storage area in bytes, which the spec leaves open (log entry 12). -/
opaque lsaSize : Nat

/-- The codes that the CXL standard gives in Get Health Info: 0 a media status of normal, 1 one of read-only, 2 a health status
of no fault, 3 one of a critical hold-up fault (log entry 12). -/
opaque healthCode : Nat → Byte

/-- Whether the device has a log of a UUID besides the Command Effects Log (02_host_ports.md R64; log entry 12). -/
opaque hasLog : BitVec 128 → Bool

/-- The root secret in the fuses, 32 bytes (12_protection.md R357): no register or command reads it. -/
opaque rootSecret : List Byte

/-- The size and the read modes of the fitted SPI NOR as its SFDP table declares them (16_bring_up.md R455): log2 of its bytes is 26 plus the
first modulo 7, and the fastest mode is the second modulo 3 (log entry 113). -/
opaque norPart : Nat × Nat

/-- The AES-256-XTS key pair of a key identity (12_protection.md R355): 32 bytes of data key, then 32 of tweak key. -/
opaque keyPair : Nat → List Byte

/-- Whether a codeword that a start step reads, for which the table has no command, is lost for good, numbered by the state's
counter `free` (log entry 87). -/
opaque startReadLost : Nat → Bool

/-- The 576 bytes of code parity of a codeword of 4,608 bytes: those that make all 41,472 bits fulfil the parity-check
matrix `hmat` (05_media_layout.md R157). The spec does not give the entries of the matrix, nor how they are solved. -/
opaque codeParity : List Byte → List Byte

/-- The base matrix of the LDPC code, in the burner's code memory: entry `row * 162 + column` (06_burner_channel.md
R157, R204); the spec gives its shape and not its entries. -/
opaque hmat : Nat → BitVec 9

end Config
end Sys2Proof
end

