-- ==== Sys2Proof/Machine/RegTable.lean ====
section
/-!
DEFINITION. The control window: its pages (19 R516), and for every register that holds a written value the bits a write
changes, whether it is staged (RWS), and its house value, as the chapters' field tables give them. Registers that only
read state, and the bits that start something when written, are not in this table.
-/

namespace Sys2Proof.Machine

/-- A page of the control window (19 R516). -/
inductive RPage where
  | glb
  | boot
  | port (p : Nat)
  | stk
  | siv
  | upk
  | pas
  | ldl (p : Nat)
  | spr
  | key
  | mec
  | wsk (c : Nat)
  | brn (b : Nat)
  | pwr
  | thm
  | tly
  | spk
  | flt
  | stw
deriving DecidableEq, Repr

/-- The offset of a page in the control window (19 R516). -/
def RPage.base : RPage → Nat
  | .glb => 0
  | .boot => 0x10000
  | .port p => 0x100000 + p * 0x10000
  | .stk => 0x200000
  | .siv => 0x210000
  | .upk => 0x220000
  | .pas => 0x230000
  | .ldl p => 0x240000 + p * 0x1000
  | .spr => 0x250000
  | .key => 0x260000
  | .mec => 0x270000
  | .wsk c => 0x280000 + c * 0x1000
  | .brn b => 0x300000 + b * 0x10000
  | .pwr => 0x500000
  | .thm => 0x510000
  | .tly => 0x520000
  | .spk => 0x560000
  | .flt => 0x570000
  | .stw => 0x580000

/-- The page and the offset in it of a control-window offset; none in a reserved range (19 R516, R517). -/
def locate (o : Nat) : Option (RPage × Nat) :=
  if o < 0x10000 then some (.glb, o)
  else if o < 0x20000 then some (.boot, o - 0x10000)
  else if o < 0x100000 then none
  else if o < 0x180000 then some (.port ((o - 0x100000) / 0x10000), (o - 0x100000) % 0x10000)
  else if o < 0x200000 then none
  else if o < 0x210000 then some (.stk, o - 0x200000)
  else if o < 0x220000 then some (.siv, o - 0x210000)
  else if o < 0x230000 then some (.upk, o - 0x220000)
  else if o < 0x240000 then some (.pas, o - 0x230000)
  else if o < 0x248000 then some (.ldl ((o - 0x240000) / 0x1000), (o - 0x240000) % 0x1000)
  else if o < 0x250000 then none
  else if o < 0x260000 then some (.spr, o - 0x250000)
  else if o < 0x270000 then some (.key, o - 0x260000)
  else if o < 0x280000 then some (.mec, o - 0x270000)
  else if o < 0x2C0000 then some (.wsk ((o - 0x280000) / 0x1000), (o - 0x280000) % 0x1000)
  else if o < 0x300000 then none
  else if o < 0x500000 then some (.brn ((o - 0x300000) / 0x10000), (o - 0x300000) % 0x10000)
  else if o < 0x510000 then some (.pwr, o - 0x500000)
  else if o < 0x520000 then some (.thm, o - 0x510000)
  else if o < 0x560000 then some (.tly, o - 0x520000)
  else if o < 0x570000 then some (.spk, o - 0x560000)
  else if o < 0x580000 then some (.flt, o - 0x570000)
  else if o < 0x590000 then some (.stw, o - 0x580000)
  else none

/-- TYPE of a page's ID register (19 R519). -/
def RPage.typ : RPage → Nat
  | .glb => 0x01
  | .boot => 0x02
  | .port _ => 0x03
  | .stk => 0x04
  | .siv => 0x05
  | .upk => 0x06
  | .pas => 0x07
  | .ldl _ => 0x08
  | .spr => 0x09
  | .key => 0x0A
  | .mec => 0x0B
  | .wsk _ => 0x0C
  | .brn _ => 0x0D
  | .pwr => 0x0E
  | .thm => 0x0F
  | .tly => 0x10
  | .spk => 0x11
  | .flt => 0x12
  | .stw => 0x13

/-- INSTANCE of a page's ID register. -/
def RPage.inst : RPage → Nat
  | .port p => p
  | .ldl p => p
  | .wsk c => c
  | .brn b => b
  | _ => 0

/-- INSTANCES of a page's CAPS register (19 R516, R519). -/
def RPage.count : RPage → Nat
  | .port _ => 8
  | .ldl _ => 8
  | .wsk _ => 64
  | .brn _ => 32
  | _ => 1

/-- SPAN_LOG2 of a page's CAPS register (19 R516, R519). -/
def RPage.spanLog2 : RPage → Nat
  | .ldl _ => 12
  | .wsk _ => 12
  | .tly => 18
  | _ => 16

/-- The MSI-X vector of a page (19 R520); whisk pages use their grant's. -/
def RPage.vector : RPage → Nat
  | .glb => 0
  | .boot => 0
  | .stw => 0
  | .stk => 1
  | .siv => 1
  | .upk => 1
  | .pas => 1
  | .spr => 2
  | .key => 3
  | .mec => 4
  | .flt => 4
  | .pwr => 5
  | .thm => 5
  | .tly => 6
  | .spk => 6
  | .brn _ => 7
  | .ldl _ => 8
  | .port _ => 9
  | .wsk _ => 0

/-- A row of a page's table: `n` registers from `off`, `stride` apart, staged or not, the bits a write changes, and
the house value (with `step` added per register). -/
structure RegRow where
  off : Nat
  n : Nat
  stride : Nat
  staged : Bool
  mask : Nat
  house : Nat
  step : Nat
deriving DecidableEq, Repr

/-- The rows every page shares: IRQ_EN (19 R518, R519). -/
def headerRows : List RegRow := [⟨0x18, 1, 4, false, 0xFFFFFFFF, 0, 0⟩]

/-- Registers of the PORT page that hold written values. -/
def portRows : List RegRow :=
  [
   -- BIFUR (R78)
   ⟨0x40, 1, 0x4, true, 0x3, 0x0, 0⟩,
   -- LINK_CTRL_s (R78)
   ⟨0x60, 4, 0x4, true, 0x3F, 0x0, 0⟩,
   -- WIN_n_DPA_BASE (R78)
   ⟨0x100, 16, 0x20, true, 0x1FFFF, 0x0, 0⟩,
   -- WIN_n_SIZE (R78)
   ⟨0x104, 16, 0x20, true, 0x3FFFF, 0x0, 0⟩,
   -- WIN_n_CTRL (R78)
   ⟨0x108, 16, 0x20, true, 0x800007FF, 0x0, 0⟩,
   -- WIN_n_LINKS (R78)
   ⟨0x10C, 16, 0x20, true, 0xF, 0x0, 0⟩]

/-- Registers of the STK page that hold written values. -/
def stkRows : List RegRow :=
  [
   -- WMARK (R116)
   ⟨0x54, 1, 0x4, true, 0x7F7F, 0x4B19, 0⟩,
   -- AGE_MAX (R116)
   ⟨0x58, 1, 0x4, true, 0xFFFF, 0x32, 0⟩,
   -- DRAIN_DL (R116)
   ⟨0x5C, 1, 0x4, true, 0xFFFF, 0x28, 0⟩,
   -- LINK_CAP_n (R116)
   ⟨0x180, 32, 0x4, true, 0x7F, 0x0, 0⟩,
   -- CTRL (R117)
   ⟨0xC, 1, 0x4, false, 0x1, 0x0, 0⟩]

/-- Registers of the SIV page that hold written values. -/
def sivRows : List RegRow :=
  [
   -- PROMOTE (R147)
   ⟨0x44, 1, 0x4, true, 0x7F7F7F3F, 0x505A4B04, 0⟩,
   -- FOLD (R147)
   ⟨0x48, 1, 0x4, true, 0xFF, 0x4, 0⟩]

/-- Registers of the BRN page that hold written values. -/
def brnRows : List RegRow :=
  [
   -- SUSP (R203)
   ⟨0x48, 1, 0x4, true, 0xFFFF03FF, 0x8140208, 0⟩,
   -- LDPC (R203)
   ⟨0x4C, 1, 0x4, true, 0x1F, 0x14, 0⟩,
   -- HMAT_IDX (R203)
   ⟨0x50, 1, 0x4, false, 0xFFF, 0x0, 0⟩]

/-- Registers of the UPK page that hold written values. -/
def upkRows : List RegRow :=
  [
   -- GC (R231)
   ⟨0x44, 1, 0x4, true, 0xFFFFFFFF, 0x1000200, 0⟩,
   -- GC_DL (R231)
   ⟨0x48, 1, 0x4, true, 0x1FFF, 0x190, 0⟩,
   -- WEAR (R231)
   ⟨0x4C, 1, 0x4, true, 0xFFFF, 0x50A, 0⟩,
   -- GOVERN (R231)
   ⟨0x50, 1, 0x4, true, 0x7F, 0x78, 0⟩,
   -- PATROL (R231)
   ⟨0x60, 1, 0x4, true, 0x1F, 0x7, 0⟩,
   -- REFRESH (R231)
   ⟨0x68, 1, 0x4, true, 0xFFFFFFFF, 0x8107040, 0⟩,
   -- RETRY (R231)
   ⟨0x6C, 1, 0x4, true, 0xFFFFFF, 0x80604, 0⟩,
   -- ACCEL (R231)
   ⟨0x70, 1, 0x4, true, 0x7FFF, 0x4688, 0⟩,
   -- CAP_POLICY (R231)
   ⟨0x78, 1, 0x4, true, 0xFF03, 0x2001, 0⟩,
   -- RLT_IDX (R231)
   ⟨0x80, 1, 0x4, false, 0x7F, 0x0, 0⟩,
   -- TRIM_IDX (R231)
   ⟨0x88, 1, 0x4, false, 0x1FFF, 0x0, 0⟩]

/-- Registers of the LDL page that hold written values. -/
def ldlRows : List RegRow :=
  [
   -- INV_BASE (R246)
   ⟨0x40, 1, 0x4, false, 0x1FFFFFFF, 0x0, 0⟩,
   -- INV_SIZE (R246)
   ⟨0x44, 1, 0x4, false, 0x3FFFFFFF, 0x0, 0⟩,
   -- LOCK_WAYS (R246)
   ⟨0x4C, 1, 0x4, true, 0xFFFF, 0x0, 0⟩,
   -- LOCK_BASE (R246)
   ⟨0x50, 1, 0x4, true, 0x1FFFFFFF, 0x0, 0⟩,
   -- LOCK_SIZE (R246)
   ⟨0x54, 1, 0x4, true, 0x3FFFFFFF, 0x0, 0⟩,
   -- ZERO_LO (R246)
   ⟨0x5C, 1, 0x4, false, 0xFFFFFFC0, 0x0, 0⟩,
   -- ZERO_HI (R246)
   ⟨0x60, 1, 0x4, false, 0x1FFF, 0x0, 0⟩,
   -- ZERO_CTRL (R246)
   ⟨0x64, 1, 0x4, false, 0x7FFFFF, 0x0, 0⟩]

/-- Registers of the PAS page that hold written values. -/
def pasRows : List RegRow :=
  [
   -- DL_HOST (R264)
   ⟨0x40, 1, 0x4, true, 0xFFFFFFF, 0x12C0, 0⟩,
   -- DL_DRAIN (R264)
   ⟨0x44, 1, 0x4, true, 0xFFFFFFF, 0x124F80, 0⟩,
   -- DL_SCRAPER (R264)
   ⟨0x48, 1, 0x4, true, 0xFFFFFFF, 0xE4E1C0, 0⟩,
   -- DL_TASTER (R264)
   ⟨0x4C, 1, 0x4, true, 0xFFFFFFF, 0x8F0D180, 0⟩,
   -- AGE_SEL (R264)
   ⟨0x64, 1, 0x4, false, 0xFF, 0x0, 0⟩]

/-- Registers of the SPR page that hold written values. -/
def sprRows : List RegRow :=
  [
   -- HOOK_GRANT_g (R292)
   ⟨0x800, 64, 0x4, true, 0xFFFFFFFF, 0x0, 0⟩,
   -- HOOK_LEASE (R292)
   ⟨0x900, 1, 0x4, true, 0x3FFFFF, 0x3E8, 0⟩,
   -- HOOK_BREAK (R292)
   ⟨0x908, 1, 0x4, false, 0xFFF, 0x0, 0⟩,
   -- BI_TMO (R324)
   ⟨0x4C, 1, 0x4, true, 0xFFFF, 0x32, 0⟩,
   -- FLUSH_BASE (R324)
   ⟨0x58, 1, 0x4, false, 0x1FFFFFFF, 0x0, 0⟩,
   -- FLUSH_SIZE (R324)
   ⟨0x5C, 1, 0x4, false, 0x3FFFFFFF, 0x0, 0⟩,
   -- CTRL (R325)
   ⟨0xC, 1, 0x4, false, 0x1, 0x0, 0⟩]

/-- Registers of the WSK page that hold written values. -/
def wskRows : List RegRow :=
  [
   -- GRANT (R352)
   ⟨0x40, 1, 0x4, true, 0x7FF, 0x0, 0⟩,
   -- CTX_s_CFG (R352)
   ⟨0x100, 4, 0x100, true, 0xFF, 0x0, 0⟩,
   -- CTX_s_DL (R352)
   ⟨0x104, 4, 0x100, true, 0xFFFF, 0xC8, 0⟩,
   -- CTX_s_KMASK_LO (R352)
   ⟨0x108, 4, 0x100, true, 0xFFFFFFFF, 0x0, 0⟩,
   -- CTX_s_KMASK_HI (R352)
   ⟨0x10C, 4, 0x100, true, 0xFFFFFFFF, 0x0, 0⟩,
   -- CTX_s_TT_BASE_LO (R352)
   ⟨0x110, 4, 0x100, true, 0xFFFFF000, 0x0, 0⟩,
   -- CTX_s_TT_BASE_HI (R352)
   ⟨0x114, 4, 0x100, true, 0x1FFF, 0x0, 0⟩,
   -- CTX_s_TT_PAGES (R352)
   ⟨0x118, 4, 0x100, true, 0x1FFFFF, 0x0, 0⟩,
   -- CTX_s_TT_KEY (R352)
   ⟨0x11C, 4, 0x100, true, 0x3FF, 0x0, 0⟩,
   -- CTX_s_BOUND_BASE (R352)
   ⟨0x120, 4, 0x100, true, 0x1FFFF, 0x0, 0⟩,
   -- CTX_s_BOUND_SIZE (R352)
   ⟨0x124, 4, 0x100, true, 0x3FFFF, 0x0, 0⟩,
   -- CTX_s_RING_LO (R352)
   ⟨0x128, 4, 0x100, false, 0xFFFFFFC0, 0x0, 0⟩,
   -- CTX_s_RING_HI (R352)
   ⟨0x12C, 4, 0x100, false, 0x1F0F, 0x400, 0⟩,
   -- CTX_s_TAIL (R352)
   ⟨0x130, 4, 0x100, false, 0xFFFFFFFF, 0x0, 0⟩]

/-- Registers of the KEY page that hold written values. -/
def keyRows : List RegRow :=
  [
   -- SLOT_SEL (R375)
   ⟨0x40, 1, 0x4, false, 0x3FF, 0x0, 0⟩]

/-- Registers of the MEC page that hold written values. -/
def mecRows : List RegRow :=
  [
   -- DOM_SEL (R395)
   ⟨0x40, 1, 0x4, false, 0x7F, 0x0, 0⟩,
   -- BUCKET_CFG_d (R395)
   ⟨0x80, 9, 0x4, true, 0xFFFF, 0xA10, 0⟩,
   -- TEST_ADDR_LO (R395)
   ⟨0xA0, 1, 0x4, false, 0xFFFFFFF8, 0x0, 0⟩,
   -- TEST_ADDR_HI (R395)
   ⟨0xA4, 1, 0x4, false, 0x7, 0x0, 0⟩,
   -- TEST_DATA_LO (R395)
   ⟨0xA8, 1, 0x4, false, 0xFFFFFFFF, 0x0, 0⟩,
   -- TEST_DATA_HI (R395)
   ⟨0xAC, 1, 0x4, false, 0xFFFFFFFF, 0x0, 0⟩,
   -- TEST_CHK (R395)
   ⟨0xB0, 1, 0x4, false, 0x3FFF, 0x0, 0⟩,
   -- TEST_CTRL (R395)
   ⟨0xB4, 1, 0x4, false, 0x7, 0x0, 0⟩,
   -- SCRUB_CTRL (R395)
   ⟨0xC0, 1, 0x4, false, 0x7F, 0x0, 0⟩,
   -- SCRUB_START_LO (R395)
   ⟨0xC4, 1, 0x4, false, 0xFFFFFFC0, 0x0, 0⟩,
   -- SCRUB_START_HI (R395)
   ⟨0xC8, 1, 0x4, false, 0x7, 0x0, 0⟩,
   -- SCRUB_LEN_LO (R395)
   ⟨0xCC, 1, 0x4, false, 0xFFFFFFC0, 0x0, 0⟩,
   -- SCRUB_LEN_HI (R395)
   ⟨0xD0, 1, 0x4, false, 0x7, 0x0, 0⟩,
   -- SCRUB_LIST_IDX (R395)
   ⟨0xE0, 1, 0x4, false, 0x3F, 0x0, 0⟩]

/-- Registers of the FLT page that hold written values. -/
def fltRows : List RegRow :=
  [
   -- TRANS (R413)
   ⟨0x40, 1, 0x4, true, 0xFFFFFF, 0x3C08, 0⟩,
   -- ESC (R413)
   ⟨0x44, 1, 0x4, true, 0xFFF, 0x320, 0⟩,
   -- STW (R413)
   ⟨0x48, 1, 0x4, true, 0xFFFF000F, 0x3C0004, 0⟩,
   -- LINE_SEL (R413)
   ⟨0x5C, 1, 0x4, false, 0x7F, 0x0, 0⟩,
   -- EPOCH_SEL (R413)
   ⟨0x64, 1, 0x4, false, 0xFF, 0x0, 0⟩]

/-- Registers of the PWR page that hold written values. -/
def pwrRows : List RegRow :=
  [
   -- SUPPLY_TH (R449)
   ⟨0x40, 1, 0x4, true, 0xFFFF, 0xB0A0, 0⟩,
   -- KETTLE_TH (R449)
   ⟨0x44, 1, 0x4, true, 0xFFFF, 0x4088, 0⟩,
   -- KETTLE_CFG (R449)
   ⟨0x48, 1, 0x4, true, 0xFFFFFFF, 0x5020640, 0⟩,
   -- YV_CFG (R449)
   ⟨0x60, 1, 0x4, true, 0x1FF00, 0x1C800, 0⟩,
   -- YV_CMD (R449)
   ⟨0x64, 1, 0x4, false, 0xFFF, 0x0, 0⟩,
   -- RAIL_i_CFG (R449)
   ⟨0x100, 8, 0x8, true, 0xFF7F, 0xFF40, 1⟩]

/-- Registers of the BOOT page that hold written values. -/
def bootRows : List RegRow :=
  [
   -- LADLE_EN (R474)
   ⟨0x54, 1, 0x4, true, 0xFF, 0xFF, 0⟩]

/-- Registers of the THM page that hold written values. -/
def thmRows : List RegRow :=
  [
   -- SEL (R489)
   ⟨0x40, 1, 0x4, false, 0x7FF, 0x0, 0⟩,
   -- THROTTLE (R489)
   ⟨0x54, 1, 0x4, true, 0x7F, 0x18, 0⟩]

/-- Registers of the TLY page that hold written values. -/
def tlyRows : List RegRow :=
  [
   -- CLEAR (R512)
   ⟨0x40, 1, 0x4, false, 0x1FFFFF, 0x0, 0⟩,
   -- SEL_n (R512)
   ⟨0x1000, 768, 0x4, true, 0x7FFFFFF, 0x3FF0000, 0⟩,
   -- FLT_f_CTRL (R512)
   ⟨0x2000, 64, 0x20, true, 0x7FFFF, 0x0, 0⟩,
   -- FLT_f_MASK_LO (R512)
   ⟨0x2004, 64, 0x20, true, 0xFFFFFFFF, 0x0, 0⟩,
   -- FLT_f_MASK_HI (R512)
   ⟨0x2008, 64, 0x20, true, 0xFFFFFFFF, 0x0, 0⟩,
   -- FLT_f_DPA_BASE (R512)
   ⟨0x200C, 64, 0x20, true, 0x1FFFF, 0x0, 0⟩,
   -- FLT_f_DPA_SIZE (R512)
   ⟨0x2010, 64, 0x20, true, 0x3FFFF, 0x0, 0⟩,
   -- HIST_u_CFG (R512)
   ⟨0x3000, 32, 0x10, true, 0x3FF, 0x0, 0⟩]

/-- Registers of the SPK page that hold written values. -/
def spkRows : List RegRow :=
  [
   -- IRQ_SEV (R514)
   ⟨0x50, 1, 0x4, true, 0x3, 0x1, 0⟩,
   -- READ_SERIAL (R514)
   ⟨0x54, 1, 0x4, false, 0xFFFFFFFF, 0x0, 0⟩]

/-- Registers of the GLB page that hold written values. -/
def glbRows : List RegRow :=
  [
   -- SCRATCH (R527)
   ⟨0x68, 1, 0x4, false, 0xFFFFFFFF, 0x0, 0⟩]

/-- Registers of the STW page that hold written values. -/
def stwRows : List RegRow :=
  [
   -- CORE_SEL (R530)
   ⟨0x40, 1, 0x4, false, 0xF, 0x0, 0⟩]

/-- The rows of a page. -/
def RPage.rows : RPage → List RegRow
  | .glb => glbRows
  | .boot => bootRows
  | .port _ => portRows
  | .stk => stkRows
  | .siv => sivRows
  | .upk => upkRows
  | .pas => pasRows
  | .ldl _ => ldlRows
  | .spr => sprRows
  | .key => keyRows
  | .mec => mecRows
  | .wsk _ => wskRows
  | .brn _ => brnRows
  | .pwr => pwrRows
  | .thm => thmRows
  | .tly => tlyRows
  | .spk => spkRows
  | .flt => fltRows
  | .stw => stwRows

/-- Whether a row holds the register at a page offset. -/
def RegRow.has (r : RegRow) (o : Nat) : Bool :=
  decide (r.off ≤ o) && decide ((o - r.off) % r.stride = 0) && decide ((o - r.off) / r.stride < r.n)

/-- The row of the register at a page offset, where the table holds it. -/
def RPage.row (p : RPage) (o : Nat) : Option RegRow :=
  (headerRows ++ p.rows).find? (fun r => r.has o)

/-- The deadline house values of the pass differ by grade and stand for the same times (08 R265). -/
def pasHouse24 (o : Nat) : Option Nat :=
  if o = 0x40 then some 0xF00
  else if o = 0x44 then some 0xEA600
  else if o = 0x48 then some 0xB71B00
  else if o = 0x4C then some 0x7270E00
  else none

/-- The house value of the register at a page offset (00 R14). -/
def RPage.house (g : Grade) (p : RPage) (o : Nat) : W32 :=
  match p.row o with
  | none => 0
  | some r =>
    match (if p = .pas ∧ g = .g24 then pasHouse24 o else none) with
    | some v => BitVec.ofNat 32 v
    | none => BitVec.ofNat 32 (r.house + (o - r.off) / r.stride * r.step)

end Sys2Proof.Machine
end

