-- ==== Sys2Proof/Machine/SMap.lean ====
section
/-!
DEFINITION. Sparse tables: a list of (key, value) pairs in one canonical form, keys strictly rising.
A key that is not listed reads as the table's default, which the caller names.
-/

namespace Sys2Proof.Machine

/-- A sparse table of values by number. -/
abbrev SMap (α : Type) := List (Nat × α)

/-- The value listed for a key, where there is one. -/
def SMap.find {α : Type} : SMap α → Nat → Option α
  | [], _ => none
  | (k', v) :: m, k => if k' = k then some v else SMap.find m k

/-- The value a key reads as: the listed one, else the default. -/
def SMap.getD {α : Type} (m : SMap α) (k : Nat) (d : α) : α :=
  (m.find k).getD d

/-- Lists a value for a key, in the key's place. -/
def SMap.put {α : Type} : SMap α → Nat → α → SMap α
  | [], k, v => [(k, v)]
  | (k', v') :: m, k, v =>
    if k < k' then (k, v) :: (k', v') :: m
    else if k = k' then (k, v) :: m
    else (k', v') :: SMap.put m k v

/-- Unlists a key. -/
def SMap.del {α : Type} (m : SMap α) (k : Nat) : SMap α :=
  m.filter (fun e => e.1 != k)

/-- Writes a value: a value equal to the default is not listed. -/
def SMap.set {α : Type} [DecidableEq α] (m : SMap α) (d : α) (k : Nat) (v : α) : SMap α :=
  if v = d then m.del k else m.put k v

/-- Writes a value or unlists the key. -/
def SMap.setOpt {α : Type} (m : SMap α) (k : Nat) : Option α → SMap α
  | none => m.del k
  | some v => m.put k v

/-- Changes the value of a key, read and written against the default. -/
def SMap.upd {α : Type} [DecidableEq α] (m : SMap α) (d : α) (k : Nat) (f : α → α) : SMap α :=
  m.set d k (f (m.getD k d))

/-- Applies a function to every listed value. -/
def SMap.mapVal {α β : Type} (m : SMap α) (f : Nat → α → β) : SMap β :=
  m.map (fun e => (e.1, f e.1 e.2))

/-- Keeps the listed entries that a test admits. -/
def SMap.keep {α : Type} (m : SMap α) (p : Nat → α → Bool) : SMap α :=
  m.filter (fun e => p e.1 e.2)

/-- Whether a key lies below every key of a table. -/
def SMap.below {α : Type} (k : Nat) : SMap α → Bool
  | [] => true
  | (k', _) :: _ => decide (k < k')

/-- The canonical form: keys strictly rising. -/
def SMap.wf {α : Type} : SMap α → Bool
  | [] => true
  | (k, _) :: m => SMap.below k m && SMap.wf m

/-- The canonical form over a default: keys strictly rising and no entry equal to the default. -/
def SMap.wfD {α : Type} [DecidableEq α] (m : SMap α) (d : α) : Bool :=
  m.wf && m.all (fun e => decide (e.2 ≠ d))

end Sys2Proof.Machine
end

