-- ==== Sys2Proof/Machine/Types.lean ====
section
/-!
DEFINITION. The data types of the data path: ticket rails, links and their ingress queues, stockpot frames and pages,
map entries and journal records, media sectors and blocks, dies, media requests, ladles and the pass.
-/

namespace Sys2Proof.Machine

/-! ### Ticket rails (01_architecture.md R37, 03_stockpot.md R82 to R86) -/

/-- One committed command on a rail; a consumed one keeps its place until the read pointer passes it (R84). -/
structure Slot (α : Type) where
  cmd : α
  prio : Nat
  used : Bool
deriving DecidableEq, Repr

/-- A ticket rail. Each pointer stands in two copies and is one bit wider than the entry address (R82, R86); `stg` is the
producer's private staging pointer (R83); `stalled` holds, in order, the commands of a producer that found the rail full and
has not committed them (R82). -/
structure Rail (α : Type) where
  slots : List (Slot α)
  rd : Nat
  rdCopy : Nat
  wr : Nat
  wrCopy : Nat
  stg : Nat
  stalled : List (Slot α)
deriving DecidableEq, Repr

/-- A rail with nothing on it and its pointers at zero. -/
def Rail.empty {α : Type} : Rail α := ⟨[], 0, 0, 0, 0, 0, []⟩

/-! ### Who asks for a media operation -/

/-- Deadline classes of the pass, in tie order (08 R249). -/
inductive DlClass where
  | hostRead
  | whisk
  | drain
  | scraper
  | taster
deriving DecidableEq, Repr

/-- What a codeword read is for: where its result goes. -/
inductive Purpose where
  | load (id : Nat)
  | completion (page : Nat) (frame : Nat)
  | whisk (ctx : Nat) (line : Nat)
  | relocate (stripe : Nat)
  | patrol (stripe : Nat)
  | seal (pb : Nat)
  | scanMedia (path : Nat)
  | calibrate (die : Nat) (bucket : Nat) (step : Nat)
  | ring
  | area
deriving DecidableEq, Repr

/-- How a codeword read was decoded (08 R255, 06 R185). -/
inductive Decode where
  | classA (corrected : Nat)
  | fail
  | blank
deriving DecidableEq, Repr

/-- The kind of a media operation. -/
inductive MOp where
  | read
  | program (page : Nat)
  | reset
deriving DecidableEq, Repr

/-- A media request: its kind, its sector address (04 R118), who asks and why, its deadline stamp and its stage; `retry` marks
one that keeps its stamp (08 R248), `soft` a class B retry, `job` a member read of a class C rebuild (07 R218). -/
structure MReq where
  id : Nat
  op : MOp
  addr : Nat
  requester : Requester
  epoch : Nat
  cls : DlClass
  purpose : Purpose
  stamp : BitVec 32
  entered : Nat
  retry : Bool
  clamped : Bool
  soft : Bool
  job : Option Nat
deriving DecidableEq, Repr

/-- A use of a burner's bus (06 R182): the read levels or the sense of a read, a codeword out of a plane's register, a plane's
program latch filled, the program of a die's loaded planes, a block reset. -/
inductive BusUse where
  | set (q : MReq)
  | sense (q : MReq)
  | out (ce pl : Nat) (q : MReq)
  | load (q : MReq)
  | confirm (ce : Nat) (q : MReq) (qs : List MReq)
  | reset (q : MReq)
deriving DecidableEq, Repr

/-- The request whose deadline a use of the bus carries (06 R182). -/
def BusUse.req : BusUse → MReq
  | .set q => q
  | .sense q => q
  | .out _ _ q => q
  | .load q => q
  | .confirm _ q _ => q
  | .reset q => q

/-- A result on a Media result rail (01 R37): a codeword read, or a program or reset with the planes that failed,
or an operation that a die reset aborted (06 R188). -/
inductive MRes where
  | read (req : MReq) (result : Decode)
  | program (req : MReq) (pfail : BitVec 4)
  | reset (req : MReq) (passed : Bool)
  | lost (req : MReq)
deriving DecidableEq, Repr

/-- A lookup on a Translate rail (04 R125): a host load's, a HOME lookup, a whisk read's, one of page targeting or of a map
switch, one of upkeep. -/
inductive TReq where
  | load (id : Nat)
  | home (frame : Nat)
  | whisk (ctx : Nat) (dpaLine : Nat)
  | page (slice : Nat)
  | switch (slice : Nat)
  | upkeep (slice : Nat)
deriving DecidableEq, Repr

/-! ### Fences, hooks, held register writes (09_ordering.md) -/

/-- A register write that waits: for its dead target to revive (09 R277), or for a commit to end (16 R471). -/
structure Bar0Write where
  id : Nat
  path : Path
  off : Nat
  data : W32
deriving DecidableEq, Repr

/-- A fence (09 R271, R273): its scope, whether it is a read, when it arrived and started, its serial; the committed
writes (arrival numbers) it still waits for, the register writes it covers, the count of invalidations its own ladle must
have applied, the counts every ladle must have applied once the last covered write is accepted, whether it waits for a
commit of its link, and the stores it discarded. -/
structure Fence where
  scope : Nat
  read : Bool
  arrived : Nat
  started : Option Nat
  serial : Nat
  waits : List Nat
  holds : List Nat
  own : Nat
  marks : List Nat
  commit : Bool
  discards : Nat
deriving DecidableEq, Repr

/-- A hook (09 R283, R284): its state (0 FREE, 1 HELD, 2 FREE_BROKEN, 3 RELEASING), owner, serial of the last grant, the
time of the grant or last renewal, the lease it runs under and the lease Set Hook Lease gave it (0 none), in ms; and the
link and fence of a release. -/
structure Hook where
  state : Nat
  owner : Nat
  serial : BitVec 16
  since : Nat
  lease : Nat
  set : Nat
  link : Nat
  fence : Option Fence
deriving DecidableEq, Repr

/-- A hook after a start (09 R290). -/
def Hook.fresh : Hook := ⟨2, 0, 0, 0, 0, 0, 0, none⟩

/-- A memory request of a host, as it arrives: MetaValue 0 I, 1 S, 2 A, 3 No-Op; a read with 4 or 5 is MemRdData, 5 with
No-Op; `other` marks an opcode the device does not handle (10 R294, R301). -/
inductive MemReq where
  | read (link tag : Nat) (hpa : BitVec 64) (metaVal : Nat) (other : Bool)
  | write (link tag : Nat) (hpa : BitVec 64) (data : Line) (mask : Mask) (poison : Bool) (metaVal : Nat)
  | own (link tag : Nat) (hpa : BitVec 64) (metaVal : Nat)
  | evict (link tag : Nat) (hpa : BitVec 64)
deriving DecidableEq, Repr

/-! ### Links (02_host_ports.md) -/

/-- A host's HDM decoder on a link (02 R47, R48). -/
structure Decoder where
  base : BitVec 64
  size : BitVec 64
  ways : Nat
  gran : Nat
  committed : Bool
  errNotCommitted : Bool
deriving DecidableEq, Repr

/-- A decoder no host has programmed. -/
def Decoder.blank : Decoder := ⟨0, 0, 1, 256, false, false⟩

/-- The type of a window (02 R49). -/
inductive WinType where
  | priv
  | openShelf
  | coherent
deriving DecidableEq, Repr

/-- A committed entry of an ingress write queue (03 R87): with its arrival number, the MetaValue its acceptance applies
(0 I, 1 S, 2 A, 3 none) and whether its link held the line when it arrived (10 R304). -/
structure IwqEntry where
  seq : BitVec 16
  line : Nat
  data : Line
  mask : Mask
  keyslot : Nat
  wtype : WinType
  poison : Bool
  committed : Bool
  metaVal : Nat
  tag : Nat
  sent : Bool
  at' : Nat
  arr : Nat
  heldAt : Bool
deriving DecidableEq, Repr

/-- An unowned coherent write: it holds an ingress slot, not committed (10 R303). -/
structure UWrite where
  arr : Nat
  line : Nat
  data : Line
  mask : Mask
  keyslot : Nat
  keyId : Nat
  poison : Bool
  metaVal : Nat
  tag : Nat
  heldAt : Bool
deriving DecidableEq, Repr

/-- A dynamic-capacity extent added to a link, in 256 MiB units, with its region, tag and time of addition (02 R56). -/
structure Extent where
  base : Nat
  len : Nat
  region : Nat
  tag : Nat
  added : Nat
deriving DecidableEq, Repr

/-- One event record held for a link's logs: log number and bytes (02 R64, 18 R508). -/
structure EventRec where
  log : Nat
  handle : Nat
  bytes : List Byte
deriving DecidableEq, Repr

/-- A link (02 R80, R88 to R91). -/
structure Link where
  up : Bool
  /-- It has left L0 to retrain, with steps 1 to 3 of a link-down done (02 R73). -/
  retraining : Bool
  held : Bool
  width : Nat
  rate : Nat
  flit256 : Bool
  memActive : Bool
  ideIo : Bool
  ideMem : Bool
  degraded : Bool
  disabled : Bool
  downCount : Nat
  downSince : Nat
  viral : Bool
  msix : Bool
  insecure : List Nat
  nextSeq : BitVec 16
  lastAck : BitVec 16
  lastAckCopy : BitVec 16
  credits : Nat
  stalled : Bool
  iwq : List IwqEntry
  unowned : List UWrite
  decoders : SMap Decoder
  selectors : SMap Nat
  extents : List Extent
  offered : List Extent
  releasing : List Extent
  events : List EventRec
  eventIrq : List Byte
  lostEvents : Nat
  fences : List Fence
  fenceSerial : Nat
  fenceLast : W32
  holds : List Bar0Write
  blocked : List Bar0Write
  invMark : List Nat
  owed : Nat
deriving DecidableEq, Repr

/-- A link that is down and has never trained. -/
def Link.down : Link :=
  { up := false, retraining := false, held := true, width := 0, rate := 0, flit256 := false, memActive := false, ideIo := false,
    ideMem := false, degraded := false, disabled := false, downCount := 0, downSince := 0, viral := false,
    msix := false, insecure := [], nextSeq := 1, lastAck := 0, lastAckCopy := 0, credits := 256, stalled := false,
    iwq := [], unowned := [], decoders := [], selectors := [], extents := [], offered := [], releasing := [],
    events := [], eventIrq := [],
    lostEvents := 0, fences := [], fenceSerial := 0, fenceLast := 0, holds := [], blocked := [], invMark := [],
    owed := 0 }

/-! ### Loads -/

/-- Where a load in progress stands (01 R28 to R32, 03 R98, 10 R301, R306): it waits for the acceptance of a queued
write (by its arrival number), for the directory, for its translation, for media, or for a masked line's read. -/
inductive LoadStage where
  | ingress (arr : Nat)
  | directory
  | translate
  | media
  | masked
deriving DecidableEq, Repr

/-- A host load in progress. `respE` is the MetaValue its response carries: 0 I, 1 S, 2 A, 3 No-Op. -/
structure Load where
  link : Nat
  tag : Nat
  line : Nat
  keyslot : Nat
  keyId : Nat
  wtype : WinType
  metaVal : Nat
  stage : LoadStage
  started : Nat
  fill : Option Nat
  respE : Nat
deriving DecidableEq, Repr

/-! ### The spice rack (10_coherence.md) -/

/-- STATE of a directory entry but I, which is not listed (10 R296, R300). -/
inductive DState where
  | shared
  | exclusive
  | modified
deriving DecidableEq, Repr

/-- A directory entry (10 R296, R297): its line, its holders, each a link or the lower link of a failover group, the key
ID it is held under, and when it was last used. -/
structure DirE where
  line : Nat
  state : DState
  bcast : Bool
  ptrs : List Nat
  keyId : Nat
  last : Nat
deriving DecidableEq, Repr

/-- What a coherent request asks of the directory (10 R301, R303, R306). -/
inductive RKind where
  | rdI
  | rdS
  | rdA
  | rdData
  | invI
  | invS
  | invA
  | write
deriving DecidableEq, Repr

/-- A coherent request: its requester (a link, or 64 + c for whisk channel c), its tag, its line and key ID, and the load
or the write (arrival number) it belongs to. -/
structure CReq where
  kind : RKind
  link : Nat
  tag : Nat
  line : Nat
  keyId : Nat
  id : Nat
deriving DecidableEq, Repr

/-- What a tracker does when its answers are complete (10 R309). -/
inductive TAct where
  | serve (r : CReq)
  | retry (r : CReq)
  | evict
  | flush (link : Option Nat)
  | abandon
  | become (link metaVal line keyId : Nat)
deriving DecidableEq, Repr

/-- An open tracker: its line, what it is for, the MetaValue changes that wait for it (10 R304), and in forward mode the
data sent from its copy (10 R308). -/
structure Tracker where
  id : Nat
  line : Nat
  act : TAct
  metas : List (Nat × Nat × Nat)
  served : Bool
  copy : Option Line
deriving DecidableEq, Repr

/-- A snoop (10 R302, R321): its tracker, the holder and the link it was sent on, its kind (0 BISnpCur, 1 BISnpData, 2
BISnpInv), its BITag once sent, its answer (0 I, 1 S, 2 E), and the writes of the link that are part of the answer. -/
structure Snp where
  tracker : Nat
  holder : Nat
  link : Nat
  kind : Nat
  line : Nat
  keyId : Nat
  tag : Option Nat
  sentAt : Nat
  answer : Option Nat
  wb : List Nat
deriving DecidableEq, Repr

/-- A slot of the sharing-set table (10 R298): a coherent DPA range in 256 MiB units, its links, its windows. -/
structure SSet where
  base : Nat
  size : Nat
  links : List Nat
  windows : Nat
deriving DecidableEq, Repr

/-! ### Stockpot (03_stockpot.md R92 to R105) -/

/-- STATE of a frame tag (03 R93). -/
inductive FState where
  | free
  | resident
  | chosen
  | completing
  | snapshot
  | programming
deriving DecidableEq, Repr

/-- HOME of a frame tag (03 R93). -/
inductive Home where
  | unknown
  | noCopy
  | copy
deriving DecidableEq, Repr

/-- Four lines of a slice. -/
structure Four where
  l0 : Line
  l1 : Line
  l2 : Line
  l3 : Line
deriving DecidableEq, Repr

/-- A slice of zeros. -/
def Four.zero : Four := ⟨0, 0, 0, 0⟩

/-- Line `n` of a slice. -/
def Four.get (d : Four) (n : Nat) : Line :=
  match n with
  | 0 => d.l0
  | 1 => d.l1
  | 2 => d.l2
  | _ => d.l3

/-- Replaces line `n` of a slice. -/
def Four.set (d : Four) (n : Nat) (x : Line) : Four :=
  match n with
  | 0 => { d with l0 := x }
  | 1 => { d with l1 := x }
  | 2 => { d with l2 := x }
  | _ => { d with l3 := x }

/-- A slice frame: its tag (03 R93), its data, the byte-mask entries of its lines (03 R97; a line without an entry
has mask 0), the link its allocation counts against (03 R111), the time it became resident (03 R103) and, in pantry
bare, whether it is held (07 R226), whether a discard covers it (04 R145), for an upkeep frame the sector
address it was relocated from (04 R130), the identity of the key copied when its page was assembled (12 R362), whether
its key slot was erased since (12 R372), and, for a relocated ciphertext that is copied unchanged, the address and SEQ it was
encrypted under (12 R362), and, for a frame of a demotion fold, the slice entry the fold read, as its 8 B (04 R130). -/
structure Frame where
  slice : Nat
  keyslot : Nat
  valid : BitVec 4
  poison : BitVec 4
  home : Home
  state : FState
  redirty : Bool
  quota : Nat
  masked : Bool
  data : Four
  mask0 : Mask
  mask1 : Mask
  mask2 : Mask
  mask3 : Mask
  link : Nat
  since : Nat
  held : Bool
  discarded : Bool
  src : Option Nat
  key : Option Nat
  erased : Bool
  tweak : Option (Nat × BitVec 48)
  entry : Nat
deriving DecidableEq, Repr

/-- A free frame. -/
def Frame.free : Frame :=
  ⟨0, 0, 0, 0, .unknown, .free, false, 0, false, .zero, 0, 0, 0, 0, 0, 0, false, false, none, none, false, none, 0⟩

/-- The byte-mask entry of line `n`. -/
def Frame.maskOf (f : Frame) (n : Nat) : Mask :=
  match n with
  | 0 => f.mask0
  | 1 => f.mask1
  | 2 => f.mask2
  | _ => f.mask3

/-- Writes the byte-mask entry of line `n`. -/
def Frame.setMask (f : Frame) (n : Nat) (m : Mask) : Frame :=
  match n with
  | 0 => { f with mask0 := m }
  | 1 => { f with mask1 := m }
  | 2 => { f with mask2 := m }
  | _ => { f with mask3 := m }

/-- A sector as it stands on media or in a write buffer: its four lines in the clear, and the fields of its spare
(05 R153). `tagOk` says whether the integrity tag verifies; `keyId` is the identity of the key that encrypted it (12
R355); `tweak` the address and SEQ of the encryption where they are not the sector's own (12 R362). The ciphertext is never visible outside the block (12 R373). -/
structure Sector where
  data : Four
  unit : Nat
  seq : BitVec 48
  keyslot : Nat
  poison : BitVec 4
  kind : Nat
  frame : BitVec 9
  keyId : Nat
  tagOk : Bool
  tweak : Option (Nat × BitVec 48)
deriving DecidableEq, Repr

/-- A sector of a kind that the device never writes is treated as corrupt (05 R154). -/
def Sector.corrupt (x : Sector) : Bool := decide (x.kind = 0) || decide (10 ≤ x.kind)

/-! ### Sieve (04_translation.md R120 to R140) -/

/-- A loaf entry (04 R120). -/
structure LoafE where
  fmt : BitVec 2
  loc : Nat
  heat : Nat
  busy : Bool
deriving DecidableEq, Repr

/-- The entry of an unmapped loaf. -/
def LoafE.unmapped : LoafE := ⟨0, 0, 0, false⟩

/-- A slice entry (04 R121). -/
structure SliceE where
  fmt : BitVec 2
  saddr : Nat
  poison : BitVec 4
deriving DecidableEq, Repr

/-- The entry of an unmapped slice. -/
def SliceE.unmapped : SliceE := ⟨0, 0, 0⟩

/-- KIND of a journal record (04 R137); 11 to 15 are reserved, and the device never writes one. -/
inductive JKind where
  | pad
  | sliceMap
  | loafMap
  | promote
  | discard
  | poison
  | flushMark
  | cursor
  | onDeck
  | ckptStart
  | ckptEnd
  | reserved (k : Fin 5)
deriving DecidableEq, Repr

/-- A journal record of 16 B (04 R137). -/
structure JRec where
  kind : JKind
  unit : Nat
  loc : Nat
  seq : BitVec 48
deriving DecidableEq, Repr

/-- A parity page (05 R161, R167, R169): PKIND 1 outer P, 2 outer Q, 3 inner mirror; its SEQ; the stripe number (0 for a
mirror); the row, or the last page covered; the source plane block of a mirror as sector address [37:18] and [7:6]; and its
18,432 bytes, before its header. -/
structure ParPage where
  pkind : Nat
  seq : BitVec 48
  stripe : Nat
  row : Nat
  src : Nat
  dom : List Byte
deriving DecidableEq, Repr

/-- The stage of a page being drained (03 R104, R105). -/
inductive PageStage where
  | assembling
  | target
  | alignedWait
  | sliceWait
  | completing
  | loaded
  | programming
  | passed
deriving DecidableEq, Repr

/-- One sector position of a page: a stockpot frame, a prepared sector (metadata, relocation or pad), or nothing. -/
inductive PageItem where
  | frame (f : Nat)
  | sector (x : Sector) (src : Option Nat)
  | pad
deriving DecidableEq, Repr

/-- A page on its way to media. `addr` is its plane-page address, a sector address with sector 0 (04 R118); `par` what a
parity or mirror page holds; `snapped` whether its snapshot stands in the burner's write buffer (03 R105), `heated` whether its
loaves' heat has been counted (04 R127), `pads` whether it fills a position with pad sectors (05 R163). -/
structure Page where
  stream : Stream
  items : List PageItem
  since : Nat
  stage : PageStage
  aligned : Option Nat
  quad : Option Nat
  fold : Bool
  addr : Option Nat
  seq : BitVec 48
  parity : Nat
  par : Option ParPage
  recs : List JRec
  mark : Option Nat
  reissued : Bool
  snapped : Bool
  heated : Bool
  pads : Bool
deriving DecidableEq, Repr

/-- The outcome of a lookup (04 R122). -/
inductive Lookup where
  | zeros
  | poison
  | sector (saddr : Nat)
  | corrupt
deriving DecidableEq, Repr

/-- An open stripe (05 R159 to R166): its stream, its width, its members' burners in ascending order, the next page of
each plane of each data member (keyed by burner × 4 + plane), the rows that hold a parity slot with the time the first
page of the row was issued (05 R163), the rows whose parity pages have been issued, and the contents of the row slots: the
parity domain of P and Q of each plane, by row × 8 + 4 for Q + plane; an unlisted one is all zero (03 R107); and the rows whose first
data page has been issued (05 R163). -/
structure OpenStripe where
  stripe : Nat
  stream : Stream
  width : Nat
  members : List Nat
  next : SMap Nat
  rows : SMap Nat
  issued : List Nat
  slots : SMap (List Byte)
  started : List Nat
deriving DecidableEq, Repr

/-! ### Media blocks and upkeep (07_upkeep.md R205) -/

/-- STATE of a media block table entry (07 R205). -/
inductive BState where
  | free
  | onDeck
  | open_
  | closed
  | verified
  | victim
  | retired
  | spare
  | reserved
deriving DecidableEq, Repr

/-- A media block table entry (07 R205). -/
structure Block where
  state : BState
  width : Nat
  cursor : Nat
  valid : Nat
  resets : Nat
  role : Nat
  remap : Nat
  p0 : Nat
  patrolT : Nat
  anchors : List Nat
  mirror : Nat
  errPeak : Nat
  errBucket : Nat
  tfault : Nat
  retryCnt : Nat
  reconCnt : Nat
deriving DecidableEq, Repr

/-- The entry of a plane block of blank media: FREE, not remapped, no anchor programmed. -/
def Block.blank : Block :=
  { state := .free, width := 0, cursor := 0, valid := 0, resets := 0, role := 3, remap := 0xFFFFF, p0 := 0,
    patrolT := 0, anchors := [0xFFFFFFFF, 0xFFFFFFFF, 0xFFFFFFFF, 0xFFFFFFFF], mirror := 0, errPeak := 0,
    errBucket := 0, tfault := 0, retryCnt := 0, reconCnt := 0 }

/-! ### Dies and burners (06_burner_channel.md) -/

/-- The program or reset a die runs or has suspended (06 R185); its senses stand beside it, per plane. -/
inductive DieOp where
  | none
  | program
  | reset
deriving DecidableEq, Repr

/-- How a die's owner record was classified (06 R199, R204). -/
inductive OwnerClass where
  | ok
  | blank
  | foreign
  | wrongPosition
  | unreadable
deriving DecidableEq, Repr

/-- A die as the burner knows it (06 R183 to R204): the levels last set per plane (R195); the running or suspended
operation with its requests, the time it last started to run and the time it had run before; the senses under way or
delivered per plane; the program latches by plane (page numbers); and its place in the fault ledger's retries (14 R399):
failures in a row, whether its operations wait for the ledger, and the end of the backoff. -/
structure Die where
  present : Bool
  failed : Bool
  retired : Bool
  alert : Bool
  dbi : Bool
  temp : BitVec 16
  tempOffset : BitVec 16
  owner : OwnerClass
  ownerRec : List Byte
  uid : BitVec 64
  defaults : List Nat
  defects : List Nat
  levels : SMap (List Nat)
  op : DieOp
  opReqs : List MReq
  suspended : Bool
  suspendedAt : Nat
  suspensions : Nat
  runSince : Nat
  ran : Nat
  sensing : SMap MReq
  /-- When each plane's sense started (06 R188). -/
  senseAt : SMap Nat
  /-- Until when the die answers nothing that depends on its last reset or owner write (06 R186). -/
  busyUntil : Nat
  drdy : BitVec 4
  blank : BitVec 4
  latches : SMap Nat
  status : W32
  scratch : List Byte
  rdDly : Byte
  wrDly : Byte
  vref : Byte
  margin : Byte
  retries : Nat
  held : Bool
  retryAt : Option Nat
deriving DecidableEq, Repr

/-- A die not discovered yet. -/
def Die.absent : Die :=
  { present := false, failed := false, retired := false, alert := false, dbi := false, temp := 0, tempOffset := 0,
    owner := .ok, ownerRec := [], uid := 0, defaults := [0, 0, 0], defects := [], levels := [], op := .none,
    opReqs := [], suspended := false, suspendedAt := 0, suspensions := 0, runSince := 0, ran := 0, sensing := [],
    senseAt := [], busyUntil := 0, drdy := 0, blank := 0, latches := [], status := 0, scratch := [], rdDly := 0, wrDly := 0, vref := 0,
    margin := 0, retries := 0, held := false, retryAt := none }

/-- A burner (06 R193, R204, 08 R251). -/
structure Burner where
  ready : Bool
  retired : Bool
  training : Bool
  trainState : Nat
  failMask : BitVec 10
  quickCount : Nat
  quickBusy : Bool
  fullBusy : Bool
  granted : List MReq
  buffer : List Nat
deriving DecidableEq, Repr

/-- A burner after reset (06 R204). -/
def Burner.fresh : Burner := ⟨false, false, false, 0, 0, 0, false, false, [], []⟩

/-! ### Ladles (08 R233 to R244) -/

/-- State of a ladle way (08 R234). -/
inductive WState where
  | invalid
  | valid
  | held
  | filling
deriving DecidableEq, Repr

/-- A ladle way, keyed by set × 16 + way: state, line DPA[44:6], key slot, data and age (08 R233 to R238). -/
structure Way where
  state : WState
  line : Nat
  keyslot : Nat
  data : Line
  age : Nat
deriving DecidableEq, Repr

/-- An empty way. -/
def Way.empty : Way := ⟨.invalid, 0, 0, 0, 0⟩

/-- A fill entry (08 R234): the line and key slot, and whether it is void. -/
structure FillE where
  line : Nat
  keyslot : Nat
  void : Bool
  way : Option Nat
deriving DecidableEq, Repr

/-- A ladle (08 R233 to R244). -/
structure Ladle where
  enabled : Bool
  clean : Bool
  refused : Bool
  invBusy : Bool
  invFull : Bool
  ways : SMap Way
  fills : SMap FillE
  victims : List (Nat × Nat × Line)
  zeroBusy : Bool
  zeroErr : Bool
  zeroNext : Nat
  zeroLeft : Nat
  zeroKey : Nat
deriving DecidableEq, Repr

/-- A ladle after a start: disabled, not clean, nothing held (08 R240). -/
def Ladle.fresh : Ladle := ⟨false, false, false, false, false, [], [], [], false, false, 0, 0, 0⟩

/-! ### Fault reports (14 R397, R398) -/

/-- A report to the fault ledger: the source code, and the unit charged by type and ID. -/
structure Report where
  source : Nat
  utype : Nat
  uid : Nat
deriving DecidableEq, Repr

end Sys2Proof.Machine
end

