-- ==== Sys2Proof/Machine/BlockTypes.lean ====
section
/-!
DEFINITION. The state of each block of the data path and of the observation blocks, as structures of plain data.
-/

namespace Sys2Proof.Machine

/-- Fuse-held values (00 R6, 16 R459, R464, 19 R519, R529). -/
structure Fuses where
  grade : Grade
  serial : BitVec 64
  step : Byte
  fwMin : Nat
  recipeMin : Nat
  fwKey : BitVec 384
  recipeKeys : List (Option (BitVec 384))
  revoked : BitVec 4
deriving DecidableEq, Repr

/-- The register file of the control window: live values, shadows of staged registers (19 R526), and the `_HI` values
that reads of `_LO` registers latched (19 R521). Keys are control-window offsets; an unlisted live value or shadow is
the house value. -/
structure Regs where
  live : SMap W32
  shadow : SMap W32
  hi : SMap W32
  /-- What the registers that are not clocked in Simmer held at its entry, as the Simmer link and MCTP read them (02 R75): keys are
  the path's number × 2^26 plus the offset, and an unlisted one read 0. Empty outside Simmer. -/
  entry : SMap W32
deriving DecidableEq, Repr

/-- An event on the Event rail: a spike record to be (18 R502, R509). -/
structure Ev where
  code : Nat
  p0 : BitVec 64
  p1 : BitVec 64
  p2 : BitVec 64
  p3 : BitVec 64
deriving DecidableEq, Repr

/-- A dynamic-capacity region: base and length in 256 MiB units (02 R56). -/
structure DcRegion where
  base : Nat
  len : Nat
deriving DecidableEq, Repr

/-- Host ports (02_host_ports.md). -/
structure HostPorts where
  links : SMap Link
  foPort : Nat
  foMoved : Bool
  perst : List Nat
  regions : SMap DcRegion
  gpfWaiting : List Nat
  simmerLink : Nat
  arrivals : Nat
  posted : SMap Nat
  applied : SMap Nat
  nextHeld : Nat
  snpAnswered : Nat
deriving DecidableEq, Repr

/-- The spice rack (10_coherence.md): the directory by set × 16 + way, a count of its uses, the open trackers, the
outstanding snoops, the generation of each BITag index, the conflict queues in order of arrival, the sharing sets, and a
running directory flush with the link it is for. -/
structure Spice where
  dir : SMap DirE
  uses : Nat
  trackers : List Tracker
  nextTracker : Nat
  snoops : List Snp
  gens : SMap Nat
  queue : List CReq
  setMax : Nat
  ssets : List SSet
  ssetFull : Bool
  unownedHi : Bool
  cqFull : Bool
  flushing : Bool
  flushTodo : List (Nat × Option Nat)
deriving DecidableEq, Repr

/-- The ticket rails of 01 R37. Commands on the Lookup, Snoop and Snoop response rails are consumed in the step that
places them, so these rails hold nothing between steps (log entry 11). -/
structure Rails where
  accept : SMap (Rail (BitVec 16))
  lookup : SMap (Rail Nat)
  translate : SMap (Rail TReq)
  mediaReq : SMap (Rail MReq)
  mediaRes : SMap (Rail MRes)
  invalidate : SMap (Rail Nat)
  snoop : SMap (Rail Nat)
  snoopResp : SMap (Rail Nat)
  journal : Rail JRec
  event : Rail Ev
deriving DecidableEq, Repr

/-- The stockpot (03_stockpot.md): among others the plane blocks that hold an open-block parity slot, the contents of the slots
(unlisted: all zero), and the slots lost to an SRAM error (03 R108, 05 R168, R170). -/
structure Stockpot where
  frames : SMap Frame
  pages : SMap Page
  nextPage : Nat
  blockSlots : List Nat
  blockPar : SMap (List Byte)
  blockLost : List Nat
  rr : Nat
  frozen : Bool
  replay : Bool
  hostFullSeen : Bool
deriving DecidableEq, Repr

/-- A flush mark in progress or durable (04 R138): the covered sequence, the cursors, and the on-deck list. -/
structure Mark where
  covered : BitVec 48
  cursors : List Nat
  onDeck : List Nat
deriving DecidableEq, Repr

/-- A checkpoint image: the tables as copied (04 R140, 07 R206). -/
structure Ckpt where
  number : Nat
  loafs : SMap LoafE
  slices : SMap SliceE
  blocksUsed : List Nat
  table : SMap Block
  driftClk : BitVec 32
  opsec : Nat
  retiredMask : BitVec 32
  rebuildState : Nat
  rebuildLeft : Nat
  trims : SMap (List Int)
deriving DecidableEq, Repr

/-- The sieve (04_translation.md): among others whether the retention flops hold the checksum page's checksum, whether the map stacks have
stayed in self-refresh since, and whether the last journal record was a flush mark (R136, R143); when the map load began, and the lookups
that wait for a locked map-stack line (13 R388); and for each set of the entry cache its lines, as map-stack offsets divided by 64, the most
recently used first (R123): the cache is write-through, so a line's contents are those of the stacks. -/
structure Sieve where
  loafs : SMap LoafE
  slices : SMap SliceE
  blocksUsed : List Nat
  seq : BitVec 48
  ready : Bool
  recovering : Bool
  startCase : Nat
  recMs : Nat
  scanned : Nat
  staging : List JRec
  lostStaging : Bool
  recTotal : Nat
  markRecs : Nat
  markPending : Bool
  markSent : Nat
  recordsSinceMark : Nat
  journalBytes : Nat
  journal : List JRec
  pendingRecs : List JRec
  journalSector : Nat
  mark : Option Mark
  markAt : Nat
  markDone : Nat
  ckptNum : Nat
  ckptActive : Bool
  ckptStarted : Nat
  ckptProgress : Nat
  ckptImage : Option Ckpt
  ckptDone : Option Ckpt
  ckptDoneStart : Nat
  ckptPages : Nat
  ckptNext : Nat
  ckptPassed : Nat
  ckptPending : Bool
  sweepAt : Nat
  demote : List Nat
  foldWindow : Nat
  foldCount : Nat
  retention : Bool
  selfRefresh : Bool
  lastMark : Bool
  recAt : Nat
  waiting : List TReq
  cache : SMap (List Nat)
deriving DecidableEq, Repr

/-- A staged or written spike record (18 R502). -/
structure SpikeRec where
  code : Nat
  sev : Nat
  opsec : Nat
  cycles : Nat
  serial : BitVec 32
  p0 : BitVec 64
  p1 : BitVec 64
  p2 : BitVec 64
  p3 : BitVec 64
  suppressed : Nat
deriving DecidableEq, Repr

/-- A page of a flush image: frames, or KIND 8 sectors whose contents the spec lays out no further (03 R113; log entry 94). -/
inductive ImagePage where
  | frames (fs : List (Nat × Frame))
  | metadata
deriving DecidableEq, Repr

/-- A flush image (03 R113, 15 R432, R433): the frames with their tags, the staged spike records, the records the final mark covers, the
last acknowledged numbers, the user data of the marker, the open stripes with their row slots, the block slots, and its pages, in number
and layout. -/
structure FlushImage where
  frames : SMap Frame
  spike : List SpikeRec
  recs : List JRec
  acks : SMap (BitVec 16)
  marker : List Byte
  open_ : List OpenStripe
  blockSlots : List Nat
  blockPar : SMap (List Byte)
  blockLost : List Nat
  pages : Nat
  layout : List ImagePage
deriving DecidableEq, Repr

/-- A class C rebuild under way (07 R218): the read it serves, its stripe, whether a failed tag started it and which (12 R363),
the members of the row whose codewords are still to come and those lost, by burner, whether the second parity member has been asked
for, and the sectors that some member's read brought wrong. -/
structure Rebuild where
  req : MReq
  stripe : Nat
  tagged : Bool
  bad : BitVec 16
  waits : List Nat
  lost : List Nat
  asked : Bool
  spoiled : BitVec 16
deriving DecidableEq, Repr

/-- The media as the device uses it: sectors programmed, parity pages by sector address / 64, class C rebuilds under way, the rows
that an unclean loss left open, the block table, the reads in flight per plane block (01 R33),
open stripes, the stripes on deck and those whose members are being reset, plane blocks whose mirror is due, inner-ring positions per die, ring blocks being reset, the blocks of the replayed flush area still to be reset and the two flush areas (05_media_layout.md). -/
structure Media where
  formatted : Bool
  dies : Nat
  formatSeq : BitVec 48
  sectors : SMap Sector
  parity : SMap ParPage
  rebuilds : SMap Rebuild
  nextJob : Nat
  unsealed : List (Nat × Nat)
  table : SMap Block
  inflight : SMap Nat
  openStripes : List OpenStripe
  onDeck : List Nat
  resetting : SMap (List Nat)
  mirrorDue : List Nat
  ringNext : SMap Nat
  ringReset : List Nat
  areaReset : List Nat
  flushArea : SMap FlushImage
  flushReset : BitVec 2
  flushUse : Nat
  moved : SMap Nat
deriving DecidableEq, Repr

/-- A stripe queued for the scraper with its precedence (07 R209). -/
structure Forced where
  prec : Nat
  stripe : Nat
deriving DecidableEq, Repr

/-- Upkeep (07_upkeep.md). -/
structure Upkeep where
  forced : List Forced
  victim : Option Nat
  victimPrec : Nat
  victimRead : List Nat
  withdrawing : List Nat
  rebuilt : List Nat
  lastV : Nat
  lastPages : Nat
  sinceWear : Nat
  credit : Nat
  driftClk : BitVec 32
  driftAt : Nat
  capAlert : Bool
  pantry : Bool
  retiredMask : BitVec 32
  rebuildState : Nat
  rebuildLeft : Nat
  lastRetired : Nat
  rebuildBytes : Nat
  withdrawn : Nat
  govWindow : Nat
  govSpent : Nat
  governed : Bool
  governedLast : Bool
  wa : List (Nat × Nat × Nat)
  patrolStripe : Nat
  patrolPos : Nat
  patrolFast : Bool
  patrolStarted : Nat
  patrolDone : Nat
  patrolRestart : Bool
  catchup : Bool
  trims : SMap (List Int)
  rlt : SMap (List Int)
  warnCounts : SMap Nat
  calib : Option (Nat × Nat × Nat)
  spareLow : Bool
  sealQueue : List (Nat × Nat)
  refreshQueued : List Nat
  seals : SMap Nat
  sealFails : SMap (List Nat)
  repairs : List (Nat × Bool)
  wiping : List Nat
deriving DecidableEq, Repr

/-- The pass (08 R248 to R254): waiting requests per lane, in order of entry, and the masks. -/
structure Pass where
  lanes : SMap (List MReq)
  maskBrn : BitVec 32
  maskLink : BitVec 32
  maskWsk : BitVec 64
  maskOther : List Requester
  nextReq : Nat
deriving DecidableEq, Repr

/-- A counter or histogram bin (18 R495, R496). -/
structure Counter where
  val : Nat
  sat : Bool
  invalid : Bool
  incomplete : Bool
deriving DecidableEq, Repr

/-- A counter that has counted nothing. -/
def Counter.zero : Counter := ⟨0, false, false, false⟩

/-- The tallies and histograms (18 R491 to R501). -/
structure Tallies where
  counters : SMap Counter
  bins : SMap Counter
  hmax : SMap Nat
  snap : SMap Counter
  sbins : SMap Counter
  snapSerial : Nat
  /-- The time up to which elapsed time has been counted (R492, codes 0x013, 0x014, 0x080, 0x081; log entry 45). -/
  since : Nat
deriving DecidableEq, Repr

/-- A limiter entry (18 R504): the combination, when it was last staged and the repeats since. -/
structure Limit where
  code : Nat
  p0 : BitVec 64
  p1 : BitVec 64
  at' : Nat
  repeats : Nat
deriving DecidableEq, Repr

/-- The spike (18 R502 to R515): staged records, the pages being written, the ring by slot, and the records held until
the ring position is found (R505). -/
structure Spike where
  staged : List SpikeRec
  ring : SMap SpikeRec
  oldest : BitVec 32
  next : BitVec 32
  lost : Nat
  lostPending : Nat
  limits : List Limit
  ringOk : Bool
  clearing : Bool
  writing : Nat
  waiting : List Ev
  readSerial : Option SpikeRec
  missing : Bool
deriving DecidableEq, Repr

/-- Operating time (18 R503): seconds counted up to `since`, when the core is out of reset, and the power cycles. -/
structure Clocks where
  base : Nat
  running : Bool
  since : Nat
  cycles : Nat
  /-- When the root PLL stopped, while it is stopped (15 R437 step 4). -/
  rootOff : Option Nat
  /-- The ticks it has been stopped before: the fabric does not count them (00 R7). -/
  rootLost : Nat
deriving DecidableEq, Repr

/-- A temperature sensor (17 R476 to R481): its own last reading and the value used for it, in 1/16 °C; its band; the
consecutive rounds it disagreed; whether it is broken. Keys are group × 1024 + index. -/
structure Sensor where
  raw : Int
  val : Int
  band : Nat
  streak : Nat
  broken : Bool
deriving DecidableEq, Repr

/-- The thermal block and the housekeeping round (17_thermal_and_round.md). -/
structure Thermal where
  sensors : SMap Sensor
  devBand : Nat
  meanBand : Nat
  meanMedia : Option Int
  hot : Int
  hotGroup : Nat
  hotIndex : Nat
  throttle : Bool
  overRated : Bool
  groupDegraded : Bool
  trips : Nat
  rounds : Nat
  roundAt : Nat
  overruns : Nat
  calWindow : Nat
  calUse : SMap Nat
  calLast : Nat
  calBurner : Nat
  test : Nat
  target : Nat
  testState : Nat
  testResult : Nat
  deferred : List (Nat × Nat)
  trimQueue : List Nat
deriving DecidableEq, Repr

/-- The fault ledger (14_faults_and_recovery.md). Units are keyed by type × 2^32 + ID (R397). -/
structure Ledger where
  trans : SMap (List Nat)
  laneRetry : SMap (Nat × Nat)
  inPlace : List Nat
  blocks : Nat
  dieBlocks : SMap Nat
  lanes : List Nat
  stwRetired : BitVec 12
  stwTimes : SMap (List Nat)
  stwRestarts : Nat
  rows : List Nat
  lines : List Nat
  exhausted : Bool
  entries : List (Nat × Nat × Nat)
  regionSeq : BitVec 32
  writing : Option (List (Nat × Nat × Nat))
  epochs : SMap W32
  unavail : Nat
  outageAt : Option Nat
  countedTo : Nat
  degraded : Bool
deriving DecidableEq, Repr

/-- A key slot (12 R355, R371): state 0 EMPTY, 1 LOADED, 2 FAILED, 3 reserved; its generation; the identity of its key;
whether a vault write that concerns it is pending. -/
structure KeySlot where
  state : Nat
  gen : BitVec 16
  keyId : Nat
  pending : Bool
deriving DecidableEq, Repr

/-- An empty key slot. -/
def KeySlot.empty : KeySlot := ⟨0, 0, 0, false⟩

/-- A whisk descriptor (11 R335). -/
structure WDesc where
  op : Nat
  irq : Bool
  width : Nat
  pred : Nat
  fieldOff : Nat
  src : Nat
  dst : Nat
  length : Nat
  value : BitVec 64
  mask : BitVec 64
  stride : Nat
  listMax : Nat
deriving DecidableEq, Repr

/-- A whisk write that waits for acceptance. -/
structure WWrite where
  line : Nat
  data : Line
  mask : Mask
  keyslot : Nat
deriving DecidableEq, Repr

/-- A doorbell write that waits for the writes its link had committed before it (11 R337): 0 TAIL with its value, 1 RESUME,
2 TLB_INV; the link and the arrival numbers it waits for. -/
structure Bell where
  kind : Nat
  value : BitVec 32
  link : Nat
  waits : List Nat
deriving DecidableEq, Repr

/-- A whisk context (11 R334 to R345): its state code, indices, fault fields, progress and the running state of the
descriptor at HEAD; its writes not yet accepted; the outcome once its last chunk is done (STATUS and result), and whether
the completion word is written; what it was asked to do at the next chunk boundary; the coherent lines granted to its
chunk; the lines its chunk's reads still wait for, those that have returned, the fault kind a read
ended in, the key slot of each line, the lines whose lookup found masked bytes in the stockpot and the sector each is read
from; the ladle invalidations its completion waits for; whether its chunk's reads are
issued, the loaf and key slot of the chunk's pages, and the doorbells that wait. `began` is the PROGRESS once the queued
writes are accepted. `aside` is the table or ring line, with its key slot, that the context reads or has read for a translation or
a descriptor fetch, in `need`, `got` and `bad` as a chunk's lines are; `starting` the operation of the command that a descriptor
fetch under way serves. -/
structure Ctx where
  state : Nat
  head : BitVec 32
  tail : BitVec 32
  kind : Nat
  ringErr : Bool
  tableErr : Bool
  saveErr : Bool
  stopCause : Nat
  tailErr : Bool
  faultCwa : Nat
  progress : Nat
  desc : Option WDesc
  crc : BitVec 32
  found : Nat
  writes : List WWrite
  done : Option (Nat × Nat)
  posted : Bool
  pausing : Bool
  tlbInv : Bool
  granted : List Nat
  began : Nat
  need : List Nat
  got : SMap Line
  bad : Nat
  slots : SMap Nat
  masked : List Nat
  reads : SMap Nat
  marks : List Nat
  issued : Bool
  pages : SMap (Nat × Nat)
  bells : List Bell
  aside : Option (Nat × Nat)
  starting : Option Nat
  fetched : Nat
deriving DecidableEq, Repr

/-- A disabled context (11 R351). -/
def Ctx.fresh : Ctx :=
  { state := 0, head := 0, tail := 0, kind := 0, ringErr := false, tableErr := false, saveErr := false, stopCause := 0,
    tailErr := false, faultCwa := 0, progress := 0, desc := none, crc := 0, found := 0, writes := [], done := none,
    posted := false, pausing := false, tlbInv := false, granted := [], began := 0, need := [], got := [], bad := 0, slots := [],
    masked := [], reads := [], marks := [],
    issued := false, pages := [], bells := [], aside := none, starting := none, fetched := 0 }

/-- A whisk channel (11 R326, R327, R333, R343): halted, held in reset, its running or last-run slot, and its cached
translations (slot, page, entry), youngest last. -/
structure Chan where
  halted : Bool
  held : Bool
  slot : Nat
  tlb : List (Nat × Nat × BitVec 64)
deriving DecidableEq, Repr

/-- A channel after a start. -/
def Chan.fresh : Chan := ⟨false, false, 0, []⟩

/-- A change of the vault that waits for its copy (12 R358, R359, R369, R371, R372): a slot generated or erased, the owner
secret, the latch set or cleared, a damaged copy rewritten, every key regenerated (Secure Erase), every EMPTY slot generated
(format). -/
inductive KeyWork where
  | generate (slot keyId : Nat)
  | erase (slot : Nat)
  | secret (bytes : List Byte)
  | latch (cause : Nat)
  | clear (action : Nat)
  | rewrite
  | regenerate
  | generateAll
deriving DecidableEq, Repr

/-- A vault write that is pending: its work and the command to answer, if any. -/
structure VaultJob where
  work : KeyWork
  path : Option Path
  opcode : Nat
deriving DecidableEq, Repr

/-- A vault copy's contents (12 R358): the slots, the lid-down latch and the owner secret. -/
structure Vault where
  slots : SMap KeySlot
  latch : Nat
  secret : Option (List Byte)
deriving DecidableEq, Repr

/-- The device keys (12 R357): the metadata XTS pair, the metadata and data integrity keys, the vault key. -/
structure DevKeys where
  mdData : List Byte
  mdTweak : List Byte
  mdTag : List Byte
  dataTag : List Byte
  vault : List Byte
deriving DecidableEq, Repr

/-- Protection (12_protection.md): lid down and its cause, the alarm counts, the counted failures (times) and the last 64
counted slices (R367), the owner secret, the nonce and the authorisation lockout (R370), the vault copies and the writes
pending on them (R358), each link's SPDM session (R374): 0 none, 1 version known, 2 capabilities known, 3 negotiated, 4 key
exchange, 5 secure; and each link's IDE keys, as stream × 8 + key set × 4 + direction × 2 (1 transmit), plus 1 where the key set
is in use. -/
structure Prot where
  lid : Bool
  cause : Nat
  integrity : Nat
  other : Nat
  counted : List Nat
  lastSlices : List Nat
  keysReady : Bool
  keys : DevKeys
  secret : Option (List Byte)
  nonce : Option (List Byte)
  nonceAt : Nat
  authFails : Nat
  lockedUntil : Option Nat
  rawBlocked : Nat
  vaultA : Bool
  vaultB : Bool
  vaultNewB : Bool
  vaultSeq : Nat
  jobs : List VaultJob
  doe : SMap Nat
  ideKeys : SMap (List Nat)
deriving DecidableEq, Repr

/-- The power states (15 R436). -/
inductive PState where
  | cold
  | ramping
  | starting
  | boil
  | simmer
  | flush
  | shutdown
  | fault
deriving DecidableEq, Repr

/-- The code of a power state (15 R436). -/
def PState.code : PState → Nat
  | .cold => 0
  | .ramping => 1
  | .starting => 2
  | .boil => 3
  | .simmer => 4
  | .flush => 5
  | .shutdown => 6
  | .fault => 7

/-- A commit of the staged registers (16 R471 to R473): its result code, whether it quiesced ports, the last quiesce time
in 0.1 µs, its serial; while it is pending, who wrote its key and when, the ports that quiesce, and the values it applies;
the register writes and the host requests that wait for its end. -/
structure Commit where
  pending : Bool
  by_ : Option Path
  result : Nat
  span : Bool
  quiesce : Nat
  serial : BitVec 8
  since : Nat
  ports : List Nat
  changes : SMap W32
  waiting : List Bar0Write
  requests : List MemReq
deriving DecidableEq, Repr

/-- A mailbox command that has not answered yet, with the data its meaning needs to end it; `bg` once Background Command
Started has been returned (02 R63). -/
structure MbxRun where
  path : Path
  opcode : Nat
  since : Nat
  bg : Bool
  args : List Nat
  rest : List Byte
deriving DecidableEq, Repr

/-- The result of a path's last background command (02 R63). -/
structure BgDone where
  path : Path
  opcode : Nat
  rc : Nat
deriving DecidableEq, Repr

/-- What the standard mailbox commands keep (02 R61, R64): the time of day set and when; the label storage area; the alert
configuration; the shutdown state; the commands running, and the results of background commands; the media errors of the
last scan; a firmware transfer in progress. -/
structure Mailbox where
  timeSet : Nat
  timeAt : Nat
  lsa : List Byte
  alerts : List Byte
  shutdown : Byte
  runs : List MbxRun
  done : List BgDone
  scan : List (Nat × Nat)
  xferSlot : Nat
  xfer : List Byte
deriving DecidableEq, Repr

/-- The counts of one instance of a memory domain (13 R383, R384, R396). -/
structure MecCount where
  ce : Nat
  ue : Nat
  level : Nat
  overflows : Nat
  lastLeak : Nat
  lastOff : Nat
  pos0 : Nat
  pos1 : Nat
deriving DecidableEq, Repr

/-- Counts of an instance with no error yet. -/
def MecCount.zero : MecCount := ⟨0, 0, 0, 0, 0, 0, 0x7F, 0x7F⟩

/-- A scrub (13 R393, R394): whether it runs and since when, for a mailbox path or the register, its range and its
results; the list holds (offset, action). -/
structure Scrub where
  busy : Bool
  since : Nat
  path : Option Path
  domain : Nat
  inst : Nat
  start : Nat
  len : Nat
  full : Bool
  aborted : Bool
  refused : Bool
  words : Nat
  corrected : Nat
  bad : Nat
  first : Option Nat
  last : Option Nat
  list : List (Nat × Nat)
deriving DecidableEq, Repr

/-- Memory integrity (13_memory_integrity.md): counts per instance (domain × 8 + instance), the test rows and the words
that a raw write stored, by key, as 78 bits; the scrub; map-stack lines locked for reconstruction, by map-stack offset >>
6; the result of the last test access. -/
structure Mec where
  counts : SMap MecCount
  words : SMap (BitVec 78)
  scrub : Scrub
  locked : List Nat
  refused : Bool
  result : Nat
  pos0 : Nat
  pos1 : Nat
  ceSat : Bool
  leaks : SMap Nat
  satSeen : Bool
  unknown : List Nat
deriving DecidableEq, Repr

/-- A rail's regulator and its watch (15 R416 to R424); `dropping` while its enable has been lowered and it is not off yet. -/
structure PRail where
  enabled : Bool
  dropping : Bool
  good : Bool
  qualified : Bool
  since : Nat
  goodAt : Nat
  requal : Nat
  mode : Byte
  status : BitVec 16
  sub : SMap Byte
  vin : BitVec 16
  vout : Nat
  iout : Nat
  temp : BitVec 16
  rev : Byte
deriving DecidableEq, Repr

/-- A rail that is off. -/
def PRail.off : PRail := ⟨false, false, false, false, 0, 0, 0, 0, 0, [], 0, 0, 0, 0, 0⟩

/-- A Yulvoga slave as the master knows it (15 R446, R450). -/
structure YvSlave where
  status : List Byte
  present : Bool
  lost : Bool
  misses : Nat
deriving DecidableEq, Repr

/-- A slave that has not answered. -/
def YvSlave.none : YvSlave := ⟨[], false, false, 0⟩

/-- The power block (15_power.md). Voltages in 10 mV, capacitance in µF. -/
structure Power where
  rails : SMap PRail
  vaux : Bool
  vauxLost : Nat
  supply : Nat
  supplyOk : Bool
  supplyGoodAt : Nat
  kettle : Nat
  hold : Nat
  cap : Nat
  capAt : Nat
  charging : Bool
  testing : Bool
  v0 : Nat
  testAt : Nat
  testReq : Bool
  test : Nat
  armed : Bool
  writeHold : Bool
  weak : Bool
  fault : Bool
  flushReq : Bool
  cause : Nat
  flushAt : Nat
  fromSimmer : Bool
  flushPhase : Nat
  abandoned : Bool
  lastCause : Nat
  lastClean : Bool
  lastSimmer : Bool
  lastDuration : Nat
  latched : Bool
  code : Nat
  rail : Nat
  pmbStatus : BitVec 16
  offHeld : Bool
  coldAt : Nat
  frameAt : Nat
  yvAddr : Nat
  yvStatus : Nat
  slaves : SMap YvSlave
  respStatus : Nat
  respResult : Nat
  yvLastOn : Nat
  yvLastAddr : Nat
  powerOn : Bool
  tripRounds : Nat
deriving DecidableEq, Repr

/-- A firmware image in a slot: its revision, security version, and whether it is valid but for the fused minimum (16
R458). -/
structure FwImage where
  revision : List Byte
  secver : Nat
  key : BitVec 384
  ok : Bool
deriving DecidableEq, Repr

/-- An entry of a recipe (16 R463). -/
structure RecipeEntry where
  off : Nat
  kind : Nat
  mask : W32
  value : W32
deriving DecidableEq, Repr

/-- A recipe copy (16 R462, R464): its header fields, entries, and how its key and signature stand. -/
structure Recipe where
  format : Bool
  grade : Nat
  dies : Nat
  seq : Nat
  secver : Nat
  key : BitVec 384
  sigOk : Bool
  entries : List RecipeEntry
deriving DecidableEq, Repr

/-- The boot state (16 R457). -/
structure BootState where
  activeFw : Nat
  pendingFw : Nat
  tries : Nat
  activeRecipe : Nat
  pendingRecipe : Nat
deriving DecidableEq, Repr

/-- The boot state of two erased copies. -/
def BootState.erased : BootState := ⟨1, 0, 0, 0, 0⟩

/-- What the SPI NOR holds (16 R456): the firmware slots, the recipe copies, two copies each of the key vault, of the
ledger region and of the boot state, every copy with its sequence number; and the copy writes under way, oldest first, by
kind (0 vault, 1 ledger region, 2 boot state). -/
structure Nor where
  fw1 : Option FwImage
  fw2 : Option FwImage
  recipeA : Option Recipe
  recipeB : Option Recipe
  vaultA : Option (Nat × Vault)
  vaultB : Option (Nat × Vault)
  vaultBadA : Bool
  vaultBadB : Bool
  ledgerA : Option (Nat × List (Nat × Nat × Nat))
  ledgerB : Option (Nat × List (Nat × Nat × Nat))
  bootA : Option (Nat × BootState)
  bootB : Option (Nat × BootState)
  writes : List Nat
  sizeLog2 : Nat
  mode : Nat
deriving DecidableEq, Repr

/-- What the device does on its own, step by step, while no command waits (log entry 1): nothing, a start, the pre-reset
phase of a warm reset, Simmer entry, Flush. -/
inductive Seqr where
  | idle
  | start
  | preReset
  | simmer (path : Path)
  | flush
deriving DecidableEq, Repr

/-- Starts (16_bring_up.md): the sequencer; the step and kind of the last start, when it began, whether it is ready, its
time and whether it passed its bound; the boot state in use; the running slot and its confirmation; the recipe's result;
whether memory is presented; the time BOIL was entered; the Dirty Shutdown Count and the flushes since format; whether an
alarm stops the start (12 R369). -/
structure Boot where
  seq : Seqr
  step : Nat
  warm : Bool
  began : Nat
  ready : Bool
  slow : Bool
  ms : Nat
  state : BootState
  running : Nat
  confirmed : Bool
  result : Nat
  copy : Nat
  skipped : Nat
  applied : Nat
  noMemory : Bool
  boilAt : Nat
  trapped : Bool
  dirty : Nat
  flushes : Nat
  unclean : Bool
  mapKept : Bool
  recipeRefused : List Nat
  accessErr : W32
  tap : Nat
  smbAddr : Nat
  simmerAt : Nat
  blocked : Bool
  readKey : Nat
  trains : Nat
deriving DecidableEq, Repr

/-- The stewards (14 R409, R410, 19 R530): the state of each core (0 running, 1 restarting, 2 retired, 3 held) and its
restarts. -/
structure Stewards where
  state : SMap Nat
  restarts : SMap Nat
deriving DecidableEq, Repr

end Sys2Proof.Machine
end

