-- ==== Sys2Proof/Machine/State.lean ====
section
/-!
DEFINITION. The state of the block as plain data, its state right after reset, what the block sends, and the reasons a
step can stop.
-/

namespace Sys2Proof.Machine

/-- Why a step stops with a fault. No command of this block faults: an error is an effect on the state (a flag, a
record, a return code, poison). The type is closed and no constructor of it is raised. -/
inductive Fault where
  /-- Raised by no command; safe. -/
  | none_
deriving DecidableEq, Repr

/-- Why a step is refused. -/
inductive Refusal where
  /-- The command has no meaning in the model: raised by an arm of `exec` that stands for it. Safe: nothing can be
  proved of a run through it. -/
  | notModelled (mnemonic : String)
deriving DecidableEq, Repr

/-- What the block sends to the world outside it. -/
inductive Output where
  /-- A completion without data on a link (S2M NDR): 0 Cmp, 1 Cmp-S, 2 Cmp-E, 3 BIConflictAck. -/
  | cmp (link tag kind : Nat)
  /-- Read data on a link (S2M DRS), with the completion kind that goes with it. -/
  | data (link tag : Nat) (line : Line) (poison : Bool) (kind : Nat)
  /-- A back-invalidate snoop: 0 BISnpCur, 1 BISnpData, 2 BISnpInv, with its HPA and BITag. -/
  | snoop (link kind hpa tag : Nat)
  /-- An MSI-X message. -/
  | msix (link vector : Nat)
  /-- The answer to a BAR0 read. -/
  | regRead (path : Path) (words : List W32)
  /-- The answer to an MCTP vendor register command: command, completion, words. -/
  | mctp (cmd completion : Nat) (words : List W32)
  /-- The answer to a mailbox command: opcode, CXL return code, output payload. -/
  | mailbox (path : Path) (opcode rc : Nat) (payload : List Byte)
  /-- A background command started on a mailbox. -/
  | background (path : Path) (opcode : Nat)
  /-- A GPF phase response on a link. -/
  | gpf (link phase : Nat)
  /-- A command frame sent to a die: burner, chip enable and the frame's words. -/
  | die (burner ce : Nat) (words : List Nat)
  /-- Data sent to a die after a frame: the byte lanes as they are driven, and the DBI bit of each where DBI is enabled (06 R181). -/
  | dieData (burner ce : Nat) (bytes : List Byte) (dbi : List Bool)
  /-- An SPDM or IDE key-management answer over DOE. -/
  | doe (link : Nat) (code : Nat) (bytes : List Byte)
  /-- A PMBus command sent to a regulator: rail, command code, data. -/
  | pmbus (rail code data : Nat)
  /-- A Yulvoga frame sent: its bytes. -/
  | yulvoga (bytes : List Byte)
  /-- An output pin driven: its name in spec/20 and its level. -/
  | pin (name : String) (level : Bool)
  /-- A CXL event record posted to a link's log. -/
  | event (link log : Nat) (bytes : List Byte)
  /-- The answer to a raw access (12 R373): whether on the debug port, the user bytes, the spare and code parity bytes of a media
  read, and poison. -/
  | raw (debug : Bool) (user spare : List Byte) (poison : Bool)
  /-- The identification code that IDCODE puts in the scan path of the TAP (20 R550). -/
  | tdo (word : W32)
  /-- The answer to a fence read: link and status word. -/
  | fence (link : Nat) (word : W32)
deriving DecidableEq, Repr

/-- The state of the block. -/
structure State where
  /-- The commands that wait, first in first out. -/
  pending : List Instr
  /-- Time in ticks of 1/12 ns (log entry 1). -/
  now : Nat
  /-- The number of free values drawn so far (log entry 2). -/
  free : Nat
  /-- What the block has sent, newest last (log entry 3). -/
  out : List Output
  fuses : Fuses
  regs : Regs
  ports : HostPorts
  loads : SMap Load
  nextLoad : Nat
  rails : Rails
  stk : Stockpot
  siv : Sieve
  med : Media
  dies : SMap Die
  burners : SMap Burner
  upk : Upkeep
  pass : Pass
  ladles : SMap Ladle
  spr : Spice
  ctxs : SMap Ctx
  chans : SMap Chan
  tly : Tallies
  spk : Spike
  clk : Clocks
  thm : Thermal
  flt : Ledger
  /-- Fault reports the ledger has not taken yet (14 R398). -/
  reports : List Report
  /-- The key slots (12 R355). -/
  slots : SMap KeySlot
  prot : Prot
  /-- The power state (15 R436). -/
  pwrState : PState
  /-- Whether firmware runs in recovery mode (16 R460). -/
  recovery : Bool
  /-- The hooks (09 R283); an unlisted one is as after a start. -/
  hooks : SMap Hook
  cmt : Commit
  mbx : Mailbox
  mec : Mec
  pwr : Power
  nor : Nor
  boot : Boot
  stw : Stewards
deriving DecidableEq, Repr

/-- The state right after reset. -/
def State.reset : State :=
  { pending := [], now := 0, free := 0, out := []
    fuses := { grade := .g30, serial := 0, step := 0, fwMin := 0, recipeMin := 0, fwKey := 0
               recipeKeys := [some 0, none, none, none], revoked := 0 }
    regs := ⟨[], [], [], []⟩
    ports := { links := [], foPort := 0, foMoved := false, perst := [], regions := [], gpfWaiting := [],
               simmerLink := 0, arrivals := 0, posted := [], applied := [], nextHeld := 0, snpAnswered := 0 }
    loads := [], nextLoad := 0
    rails := { accept := [], lookup := [], translate := [], mediaReq := [], mediaRes := [], invalidate := [],
               snoop := [], snoopResp := [], journal := .empty, event := .empty }
    stk := { frames := [], pages := [], nextPage := 0, blockSlots := [], blockPar := [], blockLost := [], rr := 0, frozen := true, replay := false,
             hostFullSeen := false }
    siv := { loafs := [], slices := [], blocksUsed := [], seq := 0, ready := false, recovering := false,
             startCase := 0, recMs := 0, scanned := 0, staging := [], lostStaging := false, recTotal := 0, markRecs := 0, markPending := false, markSent := 0,
             recordsSinceMark := 0, journalBytes := 0,
             journal := [], pendingRecs := [], journalSector := 0, mark := none, markAt := 0, markDone := 0, ckptNum := 0,
             ckptActive := false, ckptStarted := 0, ckptProgress := 0, ckptImage := none, ckptDone := none,
             ckptDoneStart := 0, ckptPages := 0, ckptNext := 0, ckptPassed := 0, ckptPending := false, sweepAt := 0,
             demote := [], foldWindow := 0, foldCount := 0, retention := false, selfRefresh := false, lastMark := false, recAt := 0, waiting := [], cache := [] }
    med := { formatted := false, dies := 0, formatSeq := 0, sectors := [], parity := [], rebuilds := [], nextJob := 0, unsealed := [], table := [], inflight := [],
             openStripes := [], onDeck := [], resetting := [], mirrorDue := [], ringNext := [], ringReset := [], areaReset := [], flushArea := [],
             flushReset := 3, flushUse := 0, moved := [] }
    dies := [], burners := []
    upk := { forced := [], victim := none, victimPrec := 0, victimRead := [], withdrawing := [], rebuilt := [], lastV := 1, lastPages := 2, sinceWear := 0,
             credit := 0, driftClk := 0, driftAt := 0, capAlert := false, pantry := false, retiredMask := 0, rebuildState := 0,
             rebuildLeft := 0, lastRetired := 0, rebuildBytes := 0, withdrawn := 0, govWindow := 0, govSpent := 0,
             governed := false, governedLast := false, wa := [], patrolStripe := 0, patrolPos := 0, patrolFast := false,
             patrolStarted := 0, patrolDone := 0, patrolRestart := false, catchup := false, trims := [], rlt := [],
             warnCounts := [], calib := none, spareLow := false, sealQueue := [], refreshQueued := [], seals := [],
             sealFails := [], repairs := [], wiping := [] }
    pass := { lanes := [], maskBrn := 0xFFFFFFFF, maskLink := 0xFFFFFFFF, maskWsk := 0xFFFFFFFFFFFFFFFF,
              maskOther := [], nextReq := 0 }
    ladles := []
    spr := { dir := [], uses := 0, trackers := [], nextTracker := 0, snoops := [], gens := [], queue := [], setMax := 0,
             ssets := [], ssetFull := false, unownedHi := false, cqFull := false, flushing := false, flushTodo := [] }
    ctxs := [], chans := []
    tly := { counters := [], bins := [], hmax := [], snap := [], sbins := [], snapSerial := 0, since := 0 }
    spk := { staged := [], ring := [], oldest := 0, next := 0, lost := 0, lostPending := 0, limits := [],
             ringOk := false, clearing := false, writing := 0, waiting := [], readSerial := none, missing := false }
    clk := { base := 0, running := true, since := 0, cycles := 0, rootOff := none, rootLost := 0 }
    thm := { sensors := [], devBand := 0, meanBand := 0, meanMedia := none, hot := 0, hotGroup := 0, hotIndex := 0,
             throttle := false, overRated := false, groupDegraded := false, trips := 0, rounds := 0, roundAt := 0, overruns := 0,
             calWindow := 0, calUse := [], calLast := 0, calBurner := 0, test := 0, target := 0, testState := 0,
             testResult := 0, deferred := [], trimQueue := [] }
    flt := { trans := [], laneRetry := [], inPlace := [], blocks := 0, dieBlocks := [], lanes := [], stwRetired := 0,
             stwTimes := [], stwRestarts := 0, rows := [], lines := [], exhausted := false, entries := [],
             regionSeq := 0, writing := none, epochs := [], unavail := 0, outageAt := none, countedTo := 0,
             degraded := false }
    reports := []
    slots := []
    prot := { lid := false, cause := 0, integrity := 0, other := 0, counted := [], lastSlices := [],
              keysReady := false, keys := ⟨[], [], [], [], []⟩, secret := none, nonce := none, nonceAt := 0, authFails := 0, lockedUntil := none,
              rawBlocked := 0, vaultA := false, vaultB := false, vaultNewB := false, vaultSeq := 0, jobs := [],
              doe := [], ideKeys := [] }
    pwrState := .starting, recovery := false
    hooks := []
    cmt := { pending := false, by_ := none, result := 0, span := false, quiesce := 0, serial := 0, since := 0, ports := [], changes := [],
             waiting := [], requests := [] }
    mbx := { timeSet := 0, timeAt := 0, lsa := [], alerts := [], shutdown := 0, runs := [], done := [], scan := [],
             xferSlot := 0, xfer := [] }
    mec := { counts := [], words := []
             scrub := { busy := false, since := 0, path := none, domain := 0, inst := 0, start := 0, len := 0,
                        full := false, aborted := false, refused := false, words := 0, corrected := 0, bad := 0,
                        first := none, last := none, list := [] }
             locked := [], refused := false, result := 0, pos0 := 0x7F, pos1 := 0x7F, ceSat := false, leaks := [],
             satSeen := false, unknown := [] }
    pwr := { rails := (List.range 8).map (fun i => (i, { PRail.off with enabled := true, good := true, qualified := true }))
             vaux := true, vauxLost := 0, supply := 0, supplyOk := false, supplyGoodAt := 0, kettle := 0, hold := 0,
             cap := 0, capAt := 0, charging := false, testing := false, v0 := 0, testAt := 0, testReq := false,
             test := 0, armed := false, writeHold := false, weak := false, fault := false, flushReq := false,
             cause := 0, flushAt := 0, fromSimmer := false, flushPhase := 0, abandoned := false, lastCause := 0,
             lastClean := false, lastSimmer := false, lastDuration := 0, latched := false, code := 0, rail := 0,
             pmbStatus := 0, offHeld := false, coldAt := 0, frameAt := 0, yvAddr := 0, yvStatus := 0, slaves := [],
             respStatus := 0, respResult := 0, yvLastOn := 0, yvLastAddr := 0, powerOn := false, tripRounds := 0 }
    nor := { fw1 := none, fw2 := none, recipeA := none, recipeB := none, vaultA := none, vaultB := none, vaultBadA := false, vaultBadB := false,
             ledgerA := none, ledgerB := none, bootA := none, bootB := none, writes := [], sizeLog2 := 0, mode := 0 }
    boot := { seq := .start, step := 0, warm := false, began := 0, ready := false, slow := false, ms := 0,
              state := .erased, running := 0, confirmed := false, result := 1, copy := 0, skipped := 0, applied := 0,
              noMemory := false, boilAt := 0, trapped := false, dirty := 0, flushes := 0, unclean := false,
              mapKept := false, recipeRefused := [], accessErr := 0, tap := 1, smbAddr := 0, simmerAt := 0, blocked := false, readKey := 0, trains := 0 }
    stw := { state := (List.range 12).map (fun c => (c, 3)), restarts := [] } }

end Sys2Proof.Machine
end

