-- ==== Sys2Proof/Machine/Ops.lean ====
section
/-!
DEFINITION. The named operations every meaning is written over: messages out, free values, time, registers, ticket
rails, links, frames, map entries, sectors and blocks.
-/

namespace Sys2Proof.Machine

/-! ### Messages, free values, time -/

/-- Sends a message. -/
def State.emit (s : State) (o : Output) : State := { s with out := s.out ++ [o] }

/-- Draws the number of a free value (log entry 2). -/
def State.draw (s : State) : Nat × State := (s.free, { s with free := s.free + 1 })

/-- Moves the clock to a due time that has come (log entry 13). -/
def State.reach (s : State) (due : Nat) : State := { s with now := max s.now due }

/-- Fabric cycles counted so far (00 R7, R8): none while the root PLL is stopped. -/
def State.fc (s : State) : Nat := ((s.clk.rootOff.getD s.now) - s.clk.rootLost) / Config.ticksPerFc s.fuses.grade

/-- The root PLL stops (15 R437 step 4). -/
def State.rootStop (s : State) : State := { s with clk := { s.clk with rootOff := some s.now } }

/-- The root PLL runs again, from Simmer (15 R438 step 2, log entry 96). -/
def State.rootStart (s : State) : State :=
  { s with clk := { s.clk with rootOff := none, rootLost := s.clk.rootLost + (s.now - s.clk.rootOff.getD s.now) } }

/-- Whether the domains of the root PLL are stopped, so that the fabric, the stewards and the burners do nothing (01 R20). -/
def State.unclocked (s : State) : Bool := decide (s.pwrState = .simmer)

/-- Whether the burners' clocks are off: in Simmer, but for a deferred full training, whose clocks are on (17 R487). -/
def State.burnersStopped (s : State) : Bool := s.unclocked && !(decide (s.thm.testState = 1) && decide (s.thm.test = 0x11))

/-- The operating seconds (18 R503). -/
def State.opsec (s : State) : Nat :=
  sat 40 (s.clk.base + if s.clk.running then (s.now - s.clk.since) / Config.sec else 0)

/-! ### Registers -/

/-- The live value of a register. -/
def State.getLive (s : State) (p : RPage) (o : Nat) : W32 :=
  s.regs.live.getD (p.base + o) (p.house s.fuses.grade o)

/-- Writes the live value of a register. -/
def State.setLive (s : State) (p : RPage) (o : Nat) (v : W32) : State :=
  { s with regs := { s.regs with live := s.regs.live.set (p.house s.fuses.grade o) (p.base + o) v } }

/-- The shadow of a staged register (19 R526). -/
def State.getShadow (s : State) (p : RPage) (o : Nat) : W32 :=
  s.regs.shadow.getD (p.base + o) (p.house s.fuses.grade o)

/-- Writes the shadow of a staged register. -/
def State.setShadow (s : State) (p : RPage) (o : Nat) (v : W32) : State :=
  { s with regs := { s.regs with shadow := s.regs.shadow.set (p.house s.fuses.grade o) (p.base + o) v } }

/-- A field of a live register, as a number. -/
def State.liveFld (s : State) (p : RPage) (o hi lo : Nat) : Nat := fld (s.getLive p o) hi lo

/-! ### Ticket rails (03 R82 to R86) -/

/-- The commands of a rail that are not consumed: those it holds, then those its producer is stalled on. -/
def Rail.waiting {α : Type} (r : Rail α) : List α :=
  ((r.slots ++ r.stalled).filter (fun e => !e.used)).map (·.cmd)

/-- Whether a rail of `n` entries is full: the address bits of its pointers equal and their top bits differ (R82). -/
def Rail.full {α : Type} (n : Nat) (r : Rail α) : Bool :=
  decide (r.wr % n = r.rd % n) && decide (r.wr ≠ r.rd)

/-- The producer writes an entry behind its staging pointer (R83). -/
def Rail.stage {α : Type} (n : Nat) (r : Rail α) : Rail α := { r with stg := (r.stg + 1) % (2 * n) }

/-- The producer gives a command up before it commits: the staging pointer returns to the published one (R83). -/
def Rail.rewind {α : Type} (r : Rail α) : Rail α := { r with stg := r.wr }

/-- The last entry of a staged command commits: the published write pointer moves past the whole command (R83). -/
def Rail.commit {α : Type} (r : Rail α) (e : Slot α) : Rail α :=
  { r with slots := r.slots ++ [e], wr := r.stg, wrCopy := r.stg }

/-- Places a command on a rail of `n` entries: one entry staged and committed, for every command of the model fits the 64 B
of one (log entry 85); a producer that finds the rail full stalls with it (R82). -/
def Rail.push {α : Type} (n : Nat) (r : Rail α) (c : α) (prio : Nat) : Rail α :=
  if r.full n || !r.stalled.isEmpty then { r with stalled := r.stalled ++ [⟨c, prio, false⟩] }
  else (r.stage n).commit ⟨c, prio, false⟩

/-- A stalled producer commits what it holds, in order, as far as there is room (R82). -/
def Rail.refill {α : Type} (n : Nat) : List (Slot α) → Rail α → Rail α
  | [], r => { r with stalled := [] }
  | e :: es, r => if r.full n then { r with stalled := e :: es } else Rail.refill n es ((r.stage n).commit e)

/-- The producer gives up the commands it is stalled on that a test names: none of them was committed (R83). -/
def Rail.abort {α : Type} (p : α → Bool) (r : Rail α) : Rail α :=
  { r.rewind with stalled := r.stalled.filter (fun e => !p e.cmd) }

/-- The highest priority among the unconsumed commands of a list of slots. -/
def topPrio {α : Type} (xs : List (Slot α)) : Nat :=
  xs.foldl (fun m e => if e.used then m else max m e.prio) 0

/-- Marks the oldest unconsumed command of a priority as consumed and answers it. -/
def markFirst {α : Type} (prio : Nat) : List (Slot α) → Option (α × List (Slot α))
  | [] => none
  | e :: es =>
    if e.used = false ∧ e.prio = prio then some (e.cmd, { e with used := true } :: es)
    else match markFirst prio es with
      | none => none
      | some (c, es') => some (c, e :: es')

/-- The consumed prefix of a rail. -/
def usedPrefix {α : Type} (xs : List (Slot α)) : Nat := (xs.takeWhile (·.used)).length

/-- Takes a command off a rail of `n` entries: among the first 32, the highest priority, and among equals the oldest;
the read pointer passes the consumed prefix only (R84). -/
def Rail.take {α : Type} (n : Nat) (r : Rail α) : Option (α × Rail α) :=
  match markFirst (topPrio (r.slots.take 32)) (r.slots.take 32) with
  | none => none
  | some (c, w) =>
    let xs := w ++ r.slots.drop 32
    let k := usedPrefix xs
    let d : Rail α := { r with slots := xs.drop k, rd := (r.rd + k) % (2 * n), rdCopy := (r.rd + k) % (2 * n) }
    some (c, Rail.refill n r.stalled d)

/-- A command that is committed and consumed in one step (log entry 11): its entry is used up at once, and leaves the rail with
the consumed prefix (R84). -/
def Rail.through {α : Type} (n : Nat) (r : Rail α) (c : α) (prio : Nat) : Rail α :=
  if r.full n || !r.stalled.isEmpty then r
  else
    let x := (r.stage n).commit ⟨c, prio, true⟩
    let k := usedPrefix x.slots
    { x with slots := x.slots.drop k, rd := (x.rd + k) % (2 * n), rdCopy := (x.rd + k) % (2 * n) }

/-! ### Links -/

/-- Link `n`. -/
def State.link (s : State) (n : Nat) : Link := s.ports.links.getD n .down

/-- Changes link `n`. -/
def State.setLink (s : State) (n : Nat) (f : Link → Link) : State :=
  { s with ports := { s.ports with links := s.ports.links.upd .down n f } }

/-- The current fabric-owner link: sub-link 0 of the fabric-owner port (02 R53). -/
def State.foLink (s : State) : Nat := s.ports.foPort * 4

/-- Whether a path has the fabric-owner view (02 R53). -/
def State.isFo (s : State) : Path → Bool
  | .mctp => true
  | .link n => decide (n.val = s.foLink)

/-- The requester number of a path: the link, or 0x20 for MCTP (18 R509). -/
def pathNum : Path → Nat
  | .mctp => 0x20
  | .link n => n.val

/-- Whether a link's sub-link exists in its port's bifurcation mode (02 R44). -/
def subPresent (mode sub : Nat) : Bool :=
  match mode with
  | 1 => decide (sub = 0 ∨ sub = 2)
  | 2 => decide (sub < 4)
  | _ => decide (sub = 0)

/-- Whether link `n` is present (02 R44). -/
def State.present (s : State) (n : Nat) : Bool :=
  subPresent (s.liveFld (.port (n / 4)) 0x40 1 0) (n % 4)

/-- The links present, ascending. -/
def State.presentLinks (s : State) : List Nat := (List.range 32).filter s.present

/-- The offset of register LINK_CTRL of a link in its port page. -/
def linkCtrlOff (n : Nat) : Nat := 0x60 + n % 4 * 4

/-- The formed failover partner of a link: both name each other with FOG_EN set, on different ports (02 R72, R80). -/
def State.partner (s : State) (n : Nat) : Option Nat :=
  let c := s.getLive (.port (n / 4)) (linkCtrlOff n)
  let m := fld c 5 1
  let d := s.getLive (.port (m / 4)) (linkCtrlOff m)
  if bitOf c 0 && decide (m / 4 ≠ n / 4) && bitOf d 0 && decide (fld d 5 1 = n) then some m else none

/-- The number a failover group is known by: its lower link (02 R72). -/
def State.group (s : State) (n : Nat) : Nat :=
  match s.partner n with
  | none => n
  | some m => min n m

/-- The link a request comes on. -/
def reqLink : MemReq → Nat
  | .read n _ _ _ _ => n
  | .write n _ _ _ _ _ _ => n
  | .own n _ _ _ => n
  | .evict n _ _ => n

/-! ### Stockpot frames -/

/-- Frame `f`. -/
def State.frame (s : State) (f : Nat) : Frame := s.stk.frames.getD f .free

/-- Writes frame `f`; a free frame is not listed. -/
def State.setFrame (s : State) (f : Nat) (x : Frame) : State :=
  { s with stk := { s.stk with frames := s.stk.frames.set .free f x } }

/-- Changes frame `f`. -/
def State.updFrame (s : State) (f : Nat) (g : Frame → Frame) : State := s.setFrame f (g (s.frame f))


/-- A region of frames: its first frame and its size (03 R92). -/
structure Region where
  first : Nat
  size : Nat
deriving DecidableEq, Repr

/-- The host share (03 R92). -/
def hostRegion : Region := ⟨0, 393216⟩
/-- The landing reserve (03 R92). -/
def landingRegion : Region := ⟨393216, 8192⟩
/-- The upkeep quota (03 R92). -/
def upkeepRegion : Region := ⟨401408, 49152⟩
/-- The rebuild quota (03 R92). -/
def rebuildRegion : Region := ⟨450560, 32768⟩
/-- The metadata quota (03 R92). -/
def metaRegion : Region := ⟨483328, 8192⟩

/-- Whether a frame lies in a region. -/
def Region.has (r : Region) (f : Nat) : Bool := decide (r.first ≤ f) && decide (f < r.first + r.size)

/-- The frames in use of a region. -/
def State.used (s : State) (r : Region) : Nat := countIf (fun e => r.has e.1) s.stk.frames

/-- The lowest number from `k` on that a rising list of keys does not list. -/
def lowestGap {α : Type} : Nat → SMap α → Nat
  | k, [] => k
  | k, (j, _) :: m => if j < k then lowestGap k m else if j = k then lowestGap (k + 1) m else k

/-- The lowest free frame of a region. -/
def State.freeIn (s : State) (r : Region) : Option Nat :=
  let f := lowestGap r.first s.stk.frames
  if f < r.first + r.size then some f else none

/-- The resident frame of a slice: frames of the host share and the landing reserve hold host data (03 R96); one that a
discard covers is the slice's no more, unless REDIRTY keeps it (04 R145). -/
def State.resident (s : State) (slice : Nat) : Option Nat :=
  ((s.stk.frames.filter (fun e => decide (e.1 < 401408) && decide (e.2.slice = slice) && (!e.2.discarded || e.2.redirty))).map
    (·.1)).head?

/-- Occupancy of the host share in percent, rounded down (03 R117). -/
def State.hostPct (s : State) : Nat := s.used hostRegion * 100 / hostRegion.size

/-- Whether occupancy of the host share is above `HI` percent (03 R103, R117). -/
def State.aboveHi (s : State) : Bool :=
  decide (s.liveFld .stk 0x54 14 8 * hostRegion.size < s.used hostRegion * 100)

/-- Whether occupancy of the host share is below `LO` percent (03 R103). -/
def State.belowLo (s : State) : Bool :=
  decide (s.used hostRegion * 100 < s.liveFld .stk 0x54 6 0 * hostRegion.size)

/-- Whether the host share is urgent: above HI, or landing frames in use (03 R103, R112, R117). -/
def State.urgent (s : State) : Bool := s.aboveHi || decide (0 < s.used landingRegion)

/-- What a page holds at a position, with frame `f` renamed `g`. -/
def PageItem.rename (f g : Nat) : PageItem → PageItem
  | .frame k => .frame (if k = f then g else k)
  | .sector x (some k) => .sector x (some (if k = f then g else k))
  | y => y

/-- A lookup, with frame `f` renamed `g`. -/
def TReq.rename (f g : Nat) : TReq → TReq
  | .home k => .home (if k = f then g else k)
  | q => q

/-- A Translate rail, with frame `f` renamed `g` in its lookups. -/
def Rail.rename (f g : Nat) (r : Rail TReq) : Rail TReq :=
  let h := fun (e : Slot TReq) => { e with cmd := e.cmd.rename f g }
  { r with slots := r.slots.map h, stalled := r.stalled.map h }

/-- A landing frame moves to the host share as soon as a host-share frame is free, with everything that names it (03
R94). -/
def State.landingMove (s : State) : State :=
  match s.stk.frames.find? (fun e => landingRegion.has e.1), s.freeIn hostRegion with
  | some (f, x), some g =>
    let t := (s.setFrame f .free).setFrame g x
    { t with
      stk := { t.stk with pages := t.stk.pages.mapVal (fun _ (p : Page) => { p with items := p.items.map (·.rename f g) }) }
      rails := { t.rails with translate := t.rails.translate.mapVal (fun _ r => r.rename f g) }
      siv := { t.siv with waiting := t.siv.waiting.map (·.rename f g) } }
  | _, _ => s

/-- Moves landing frames while host-share frames are free, `n` at most (03 R94). -/
def State.landAll : Nat → State → State
  | 0, s => s
  | n + 1, s => State.landAll n s.landingMove

/-- Frees frame `f`; a landing frame moves into the place that a host-share frame leaves (03 R94). -/
def State.freeFrame (s : State) (f : Nat) : State :=
  let t := s.setFrame f .free
  if hostRegion.has f then t.landingMove else t

/-! ### Map entries (04 R120 to R122) -/

/-- The loaf entry of loaf `l`. -/
def State.loaf (s : State) (l : Nat) : LoafE := s.siv.loafs.getD l .unmapped

/-- Writes a loaf entry. -/
def State.setLoaf (s : State) (l : Nat) (e : LoafE) : State :=
  { s with siv := { s.siv with loafs := s.siv.loafs.set .unmapped l e } }

/-- Entry `k` of the slice of a slice block. -/
def State.sliceE (s : State) (b k : Nat) : SliceE := s.siv.slices.getD (b * 256 + k) .unmapped

/-- Writes a slice entry. -/
def State.setSliceE (s : State) (b k : Nat) (e : SliceE) : State :=
  { s with siv := { s.siv with slices := s.siv.slices.set .unmapped (b * 256 + k) e } }

/-- Whether a command is one that waits for the map's part of a discard: Discard Range, the zero operation, an extent
release. Its first argument is its output, the others are its runs of slices. -/
def MbxRun.isDiscard (r : MbxRun) : Bool := [0xC001, 0x4402, 0x4803, 0x5605].contains r.opcode

/-- The runs that arguments stand for. -/
def argRuns : List Nat → List (Nat × Nat)
  | a :: b :: rest => (a, b) :: argRuns rest
  | _ => []

/-- Whether a number lies in a range. -/
def inSpan (first n x : Nat) : Bool := decide (first ≤ x) && decide (x < first + n)

/-- Whether a slice lies in a run of a discard that is past its ordering point and waits for a slice block or for room in
journal staging: it is discarded already (04 R144, R145). -/
def State.discardWaits (s : State) (slice : Nat) : Bool :=
  s.mbx.runs.any (fun r => r.isDiscard && r.rest.isEmpty && (argRuns (r.args.drop 1)).any (fun x => inSpan x.1 x.2 slice))

/-- Resolves the slice address DPA[44:8] and the line of a lookup (04 R122). -/
def State.lookup (s : State) (slice line : Nat) : Lookup :=
  let e := s.loaf (slice / 256)
  if s.discardWaits slice then .zeros
  else match e.fmt.toNat with
  | 0 => .zeros
  | 1 => .sector (e.loc * 256 + slice % 256)
  | 2 =>
    let f := s.sliceE (e.loc % 4194304) (slice % 256)
    match f.fmt.toNat with
    | 0 => .zeros
    | 1 => .sector f.saddr
    | 2 => if f.poison.getLsbD line then .poison else .zeros
    | _ => .corrupt
  | _ => .corrupt

/-- Whether sequence number `a` is newer than `b`, modulo 2^48 (04 R133). -/
def seqNewer (a b : BitVec 48) : Bool :=
  let d := (a - b).toNat
  decide (1 ≤ d) && decide (d ≤ 2 ^ 47 - 1)

/-- The newer of two sequence numbers. -/
def seqMax (a b : BitVec 48) : BitVec 48 := if seqNewer a b then a else b

/-- The slice blocks there are (04 R121). -/
def sliceBlocks : Nat := 4194304

/-- Unallocated slice blocks (04 R127). -/
def State.freeBlocks (s : State) : Nat := sliceBlocks - s.siv.blocksUsed.length

/-- Percent of slice blocks in use, rounded down (04 R148). -/
def State.sliceOcc (s : State) : Nat := s.siv.blocksUsed.length * 100 / sliceBlocks

/-- The lowest number not in a rising list. -/
def gapOf : Nat → List Nat → Nat
  | k, [] => k
  | k, j :: js => if j = k then gapOf (k + 1) js else k

/-- Inserts into a rising list. -/
def insertNat (x : Nat) : List Nat → List Nat
  | [] => [x]
  | y :: ys => if x < y then x :: y :: ys else if x = y then y :: ys else y :: insertNat x ys

/-! ### Media -/

/-- A plane block's number in the block table (07 R205): `((burner × 10 + ce) × 2048 + block) × 4 + plane`. -/
def pbOf (burner ce block plane : Nat) : Nat := ((burner * 10 + ce) * 2048 + block) * 4 + plane

/-- Fields of a sector address (04 R118). -/
def saBurner (a : Nat) : Nat := a / 2 ^ 33 % 32
/-- Chip enable of a sector address. -/
def saCe (a : Nat) : Nat := a / 2 ^ 29 % 16
/-- Block of a sector address. -/
def saBlock (a : Nat) : Nat := a / 2 ^ 18 % 2048
/-- Page of a sector address. -/
def saPage (a : Nat) : Nat := a / 2 ^ 8 % 1024
/-- Plane of a sector address. -/
def saPlane (a : Nat) : Nat := a / 2 ^ 6 % 4
/-- Sector within the page of a sector address. -/
def saSector (a : Nat) : Nat := a % 64
/-- A sector address from its fields. -/
def saOf (burner ce block page plane sector : Nat) : Nat :=
  burner * 2 ^ 33 + ce * 2 ^ 29 + block * 2 ^ 18 + page * 2 ^ 8 + plane * 2 ^ 6 + sector

/-- The plane block that holds a sector address. -/
def pbOfAddr (a : Nat) : Nat := pbOf (saBurner a) (saCe a) (saBlock a) (saPlane a)

/-- Plane block `x` of the media block table. -/
def State.blk (s : State) (x : Nat) : Block := s.med.table.getD x .blank

/-- Changes a block table entry. -/
def State.updBlk (s : State) (x : Nat) (f : Block → Block) : State :=
  { s with med := { s.med with table := s.med.table.upd .blank x f } }

/-- Changes the four plane blocks of a block, which carry the same STATE, W, ROLE, REMAP, P0 and RESETS (07 R205). -/
def State.updBlock4 (s : State) (burner ce block : Nat) (f : Block → Block) : State :=
  (List.range 4).foldl (fun t pl => t.updBlk (pbOf burner ce block pl) f) s

/-- Adds or removes valid sectors of the plane block of an address (04 R135). -/
def State.addValid (s : State) (a : Nat) : State := s.updBlk (pbOfAddr a) (fun b => { b with valid := b.valid + 1 })
/-- Retires a sector address: its block's valid count falls (04 R135). -/
def State.dropValid (s : State) (a : Nat) : State := s.updBlk (pbOfAddr a) (fun b => { b with valid := b.valid - 1 })

/-- The sector programmed at an address. -/
def State.sector (s : State) (a : Nat) : Option Sector := s.med.sectors.find a

/-- Reads in flight against a plane block (01 R33). -/
def State.addInflight (s : State) (a : Nat) : State :=
  { s with med := { s.med with inflight := s.med.inflight.upd 0 (pbOfAddr a) (· + 1) } }
/-- A read of a plane block has ended. -/
def State.dropInflight (s : State) (a : Nat) : State :=
  { s with med := { s.med with inflight := s.med.inflight.upd 0 (pbOfAddr a) (· - 1) } }

/-- Dies per burner, N (06 R178). -/
def State.dieCount (s : State) : Nat := s.med.dies

/-- User capacity in bytes of the population (05 R176). -/
def State.capacity (s : State) : Nat :=
  match s.med.dies with
  | 10 => 32 * 2 ^ 40
  | 8 => 26112 * 2 ^ 30
  | 5 => 16 * 2 ^ 40
  | _ => 0

/-- Die `ce` of burner `b`. -/
def State.die (s : State) (b ce : Nat) : Die := s.dies.getD (b * 10 + ce) .absent
/-- Changes a die. -/
def State.updDie (s : State) (b ce : Nat) (f : Die → Die) : State :=
  { s with dies := s.dies.upd .absent (b * 10 + ce) f }
/-- Burner `b`. -/
def State.burner (s : State) (b : Nat) : Burner := s.burners.getD b .fresh
/-- Changes a burner. -/
def State.updBurner (s : State) (b : Nat) (f : Burner → Burner) : State :=
  { s with burners := s.burners.upd .fresh b f }
/-- Ladle `p`. -/
def State.ladle (s : State) (p : Nat) : Ladle := s.ladles.getD p .fresh
/-- Changes a ladle. -/
def State.updLadle (s : State) (p : Nat) (f : Ladle → Ladle) : State :=
  { s with ladles := s.ladles.upd .fresh p f }

/-- The block on a burner that a stripe's member occupies (05 R159): chip enable and block. -/
def State.stripeCe (s : State) (S : Nat) : Nat := S % s.dieCount
/-- The block index of a stripe (05 R159). -/
def State.stripeBlock (s : State) (S : Nat) : Nat := S / s.dieCount
/-- The stripe a block index and chip enable belong to. -/
def State.stripeOf (s : State) (ce block : Nat) : Nat := block * s.dieCount + ce

/-! ### The Event rail -/

/-- Places an event on the Event rail (01 R37, 18 R504). -/
def State.record (s : State) (code p0 p1 p2 p3 : Nat) : State :=
  let e : Ev := ⟨code, BitVec.ofNat 64 p0, BitVec.ofNat 64 p1, BitVec.ofNat 64 p2, BitVec.ofNat 64 p3⟩
  { s with rails := { s.rails with event := s.rails.event.push 1024 e 0 } }

/-- Key slot `n`. -/
def State.slot (s : State) (n : Nat) : KeySlot := s.slots.getD n .empty
/-- Changes a key slot. -/
def State.updSlot (s : State) (n : Nat) (f : KeySlot → KeySlot) : State :=
  { s with slots := s.slots.upd .empty n f }

/-- Whisk context `n` (11 R326). -/
def State.ctx (s : State) (n : Nat) : Ctx := s.ctxs.getD n .fresh
/-- Changes a context. -/
def State.updCtx (s : State) (n : Nat) (f : Ctx → Ctx) : State := { s with ctxs := s.ctxs.upd .fresh n f }
/-- Whisk channel `c`. -/
def State.chan (s : State) (c : Nat) : Chan := s.chans.getD c .fresh
/-- Changes a channel. -/
def State.updChan (s : State) (c : Nat) (f : Chan → Chan) : State := { s with chans := s.chans.upd .fresh c f }

/-- The owner number of a requester of the pass (14 R406). -/
def State.ownerOf (s : State) : Requester → Nat
  | .link n => s.group n
  | .whisk c => 32 + c
  | .scraper => 108
  | .taster => 109
  | .rebuild => 110
  | .stream q => 111 + q

/-- The epoch of an owner (14 R406). -/
def State.epoch (s : State) (o : Nat) : W32 := s.flt.epochs.getD o 0

/-- The epoch that a requester's requests carry (14 R406, R407). -/
def State.epochOf (s : State) (r : Requester) : W32 := s.epoch (s.ownerOf r)

/-! ### Reports -/

/-- Reports a fault to the ledger (14 R397, R398). -/
def State.report (s : State) (source utype uid : Nat) : State :=
  { s with reports := s.reports ++ [⟨source, utype, uid⟩] }

/-- The unit ID of the block that holds a sector address (14 R397). -/
def blockId (a : Nat) : Nat := a / 2 ^ 18

/-- The unit ID of a die (14 R397). -/
def dieId (b ce : Nat) : Nat := b * 16 + ce

/-- Puts a lookup on Translate rail `i` of the four at a priority (04 R125). -/
def State.translate (s : State) (i : Nat) (q : TReq) (prio : Nat) : State :=
  let rs := s.rails.translate.upd .empty i (fun r => r.push 512 q prio)
  { s with rails := { s.rails with translate := rs } }

end Sys2Proof.Machine
end

