-- ==== Sys2Proof/Machine/Bytes.lean ====
section
/-!
DEFINITION. The bytes of sectors and pages as they stand on media: encryption and tags (12_protection.md R357, R360, R361),
the spare (05_media_layout.md R153, R154), the physical page and its parity domain (R151, R157), the parity page header
(R167), and the arithmetic of the outer code over whole pages (R161, R164).
-/

namespace Sys2Proof.Machine

/-! ### Device keys (12 R357) -/

/-- The 15 bytes of a key label: ASCII padded with zeros. -/
def keyLabel (l : String) : List Byte :=
  let b := l.toList.map (fun c => byteOf c.toNat)
  b ++ List.replicate (15 - b.length) 0

/-- A key derived from a root secret. -/
def deriveKey (root : List Byte) (l : String) : List Byte :=
  aes256 root (keyLabel l ++ [1]) ++ aes256 root (keyLabel l ++ [2])

/-- The five device keys of a root secret. -/
def deriveKeys (root : List Byte) : DevKeys :=
  { mdData := deriveKey root "MD-XTS-DATA", mdTweak := deriveKey root "MD-XTS-TWEAK", mdTag := deriveKey root "MD-TAG"
    dataTag := deriveKey root "DATA-TAG", vault := deriveKey root "VAULT" }

/-! ### AES-256-XTS (12 R361) -/

/-- The tweak of the next 16-byte block: the product with x in GF(2^128), little-endian. -/
def xtsNext (t : List Byte) : List Byte :=
  let n := leNat t
  let v := BitVec.ofNat 128 (2 * n) ^^^ (if 2 ^ 127 ≤ n then 0x87 else 0)
  leBytes 16 v.toNat

/-- Encrypts the blocks of a data unit, each under its tweak. -/
def xtsBlocks (k : List Byte) : List Byte → List (List Byte) → List Byte
  | _, [] => []
  | t, b :: bs => xorBytes (aes256 k (xorBytes b t)) t ++ xtsBlocks k (xtsNext t) bs

/-- AES-256-XTS of a data unit of whole blocks. -/
def xts (data tweak : List Byte) (t : Nat) (x : List Byte) : List Byte :=
  xtsBlocks data (aes256 tweak (leBytes 16 t)) (chunksOf 16 x.length x)

/-! ### Sectors -/

/-- The 64 bytes of a line. -/
def lineBytes (l : Line) : List Byte := (List.range 64).map (lineByte l)

/-- The 256 bytes of a slice (05 R152). -/
def Four.bytes (d : Four) : List Byte := lineBytes d.l0 ++ lineBytes d.l1 ++ lineBytes d.l2 ++ lineBytes d.l3

/-- Whether a sector holds user data: KIND 1, 2 and 7 (05 R154). -/
def Sector.isData (x : Sector) : Bool := decide (x.kind = 1) || decide (x.kind = 2) || decide (x.kind = 7)

/-- The ciphertext of a sector at an address (12 R361). -/
def Sector.cipher (k : DevKeys) (a : Nat) (x : Sector) : List Byte :=
  let p := Config.keyPair x.keyId
  let w := x.tweak.getD (a, x.seq)
  xts (if x.isData then p.take 32 else k.mdData) (if x.isData then p.drop 32 else k.mdTweak)
    (w.1 + w.2.toNat * 2 ^ 38) x.data.bytes

/-- Spare bytes 8 to 23 of a sector: the map tag and the key and flags (05 R153). -/
def Sector.fields (x : Sector) : List Byte :=
  leBytes 12 (x.unit % 2 ^ 37 + x.seq.toNat * 2 ^ 37 + x.keyslot % 1024 * 2 ^ 85) ++
    leBytes 4 (x.poison.toNat + x.kind % 16 * 2 ^ 4 + x.frame.toNat * 2 ^ 8)

/-- The integrity tag of a sector at an address (12 R360, R361); a sector marked so carries another. -/
def Sector.tag (k : DevKeys) (a : Nat) (x : Sector) : List Byte :=
  let t := (tagOf (if x.isData then k.dataTag else k.mdTag)
    (leBytes 5 a ++ List.replicate 11 0 ++ x.fields ++ x.cipher k a)).take 7
  if x.tagOk then t else t.map (fun b => ~~~ b)

/-- The 32 bytes of a sector's spare, with the reserved bytes given (05 R153). -/
def Sector.spare (k : DevKeys) (a : Nat) (x : Sector) (rsvd : List Byte) : List Byte :=
  x.tag k a ++ [0] ++ x.fields ++ rsvd

/-- The 288 bytes of a sector at an address. -/
def Sector.bytes (k : DevKeys) (a : Nat) (x : Sector) : List Byte :=
  x.cipher k a ++ x.spare k a (List.replicate 8 0)

/-! ### Pages -/

/-- A metadata sector of 256 B: KIND, UNIT, four lines (05 R154). -/
def metaSector (kind unit : Nat) (d : Four) : Sector :=
  { data := d, unit := unit, seq := 0, keyslot := 0x3FF, poison := 0, kind := kind, frame := 0, keyId := 0,
    tagOk := true, tweak := none }

/-- A pad sector (05 R155). -/
def padSector : Sector := metaSector 3 0 .zero

/-- The parity domain of a page at an address: its 64 sectors in order, 18,432 bytes (05 R151). -/
def pageDom (k : DevKeys) (a : Nat) (xs : List Sector) : List Byte :=
  (xs.zipIdx.map (fun e => e.1.bytes k (a + e.2))).flatten

/-- The bytes of a page in its parity domain, with its header, of a parity page (05 R167). -/
def ParPage.bytes (p : ParPage) : List Byte :=
  let h0 := leBytes 8 (p.pkind + p.seq.toNat * 2 ^ 16)
  let h1 := leBytes 8 (p.stripe % 2 ^ 15 + p.row % 2 ^ 10 * 2 ^ 15 + p.src % 2 ^ 22 * 2 ^ 25)
  let d := p.dom ++ List.replicate (18432 - p.dom.length) 0
  d.take 280 ++ h0 ++ (d.drop 288).take 280 ++ h1 ++ d.drop 576

/-- A physical page of 20,736 bytes: four codewords of 4,608 bytes, each followed by its code parity (05 R151, R157, 06
R193). -/
def physPage (dom : List Byte) : List Byte :=
  ((chunksOf 4608 4 dom).map (fun c => c ++ Config.codeParity c)).flatten

/-! ### The outer code over pages (05 R161, R164) -/

/-- Exclusive or of two pages, a shorter one filled with zeros. -/
def xorLong : List Byte → List Byte → List Byte
  | [], ys => ys
  | x :: xs, [] => x :: xs
  | x :: xs, y :: ys => (x ^^^ y) :: xorLong xs ys

/-- A page times a field element. -/
def scale (c : Byte) (x : List Byte) : List Byte := x.map (gmul c)

/-- The pages of data members a and b from Px and Qx (05 R164): with one lost, and with two. -/
def rebuildPage (a : Nat) (b : Option Nat) (px qx : List Byte) : List Byte × List Byte :=
  match b with
  | none => (px.map rebuildOne, [])
  | some b =>
    let z := List.zipWith (rebuildTwo a b) px (qx ++ List.replicate (px.length - qx.length) 0)
    (z.map (·.1), z.map (·.2))

/-- The reserved bytes of every sector of a codeword set to zero (05 R164). -/
def zeroReserved (x : List Byte) : List Byte :=
  ((chunksOf 288 16 x).map (fun c => c.take 280 ++ List.replicate 8 0)).flatten

end Sys2Proof.Machine
end

