-- ==== Sys2Proof/Machine/Flags.lean ====
section
/-!
DEFINITION. Flags and counts: the interrupt flags of every page and the messages they send (19 R518 to R528), the
tallies and histograms (18 R491 to R500).
-/

namespace Sys2Proof.Machine

/-! ### Interrupts -/

/-- The IRQ bits a page has (the field tables of the chapters). -/
def RPage.irqMask : RPage → Nat
  | .glb => 0x3
  | .boot => 0x7
  | .port _ => 0
  | .stk => 0x1F
  | .siv => 0x1F
  | .upk => 0x7F
  | .pas => 0x7
  | .ldl _ => 0x1F
  | .spr => 0x3F
  | .key => 0x7F
  | .mec => 0x1FFF
  | .wsk _ => 0x1FF
  | .brn _ => 0x1F
  | .pwr => 0xFF
  | .thm => 0x1F
  | .tly => 0x3
  | .spk => 0xF
  | .flt => 0x1F
  | .stw => 0x1

/-- IRQ_STAT of a page. -/
def State.irqStat (s : State) (p : RPage) : W32 := s.regs.live.getD (p.base + 0x14) 0

/-- Writes IRQ_STAT of a page. -/
def State.setIrqStat (s : State) (p : RPage) (v : W32) : State :=
  { s with regs := { s.regs with live := s.regs.live.set 0 (p.base + 0x14) v } }

/-- IRQ_EN of a page: the bits the page has; the others are reserved and read 0 (00 R13). -/
def State.irqEn (s : State) (p : RPage) : W32 := s.getLive p 0x18 &&& BitVec.ofNat 32 p.irqMask

/-- The link and vector that a page's messages go to: the fabric-owner link, but a whisk channel's grant where it is
valid (19 R520, 11 R326). -/
def State.msixTarget (s : State) (p : RPage) : Nat × Nat :=
  match p with
  | .wsk c =>
    let g := s.getLive (.wsk c) 0x40
    (if bitOf g 5 then fld g 4 0 else s.foLink, fld g 10 6)
  | _ => (s.foLink, p.vector)

/-- Sends a page's message where its target link is in L0 with MSI-X enabled; else nothing is sent or queued (R520). -/
def State.sendMsix (s : State) (p : RPage) : State :=
  let t := s.msixTarget p
  if (s.link t.1).up && (s.link t.1).msix then s.emit (.msix t.1 t.2) else s

/-- An event sets bit `i` of a page's IRQ_STAT and, where IRQ_EN has it, sends one message (19 R520). -/
def State.raise (s : State) (p : RPage) (i : Nat) : State :=
  let t := s.setIrqStat p (s.irqStat p ||| bit32 true i)
  if bitOf (s.irqEn p) i then t.sendMsix p else t

/-- Whether a page has a bit set in IRQ_STAT AND IRQ_EN (19 R528). -/
def State.irqPending (s : State) (p : RPage) : Bool := decide (s.irqStat p &&& s.irqEn p ≠ 0)

/-- The pages with one instance. -/
def singlePages : List RPage :=
  [RPage.glb, RPage.boot, RPage.stw, RPage.stk, RPage.siv, RPage.upk, RPage.pas, RPage.spr, RPage.key, RPage.mec,
    RPage.flt, RPage.pwr, RPage.thm, RPage.tly, RPage.spk]

/-- Every page of the control window. -/
def allPages : List RPage :=
  List.flatten [singlePages, (List.range 32).map RPage.brn, (List.range 8).map RPage.ldl,
    (List.range 8).map RPage.port, (List.range 64).map RPage.wsk]

/-- When a link enters L0 with MSI-X enabled, or in L0 takes the fabric-owner role: one message on each of its vectors
for which a page routed to it has a pending bit (19 R520). -/
def State.resendMsix (s : State) (n : Nat) : State :=
  if (s.link n).up && (s.link n).msix then
    let vs := (allPages.filter (fun p => s.irqPending p && decide ((s.msixTarget p).1 = n))).map
      (fun p => (s.msixTarget p).2)
    (vs.eraseDups).foldl (fun t v => t.emit (.msix n v)) s
  else s

/-! ### Tallies (18 R491 to R498) -/

/-- A counted event: its code and the attributes it carries (18 R492): fabric-owner privilege, master type and index,
DPA line, class bit. -/
structure TEv where
  code : Nat
  fo : Option Bool
  master : Option (Nat × Nat)
  line : Option Nat
  cls : Option Nat
deriving DecidableEq, Repr

/-- An event without attributes. -/
def TEv.plain (code : Nat) : TEv := ⟨code, none, none, none, none⟩

/-- An event of a link (privilege and master) on a line. -/
def State.linkEv (s : State) (code n : Nat) (line : Option Nat) (cls : Option Nat) : TEv :=
  ⟨code, some (decide (n = s.foLink)), some (1, n), line, cls⟩

/-- The link a channel's frames count against: its granted link, else the fabric-owner link (11 R329). -/
def State.whiskLink (s : State) (c : Nat) : Nat :=
  let g := s.getLive (.wsk c) 0x40
  if bitOf g 5 then fld g 4 0 else s.foLink

/-- An event of a whisk channel, with the privilege of its grant (18 R493). -/
def State.chanEv (s : State) (code c : Nat) (line : Option Nat) : TEv :=
  ⟨code, some (decide (s.whiskLink c = s.foLink)), some (2, c), line, none⟩

/-- Whether an event passes filter `f` (18 R493). -/
def State.passes (s : State) (f : Nat) (e : TEv) : Bool :=
  let c := s.getLive .tly (0x2000 + f * 0x20)
  let mlo := s.getLive .tly (0x2004 + f * 0x20)
  let mhi := s.getLive .tly (0x2008 + f * 0x20)
  let priv := match fld c 1 0 with
    | 0 => true
    | 1 => decide (e.fo = some true)
    | _ => decide (e.fo = some false)
  let mast := match fld c 4 2 with
    | 0 => true
    | k => match e.master with
      | none => false
      | some (ty, i) => decide (ty = k) && (if i < 32 then bitOf mlo i else bitOf mhi (i - 32))
  let cls := match fld c 11 5 with
    | 0 => true
    | m => match e.cls with
      | none => false
      | some k => m.testBit k
  let dpa := if bitOf c 12 then
      match e.line with
      | none => false
      | some l =>
        let u := l / 2 ^ 22
        let b := s.liveFld .tly (0x200C + f * 0x20) 16 0
        decide (b ≤ u) && decide (u < b + s.liveFld .tly (0x2010 + f * 0x20) 17 0)
    else true
  priv && mast && cls && dpa

/-- The selection register of counter `n`. -/
def State.sel (s : State) (n : Nat) : W32 := s.getLive .tly (0x1000 + n * 4)

/-- Adds an increment to a counter and passes it on to its parents; a saturated one passes it on, an invalid one passes
nothing on (18 R494 to R496). -/
def State.bump (k : Nat) : Nat → Nat → State → State
  | 0, _, s => s
  | fuel + 1, n, s =>
    let c := s.tly.counters.getD n .zero
    if c.invalid || !bitOf (s.sel n) 26 then s
    else
      let v := sat 48 (c.val + k)
      let nowSat := c.sat || decide (v = 2 ^ 48 - 1)
      let cs := s.tly.counters.set .zero n { c with val := v, sat := nowSat }
      let t := { s with tly := { s.tly with counters := cs } }
      let t := if nowSat && !c.sat then t.raise .tly 0 else t
      let p := fld (s.sel n) 25 16
      if 512 ≤ p ∧ p < 768 then t.bump k fuel p else t

/-- The counters whose selection is listed and enabled for an event code. -/
def State.countersOf (s : State) (code : Nat) : List Nat :=
  (s.regs.live.filter (fun e => decide (0x521000 ≤ e.1) && decide (e.1 < 0x521C00) && bitOf e.2 26 &&
    decide (fld e.2 9 0 = code) && decide (code ≠ 0))).map (fun e => (e.1 - 0x521000) / 4)

/-- Counts an event `k` times (18 R491 to R494). -/
def State.tally (s : State) (e : TEv) (k : Nat) : State :=
  (s.countersOf e.code).foldl
    (fun t n => if s.passes (fld (s.sel n) 15 10) e then t.bump k 258 n else t) s

/-- The histogram bin of a latency in ticks: bin b holds 64 × 2^b ns up to twice that, bin 0 also what is shorter
(18 R500). -/
def binOf (ticks : Nat) : Nat := min 31 (Nat.log2 (max 1 (ticks / (64 * Config.ns))))

/-- Adds a latency sample of a source, in whole fabric cycles, to every enabled unit whose filter the event passes (18 R499, R500). -/
def State.sample (s : State) (source : Nat) (e : TEv) (elapsed : Nat) : State :=
  let ticks := elapsed / Config.ticksPerFc s.fuses.grade * Config.ticksPerFc s.fuses.grade
  (s.regs.live.filter (fun r => decide (0x523000 ≤ r.1) && decide (r.1 < 0x523200) && bitOf r.2 9 &&
    decide (fld r.2 2 0 = source))).foldl
    (fun t r =>
      let u := (r.1 - 0x523000) / 16
      if s.passes (fld r.2 8 3) e then
        let i := u * 32 + binOf ticks
        let c := t.tly.bins.getD i .zero
        let v := sat 48 (c.val + 1)
        let nsat := c.sat || decide (v = 2 ^ 48 - 1)
        let t1 := if c.invalid then t
          else { t with tly := { t.tly with bins := t.tly.bins.set .zero i { c with val := v, sat := nsat } } }
        let t2 := if nsat && !c.sat && !c.invalid then t1.raise .tly 0 else t1
        let hm := t2.tly.hmax.upd 0 u (fun m => max m (sat 32 (ticks / Config.ns)))
        { t2 with tly := { t2.tly with hmax := hm } }
      else t) s

end Sys2Proof.Machine
end

