-- ==== Sys2Proof/Machine/Runs.lean ====
section
/-!
DEFINITION. Answers of mailbox commands and commands that take time (02_host_ports.md R63 to R65): any block may end one.
-/

namespace Sys2Proof.Machine

/-! ### Return codes (02 R64, R65, R75, 14 R409) -/

/-- Success. -/
def rcOk : Nat := 0
/-- Invalid Input. -/
def rcInvalid : Nat := 2
/-- Unsupported. -/
def rcUnsupported : Nat := 3
/-- Internal Error. -/
def rcInternal : Nat := 4
/-- Busy. -/
def rcBusy : Nat := 6

/-- Answers a mailbox command. -/
def State.reply (s : State) (p : Path) (opcode rc : Nat) (payload : List Byte) : State :=
  s.emit (.mailbox p opcode rc payload)

/-- Answers with Success and one byte of detail in 4 bytes (02 R65). -/
def State.outcome (s : State) (p : Path) (opcode k : Nat) : State := s.reply p opcode rcOk (leBytes 4 k)

/-- Answers with a return code and no payload. -/
def State.fail (s : State) (p : Path) (opcode rc : Nat) : State := s.reply p opcode rc []

/-! ### Commands that take time (02 R63) -/

/-- Starts a command that ends later. -/
def State.startRun (s : State) (p : Path) (opcode : Nat) (args : List Nat) (rest : List Byte) : State :=
  { s with mbx := { s.mbx with runs := s.mbx.runs ++ [⟨p, opcode, s.now, false, args, rest⟩] } }

/-- Returns Background Command Started for a command (02 R63). -/
def State.toBackground (s : State) (r : MbxRun) : State :=
  let f := fun (x : MbxRun) => if x = r then { x with bg := true } else x
  ({ s with mbx := { s.mbx with runs := s.mbx.runs.map f } }).emit (.background r.path r.opcode)

/-- Ends a command: it answers, or, where it went on in the background, its result is kept for Background Operation Status
(02 R63). -/
def State.endRun (s : State) (r : MbxRun) (rc : Nat) (payload : List Byte) : State :=
  let t := { s with mbx := { s.mbx with runs := s.mbx.runs.filter (fun x => decide (x ≠ r)) } }
  if r.bg then
    { t with mbx := { t.mbx with
      done := t.mbx.done.filter (fun (d : BgDone) => decide (d.path ≠ r.path)) ++ [⟨r.path, r.opcode, rc⟩] } }
  else t.reply r.path r.opcode rc payload

/-- Ends every running command that a test names, in order. -/
def State.endRuns (s : State) (p : MbxRun → Bool) (rc : Nat) (payload : List Byte) : State :=
  (s.mbx.runs.filter p).foldl (fun t r =>
    match t.mbx.runs.find? (fun x => decide (x = r)) with
    | some x => t.endRun x rc payload
    | none => t) s

end Sys2Proof.Machine
end

