-- ==== Sys2Proof/Machine/Spike.lean ====
section
/-!
DEFINITION. The spike (18_observability.md R502 to R511): records and their severity, the limiter, staging and its pages,
posting to the CXL event logs, and the place records are looked up in.
-/

namespace Sys2Proof.Machine

/-! ### Events of a link's logs (02 R64, 18 R508) -/

/-- Some bytes of a message part that a standard outside the spec lays out, as many as it takes (log entry 12). -/
def freeOf (k n : Nat) : List Byte := (List.range n).map (fun i => (Config.freeBytes k).getD i 0)

/-- Whether a link's interrupt policy asks for a message for a log; its vector (log entry 12). -/
def Link.eventVector (l : Link) (log : Nat) : Option Nat :=
  let b := (l.eventIrq.getD log 0).toNat
  if b % 4 = 1 then some (b / 16) else none

/-- Posts an event record to a link's log and announces it (02 R64, 18 R508). -/
def State.postEvent (s : State) (n log : Nat) (bytes : List Byte) : State :=
  let l := s.link n
  let t := (s.setLink n (fun (l : Link) => { l with
    events := l.events ++ [EventRec.mk log (l.lostEvents + l.events.length + 1) bytes] })).emit (.event n log bytes)
  match l.eventVector log with
  | some v => if l.up && l.msix then t.emit (.msix n v) else t
  | none => t

/-! ### Records (R502, R509) -/

/-- The severity of a record code: 0 info, 1 warning, 2 error, 3 critical (R509). -/
def sevOf (code : Nat) : Nat :=
  if ([0x0004, 0x3005, 0x8008] : List Nat).contains code then 0
  else if ([0x0005, 0x1004, 0x1005, 0x2001, 0x2003, 0x2004, 0x3002, 0x4001, 0x6001, 0x6004, 0x7001, 0x7003, 0x7004,
    0x7005, 0x9001, 0x9002] : List Nat).contains code then 2
  else if ([0x2002, 0x3001, 0x6002, 0x8002, 0x9003] : List Nat).contains code then 3
  else if code = 0 then 0
  else 1

/-- Whether an event is limited: codes marked L, an alarm of kinds 3 to 5 (R504, R509). -/
def Ev.limited (e : Ev) : Bool :=
  ([0x1002, 0x4002, 0x8001, 0x8003] : List Nat).contains e.code ||
    (decide (e.code = 0x6001) && decide (3 ≤ e.p1.toNat) && decide (e.p1.toNat ≤ 5))

/-- Whether a record code is marked T: its P0 may name a tenant link (R508, R509). -/
def codeOfTenant (code : Nat) : Bool :=
  ([0x1002, 0x1004, 0x1005, 0x4002, 0x6001] : List Nat).contains code

/-- Bytes 0 to 59 of a record (R502). -/
def SpikeRec.head (r : SpikeRec) : List Byte :=
  leBytes 2 r.code ++ [byteOf (r.sev % 4), 0] ++ leBytes 5 r.opsec ++ leBytes 3 r.cycles ++ leBytes 4 r.serial.toNat ++
    leBytes 8 r.p0.toNat ++ leBytes 8 r.p1.toNat ++ leBytes 8 r.p2.toNat ++ leBytes 8 r.p3.toNat ++
    leBytes 2 r.suppressed ++ List.replicate 10 0

/-- The 64 bytes of a record (R502). -/
def SpikeRec.bytes (r : SpikeRec) : List Byte := r.head ++ leBytes 4 (crc32c r.head).toNat

/-- The UUID of the vendor event record (R508). -/
def spikeUuid : List Byte :=
  [0x1B, 0x7C, 0x44, 0xE0, 0x9A, 0x2D, 0x4C, 0x6B, 0x8E, 0x31, 0x5D, 0x0F, 0x2A, 0x96, 0xC7, 0xB8]

/-- The event record that carries a spike record: UUID, the CXL header, the record and zeros (R508). -/
def State.spikeEvent (s : State) (r : SpikeRec) : List Byte :=
  spikeUuid ++ freeOf s.free 32 ++ r.bytes ++ List.replicate 16 0

/-- Posts a record of severity warning or higher: to the fabric-owner link's Warning, Failure or Fatal log (1, 2, 3), and to
a tenant link that a T record names (R508). -/
def State.postRecord (s : State) (r : SpikeRec) : State :=
  if r.sev = 0 then s
  else
    let b := s.spikeEvent r
    let t := ({ s with free := s.free + 1 }).postEvent s.foLink r.sev b
    if codeOfTenant r.code && decide (r.p0.toNat < 32) && decide (r.p0.toNat ≠ s.foLink) then
      t.postEvent r.p0.toNat r.sev b
    else t

/-! ### Staging (R504, R505, R507) -/

/-- Stages a record with the next SERIAL and the current counts, raises RECORD and posts it (R504, R508, R515). -/
def State.stageRec (s : State) (e : Ev) (suppressed : Nat) : State :=
  let r : SpikeRec := { code := e.code, sev := sevOf e.code, opsec := s.opsec, cycles := s.clk.cycles, serial := s.spk.next
                        p0 := e.p0, p1 := e.p1, p2 := e.p2, p3 := e.p3, suppressed := suppressed }
  let none' := s.spk.staged.isEmpty && s.spk.ring.isEmpty
  let t := { s with spk := { s.spk with
    staged := s.spk.staged ++ [r], next := s.spk.next + 1, oldest := if none' then r.serial else s.spk.oldest } }
  let t := if s.liveFld .spk 0x50 1 0 ≤ r.sev then t.raise .spk 0 else t
  t.postRecord r

/-- The event of a code and two parameters. -/
def evOf (code p0 p1 p2 p3 : Nat) : Ev :=
  ⟨code, BitVec.ofNat 64 p0, BitVec.ofNat 64 p1, BitVec.ofNat 64 p2, BitVec.ofNat 64 p3⟩

/-- Stages the LOST record that is due once a slot is free (R507). -/
def State.stageLost (s : State) : State :=
  if 0 < s.spk.lostPending ∧ s.spk.staged.length < 4096 then
    (({ s with spk := { s.spk with lostPending := 0 } }).stageRec (evOf 1 s.spk.lostPending 0 0 0) 0)
  else s

/-- The limiter's entry for an event (R504). -/
def State.limitOf (s : State) (e : Ev) : Option Limit :=
  s.spk.limits.find? (fun (l : Limit) => decide (l.code = e.code) && decide (l.p0 = e.p0) && decide (l.p1 = e.p1))

/-- The limiter with an entry replaced. -/
def State.setLimit (s : State) (l : Limit) : State :=
  { s with spk := { s.spk with
    limits := s.spk.limits.filter (fun (x : Limit) => !(decide (x.code = l.code) && decide (x.p0 = l.p0) &&
      decide (x.p1 = l.p1))) ++ [l] } }

/-- Drops an event because staging is full, and counts it (R507). -/
def State.dropEvent (s : State) : State :=
  ({ s with spk := { s.spk with lost := sat 32 (s.spk.lost + 1), lostPending := s.spk.lostPending + 1 } }).raise .spk 1

/-- Takes an event into staging: a limited one at most once a second for its combination (R504), none where staging is full
(R507). -/
def State.takeEvent (s : State) (e : Ev) : State :=
  let lim := s.limitOf e
  let recent := match lim with
    | some l => e.limited && decide (s.now < l.at' + Config.sec)
    | none => false
  if recent then match lim with
    | some l => s.setLimit { l with repeats := l.repeats + 1 }
    | none => s
  else if 4096 ≤ s.spk.staged.length then s.dropEvent
  else
    let t := if e.limited then s.setLimit ⟨e.code, e.p0, e.p1, s.now, 0⟩ else s
    t.stageRec e (sat 16 ((lim.map (fun (l : Limit) => l.repeats)).getD 0))

/-- SPIKE_EVENT (R504, R505): the spike takes an event from the Event rail and stages a record; before it has found its
ring position the event is held apart. -/
def execSpikeEvent (s : State) : Host.Outcome State Fault Refusal :=
  if s.unclocked then .next s else
  match s.rails.event.take 1024 with
  | none => .next s
  | some (e, r) =>
    let t := { s with rails := { s.rails with event := r } }
    if t.spk.ringOk then .next (t.takeEvent e)
    else .next { t with spk := { t.spk with waiting := t.spk.waiting ++ [e] } }

/-! ### Ring pages (R505, R506) -/

/-- Fills the staged page with EMPTY records, which take serials (R505). -/
def State.padSpike (s : State) : State :=
  (List.range ((256 - s.spk.staged.length % 256) % 256)).foldl (fun t _ =>
    let r : SpikeRec := { code := 0, sev := 0, opsec := t.opsec, cycles := t.clk.cycles, serial := t.spk.next
                          p0 := 0, p1 := 0, p2 := 0, p3 := 0, suppressed := 0 }
    { t with spk := { t.spk with staged := t.spk.staged ++ [r], next := t.spk.next + 1 } }) s

/-- The line of a record of 64 B. -/
def SpikeRec.line (r : SpikeRec) : Line :=
  (r.bytes.zipIdx).foldl (fun (l : Line) e => l ||| ((e.1.setWidth 512 : Line) <<< (8 * e.2))) (0 : Line)

/-- The sector of up to four records (R505). -/
def spikeFour (rs : List SpikeRec) : Four :=
  let at' := fun (k : Nat) => (rs[k]?.map SpikeRec.line).getD 0
  ⟨at' 0, at' 1, at' 2, at' 3⟩

/-- The records of the next ring page to write: 256 staged ones beyond those under way (R505). -/
def State.spikeDue (s : State) : List SpikeRec := (s.spk.staged.drop (s.spk.writing * 256)).take 256

/-- The place in the ring of a record (R506). -/
def ringSlot (serial : BitVec 32) : Nat := serial.toNat % 262144

/-- The spike stripe of the page that waits for a position, else of the next page to write (R506). -/
def State.spikeStripe (s : State) : Nat :=
  let first := match s.stk.pages.find? (fun e => decide (e.2.stream = .spike) && decide (e.2.stage = .target)) with
    | some (_, p) => p.mark.getD 0
    | none => (((s.spikeDue).head?.map (fun (r : SpikeRec) => r.serial)).getD s.spk.next).toNat
  4 + first % 262144 / 131072

/-- A ring page has passed: its records, from a serial on, move from staging into the ring; a slot is free for the LOST
record that is due (R505, R507). -/
def State.ringPassed (s : State) (first : Nat) : State :=
  let mine := s.spk.staged.filter (fun (r : SpikeRec) => decide ((r.serial - BitVec.ofNat 32 first).toNat < 256))
  ({ s with spk := { s.spk with
    writing := if mine.isEmpty then s.spk.writing else s.spk.writing - 1
    staged := s.spk.staged.filter (fun (r : SpikeRec) => !decide ((r.serial - BitVec.ofNat 32 first).toNat < 256))
    ring := mine.foldl (fun m (r : SpikeRec) => m.put (ringSlot r.serial) r) s.spk.ring } }).stageLost

/-- The spike finds its ring position at a cold start (R506): the newest serial of the ring; the replayed records enter
staging first, then the held events in their order (R505). -/
def State.findRing (s : State) (replayed : List SpikeRec) : State :=
  let held := s.spk.ring.map (fun e => e.2) ++ replayed
  let newest := held.foldl (fun (m : Option (BitVec 32)) (r : SpikeRec) => match m with
    | none => some r.serial
    | some x => if (r.serial - x).toNat < 2 ^ 31 then some r.serial else m) none
  let next := match newest with
    | none => 0
    | some x => x + 1
  let oldest := held.foldl (fun (m : BitVec 32) (r : SpikeRec) => if (m - r.serial).toNat < 2 ^ 31 then r.serial else m)
    (newest.getD 0)
  let t := { s with spk := { s.spk with
    ringOk := true, staged := replayed, next := next, oldest := oldest, waiting := [], writing := 0 } }
  s.spk.waiting.foldl (fun u e => u.takeEvent e) t

/-! ### Reading (R510, R515) -/

/-- The records held, oldest first (R510). -/
def State.heldRecs (s : State) : List SpikeRec :=
  let age := fun (r : SpikeRec) => (s.spk.next - r.serial).toNat
  let ring := s.spk.ring.map (fun e => e.2)
  let late := ring.filter (fun (r : SpikeRec) => decide (r.serial.toNat % 262144 < s.spk.next.toNat % 262144))
  let early := ring.filter (fun (r : SpikeRec) => !decide (r.serial.toNat % 262144 < s.spk.next.toNat % 262144))
  (early ++ late).filter (fun (r : SpikeRec) => decide (age r ≤ 262144 + 4096)) ++ s.spk.staged

/-- The record of a serial. -/
def State.recOf (s : State) (serial : BitVec 32) : Option SpikeRec :=
  s.heldRecs.find? (fun (r : SpikeRec) => decide (r.serial = serial))

/-- The newest serial (R515). -/
def State.newestSerial (s : State) : BitVec 32 :=
  if s.spk.staged.isEmpty && s.spk.ring.isEmpty then 0 else s.spk.next - 1

/-- How far a serial lies from another, in either direction. -/
def serialGap (a b : BitVec 32) : Nat := min (a - b).toNat (b - a).toNat

/-- The held record nearest to a serial; of two as near, the earlier (R510). -/
def State.nearestRec (s : State) (x : BitVec 32) : Option SpikeRec :=
  s.heldRecs.foldl (fun (m : Option SpikeRec) (r : SpikeRec) => match m with
    | none => some r
    | some y => if serialGap r.serial x < serialGap y.serial x then some r else m) none

end Sys2Proof.Machine
end

