-- ==== Sys2Proof/Machine/Alarms.lean ====
section
/-!
DEFINITION. Security alarms (12_protection.md R366, R377) and the state of key slots at an access.
-/

namespace Sys2Proof.Machine

/-- Who made an access that raised an alarm, and where (12 R377). -/
structure Access where
  slot : Nat
  recorded : Nat
  requester : Nat
  slice : Nat
  saddr : Nat
deriving DecidableEq, Repr

/-- The IRQ bit of an alarm kind (12 R376). -/
def alarmBit : Nat → Nat
  | 1 => 0
  | 3 => 1
  | 4 => 2
  | 5 => 3
  | 6 => 4
  | _ => 7

/-- The event of an alarm, by its requester (12 R377, 18 R492, R493). -/
def State.alarmEv (s : State) (requester : Nat) : TEv :=
  if 64 ≤ requester then s.chanEv 0x072 (requester - 64) none
  else if requester < 32 then s.linkEv 0x072 requester none none
  else ⟨0x072, some true, match requester with
    | 33 => some (4, 3)
    | 34 => some (4, 0)
    | 35 => some (4, 1)
    | 36 => some (3, 0)
    | _ => none, none, none⟩

/-- Raises a security alarm: the capture words, the counts, the IRQ bit, the tally and the record (12 R366, R376,
R377). -/
def State.alarm (s : State) (kind : Nat) (a : Access) : State :=
  let who := if 64 ≤ a.requester then 32 else a.requester
  let w0 := at32 kind 0 ||| at32 (a.slot % 1024) 4 ||| at32 (a.recorded % 1024) 14 ||| at32 who 24
  let w1 := BitVec.ofNat 32 a.slice
  let w2 := at32 (a.slice / 2 ^ 32 % 32) 0 ||| at32 (a.saddr / 2 ^ 32 % 64) 5
  let w3 := BitVec.ofNat 32 a.saddr
  let t := (((s.setLive .key 0x20 w0).setLive .key 0x24 w1).setLive .key 0x28 w2).setLive .key 0x2C w3
  let t := { t with prot := { t.prot with
    integrity := if kind = 1 then sat 16 (t.prot.integrity + 1) else t.prot.integrity
    other := if 3 ≤ kind then sat 16 (t.prot.other + 1) else t.prot.other } }
  let t := if alarmBit kind < 7 then t.raise .key (alarmBit kind) else t
  let t := t.tally (s.alarmEv a.requester) 1
  t.record 0x6001 who kind (w0.toNat + w1.toNat * 2 ^ 32) (w2.toNat + w3.toNat * 2 ^ 32)

/-- Whether a key slot is LOADED for an access (12 R355, R363 step 3): no vault write of a generation is pending. -/
def State.loaded (s : State) (n : Nat) : Bool := decide ((s.slot n).state = 1)

end Sys2Proof.Machine
end

