-- ==== Sys2Proof/Machine/Ladles.lean ====
section
/-!
DEFINITION. The ladle caches (08_read_path_and_pass.md R233 to R245): lookups, fills, updates, invalidations, and the
commands on their registers but zero-a-line.
-/

namespace Sys2Proof.Machine

/-- Locked ways of ladle `p` (R241). -/
def State.lockWays (s : State) (p : Nat) : Nat := s.liveFld (.ldl p) 0x4C 15 0

/-- Whether a line lies in the lock range of ladle `p` (R241). -/
def State.inLock (s : State) (p line : Nat) : Bool :=
  let l := line / 1024
  let b := s.liveFld (.ldl p) 0x50 28 0
  decide (b ≤ l) && decide (l < b + s.liveFld (.ldl p) 0x54 29 0)

/-- The way keys of the set of a line (R233). -/
def setWays (line : Nat) : List Nat := (List.range 16).map (fun w => line % 4096 * 16 + w)

/-- Way `k` of a ladle. -/
def Ladle.way (l : Ladle) (k : Nat) : Way := l.ways.getD k .empty

/-- Writes way `k`. -/
def Ladle.setWay (l : Ladle) (k : Nat) (w : Way) : Ladle := { l with ways := l.ways.set .empty k w }

/-- The way of the array whose tag is a line, in a state a test admits. -/
def Ladle.find (l : Ladle) (line : Nat) (p : Way → Bool) : Option Nat :=
  (setWays line).find? (fun k => decide ((l.way k).line = line) && p (l.way k))

/-- The data a lookup hits: an enabled ladle, a VALID way or a victim-buffer entry with the line and key slot
(R233, R235, R239). -/
def Ladle.hit (l : Ladle) (line keyslot : Nat) : Option Line :=
  if l.enabled then
    match l.find line (fun w => decide (w.state = .valid) && decide (w.keyslot = keyslot)) with
    | some k => some (l.way k).data
    | none => (l.victims.find? (fun v => decide (v.1 = line) && decide (v.2.1 = keyslot))).map (·.2.2)
  else none

/-- Makes a way the youngest of the unlocked ways of its set (R238). -/
def Ladle.touch (l : Ladle) (locks k : Nat) : Ladle :=
  let a := (l.way k).age
  let l1 := (setWays (k / 16)).foldl
    (fun m j => if decide (j ≠ k) && decide ((m.way j).age < a) && !locks.testBit (j % 16) then
        m.setWay j { m.way j with age := (m.way j).age + 1 } else m) l
  l1.setWay k { l1.way k with age := 0 }

/-- A way whose line is invalidated: a locked one stays HELD with its tag, another becomes INVALID (R242). -/
def dropWay (locks k : Nat) (w : Way) : Way :=
  if locks.testBit (k % 16) then { w with state := .held, data := 0 } else { w with state := .invalid, data := 0 }

/-- Ways in HELD among the locked ways (R242, R247). -/
def Ladle.heldCount (l : Ladle) : Nat := countIf (fun e => decide (e.2.state = .held)) l.ways

/-- Invalidates a line: array, victim buffer and fill entries (R32, R237, R239, R242). -/
def Ladle.invalidate (l : Ladle) (locks line : Nat) : Ladle :=
  let l1 := match l.find line (fun w => decide (w.state = .valid)) with
    | some k => l.setWay k (dropWay locks k (l.way k))
    | none => l
  { l1 with
    victims := l1.victims.filter (fun v => decide (v.1 ≠ line))
    fills := l1.fills.mapVal (fun _ f => if f.line = line then { f with void := true } else f) }

/-- Raises IRQ.HELD of ladle `p` when the count of HELD ways rises from 0 (R242). -/
def State.heldIrq (before : Nat) (p : Nat) (s : State) : State :=
  if before = 0 ∧ 0 < (s.ladle p).heldCount then s.raise (.ldl p) 3 else s

/-- Invalidates a line in ladle `p`; a disabled ladle applies nothing (R240). -/
def State.ladleInvalidate (s : State) (p line : Nat) : State :=
  if (s.ladle p).enabled then
    (s.updLadle p (fun l => l.invalidate (s.lockWays p) line)).heldIrq (s.ladle p).heldCount p
  else s

/-- The issuing port's ladle at acceptance: it merges the bytes into its copy of the line where the key slots agree and
the write carries no poison, and else invalidates it (R25, R237). A fill pending for the line is void (R32). -/
def State.ladleUpdate (s : State) (p line keyslot : Nat) (data : Line) (mask : Mask) (poison : Bool) : State :=
  let l := s.ladle p
  if !l.enabled then s
  else
    let okArr := l.find line (fun w => decide (w.state = .valid))
    let same := match okArr with
      | some k => decide ((l.way k).keyslot = keyslot)
      | none => l.victims.all (fun v => decide (v.1 ≠ line) || decide (v.2.1 = keyslot))
    if poison || !same then s.ladleInvalidate p line
    else
      s.updLadle p (fun l =>
        let l1 := match okArr with
          | some k => l.setWay k { l.way k with data := mergeLine (l.way k).data data mask }
          | none => l
        { l1 with
          victims := l1.victims.map (fun v => if v.1 = line then (v.1, v.2.1, mergeLine v.2.2 data mask) else v)
          fills := l1.fills.mapVal (fun _ f => if f.line = line then { f with void := true } else f) })

/-- Whether way `k` of a ladle is in a state. -/
def Ladle.isState (l : Ladle) (k : Nat) (st : WState) : Bool := decide ((l.way k).state = st)

/-- The way a fill takes (R233, R238): the way of a copy under another key slot; a HELD locked way of the line; in the
lock range the lowest INVALID locked way; the lowest INVALID unlocked way; the oldest unlocked VALID way. -/
def Ladle.chooseWay (l : Ladle) (locks line : Nat) (inRange : Bool) : Option Nat :=
  let ks := setWays line
  let locked := fun k => locks.testBit (k % 16)
  let old := ks.filter (fun k => !locked k && l.isState k .valid)
  let oldest := old.foldl (fun (b : Option Nat) k => match b with
    | none => some k
    | some j => if (l.way j).age < (l.way k).age then some k else some j) none
  (l.find line (fun w => decide (w.state = .valid))).or <|
  (ks.find? (fun k => locked k && l.isState k .held && decide ((l.way k).line = line))).or <|
  (if inRange then ks.find? (fun k => locked k && l.isState k .invalid) else none).or <|
  (ks.find? (fun k => !locked k && l.isState k .invalid)).or oldest

/-- A displaced VALID line enters the oldest slot of the 32-entry victim buffer (R239). -/
def Ladle.toVictims (l : Ladle) (w : Way) (line : Nat) : Ladle :=
  if w.state = .valid ∧ w.line ≠ line then
    { l with victims := (l.victims ++ [(w.line, w.keyslot, w.data)]).drop (l.victims.length + 1 - 32) }
  else l

/-- Takes a way for a fill of a line: it stands FILLING until the data returns (R234). Where every unlocked way of the set is
FILLING the fill gets no way, and its line is not allocated (DESIGN CHOICE, log entry 110). -/
def Ladle.reserve (l : Ladle) (locks line keyslot : Nat) (inRange : Bool) : Ladle × Option Nat :=
  match l.chooseWay locks line inRange with
  | none => (l, none)
  | some k =>
    let w := l.way k
    ((l.toVictims w line).setWay k { w with state := .filling, line := line, keyslot := keyslot, data := 0 }, some k)

/-- A fill entry that a load of a line may join: the same line and key slot, not void (R234). -/
def Ladle.fillFor (l : Ladle) (line keyslot : Nat) : Option Nat :=
  (l.fills.find? (fun e => decide (e.2.line = line) && decide (e.2.keyslot = keyslot) && !e.2.void)).map (·.1)

/-- Takes a fill entry for a missing load: none while the ladle is disabled or all 128 are in use (R234, R236). -/
def State.openFill (s : State) (p line keyslot : Nat) : State × Option Nat :=
  let l := s.ladle p
  if !l.enabled || decide (128 ≤ l.fills.length) then (s, none)
  else
    let i := lowestGap 0 l.fills
    let r := l.reserve (s.lockWays p) line keyslot (s.inLock p line)
    (s.updLadle p (fun _ => { r.1 with fills := r.1.fills.put i ⟨line, keyslot, false, r.2⟩ }), some i)

/-- Gives up the copy of a line that another fill has put into the ladle meanwhile, under another key slot: a ladle holds at most one copy
of a line (R233). -/
def Ladle.forget (l : Ladle) (locks line : Nat) : Ladle :=
  let l1 := match l.find line (fun w => decide (w.state = .valid)) with
    | some k => l.setWay k (dropWay locks k (l.way k))
    | none => l
  { l1 with victims := l1.victims.filter (fun v => decide (v.1 ≠ line)) }

/-- Ends a fill: where its entry is not void and the data may be allocated, its way takes the line; else the way goes
back to HELD (locked) or INVALID (R32, R236, R242). -/
def State.closeFill (s : State) (p i : Nat) (data : Option Line) : State :=
  let l := s.ladle p
  match l.fills.find i with
  | none => s
  | some f =>
    let locks := s.lockWays p
    let l1 := { l with fills := l.fills.del i }
    let l2 := match f.way with
      | none => l1
      | some k =>
        if (l1.way k).state ≠ .filling ∨ (l1.way k).line ≠ f.line then l1
        else match (if f.void || !l.enabled then none else data) with
          | some d =>
            let l2 := l1.forget locks f.line
            (l2.setWay k { l2.way k with state := .valid, data := d }).touch locks k
          | none => l1.setWay k (dropWay locks k (l1.way k))
    (s.updLadle p (fun _ => l2)).heldIrq l.heldCount p

/-- Allocates a line at once, without a fill entry, in place of a copy in the victim buffer: a zero-a-line write (R239, R244). -/
def State.allocLine (s : State) (p line keyslot : Nat) (data : Line) : State :=
  let l := s.ladle p
  if !l.enabled then s
  else
    let locks := s.lockWays p
    let r := { l with victims := l.victims.filter (fun v => decide (v.1 ≠ line)) }.reserve locks line keyslot (s.inLock p line)
    s.updLadle p (fun _ => match r.2 with
      | none => r.1
      | some k => (r.1.setWay k ⟨.valid, line, keyslot, data, (r.1.way k).age⟩).touch locks k)

/-- A full invalidation: every way INVALID, locked ways included, the victim buffer empty, every fill void (R243). -/
def Ladle.clear (l : Ladle) : Ladle :=
  { l with
    ways := l.ways.keep (fun _ w => decide (w.state = .filling))
    victims := []
    fills := l.fills.mapVal (fun _ f => { f with void := true }) }

/-- A ranged invalidation over a test of the line: locked ways become HELD (R242, R243). -/
def Ladle.clearRange (l : Ladle) (locks : Nat) (p : Nat → Bool) : Ladle :=
  { l with
    ways := (l.ways.mapVal (fun k w => if p w.line && decide (w.state = .valid) then dropWay locks k w else w)).keep
      (fun _ w => decide (w ≠ .empty))
    victims := l.victims.filter (fun v => !p v.1)
    fills := l.fills.mapVal (fun _ f => if p f.line then { f with void := true } else f) }

/-- Empties a ladle at the ordering point of an invalidation of a range of loaves; a size of 0 is every line (R243). -/
def State.ladleRange (s : State) (p base size : Nat) : State :=
  let n := (s.ladle p).heldCount
  let t := s.updLadle p (fun l => if size = 0 then l.clear
    else l.clearRange (s.lockWays p) (fun line => decide (base ≤ line / 1024) && decide (line / 1024 < base + size)))
  t.heldIrq n p

/-- A COMMIT that changes the lock registers turns every HELD way INVALID, and the VALID lines of ways that become
unlocked are the oldest of the age order (R242). -/
def State.ladleRelock (s : State) (p old : Nat) : State :=
  let locks := s.lockWays p
  s.updLadle p (fun l => { l with
    ways := (l.ways.mapVal (fun k w =>
      if w.state = .held then { w with state := .invalid }
      else if old.testBit (k % 16) && !locks.testBit (k % 16) then { w with age := 15 } else w)) })

/-- LADLE_INVALIDATE: ladle `p` takes an invalidation off its rail and removes the line (R22, R237). -/
def execLadleInvalidate (p : Fin 8) (s : State) : Host.Outcome State Fault Refusal :=
  if s.unclocked then .next s else
  match (s.rails.invalidate.getD p.val .empty).take 256 with
  | none => .next s
  | some (line, r) =>
    let rs := s.rails.invalidate.set .empty p.val r
    .next (({ s with
      rails := { s.rails with invalidate := rs }
      ports := { s.ports with applied := s.ports.applied.upd 0 p.val (· + 1) } }).ladleInvalidate p.val line)

end Sys2Proof.Machine
end

