-- ==== Sys2Proof/Machine/Map.lean ====
section
/-!
DEFINITION. The sieve's operations on the map: journal records, promotion, map switches, discard and poison, and the
demotion queue (04_translation.md R127 to R137, R144, R145).
-/

namespace Sys2Proof.Machine

/-! ### The journal (04 R134, R137) -/

/-- KIND of a record. -/
def JKind.code : JKind → Nat
  | .pad => 0
  | .sliceMap => 1
  | .loafMap => 2
  | .promote => 3
  | .discard => 4
  | .poison => 5
  | .flushMark => 6
  | .cursor => 7
  | .onDeck => 8
  | .ckptStart => 9
  | .ckptEnd => 10
  | .reserved k => 11 + k.val

/-- The 128 bits of a record (04 R137). -/
def JRec.bits (r : JRec) : BitVec 128 :=
  BitVec.ofNat 128 (r.kind.code + r.unit % 2 ^ 37 * 2 ^ 4 + r.loc % 2 ^ 38 * 2 ^ 41 + r.seq.toNat * 2 ^ 79)

/-- Records the staging area has room for (04 R134). -/
def stagingSize : Nat := 262144

/-- Stages a journal record and places it on the Map journal rail (04 R134). -/
def State.stage (s : State) (r : JRec) : State :=
  let rl := s.rails.journal.push 4096 r 0
  { s with
    siv := { s.siv with
      staging := s.siv.staging ++ [r], recTotal := s.siv.recTotal + 1,
      recordsSinceMark := s.siv.recordsSinceMark + 1 }
    rails := { s.rails with journal := rl } }

/-- The sieve assigns the next sequence value (04 R133). -/
def State.nextSeq (s : State) : BitVec 48 × State :=
  (s.siv.seq + 1, { s with siv := { s.siv with seq := s.siv.seq + 1 } })

/-- Map-stack offset of a loaf entry (04 R136). -/
def loafOff (l : Nat) : Nat := l * 8
/-- Map-stack offset of a slice entry. -/
def sliceOff (b k : Nat) : Nat := 0x100000000 + b * 2048 + k * 8

/-- The unit ID of the map-stack row that holds an offset: the stack is bit [12], the row the stack-local offset >> 13
(13 R381, 14 R397). -/
def rowId (off : Nat) : Nat := off / 2 ^ 14 + off / 2 ^ 12 % 2 * 2 ^ 21

/-- Whether a map-stack line that a slice's lookup or update needs is locked for reconstruction (04 R136, 13 R388): the
line of its loaf entry, or of its slice entry. -/
def State.lockedUnit (s : State) (slice : Nat) : Bool :=
  s.mec.locked.contains (loafOff (slice / 256) / 64) ||
    (decide ((s.loaf (slice / 256)).fmt = 2) &&
      s.mec.locked.contains (sliceOff (s.loaf (slice / 256)).loc (slice % 256) / 64))

/-- The sets of the entry cache (R123). -/
def cacheSets : Nat := 20480

/-- A lookup uses the cache line of eight entries at a map-stack offset (R123): it becomes the most recently used of its set's 16 ways,
after a fill from the map stacks where it was not there, which drops the least recently used. -/
def State.cacheLine (s : State) (off : Nat) : State :=
  let x := off / 64
  { s with siv := { s.siv with
    cache := s.siv.cache.upd [] (x % cacheSets) (fun ways => (x :: ways.filter (fun y => decide (y ≠ x))).take 16) } }

/-- What a lookup of a slice does to the entry cache (R122, R123): the line of its loaf entry, then that of its slice entry. -/
def State.cacheLookup (s : State) (slice : Nat) : State :=
  let e := s.loaf (slice / 256)
  let t := s.cacheLine (loafOff (slice / 256))
  if e.fmt = 2 then t.cacheLine (sliceOff e.loc (slice % 256)) else t

/-! ### Old copies -/

/-- Retires a sector address: its block's valid count falls, and the record that moved the data is noted against the
plane block until a durable flush mark covers it (04 R135): it is the next record staged. -/
def State.retireAddr (s : State) (a : Nat) : State :=
  let t := s.dropValid a
  { t with med := { t.med with moved := t.med.moved.put (pbOfAddr a) (t.siv.recTotal + 1) } }

/-- Retires the address a slice entry points at. -/
def State.retireEntry (s : State) (e : SliceE) : State := if e.fmt = 1 then s.retireAddr e.saddr else s

/-- Retires the 256 addresses of a loaf quad. -/
def State.retireQuad (s : State) (quad : Nat) : State :=
  (List.range 256).foldl (fun t k => t.retireAddr (quad * 256 + k)) s

/-- Retires every copy of a loaf. -/
def State.retireLoaf (s : State) (l : Nat) : State :=
  let e := s.loaf l
  if e.fmt = 1 then s.retireQuad e.loc
  else if e.fmt = 2 then (List.range 256).foldl (fun t k => t.retireEntry (t.sliceE e.loc k)) s
  else s

/-! ### Slice blocks -/

/-- Percent thresholds of SIV_PROMOTE: promote_heat (0 is 1), OPEN, DEMOTE_HI, DEMOTE_LO (04 R148). -/
def State.promoteHeat (s : State) : Nat := max 1 (s.liveFld .siv 0x44 5 0)
/-- OPEN of SIV_PROMOTE. -/
def State.openPct (s : State) : Nat := s.liveFld .siv 0x44 14 8
/-- DEMOTE_HI of SIV_PROMOTE. -/
def State.demoteHi (s : State) : Nat := s.liveFld .siv 0x44 22 16
/-- DEMOTE_LO of SIV_PROMOTE. -/
def State.demoteLo (s : State) : Nat := s.liveFld .siv 0x44 30 24

/-- Inserts a loaf in ascending heat, ties by ascending loaf index (04 R132). -/
def insertHeat (h l : Nat) : List (Nat × Nat) → List (Nat × Nat)
  | [] => [(h, l)]
  | (h', l') :: xs => if h < h' ∨ (h = h' ∧ l < l') then (h, l) :: (h', l') :: xs else (h', l') :: insertHeat h l xs

/-- Whether occupancy of the slice blocks exceeds DEMOTE_HI percent (04 R132). -/
def State.aboveDemote (s : State) : Bool := decide (s.demoteHi * sliceBlocks < s.siv.blocksUsed.length * 100)

/-- Queues demotions while occupancy is above DEMOTE_HI, until the queued loaves would bring it below DEMOTE_LO
(04 R132). -/
def State.queueDemotions (s : State) : State :=
  if !s.aboveDemote then s
  else
    let c := (s.siv.loafs.filter (fun e => decide (e.2.fmt = 2) && !s.siv.demote.contains e.1)).foldl
      (fun a e => insertHeat e.2.heat e.1 a) []
    let need := s.siv.blocksUsed.length - s.siv.demote.length - (s.demoteLo * sliceBlocks + 99) / 100 + 1
    { s with siv := { s.siv with demote := s.siv.demote ++ (c.take need).map (·.2) } }

/-- Allocates a slice block to a loaf; the interrupts follow occupancy (04 R128, R148). -/
def State.allocBlock (s : State) : Nat × State :=
  let b := gapOf 0 s.siv.blocksUsed
  let before := s.aboveDemote
  let t := { s with siv := { s.siv with blocksUsed := insertNat b s.siv.blocksUsed } }
  let t := if !before && t.aboveDemote then t.raise .siv 0 else t
  let t := t.queueDemotions
  let t := if t.freeBlocks = 0 then t.raise .siv 1 else t
  (b, t)

/-- Frees a loaf's slice block and its entries. -/
def State.freeBlock (s : State) (b : Nat) : State :=
  { s with siv := { s.siv with
    blocksUsed := s.siv.blocksUsed.filter (fun x => x != b)
    slices := s.siv.slices.keep (fun k _ => decide (k / 256 ≠ b)) } }

/-- Promotes a loaf to slice mapping (04 R128): a block is allocated, its entries take the quad's addresses or are
unmapped, and a PROMOTE record is staged. -/
def State.promote (s : State) (l : Nat) : State :=
  let e := s.loaf l
  let a := s.allocBlock
  let b := a.1
  let t := if e.fmt = 1 then
      (List.range 256).foldl (fun t k => t.setSliceE b k ⟨1, e.loc * 256 + k, 0⟩) a.2
    else a.2
  (t.setLoaf l { e with fmt := 2, loc := b }).stage ⟨.promote, l * 256, b, t.siv.seq⟩

/-- Whether journal staging has room for `n` more records (04 R134). -/
def State.stagingRoom (s : State) (n : Nat) : Bool := decide (s.siv.staging.length + n ≤ stagingSize)

/-- Promotes a loaf unless it is slice-mapped, for a change that stages one record more; none where no slice block is free, or
no room for the records (04 R128, R134). -/
def State.toSlices (s : State) (l : Nat) : Option State :=
  if !s.stagingRoom 2 then none
  else if (s.loaf l).fmt = 2 then some s else if s.freeBlocks = 0 then none else some (s.promote l)

/-! ### Map switches -/

/-- Points a slice of a slice-mapped loaf at a sector address and journals it (04 R128, R134). -/
def State.mapSlice (s : State) (slice addr : Nat) (seq : BitVec 48) : State :=
  let e := s.loaf (slice / 256)
  let old := s.sliceE e.loc (slice % 256)
  (((s.setSliceE e.loc (slice % 256) ⟨1, addr, 0⟩).addValid addr).retireEntry old).stage ⟨.sliceMap, slice, addr, seq⟩

/-- Points a loaf at a quad; its slice block is freed; HEAT becomes 0 unless a fold keeps it (04 R126). -/
def State.mapLoaf (s : State) (l quad : Nat) (seq : BitVec 48) (keepHeat : Bool) : State :=
  let e := s.loaf l
  let t := s.retireLoaf l
  let t := if e.fmt = 2 then t.freeBlock e.loc else t
  let t := t.setLoaf l ⟨1, quad, if keepHeat then e.heat else 0, false⟩
  let t := (List.range 256).foldl (fun t k => t.addValid (quad * 256 + k)) t
  { (t.stage ⟨.loafMap, l * 256, quad * 256, seq⟩) with
    siv := { (t.stage ⟨.loafMap, l * 256, quad * 256, seq⟩).siv with
      demote := t.siv.demote.filter (fun x => x != l) } }

/-- Poisons lines of a slice: the entry becomes FMT 2, or its mask grows (04 R137, KIND 5). The loaf is slice-mapped. -/
def State.poisonSlice (s : State) (slice : Nat) (mask : BitVec 4) : State :=
  let e := s.loaf (slice / 256)
  let old := s.sliceE e.loc (slice % 256)
  let m := if old.fmt = 2 then old.poison ||| mask else mask
  ((s.setSliceE e.loc (slice % 256) ⟨2, 0, m⟩).retireEntry old).stage ⟨.poison, slice, mask.toNat, s.siv.seq⟩

/-- Discards a slice of a slice-mapped loaf. -/
def State.discardSlice (s : State) (slice : Nat) : State :=
  let e := s.loaf (slice / 256)
  let old := s.sliceE e.loc (slice % 256)
  (s.setSliceE e.loc (slice % 256) .unmapped).retireEntry old

/-- Discards a whole loaf: FMT 0, its slice block freed; its HEAT and BUSY stay (04 R129, R131, R144). -/
def State.discardLoaf (s : State) (l : Nat) : State :=
  let e := s.loaf l
  let t := s.retireLoaf l
  let t := if e.fmt = 2 then t.freeBlock e.loc else t
  t.setLoaf l { e with fmt := 0, loc := 0 }

/-- The address where a slice's data lies on media, where it has a copy. -/
def State.addrOf (s : State) (slice : Nat) : Option Nat :=
  match s.lookup slice 0 with
  | .sector a => some a
  | _ => none

/-- The HOME answer of a lookup (04 R122): no copy for zeros or poison, else a copy. -/
def State.homeOf (s : State) (slice : Nat) : Home :=
  if (s.addrOf slice).isSome then .copy else .noCopy

end Sys2Proof.Machine
end

