-- ==== Sys2Proof/Machine/Stockpot.lean ====
section
/-!
DEFINITION. Acceptance into the stockpot (03_stockpot.md R94 to R99, R106, R109 to R112), the ingress queues'
acknowledgement (R88, R89), and the stockpot's own commands.
-/

namespace Sys2Proof.Machine

/-! ### One accepted write -/

/-- A write offered to the stockpot: its line DPA[44:6], data, byte mask, key slot, poison, the link its frames count
against, the port whose ladle is updated (none for a whisk), whether the landing reserve may take it, and its tally
event's master. -/
structure WriteIn where
  line : Nat
  data : Line
  mask : Mask
  keyslot : Nat
  poison : Bool
  link : Nat
  port : Option Nat
  landing : Bool
  master : Option (Nat × Nat)
  fo : Bool
  coherent : Bool
deriving DecidableEq, Repr

/-- The slice DPA[44:8] of a line. -/
def sliceOfLine (line : Nat) : Nat := line / 4

/-- Byte-mask entries in use (03 R97). -/
def State.maskOcc (s : State) : Nat :=
  (s.stk.frames.map (fun e => (if e.2.mask0 = 0 then 0 else 1) + (if e.2.mask1 = 0 then 0 else 1) +
    (if e.2.mask2 = 0 then 0 else 1) + (if e.2.mask3 = 0 then 0 else 1))).sum

/-- Host-share frames allocated by a link (03 R111). -/
def State.linkFrames (s : State) (n : Nat) : Nat :=
  countIf (fun e => hostRegion.has e.1 && decide (e.2.link = n)) s.stk.frames

/-- Whether a link has reached its cap, in MiB of 4,096 frames; 0 is no cap (03 R110, R111, R117). -/
def State.capped (s : State) (n : Nat) : Bool :=
  let c := s.liveFld .stk (0x180 + n * 4) 6 0
  decide (0 < c) && decide (min c 96 * 4096 ≤ s.linkFrames n)

/-- Merges a write into line `n` of a frame (03 R96, R97, R99, R106). -/
def Frame.write (f : Frame) (n : Nat) (w : WriteIn) : Frame :=
  let redirty := f.redirty || decide (f.state = .snapshot) || decide (f.state = .programming)
  let old := f.data.get n
  let whole := decide (w.mask = fullMask)
  let valid := f.valid.getLsbD n
  let bit := BitVec.ofNat 4 (2 ^ n)
  let g := { f with keyslot := w.keyslot, redirty := redirty }
  if whole then
    let g := { g with data := g.data.set n w.data, valid := g.valid ||| bit, held := false }.setMask n 0
    { g with poison := if w.poison then g.poison ||| bit else g.poison &&& ~~~ bit }
  else
    let poison := if w.poison then g.poison ||| bit else g.poison
    if valid then { g with data := g.data.set n (mergeLine old w.data w.mask), poison := poison }
    else if f.home = .noCopy then
      { g with data := g.data.set n (mergeLine 0 w.data w.mask), valid := g.valid ||| bit, poison := poison }.setMask n 0
    else
      let m := f.maskOf n ||| w.mask
      let g := { g with data := g.data.set n (mergeLine old w.data w.mask), poison := poison }
      if m = fullMask then { g with valid := g.valid ||| bit }.setMask n 0 else g.setMask n m

/-- Keeps the MASKED bit equal to 'some line has a byte-mask entry' (03 R93). -/
def Frame.fixMasked (f : Frame) : Frame :=
  { f with masked := decide (f.mask0 ≠ 0) || decide (f.mask1 ≠ 0) || decide (f.mask2 ≠ 0) || decide (f.mask3 ≠ 0) }

/-- Completes the masked lines of a frame with zeros, when HOME resolves to 'no media copy' (03 R97). -/
def Frame.zeroComplete (f : Frame) : Frame :=
  ((List.range 4).foldl (fun g n =>
    if g.maskOf n = 0 then g
    else { g with
      data := g.data.set n (mergeLine 0 (g.data.get n) (g.maskOf n))
      valid := g.valid ||| BitVec.ofNat 4 (2 ^ n) }.setMask n 0) f).fixMasked

/-- Invalidates a line in the other ports' ladles: a command on each one's Invalidate rail (01 R22 step 5). -/
def State.postInvalidates (s : State) (port : Option Nat) (line : Nat) : State :=
  (List.range 8).foldl (fun t p =>
    if port = some p then t
    else
      let rs := t.rails.invalidate.upd .empty p (fun r => r.push 256 line 0)
      { t with
        rails := { t.rails with invalidate := rs }
        ports := { t.ports with posted := t.ports.posted.upd 0 p (· + 1) } }) s

/-- Invalidates a coherent line in the other ports' ladles before its write counts as accepted (10 R306). -/
def State.invalidateOthers (s : State) (port : Option Nat) (line : Nat) : State :=
  (List.range 8).foldl (fun t p => if port = some p then t else t.ladleInvalidate p line) s

/-- The interrupts of host-share occupancy: FULL, ABOVE_HI (03 R117). -/
def State.occIrq (before : State) (s : State) : State :=
  let t := if s.aboveHi && !before.aboveHi then s.raise .stk 1 else s
  if before.used hostRegion < hostRegion.size ∧ s.used hostRegion = hostRegion.size then t.raise .stk 0 else t

/-- Allocates the frame a write needs: the host share, or the landing reserve where it may be used (03 R94, R110,
R112). None where the write must wait. -/
def State.frameFor (s : State) (w : WriteIn) : Option Nat :=
  match (if s.capped w.link && !w.landing then none else s.freeIn hostRegion) with
  | some f => some f
  | none => if w.landing then s.freeIn landingRegion else none

/-- Poisons the lines an accepted write touches in pantry bare, its data discarded (07 R226): the map takes a POISON
record, or, with no slice block free, the frame stays resident, held. -/
def State.pantryWrite (s : State) (w : WriteIn) : Option State :=
  let sl := sliceOfLine w.line
  let bit := BitVec.ofNat 4 (2 ^ (w.line % 4))
  let note := fun (t : State) => t.record 0x2003 sl bit.toNat 0 0
  match s.resident sl with
  | some f => some (note (s.updFrame f (fun x =>
      ({ x with poison := x.poison ||| bit, valid := x.valid ||| bit }.setMask (w.line % 4) 0).fixMasked)))
  | none => match s.toSlices (sl / 256) with
    | some t => some (note (t.poisonSlice sl bit))
    | none => match s.frameFor w with
      | none => none
      | some f => some (note (s.setFrame f { Frame.free with
          slice := sl, keyslot := w.keyslot, valid := bit, poison := bit, home := s.homeOf sl, state := .resident,
          link := w.link, since := s.now, held := true }))

/-- Accepts a write: into the resident slice, or into a new frame whose HOME lookup is queued at priority 6 (03 R94,
R96, R97). None where it must wait: no frame, or no byte-mask entry free. A write that link-down, GPF Phase 2 or Flush
requires to be accepted does not wait for a byte-mask entry (log entry 86). -/
def State.acceptData (s : State) (w : WriteIn) : Option State :=
  let sl := sliceOfLine w.line
  let n := w.line % 4
  match s.resident sl with
  | some f =>
    let x := s.frame f
    let needs := decide (w.mask ≠ fullMask) && !x.valid.getLsbD n && decide (x.home ≠ .noCopy) &&
      decide (x.maskOf n = 0)
    if needs && decide (8192 ≤ s.maskOcc) && !w.landing then none
    else
      let t := s.updFrame f (fun x => { (x.write n w).fixMasked with erased := x.erased && !s.loaded w.keyslot })
      some (if s.maskOcc < 8192 ∧ t.maskOcc = 8192 then t.raise .stk 3 else t)
  | none =>
    if decide (w.mask ≠ fullMask) && decide (8192 ≤ s.maskOcc) && !w.landing then none
    else match s.frameFor w with
      | none => none
      | some f =>
        let fr := { Frame.free with slice := sl, state := .resident, link := w.link, since := s.now }
        let t := s.setFrame f ((fr.write n w).fixMasked)
        let t := t.translate (sl % 4) (.home f) 6
        some (if s.maskOcc < 8192 ∧ t.maskOcc = 8192 then t.raise .stk 3 else t)

/-- The write as its key slot lets it in (12 R363): under a slot that is not LOADED its data is discarded and the lines
it touches are poisoned. -/
def State.keyWrite (s : State) (w : WriteIn) : WriteIn :=
  if s.loaded w.keyslot then w else { w with data := 0, poison := true }

/-- The NOKEY alarm of an accepted write whose slot is not LOADED (12 R363). -/
def State.writeAlarm (s : State) (w : WriteIn) : State :=
  if s.loaded w.keyslot then s
  else s.alarm 3 ⟨w.keyslot, w.keyslot, match w.master with
    | some (2, c) => 64 + c
    | some (3, _) => 36
    | some (4, _) => 36
    | _ => w.link, w.line / 4, 0⟩

/-- Accepts one write with everything that goes with acceptance: the issuing port's ladle, the invalidations of the
others, the tally, the occupancy interrupts (01 R22, R25, 03 R96, 08 R237). -/
def State.accept (s : State) (w0 : WriteIn) : Option State :=
  let w := s.keyWrite w0
  match (if s.upk.pantry then s.pantryWrite w else s.acceptData w) with
  | none => none
  | some t =>
    let poison := w.poison || s.upk.pantry
    let t := match w.port with
      | some p => t.ladleUpdate p w.line w.keyslot w.data w.mask poison
      | none => t
    let t := if w.coherent then t.invalidateOthers w.port w.line else t.postInvalidates w.port w.line
    let t := t.tally ⟨0x010, some w.fo, w.master, some w.line, some (if w.master.map (·.1) = some 2 then 4 else 5)⟩ 1
    let t := if w.master.map (·.1) = some 2 then t.tally ⟨0x051, some w.fo, w.master, some w.line, none⟩ 1 else t
    some (s.occIrq (t.writeAlarm w0))

/-! ### Ingress queues -/

/-- Whether sequence `a` is later than `b`, modulo 2^16 (03 R89). -/
def seqLater (a b : BitVec 16) : Bool :=
  let d := (a - b).toNat
  decide (0 < d) && decide (d < 2 ^ 15)

/-- Places the descriptors of committed entries that are not on the Accept rail yet on it, in order, while it has room
(03 R88). -/
def State.feedAccept (s : State) (n : Nat) : State :=
  let l := s.link n
  l.iwq.foldl (fun t e =>
    let r := t.rails.accept.getD n .empty
    if e.committed && !e.sent && !r.full 64 then
      let rs := t.rails.accept.set .empty n (r.push 64 e.seq 0)
      ({ t with rails := { t.rails with accept := rs } }).setLink n (fun l =>
        { l with iwq := l.iwq.map (fun (x : IwqEntry) => if x.seq = e.seq then { x with sent := true } else x) })
    else t) s

/-- Frees an ingress entry: a credit is returned (03 R91), during a write hold once the hold ends (15 R429); further
descriptors go on the Accept rail. -/
def State.freeEntry (s : State) (n : Nat) (q : BitVec 16) : State :=
  (s.setLink n (fun l => { l with
    credits := if s.pwr.writeHold then l.credits else l.credits + 1
    owed := if s.pwr.writeHold then l.owed + 1 else l.owed
    iwq := l.iwq.filter (fun e => e.seq != q) })).feedAccept n

/-- Acknowledges an entry: both copies of the last acknowledged number, the entry freed, a credit returned (03 R88,
R89, R91); during a write hold the credit is withheld until the hold ends (15 R429). -/
def State.acknowledge (s : State) (n : Nat) (q : BitVec 16) : State :=
  (s.setLink n (fun l => { l with lastAck := q, lastAckCopy := q, stalled := false })).freeEntry n q

/-- The invalidations posted to each ladle so far. -/
def State.postedAll (s : State) : List Nat := (List.range 8).map (fun p => s.ports.posted.getD p 0)

/-- A covered write is accepted: the last one leaves a device fence the invalidations posted up to now to wait for (09
R271). -/
def Fence.accepted (f : Fence) (arr : Nat) (marks : List Nat) : Fence :=
  if f.waits.contains arr then
    let ws := f.waits.filter (fun a => a != arr)
    { f with waits := ws, marks := if ws = [] ∧ f.scope = 2 then marks else f.marks }
  else f

/-- Notes the acceptance of a link's write in its fences and in the fences of its hook releases (09 R271, R286). -/
def State.noteAccepted (s : State) (n arr : Nat) : State :=
  let marks := s.postedAll.set (n / 4) 0
  let t := s.setLink n (fun l => { l with
    invMark := marks, fences := l.fences.map (fun f => f.accepted arr marks) })
  { t with hooks := t.hooks.mapVal (fun _ (h : Hook) =>
      if h.link = n then { h with fence := h.fence.map (fun f => f.accepted arr marks) } else h) }

/-- The write that an ingress entry carries. -/
def State.writeOf (s : State) (n : Nat) (e : IwqEntry) (landing : Bool) : WriteIn :=
  { line := e.line, data := e.data, mask := e.mask, keyslot := e.keyslot, poison := e.poison, link := n,
    port := some (n / 4), landing := landing, master := some (1, n), fo := decide (n = s.foLink), coherent := decide (e.wtype = .coherent) }

/-- Whether a link may take a freed frame: it is the first link in round-robin order from `rr` that is stalled and below
its cap (03 R110). -/
def State.myTurn (s : State) (n : Nat) : Bool :=
  let order := (List.range 32).map (fun k => (s.stk.rr + k) % 32)
  match order.find? (fun k => (s.link k).stalled && !s.capped k) with
  | some k => decide (k = n)
  | none => true

/-- The stockpot freezes for test, or not (03 R115): a write of 1 is ignored while any link is memory-active. -/
def State.freezeWrite (s : State) (v : Bool) : State :=
  if v && s.ports.links.any (fun e => e.2.memActive) then s else s.setLive .stk 0x0C (bit32 v 0)

/-- Whether the stockpot is frozen: from reset to the end of replay, in Flush, or by STK_CTRL.FREEZE (03 R115). -/
def State.isFrozen (s : State) : Bool := s.stk.frozen || bitOf (s.getLive .stk 0x0C) 0

/-- Whether nothing drains: the stockpot is frozen, or the device stands in Simmer (03 R115, 01 R20). -/
def State.halted (s : State) : Bool := s.isFrozen || s.unclocked

/-! ### Memory presented -/

/-- Whether links may have MEM_ACTIVE: the device is ready, and it presents memory (16 R467, 15 R428), and at
least one flush area is wholly reset (05 R174). -/
def State.mayPresent (s : State) : Bool :=
  s.boot.ready && !s.boot.noMemory && !s.pwr.fault && decide (s.med.flushReset ≠ 0)

/-! ### Unplanned unavailability (14 R411) -/

/-- Whether memory is withheld from a link that is up and not disabled for a cause inside the device: a warm start that the stewards
brought about (14 R410), or a start that presents no memory (16 R467; log entry 107). -/
def State.outage (s : State) : Bool :=
  ((s.boot.trapped && !s.mayPresent) || s.boot.noMemory) && decide (s.pwrState ≠ .simmer) &&
    s.ports.links.any (fun e => e.2.up && !e.2.disabled && !e.2.memActive)

/-- The SERIAL of the record of the cause: the newest STEWARD_RETIRED, START_FAIL or UNCORRECTABLE staged or in the ring, else 0 (log entry
107). -/
def State.causeSerial (s : State) : Nat :=
  match ((s.spk.ring.map (fun e => e.2) ++ s.spk.staged).filter (fun (r : SpikeRec) =>
    ([0x7001, 0x7003, 0x9003] : List Nat).contains r.code)).getLast? with
  | some r => r.serial.toNat
  | none => 0

/-- Counts the time from a moment to now, as far as it is not counted yet, and records the interval (R411). -/
def State.countUnavail (s : State) (from_ : Nat) : State :=
  let a := max from_ s.flt.countedTo
  if s.now ≤ a then s
  else
    let ms := (s.now - a) / Config.ms
    ({ s with flt := { s.flt with unavail := sat 32 (s.flt.unavail + ms), countedTo := s.now } }).record 0x0005 ms
      s.causeSerial 0 0

/-- Notes that an outage begins, or counts one that has ended. -/
def State.account (s : State) : State :=
  match s.outage, s.flt.outageAt with
  | true, none => { s with flt := { s.flt with outageAt := some s.now } }
  | false, some t => { s with flt := { s.flt with outageAt := none } }.countUnavail t
  | _, _ => s

/-- Counts what a load waited beyond 1 s more than the class C bound (R411, 08 R258). -/
def State.noteWait (s : State) (started : Nat) : State :=
  let bound := match s.fuses.grade with
    | .g30 => 40 * Config.us
    | .g24 => 48 * Config.us
  if started + bound + Config.sec < s.now then s.countUnavail (started + bound + Config.sec) else s

/-! ### MEM_ACTIVE -/

/-- Sets MEM_ACTIVE on every link in L0 where memory may be presented. -/
def State.presentMemory (s : State) : State :=
  if s.mayPresent then
    { s with ports := { s.ports with links := s.ports.links.mapVal (fun _ (l : Link) => if l.up then { l with memActive := true } else l) } }
  else s

end Sys2Proof.Machine
end

