-- ==== Sys2Proof/Machine/Stripes.lean ====
section
/-!
DEFINITION. Stripes, rows and where pages go (05_media_layout.md R159 to R167, R171), media requests, and the issue of
programs (03_stockpot.md R105, R107, R108).
-/

namespace Sys2Proof.Machine

/-! ### Stripe areas and members -/

/-- Spare stripes withdrawn at format (07 R223). -/
def spareStripes (n : Nat) : Nat := match n with
  | 10 => 256
  | 8 => 205
  | 5 => 128
  | _ => 0

/-- The first stripe of the inner-parity ring: block 2,040 (05 R172). -/
def ringFirst (n : Nat) : Nat := 2040 * n

/-- Whether a stripe is a user stripe: neither reserved, nor in the ring, nor withdrawn as a spare at format. -/
def State.userStripe (s : State) (S : Nat) : Bool :=
  decide (46 ≤ S) && decide (S < ringFirst s.dieCount - spareStripes s.dieCount)

/-- Whether a stripe lies in the area a stream opens stripes in (05 R165, R172). -/
def State.inArea (s : State) (q : Stream) (S : Nat) : Bool :=
  match q with
  | .spike => decide (4 ≤ S ∧ S < 6)
  | .checkpoint => decide (6 ≤ S ∧ S < 22)
  | .journal => decide (22 ≤ S ∧ S < 46)
  | _ => s.userStripe S

/-- Burners not retired, ascending (05 R160). -/
def State.liveBurners (s : State) : List Nat := (List.range 32).filter (fun b => !bitOf s.upk.retiredMask b)

/-- The position of the P member of a stripe of width `w` (05 R160). -/
def pPos (S w : Nat) : Nat := S % w
/-- The position of the Q member (05 R160). -/
def qPos (S w : Nat) : Nat := (S + w / 2) % w

/-- The data members of an open stripe: its burners but those at the P and Q positions (05 R160). -/
def OpenStripe.data (o : OpenStripe) : List Nat :=
  (o.members.zipIdx.filter (fun e => decide (e.2 ≠ pPos o.stripe o.width) && decide (e.2 ≠ qPos o.stripe o.width))).map
    (·.1)

/-- The P and Q burners of an open stripe. -/
def OpenStripe.parity (o : OpenStripe) : List (Nat × Nat) :=
  [(1, o.members.getD (pPos o.stripe o.width) 0), (2, o.members.getD (qPos o.stripe o.width) 0)]

/-- The next page of a plane of a member. -/
def OpenStripe.nextOf (o : OpenStripe) (r pl : Nat) : Nat := o.next.getD (r * 4 + pl) 0

/-- Where page `p`, plane `pl` of a stripe's member on burner `r` lies: the member's block, or the spare that stands in
for it from page P0 on (05 R159, 07 R205). -/
def State.memberAddr (s : State) (S r p pl : Nat) : Nat :=
  let e := s.blk (pbOf r (s.stripeCe S) (s.stripeBlock S) 0)
  if e.remap ≠ 0xFFFFF ∧ e.p0 ≤ p then e.remap * 2 ^ 18 + p * 2 ^ 8 + pl * 2 ^ 6
  else saOf r (s.stripeCe S) (s.stripeBlock S) p pl 0

/-- The state of a stripe: OPEN while it is open, else that of its members, read on the lowest live burner, through a remap (07
R207). -/
def State.stripeState (s : State) (S : Nat) : BState :=
  let r := s.liveBurners.headD 0
  let e := s.blk (pbOf r (s.stripeCe S) (s.stripeBlock S) 0)
  if s.med.openStripes.any (fun o => decide (o.stripe = S)) then .open_
  else if e.remap ≠ 0xFFFFF then (s.blk (pbOfAddr (e.remap * 2 ^ 18))).state else e.state

/-- Changes every member block of a stripe; a retired block keeps its state, its spare takes the change. -/
def State.updStripe (s : State) (S : Nat) (f : Block → Block) : State :=
  s.liveBurners.foldl (fun t r =>
    let e := t.blk (pbOf r (t.stripeCe S) (t.stripeBlock S) 0)
    let a := if e.state = .retired ∧ e.remap ≠ 0xFFFFF then e.remap * 2 ^ 18 else t.memberAddr S r 1023 0
    if e.state = .retired ∧ e.remap = 0xFFFFF then t
    else t.updBlock4 (saBurner a) (saCe a) (saBlock a) f) s

/-- Parity row slots in use (03 R107, R117). -/
def State.rowSlots (s : State) : Nat := (s.med.openStripes.map (fun o => o.rows.length)).sum

/-! ### Media requests -/

/-- The requester and class of a stream's programs (08 R36, R248). -/
def streamRequester : Stream → Requester
  | .host => .stream 0
  | .upkeep => .scraper
  | .rebuild => .rebuild
  | .journal => .stream 3
  | .checkpoint => .stream 3
  | .spike => .stream 3

/-- The deadline class of a stream's programs. -/
def streamCls : Stream → DlClass
  | .upkeep => .scraper
  | .rebuild => .scraper
  | _ => .drain

/-- The class of a stream's programs now: those of a refresh are the taster's (01 R36). -/
def State.programCls (s : State) (q : Stream) : DlClass :=
  if q = .upkeep ∧ s.upk.victim.isSome ∧ (s.upk.victimPrec = 2 ∨ s.upk.victimPrec = 5) then .taster else streamCls q

/-- Whether the die or the burner an address lies on is retired or has failed: its codewords count as lost (07 R218,
R227). -/
def State.unitLost (s : State) (a : Nat) : Bool :=
  (s.burner (saBurner a)).retired || s.flt.inPlace.contains (2 * 2 ^ 32 + saBurner a) ||
    (s.die (saBurner a) (saCe a)).retired || (s.die (saBurner a) (saCe a)).failed

/-- Whether a read of an address takes class C at once: its unit is lost, or its burner trains after a wake (07 R227, 15 R438). -/
def State.readsLost (s : State) (a : Nat) : Bool :=
  s.unitLost a || (decide (s.pwrState = .boil) && (s.burner (saBurner a)).fullBusy)

/-- Places a media request on its burner's Media request rail (01 R37); a read of a lost unit fails at once, so that its
codeword takes class C (07 R227). A read counts as in flight against its block (01 R33). -/
def State.place_ (s : State) (q : MReq) : State :=
  let b := saBurner q.addr
  let t := if q.op = .read ∧ s.readsLost q.addr then
      let rs := s.rails.mediaRes.upd .empty b (fun r => r.push 256 (.read q .fail) 0)
      { s with rails := { s.rails with mediaRes := rs } }
    else
      let rs := s.rails.mediaReq.upd .empty b (fun r => r.push 256 q 0)
      { s with rails := { s.rails with mediaReq := rs } }
  if q.op = .read then t.addInflight q.addr else t

/-- Asks the pass for a media operation (01 R36). -/
def State.request (s : State) (op : MOp) (addr : Nat) (rq : Requester) (cls : DlClass) (pu : Purpose) : State :=
  ({ s with pass := { s.pass with nextReq := s.pass.nextReq + 1 } }).place_
    { id := s.pass.nextReq, op := op, addr := addr, requester := rq, epoch := (s.epochOf rq).toNat, cls := cls
      purpose := pu, stamp := 0, entered := s.now, retry := false, clamped := false, soft := false, job := none }

/-- Asks the pass for a read that serves another, whose stamp it carries: a class B retry of it (`soft`), or a member read of
the rebuild `job` (07 R218, 08 R248). -/
def State.requestFor (s : State) (q : MReq) (addr : Nat) (soft : Bool) (job : Option Nat) : State :=
  ({ s with pass := { s.pass with nextReq := s.pass.nextReq + 1 } }).place_
    { q with id := s.pass.nextReq, addr := addr, entered := s.now, retry := true, clamped := false, soft := soft, job := job }

/-- Changes page `i`. -/
def State.updPage (s : State) (i : Nat) (f : Page → Page) : State :=
  match s.stk.pages.find i with
  | none => s
  | some p => { s with stk := { s.stk with pages := s.stk.pages.put i (f p) } }

/-- Adds a page. -/
def State.addPage (s : State) (p : Page) : State :=
  { s with stk := { s.stk with pages := s.stk.pages.put s.stk.nextPage p, nextPage := s.stk.nextPage + 1 } }

/-- A page of a stream with nothing decided. -/
def Page.blank (q : Stream) (now : Nat) : Page :=
  { stream := q, items := [], since := now, stage := .assembling, aligned := none, quad := none, fold := false,
    addr := none, seq := 0, parity := 0, par := none, recs := [], mark := none, reissued := false, snapped := false,
    heated := false, pads := false }

/-- The frames of a page. -/
def Page.frames (p : Page) : List Nat := p.items.filterMap (fun i => match i with
  | .frame f => some f
  | .sector _ f => f
  | .pad => none)

/-- Whether every line of a frame is present, or will be filled with zeros because there is no media copy (03 R100). -/
def Frame.complete (f : Frame) : Bool := decide (f.valid = 0xF) || decide (f.home = .noCopy)

/-- Whether a page is targeted and all its slices are complete (03 R105). -/
def State.pageReady (s : State) (p : Page) : Bool :=
  p.addr.isSome && decide (p.stage = .completing) && p.items.all (fun i => match i with
    | .frame f => (s.frame f).complete
    | _ => true)

/-- The row of an open stripe that a page address lies in: the time of the row's first issue starts with its first data page
(05 R163). -/
def State.startRow (s : State) (a : Nat) : State :=
  let f := fun (o : OpenStripe) =>
    if !o.started.contains (saPage a) && (o.rows.find (saPage a)).isSome &&
        o.members.any (fun r => decide (s.memberAddr o.stripe r (saPage a) (saPlane a) = a)) then
      { o with started := saPage a :: o.started, rows := o.rows.put (saPage a) s.now }
    else o
  { s with med := { s.med with openStripes := s.med.openStripes.map f } }

/-- Issues the program of a page that is targeted and complete; a frozen stockpot issues no drain (03 R105, R115). -/
def State.issueProgram (s : State) (i : Nat) : State :=
  match s.stk.pages.find i with
  | none => s
  | some p =>
    if s.pageReady p && !s.isFrozen then
      match p.addr with
      | none => s
      | some a =>
        let t := s.updPage i (fun p => { p with stage := .loaded })
        (if p.parity = 0 then t.startRow a else t).request (.program i) a (streamRequester p.stream)
          (s.programCls p.stream) (.completion i 0)
    else s

/-- Issues every program that has become ready. -/
def State.issueReady (s : State) : State := s.stk.pages.foldl (fun t e => t.issueProgram e.1) s

/-! ### Free stripes -/

/-- The user stripes there are: those of R207's area. -/
def State.userTotal (s : State) : Nat := ringFirst s.dieCount - spareStripes s.dieCount - 46

/-- The user stripes whose members are listed in the block table on the lowest live burner. -/
def State.listedStripes (s : State) : List Nat :=
  let r := s.liveBurners.headD 0
  (s.med.table.filter (fun e => decide (e.1 % 4 = 0) && decide (e.1 / (4 * 20480) = r))).map
    (fun e => s.stripeOf (e.1 / 8192 % 10) (e.1 / 4 % 2048))

/-- F: the FREE and ONDECK user stripes (07 R208). -/
def State.freeStripes (s : State) : Nat :=
  s.userTotal - countIf (fun S => s.userStripe S && decide (s.stripeState S ≠ .free) &&
    decide (s.stripeState S ≠ .onDeck)) s.listedStripes

/-- The floor of a population (07 R208). -/
def floorOf (n : Nat) : Nat := match n with
  | 10 => 103
  | 8 => 82
  | 5 => 52
  | _ => 0

/-- Whether F is above the floor. -/
def State.aboveFloor (s : State) : Bool := decide (floorOf s.dieCount < s.freeStripes)

/-- Whether F stands at the keep, where a rebuild waits (07 R208, R227). -/
def State.atKeep (s : State) : Bool := decide (s.freeStripes ≤ 4)

/-! ### Opening stripes and choosing positions -/

/-- Stripes a stream may have open (05 R165). -/
def streamLimit : Stream → Nat
  | .host => 4
  | .upkeep => 2
  | _ => 1

/-- Opens the first on-deck stripe of a stream's area (05 R160, R165, 04 R138). -/
def State.openStripe (s : State) (q : Stream) : Option State :=
  match s.med.onDeck.find? (fun S => s.inArea q S && (decide (q ≠ .spike) || decide (S = s.spikeStripe))) with
  | none => none
  | some S =>
    let ms := s.liveBurners
    let o : OpenStripe := { stripe := S, stream := q, width := ms.length, members := ms, next := [], rows := [],
                            issued := [], slots := [], started := [] }
    let role := fun (i : Nat) => if i = pPos S ms.length then 1 else if i = qPos S ms.length then 2 else 0
    let t := ms.zipIdx.foldl (fun t e =>
      let a := t.memberAddr S e.1 0 0
      t.updBlock4 (saBurner a) (saCe a) (saBlock a) (fun b =>
        { b with state := .open_, width := ms.length, role := role e.2, cursor := 0 })) s
    let t := { t with med := { t.med with
      openStripes := t.med.openStripes ++ [o]
      onDeck := t.med.onDeck.filter (fun x => x != S) } }
    some t

/-- Whether a row of an open stripe may take a page: not sealed or issued, not held for 10 ms (05 R163), and with a
parity slot or one free: 16 to a stripe, 128 in all (05 R165, 03 R107). -/
def State.rowTakes (s : State) (o : OpenStripe) (p : Nat) : Bool :=
  decide (p < 1024) && !o.issued.contains p &&
    (match o.rows.find p with
      | some since => !o.started.contains p || decide (s.now < since + 10 * Config.ms)
      | none => decide (o.rows.length < 16) && decide (s.rowSlots < 128))

/-- Positions (page, burner, plane) that an open stripe could take a single page at. -/
def OpenStripe.positions (o : OpenStripe) : List (Nat × Nat × Nat) :=
  (o.data.map (fun r => (List.range 4).map (fun pl => (o.nextOf r pl, r, pl)))).flatten

/-- The least position: lowest page, then burner, then plane (05 R166). -/
def leastPos : List (Nat × Nat × Nat) → Option (Nat × Nat × Nat)
  | [] => none
  | x :: xs => match leastPos xs with
    | none => some x
    | some y => if x.1 < y.1 ∨ (x.1 = y.1 ∧ (x.2.1 < y.2.1 ∨ (x.2.1 = y.2.1 ∧ x.2.2 ≤ y.2.2))) then some x else some y

/-- Whether a plane block has an open-block parity slot, or one is free (03 R108). -/
def State.slotFor (s : State) (pb : Nat) : Bool := s.stk.blockSlots.contains pb || decide (s.stk.blockSlots.length < 1024)

/-- The position of a single page in the stream's open stripes: the first stripe that has one. -/
def State.singlePos (s : State) (q : Stream) : Option (OpenStripe × Nat × Nat × Nat) :=
  (s.med.openStripes.filter (fun o => decide (o.stream = q))).findSome? (fun o =>
    (leastPos (o.positions.filter (fun x => s.rowTakes o x.1 && s.slotFor (pbOfAddr (s.memberAddr o.stripe x.2.1 x.1
      x.2.2))))).map (fun x => (o, x.1, x.2.1, x.2.2)))

/-- The position of a quad: the member whose four planes are free from the lowest page on (05 R150, R166). -/
def State.quadPos (s : State) (q : Stream) : Option (OpenStripe × Nat × Nat) :=
  (s.med.openStripes.filter (fun o => decide (o.stream = q))).findSome? (fun o =>
    (leastPos ((o.data.map (fun r =>
      (max (max (o.nextOf r 0) (o.nextOf r 1)) (max (o.nextOf r 2) (o.nextOf r 3)), r, 0))).filter
        (fun x => s.rowTakes o x.1 && (List.range 4).all (fun pl =>
          s.slotFor (pbOfAddr (s.memberAddr o.stripe x.2.1 x.1 pl)))))).map (fun x => (o, x.1, x.2.1)))

/-- The precedence of streams for the last places of open stripes (05 R165). -/
def streamRank : Stream → Nat
  | .host => 3
  | .upkeep => 2
  | .rebuild => 1
  | _ => 0

/-- The streams that wait for a stripe: a page of theirs stands without a target, and none of their open stripes has a
position for it. -/
def State.wantsStripe (s : State) : List Stream :=
  ([.host, .upkeep, .rebuild, .journal, .checkpoint, .spike] : List Stream).filter (fun q =>
    s.stk.pages.any (fun e => decide (e.2.stream = q) && decide (e.2.stage = .target)) && (s.singlePos q).isNone &&
      !(decide (q = .rebuild) && s.atKeep))

/-- Whether a stream may open a stripe now (05 R165, 03 R108): at most 8 in all, places for the waiting streams of higher
precedence left over, and its own limit; a block-parity slot free; the checkpoint stream only while a checkpoint runs, the
spike stream only while the ring is being written; the host stream above the floor only, but in pantry bare (07 R212,
R226); a rebuild not at the keep (07 R227). -/
def State.mayOpen (s : State) (q : Stream) (aboveFloor : Bool) : Bool :=
  let ahead := countIf (fun r => decide (streamRank r < streamRank q)) s.wantsStripe
  decide (s.med.openStripes.length + ahead < 8) &&
    decide (countIf (fun o => decide (o.stream = q)) s.med.openStripes < streamLimit q) &&
    decide (s.stk.blockSlots.length < 1024) &&
    (match q with
      | .checkpoint => s.siv.ckptActive
      | .spike => s.stk.pages.any (fun e => decide (e.2.stream = .spike))
      | .host => aboveFloor || s.upk.pantry
      | .rebuild => !s.atKeep
      | _ => true)

/-- Takes position (page, burner, plane) of an open stripe: the plane's next page, the row's slot, the block's cursor
and its block-parity slot (05 R163, R168, 03 R107, R108). -/
def State.takePos (s : State) (S p r pl : Nat) : State :=
  let f := fun (o : OpenStripe) => if o.stripe = S then
      { o with
        next := o.next.put (r * 4 + pl) (p + 1)
        rows := if (o.rows.find p).isSome then o.rows else o.rows.put p s.now }
    else o
  let a := s.memberAddr S r p pl
  let t := { s with med := { s.med with openStripes := s.med.openStripes.map f } }
  let t := t.updBlk (pbOfAddr a) (fun b => { b with cursor := p + 1 })
  { t with stk := { t.stk with blockSlots := insertNew t.stk.blockSlots (pbOfAddr a) } }

/-- Gives a page an address and the next sequence value (04 R133); its frames go to STATE 3 (03 R105). -/
def State.aim (s : State) (i addr : Nat) : State :=
  let n := s.nextSeq
  let t := n.2.updPage i (fun p => { p with addr := some addr, seq := n.1, stage := .completing })
  match s.stk.pages.find i with
  | none => t
  | some p => p.frames.foldl (fun u f => u.updFrame f (fun x => { x with state := .completing })) t

/-- Targets a page to the next free position of its stream, opening a stripe where none has one; none where it must
wait (04 R127, 05 R165). -/
def State.targetPage (s : State) (i : Nat) (q : Stream) (aboveFloor : Bool) : Option State :=
  let go := fun (t : State) => (t.singlePos q).map (fun x =>
    ((t.takePos x.1.stripe x.2.1 x.2.2.1 x.2.2.2).aim i (t.memberAddr x.1.stripe x.2.2.1 x.2.1 x.2.2.2)).issueProgram i)
  match go s with
  | some t => some t
  | none => if s.mayOpen q aboveFloor then (s.openStripe q).bind go else none

/-- Programs a pad page at a position of an open stripe (05 R155, R163). -/
def State.padPos (s : State) (o : OpenStripe) (page r pl : Nat) : State :=
  let i := s.stk.nextPage
  let u := s.addPage { Page.blank o.stream s.now with items := List.replicate 64 .pad, stage := .completing, pads := true }
  ((u.takePos o.stripe page r pl).aim i (u.memberAddr o.stripe r page pl)).issueProgram i

/-- Programs pad pages at the positions below page `p` of a member that its planes have not reached: a quad above them would
leave them unprogrammed for good (05 R150, R162). -/
def State.levelMember (s : State) (o : OpenStripe) (r p : Nat) : State :=
  (List.range 4).foldl (fun t pl =>
    (List.range (p - o.nextOf r pl)).foldl (fun u k => u.padPos o (o.nextOf r pl + k) r pl) t) s

/-- Targets the four aligned pages of a loaf to one quad, planes 0 to 3 in quarter order (04 R126). -/
def State.targetQuad (s : State) (is : List Nat) (q : Stream) (aboveFloor : Bool) : Option State :=
  let go := fun (t : State) => (t.quadPos q).map (fun x =>
    let S := x.1.stripe
    let quad := t.memberAddr S x.2.2 x.2.1 0 / 256
    let t := t.levelMember x.1 x.2.2 x.2.1
    is.zipIdx.foldl (fun u e =>
      (((u.takePos S x.2.1 x.2.2 e.2).aim e.1 (u.memberAddr S x.2.2 x.2.1 e.2)).updPage e.1
        (fun p => { p with quad := some quad })).issueProgram e.1) t)
  match go s with
  | some t => some t
  | none => if s.mayOpen q aboveFloor then (s.openStripe q).bind go else none

/-! ### Rows -/

/-- Whether a page on its way lies in a row of a stripe. -/
def State.pageInRow (s : State) (S p : Nat) (q : Page) : Bool :=
  match q.addr with
  | none => false
  | some a => s.liveBurners.any (fun r => (List.range 4).any (fun pl => decide (s.memberAddr S r p pl = a)))

/-- Whether every data position of a row is filled: every plane is past it and every data page for it has passed (05
R162). -/
def State.rowFilled (s : State) (o : OpenStripe) (p : Nat) : Bool :=
  o.positions.all (fun x => decide (p < x.1)) &&
    s.stk.pages.all (fun e => decide (e.2.parity ≠ 0) || decide (e.2.stage = .passed) || !s.pageInRow o.stripe p e.2)

/-- The contents of a row's parity slot: P (`k` 0) or Q (1) of a plane (03 R107). -/
def OpenStripe.slot (o : OpenStripe) (p k pl : Nat) : List Byte := o.slots.getD (p * 8 + k * 4 + pl) []

/-- The plane-page address of a plane block's page 0. -/
def pbAddr (x : Nat) : Nat := saOf (x / 81920) (x / 8192 % 10) (x / 4 % 2048) 0 (x % 4) 0

/-- Adds a page of data index `d` into a row's parity slot, or takes it out again: the field's addition is its own inverse
(05 R161, R171). -/
def OpenStripe.addPage (o : OpenStripe) (p pl d : Nat) (dom : List Byte) : OpenStripe :=
  let x := o.slots.put (p * 8 + pl) (xorLong (o.slot p 0 pl) dom)
  { o with slots := x.put (p * 8 + 4 + pl) (xorLong (o.slot p 1 pl) (scale (gpow2 d) dom)) }

/-- Adds the parity domain of a page into its row slot and its block slot, or takes it out again (03 R105, 05 R168,
R171). -/
def State.addParity (s : State) (a : Nat) (dom : List Byte) : State :=
  let f := fun (o : OpenStripe) =>
    match o.data.zipIdx.find? (fun e => decide (s.memberAddr o.stripe e.1 (saPage a) (saPlane a) = a)) with
    | some e => if (o.rows.find (saPage a)).isSome then o.addPage (saPage a) (saPlane a) e.2 dom else o
    | none => o
  let x := pbOfAddr a
  { s with
    med := { s.med with openStripes := s.med.openStripes.map f }
    stk := { s.stk with blockPar := if s.stk.blockSlots.contains x then
        s.stk.blockPar.upd [] x (fun y => xorLong y dom) else s.stk.blockPar } }

/-- Whether anything has been programmed on the page of a sector address. -/
def State.programmed (s : State) (a : Nat) : Bool :=
  (s.med.parity.find (a / 64)).isSome || (List.range 64).any (fun i => (s.sector (a / 64 * 64 + i)).isSome)

/-- Issues the P and Q pages of a filled row, four planes each (05 R162), each the next page of its block (07 R205); one that stands on media already, after a start, is not
issued again (05 R175). -/
def State.issueParity (s : State) (o : OpenStripe) (p : Nat) : State :=
  let t := o.parity.foldl (fun t e => (List.range 4).foldl (fun u pl =>
    if u.programmed (u.memberAddr o.stripe e.2 p pl) then u else
    let i := u.stk.nextPage
    let u := u.addPage { Page.blank o.stream s.now with
      parity := e.1, stage := .completing, par := some ⟨e.1, 0, o.stripe, p, 0, o.slot p (e.1 - 1) pl⟩ }
    let a := u.memberAddr o.stripe e.2 p pl
    ((u.updBlk (pbOfAddr a) (fun b => { b with cursor := max b.cursor (p + 1) })).aim i a).issueProgram i) t) s
  let f := fun (x : OpenStripe) => if x.stripe = o.stripe then { x with issued := insertNat p x.issued } else x
  { t with med := { t.med with openStripes := t.med.openStripes.map f } }

/-- Issues the parity of every row that has become filled. -/
def State.fillRows (s : State) : State :=
  s.med.openStripes.foldl (fun t o => o.rows.foldl (fun u e =>
    match u.med.openStripes.find? (fun x => decide (x.stripe = o.stripe)) with
    | some x => if !x.issued.contains e.1 && u.rowFilled x e.1 then u.issueParity x e.1 else u
    | none => u) t) s

/-- Plane blocks of a stripe's members at the block they stand in now. -/
def State.stripePbs (s : State) (o : OpenStripe) : List Nat :=
  (o.members.map (fun r => (List.range 4).map (fun pl => pbOfAddr (s.memberAddr o.stripe r 1023 pl)))).flatten

/-- The plane blocks whose mirror is due (05 R169). -/
def State.dueMirrors (s : State) (xs : List Nat) : State :=
  { s with med := { s.med with mirrorDue := xs.foldl insertNew s.med.mirrorDue } }

/-- Seals the rows whose parity pages have all passed, and closes a stripe whose last row is sealed: its members'
plane blocks are queued for the seal scan (05 R162, R165, R170). A spike stripe closes when the ring has moved to the other
one (18 R506). -/
def State.sealRows (s : State) : State :=
  s.med.openStripes.foldl (fun t o =>
    let left := o.rows.filter (fun e => !(o.issued.contains e.1 &&
      t.stk.pages.all (fun g => decide (g.2.parity = 0) || !t.pageInRow o.stripe e.1 g.2)))
    let done := decide (left = []) && (o.positions.all (fun x => decide (1024 ≤ x.1)) ||
      (decide (o.stream = .spike) && decide (t.spikeStripe ≠ o.stripe)))
    if done then
      let shut := fun (b : Block) => decide (b.state = .closed) || decide (b.state = .verified)
      let xs := (t.stripePbs o).filter (fun x => !shut (t.blk x))
      let u := t.updStripe o.stripe (fun b => if shut b then b else { b with state := .closed })
      { u with
        med := { u.med with openStripes := u.med.openStripes.filter (fun x => x.stripe != o.stripe) }
        upk := { u.upk with sealQueue := u.upk.sealQueue ++ xs.map (fun x => (x, u.now)) } }
      |>.dueMirrors (xs.filter u.stk.blockSlots.contains)
    else
      let f := fun (x : OpenStripe) => if x.stripe = o.stripe then
          { x with rows := left, slots := x.slots.keep (fun k _ => (SMap.find left (k / 8)).isSome) } else x
      { t with med := { t.med with openStripes := t.med.openStripes.map f } }) s

/-! ### Forced victims (07 R209, R221) -/

/-- The stripe that an address belongs to, through a remap (05 R159, 07 R205). -/
def State.stripeAt (s : State) (a : Nat) : Nat :=
  match s.med.table.find? (fun e => decide (e.2.remap = a / 2 ^ 18) && decide (e.2.remap ≠ 0xFFFFF)) with
  | some e => s.stripeOf (e.1 / 8192 % 10) (e.1 / 4 % 2048)
  | none => s.stripeOf (saCe a) (saBlock a)

/-- Queues a stripe as a forced victim: one already queued moves up only (07 R209, R221). -/
def State.queueForced (s : State) (prec S : Nat) : State :=
  if !s.userStripe S || s.upk.forced.any (fun f => decide (f.stripe = S) && decide (f.prec ≤ prec)) ||
      decide (s.upk.victim = some S) then s
  else
    let rest := s.upk.forced.filter (fun (f : Forced) => decide (f.stripe ≠ S))
    let q := rest.takeWhile (fun f => decide (f.prec ≤ prec)) ++ [⟨prec, S⟩] ++
      rest.dropWhile (fun f => decide (f.prec ≤ prec))
    { s with upk := { s.upk with forced := q } }

/-- Queues a stripe for urgent refresh (07 R221). -/
def State.urgentRefresh (s : State) (S : Nat) : State :=
  let t := s.queueForced 2 S
  if t.upk.forced.length = s.upk.forced.length ∧ t.upk.forced = s.upk.forced then s else t.raise .upk 2

end Sys2Proof.Machine
end

