-- ==== Sys2Proof/Machine/Drain.lean ====
section
/-!
DEFINITION. The drain: page assembly, placement, folds, program results and map switches (03_stockpot.md R100 to R108,
04_translation.md R126 to R140, 05_media_layout.md R162 to R171, 07_upkeep.md R212, R225, R226).
-/

namespace Sys2Proof.Machine

/-! ### Events to hosts and the capacity judgement -/

/-- Bytes of loaves mapped in a range of 256 MiB units: 64 KiB per loaf whose entry is not FMT 0 (07 R225). -/
def State.mappedBytes (s : State) (base len : Nat) : Nat :=
  65536 * countIf (fun e => decide (e.2.fmt ≠ 0) && decide (base * 4096 ≤ e.1) && decide (e.1 < (base + len) * 4096))
    s.siv.loafs

/-- The extents the capacity policy orders first: most mapped bytes (MODE 1) or newest (MODE 2) (07 R225). -/
def State.extentOrder (s : State) : List (Nat × Extent) :=
  let all := (s.ports.links.map (fun e => e.2.extents.map (fun x => (e.1, x)))).flatten
  let mode := s.liveFld .upk 0x78 1 0
  let key := fun (x : Nat × Extent) => if mode = 1 then s.mappedBytes x.2.base x.2.len else x.2.added
  let ins := fun (x : Nat × Extent) (ys : List (Nat × Extent)) =>
    ys.takeWhile (fun y => decide (key x ≤ key y)) ++ [x] ++ ys.dropWhile (fun y => decide (key x ≤ key y))
  all.foldl (fun ys x => ins x ys) []

/-- Takes extents in order until their mapped bytes reach a target (07 R225). -/
def State.takeExtents (s : State) : Nat → List (Nat × Extent) → List (Nat × Extent)
  | _, [] => []
  | 0, _ => []
  | target, x :: xs => x :: s.takeExtents (target - s.mappedBytes x.2.base x.2.len) xs

/-- The 40 bytes of an extent. -/
def extentBytes (e : Extent) : List Byte :=
  leBytes 8 (e.base * 2 ^ 28) ++ leBytes 8 (e.len * 2 ^ 28) ++ leBytes 16 e.tag ++ leBytes 8 0

/-- A dynamic-capacity event record of the CXL standard (log entry 99): a header that is open, the event type at byte 48 (0 Add
Capacity, 1 Release Capacity), the region at byte 52, the extent at bytes 56 to 95. -/
def capacityEvent (k type : Nat) (e : Extent) : List Byte :=
  let f := (List.range 48).map (fun i => (Config.freeBytes k).getD i 0)
  f ++ [byteOf type, 0, 0, 0, byteOf e.region, 0, 0, 0] ++ extentBytes e ++ List.replicate 32 0

/-- Posts a dynamic-capacity event for an extent to a link (02 R57, R59). -/
def State.postCapacity (s : State) (n type : Nat) (e : Extent) : State :=
  let d := s.draw
  d.2.postEvent n 4 (capacityEvent d.1 type e)

/-- The plane blocks of a stripe's members, remapped ones included. -/
def State.memberPbs (s : State) (S : Nat) : List Nat :=
  ((List.range 32).map (fun r => (List.range 4).map (fun pl =>
    [pbOfAddr (s.memberAddr S r 0 pl), pbOfAddr (s.memberAddr S r 1023 pl)]))).flatten.flatten.eraseDups

/-- Width of a stripe at its opening. -/
def State.widthOf (s : State) (S : Nat) : Nat := ((s.memberPbs S).map (fun x => (s.blk x).width)).foldl max 0

/-- Valid sectors of a stripe's data members (07 R209). -/
def State.validOf (s : State) (S : Nat) : Nat :=
  ((s.memberPbs S).map (fun x => if (s.blk x).role = 0 then (s.blk x).valid else 0)).sum

/-- Whether a stripe holds reclaimable space (07 R209): VALID is kept per plane block, four to a member. -/
def State.reclaimable (s : State) (S : Nat) : Bool := decide (s.validOf S < 4 * 65536 * (s.widthOf S - 2))

/-- Raises or clears the capacity alert and enters or leaves pantry bare on F (07 R225, R226). -/
def State.judgeCapacity (s : State) : State :=
  if s.dieCount = 0 then s
  else
    let f := s.freeStripes
    let floor := floorOf s.dieCount
    let hyst := s.liveFld .upk 0x78 15 8
    let mode := s.liveFld .upk 0x78 1 0
    let t := if f ≤ floor ∧ !s.upk.capAlert then
        let t := ({ s with upk := { s.upk with capAlert := true } }.record 0x3003 1 f floor 0).raise .upk 0
        if mode = 1 ∨ mode = 2 then
          (t.takeExtents ((t.liveFld .upk 0x44 15 0 - f) * (1920 * 2 ^ 20)) t.extentOrder).foldl
            (fun u x => u.postCapacity x.1 1 x.2) t
        else t
      else if floor + hyst ≤ f ∧ s.upk.capAlert then
        { s with upk := { s.upk with capAlert := false } }.record 0x3003 0 f floor 0
      else s
    let verified := t.listedStripes.any (fun S => t.userStripe S && decide (t.stripeState S = .verified) &&
      t.reclaimable S)
    if t.upk.pantry then
      if floor + hyst ≤ f then
        let u := { t with
          upk := { t.upk with pantry := false }
          stk := { t.stk with frames := t.stk.frames.mapVal (fun _ x => { x with held := false }) } }
        u.record 0x3003 3 f floor 0
      else t
    else if f ≤ 4 ∨ (f ≤ floor ∧ !verified) then
      ({ t with upk := { t.upk with pantry := true } }.record 0x3003 2 f floor 0).raise .upk 1
    else t

/-! ### Completing slices (03 R100) -/

/-- The media requests under way: on a Media request rail, in a lane, at a burner or its dies, with a result that waits, or in a
class C rebuild; the member reads of a rebuild stand for none of their own. -/
def State.outstanding (s : State) : List MReq :=
  (List.flatten [(s.med.rebuilds.map (fun e => e.2.req)),(s.rails.mediaReq.map (fun e => e.2.waiting)).flatten, (s.pass.lanes.map (fun e => e.2)).flatten,
    (s.burners.map (fun e => e.2.granted)).flatten,
    (s.dies.map (fun e => e.2.sensing.map (fun x => x.2))).flatten,
    (s.rails.mediaRes.map (fun e => e.2.waiting.filterMap (fun r => match r with
      | .read m _ => some m
      | _ => none))).flatten]).filter (fun q => q.job.isNone)

/-- Whether a completion read of a codeword is under way. -/
def State.groupBusy (s : State) (g : Nat) : Bool :=
  s.outstanding.any (fun r => decide (r.addr / 16 = g) && (match r.purpose with
    | .completion _ _ => decide (r.op = .read)
    | _ => false))

/-- Issues the group read that completes a frame, unless one for its codeword is under way; a frame whose copy is gone
is filled with zeros (03 R100, 01 R26). -/
def State.completeFrame (s : State) (f : Nat) (rq : Requester) (cls : DlClass) : State :=
  let x := s.frame f
  if x.complete then s
  else match s.addrOf x.slice with
    | none => s.updFrame f (fun x => ({ x with home := .noCopy }).zeroComplete)
    | some a =>
      if s.groupBusy (a / 16) then s
      else (s.request .read a rq cls (.completion 0 f)).tally ⟨0x011, none, none, some (x.slice * 4), none⟩ 1

/-- Issues the completion reads of a targeted page, or its program where nothing is missing (03 R100, R105). -/
def State.completePage (s : State) (i : Nat) : State :=
  match s.stk.pages.find i with
  | none => s
  | some p => (p.frames.foldl (fun t f => t.completeFrame f (streamRequester p.stream) (streamCls p.stream)) s).issueProgram i

/-- The poison of a slice's entry in the map (04 R121). -/
def State.mapPoison (s : State) (slice : Nat) : BitVec 4 :=
  let e := s.loaf (slice / 256)
  let f := s.sliceE e.loc (slice % 256)
  if e.fmt = 2 ∧ f.fmt = 2 then f.poison else 0

/-- Merges media data under a frame's lines: the stockpot's line if valid, its masked bytes over the media bytes if
masked, and else the media line with its poison (03 R99, R100). -/
def Frame.mergeMedia (f : Frame) (d : Four) (poison : BitVec 4) : Frame :=
  ((List.range 4).foldl (fun g n =>
    if f.valid.getLsbD n then g
    else
      let m := f.maskOf n
      let bit := BitVec.ofNat 4 (2 ^ n)
      let g1 := { g with data := g.data.set n (mergeLine (d.get n) (g.data.get n) m), valid := g.valid ||| bit }
      let g2 := if poison.getLsbD n then { g1 with poison := g1.poison ||| bit } else g1
      g2.setMask n 0) f).fixMasked

/-! ### Assembly (03 R103, R104) -/

/-- The stream a frame drains in. -/
def frameStream (f : Nat) : Stream :=
  if f < 401408 then .host else if f < 450560 then .upkeep else if f < 483328 then .rebuild else .journal

/-- Inserts a frame in order of age, ties by number. -/
def insertAge (since f : Nat) : List (Nat × Nat) → List (Nat × Nat)
  | [] => [(since, f)]
  | (a, g) :: xs => if since < a ∨ (since = a ∧ f < g) then (since, f) :: (a, g) :: xs
    else (a, g) :: insertAge since f xs

/-- Drain-ready frames of a data stream, oldest first (03 R103). -/
def State.drainReady (s : State) (q : Stream) : List Nat :=
  let age := max 1 (s.liveFld .stk 0x58 15 0) * Config.ms
  let low := s.belowLo
  ((s.stk.frames.filter (fun e => decide (frameStream e.1 = q) && decide (e.2.state = .resident) &&
      decide (e.2.home ≠ .unknown) && !e.2.held &&
      (decide (q ≠ .host) || !low || decide (e.2.since + age ≤ s.now)))).foldl
    (fun a e => insertAge e.2.since e.1 a) []).map (·.2)

/-- Picks frames for a page that starts with slice `s0`: the same 16 KiB, then the same loaf, then the oldest
(03 R104). -/
def State.pickFrames (s : State) (s0 : Nat) (n : Nat) (ready : List Nat) : List Nat :=
  let same16 := ready.filter (fun f => decide ((s.frame f).slice / 64 = s0 / 64))
  let sameLoaf := ready.filter (fun f => decide ((s.frame f).slice / 64 ≠ s0 / 64) &&
    decide ((s.frame f).slice / 256 = s0 / 256))
  let rest := ready.filter (fun f => decide ((s.frame f).slice / 256 ≠ s0 / 256))
  (same16 ++ sameLoaf ++ rest).take n

/-- Where all 64 slices of a page are the 64 slices of one 16 KiB quarter, the page with its slices in order, and the
quarter (04 R126). -/
def State.alignPage (s : State) (p : Page) : Page :=
  let qs := p.frames.map (fun f => (s.frame f).slice)
  match qs with
  | [] => p
  | q0 :: _ =>
    let want := (List.range 64).map (fun k => q0 / 64 * 64 + k)
    if p.items.length = 64 ∧ want.all (fun x => qs.contains x) then
      { p with
        items := want.filterMap (fun x => (p.frames.find? (fun f => decide ((s.frame f).slice = x))).map .frame)
        aligned := some (q0 / 64) }
    else p

/-- A frame chosen for a page: STATE 2, with the key its slot holds at this moment (12 R362). -/
def State.chooseFrame (s : State) (f : Nat) : State :=
  s.updFrame f (fun x => { x with state := .chosen, key := some (x.key.getD (s.slot x.keyslot).keyId) })

/-- Marks frames chosen for a page. -/
def State.choose (s : State) (fs : List Nat) : State := fs.foldl (fun t f => t.chooseFrame f) s

/-- Assembles a page of a data stream: adds drain-ready slices to the page that waits for more, or starts one. -/
def State.assembleData (s : State) (q : Stream) : State :=
  let ready := s.drainReady q
  match s.stk.pages.find? (fun e => decide (e.2.stream = q) && decide (e.2.stage = .assembling)), ready with
  | some (i, p), _ =>
    let s0 := (p.frames.head?.map (fun f => (s.frame f).slice)).getD 0
    let fs := s.pickFrames s0 (64 - p.items.length) ready
    let t := (s.choose fs).updPage i (fun p => { p with items := p.items ++ fs.map .frame })
    t.updPage i (fun p => if p.items.length = 64 then { t.alignPage p with stage := .target } else p)
  | none, f :: _ =>
    let fs := s.pickFrames (s.frame f).slice 64 (f :: ready.filter (fun g => g != f))
    let t := s.choose fs
    let p := { Page.blank q s.now with items := fs.map .frame }
    t.addPage (if fs.length = 64 then { t.alignPage p with stage := .target } else p)
  | none, [] => s

/-- Four journal records in a line. -/
def recLine : List JRec → Line
  | [] => 0
  | r :: rs => (recLine rs <<< 128) ||| r.bits.setWidth 512

/-- Sixteen journal records in a sector. -/
def recFour (rs : List JRec) : Four :=
  ⟨recLine (rs.take 4), recLine ((rs.drop 4).take 4), recLine ((rs.drop 8).take 4), recLine ((rs.drop 12).take 4)⟩

/-- Takes up to `n` records off the Map journal rail. -/
def State.takeRecs : Nat → State → List JRec × State
  | 0, s => ([], s)
  | n + 1, s => match s.rails.journal.take 4096 with
    | none => ([], s)
    | some (r, rl) =>
      let x := State.takeRecs n { s with rails := { s.rails with journal := rl } }
      (r :: x.1, x.2)

/-- Whether the metadata quota has frames for one page more (03 R92, R109). -/
def State.metaRoom (s : State) : Bool := decide (s.used metaRegion + 64 ≤ metaRegion.size)

/-- A sector of metadata takes a frame of the metadata quota (03 R92, R96). -/
def State.metaFrame (s : State) (x : Sector) : State × PageItem :=
  match s.freeIn metaRegion with
  | none => (s, .sector x none)
  | some f =>
    (s.setFrame f { Frame.free with
      slice := 2 ^ 37, keyslot := 0x3FF, valid := 0xF, home := .noCopy, state := .chosen, quota := 3, data := x.data
      link := 32, since := s.now }, .sector x (some f))

/-- Adds a page of metadata: its sectors stand in frames of the metadata quota until it has passed. -/
def State.addMeta (s : State) (p : Page) (secs : List Sector) : State :=
  let r := secs.foldl (fun (a : State × List PageItem) x => let y := a.1.metaFrame x; (y.1, a.2 ++ [y.2])) (s, [])
  r.1.addPage { p with items := r.2, stage := .target }

/-- The records up to and including the last flush mark of a list. -/
def markIndex (rs : List JRec) : Nat := (rs.reverse.dropWhile (fun r => decide (r.kind ≠ .flushMark))).length

/-- Assembles a journal page of 1,024 records, filled up with PAD records; a page with a flush mark on its way is padded at once
(04 R138). It notes how many records stand up to its last mark. -/
def State.assembleJournal (s : State) : State :=
  let have' := s.rails.journal.waiting.length
  if have' = 0 ∨ (have' < 1024 ∧ !s.siv.markPending) ∨ !s.metaRoom then s
  else
    let x := State.takeRecs 1024 s
    let last := x.2.rails.journal.waiting.length = 0
    let full := x.1 ++ List.replicate (1024 - x.1.length) (⟨.pad, 0, 0, 0⟩ : JRec)
    let secs := (chunksOf 16 64 full).zipIdx.map (fun e =>
      metaSector 4 ((x.2.siv.journalSector + e.2) % 2 ^ 37) (recFour e.1))
    let t := { x.2 with siv := { x.2.siv with
      journalSector := x.2.siv.journalSector + 64
      markPending := if last then false else x.2.siv.markPending } }
    t.addMeta { Page.blank .journal s.now with
      recs := full
      mark := if x.1.any (fun r => decide (r.kind = .flushMark)) then
          some (s.siv.recTotal - have' + markIndex x.1) else none } secs

/-- PAGE_ASSEMBLY's part for the checkpoint stream: the next page of the image (04 R140); the image's bytes are given
by `img`. -/
def State.assembleCkpt (s : State) (img : Nat → Four) : State :=
  if s.siv.ckptActive && decide (s.siv.ckptNext < s.siv.ckptPages) && s.metaRoom then
    let i := s.siv.ckptNext
    let secs := (List.range 64).map (fun k => metaSector 5 (i * 64 + k) (img (i * 64 + k)))
    ({ s with siv := { s.siv with ckptNext := i + 1 } }).addMeta (Page.blank .checkpoint s.now) secs
  else s

/-- Assembles a ring page: 64 KIND 6 sectors of four records each, once 256 unwritten records have accumulated (18 R505). -/
def State.assembleSpike (s : State) : State :=
  let rs := s.spikeDue
  if rs.length < 256 ∨ !s.metaRoom then s
  else
    let first := (rs.head?.map (fun (r : SpikeRec) => r.serial.toNat)).getD 0
    let secs := (chunksOf 4 64 rs).zipIdx.map (fun e => metaSector 6 (first % 262144 / 4 + e.2) (spikeFour e.1))
    ({ s with spk := { s.spk with writing := s.spk.writing + 1 } }).addMeta
      { Page.blank .spike s.now with mark := some first } secs

/-! ### Checkpoint images (04 R136, R140) -/

/-- The 8 B of a loaf entry (04 R120). -/
def LoafE.word (e : LoafE) : Nat :=
  e.fmt.toNat + e.loc % 2 ^ 30 * 4 + e.heat % 64 * 2 ^ 32 + (if e.busy then 2 ^ 38 else 0)

/-- The 8 B of a slice entry (04 R121). -/
def SliceE.word (e : SliceE) : Nat := e.fmt.toNat + e.saddr % 2 ^ 38 * 4 + e.poison.toNat * 2 ^ 40

/-- STATE of a block table entry as a number (07 R205). -/
def BState.code : BState → Nat
  | .free => 0
  | .onDeck => 1
  | .open_ => 2
  | .closed => 3
  | .verified => 4
  | .victim => 5
  | .retired => 6
  | .spare => 7
  | .reserved => 8

/-- 8-byte word `k` of a block table entry (07 R205); a P0 past the last page, which the field cannot hold, shows as the last (log
entry 33). -/
def Block.word (b : Block) (k : Nat) : Nat :=
  match k with
  | 0 => b.state.code + b.width % 64 * 2 ^ 4 + b.cursor % 2048 * 2 ^ 10 + b.valid % 2 ^ 17 * 2 ^ 21 +
      sat 24 b.resets * 2 ^ 38 + b.role % 4 * 2 ^ 62
  | 1 => b.remap % 2 ^ 20 + min 1023 b.p0 * 2 ^ 20 + b.patrolT % 2 ^ 32 * 2 ^ 32
  | 2 => b.anchors.getD 0 0 + b.anchors.getD 1 0 * 2 ^ 32
  | 3 => b.anchors.getD 2 0 + b.anchors.getD 3 0 * 2 ^ 32
  | 4 => b.mirror % 2 ^ 38 + sat 8 b.errPeak * 2 ^ 38 + b.errBucket % 16 * 2 ^ 46 + sat 4 b.tfault * 2 ^ 50
  | 5 => sat 16 b.retryCnt + sat 16 b.reconCnt * 2 ^ 16
  | _ => 0

/-- The tag of a slice block in a checkpoint image: the block's index in the reserved bits of its first two entries, 11 bits in
each (DESIGN CHOICE: R140 tags every block with its index and does not say where; log entry 89). -/
def blockTag (block k : Nat) : Nat :=
  if k = 0 then block % 2048 * 2 ^ 44 else if k = 1 then block / 2048 % 2048 * 2 ^ 44 else 0

/-- Word `w` (8 B) of a checkpoint image: the loaf table, the allocated slice blocks in ascending order, each tagged with its
index, the block table with its upkeep area (04 R140, 07 R206). -/
def Ckpt.word (c : Ckpt) (w : Nat) : Nat :=
  if w < 2 ^ 29 then (c.loafs.getD w .unmapped).word
  else
    let v := w - 2 ^ 29
    if v < c.blocksUsed.length * 256 then
      let b := c.blocksUsed.getD (v / 256) 0
      (c.slices.getD (b * 256 + v % 256) .unmapped).word + blockTag b (v % 256)
    else
      let u := v - c.blocksUsed.length * 256
      if u < 20971520 then (c.table.getD (u / 8) .blank).word (u % 8)
      else match u - 20971520 with
        | 0 => c.driftClk.toNat
        | 1 => c.opsec
        | 2 => c.retiredMask.toNat + (c.rebuildState + c.rebuildLeft * 256) * 2 ^ 32
        | _ => 0

/-- Sector `k` of a checkpoint image: 32 words of 8 B. -/
def Ckpt.sector (c : Ckpt) (k : Nat) : Four :=
  let line := fun (j : Nat) => (List.range 8).foldl
    (fun (a : Line) i => a ||| (BitVec.ofNat 512 (c.word (k * 32 + j * 8 + i)) <<< (64 * i))) 0
  ⟨line 0, line 1, line 2, line 3⟩

/-- Pages of a checkpoint image of 16 KiB each: 4 GiB of loaf table, 2 KiB per slice block, 256 MiB of block table. -/
def ckptPageCount (blocks : Nat) : Nat := 262144 + (blocks + 7) / 8 + 16384

/-! ### Placement (04 R126 to R129) -/

/-- What the placement rule returns for a loaf (04 R127). -/
inductive Place where
  | mapSlices
  | promote
  | fold
  | wait
deriving DecidableEq, Repr

/-- The placement rule for a loaf, with the free host-share frames it may count (04 R127); `rise` is 0 for a page whose loaves'
heat has risen already, because it is placed again after a failed program. -/
def State.place (s : State) (rise l frames : Nat) : Place × Nat :=
  let e := s.loaf l
  let h := min (e.heat + rise) 63
  let occ := s.sliceOcc
  if e.fmt = 2 then (.mapSlices, h)
  else if 0 < s.freeBlocks ∧ (occ < s.openPct ∨ s.promoteHeat ≤ h) then (.promote, h)
  else if 256 ≤ frames then (.fold, h)
  else if 0 < s.freeBlocks then (.promote, h)
  else (.wait, h)

/-- The loaves of a page in ascending index. -/
def State.pageLoaves (s : State) (p : Page) : List Nat :=
  p.frames.foldl (fun a f => insertNat ((s.frame f).slice / 256) a) []

/-- Judges the loaves of a page in turn; promotions take their slice block at once, so that each judgement sees those
before it, and 256 frames are set aside for each fold (04 R127). -/
def State.judge (s : State) (rise frames : Nat) : List Nat → List (Nat × Place × Nat)
  | [] => []
  | l :: ls =>
    let r := s.place rise l frames
    let t := if r.1 = .promote then s.promote l else s
    (l, r.1, r.2) :: t.judge rise (if r.1 = .fold then frames - 256 else frames) ls

/-- Stores the heat of a loaf. -/
def State.setHeat (s : State) (l h : Nat) : State := s.setLoaf l { s.loaf l with heat := h }

/-- Frames of a loaf in the host share, by slice. -/
def State.loafFrames (s : State) (l : Nat) : List (Nat × Option Nat) :=
  (List.range 256).map (fun k => (l * 256 + k, s.resident (l * 256 + k)))

/-- The frame a fold fills for a slice that is not resident (04 R129). -/
def State.foldFrame (s : State) (r : Region) (quota slice : Nat) : State × Nat :=
  match s.freeIn r with
  | none => (s, 0)
  | some f =>
    let x := { Frame.free with slice := slice, state := .chosen, quota := quota, link := 32, since := s.now }
    let e := s.loaf (slice / 256)
    let x := { x with entry := if e.fmt = 2 then (s.sliceE e.loc (slice % 256)).word else 0 }
    let x := match s.addrOf slice with
      | some a => { x with home := .copy, src := some a, keyslot := ((s.sector a).map (·.keyslot)).getD 0 }
      | none => { x with home := .noCopy, valid := 0xF, poison := s.mapPoison slice }
    (s.setFrame f x, f)

/-- A chosen frame returns to STATE 1: one whose key slot was erased meanwhile is freed (12 R372). -/
def State.backToResident (s : State) (f : Nat) : State :=
  if (s.frame f).erased || ((s.frame f).discarded && !(s.frame f).redirty) then s.freeFrame f
  else s.updFrame f (fun x => { x with state := .resident, key := none })

/-- Whether a page holds a slice of a loaf. -/
def State.holdsLoaf (s : State) (l : Nat) (p : Page) : Bool :=
  p.frames.any (fun f => decide (f < 401408) && decide ((s.frame f).slice / 256 = l))

/-- Whether a page of the host stream that is targeted holds a slice of a loaf: a fold waits until its copy is mapped, so that no
slice stands in two pages (log entry 90). -/
def State.loafOnWay (s : State) (l : Nat) : Bool :=
  s.stk.pages.any (fun e => decide (e.2.stream = .host) && e.2.addr.isSome && s.holdsLoaf l e.2)

/-- Dissolves a page: its slices return to STATE 1 and are reassembled into later pages (04 R127). -/
def State.dissolve (s : State) (i : Nat) (p : Page) : State :=
  p.frames.foldl (fun u f => u.backToResident f) { s with stk := { s.stk with pages := s.stk.pages.del i } }

/-- Dissolves the pages that have no target yet and hold a slice of a loaf that is folded (log entry 90). -/
def State.dissolveLoaf (s : State) (l : Nat) : State :=
  (s.stk.pages.filter (fun e => decide (e.2.stream = .host) && e.2.addr.isNone && s.holdsLoaf l e.2)).foldl
    (fun u e => u.dissolve e.1 e.2) s

/-- Issues a fold of a loaf: its resident host slices and filled frames as four aligned pages, BUSY set (04 R129). In
a demotion (`quota` 1) the host share's frames are not used and the frames come from the upkeep quota (R132). -/
def State.foldLoaf (s : State) (l : Nat) (demotion : Bool) : State :=
  let q := if demotion then Stream.upkeep else Stream.host
  let r := if demotion then upkeepRegion else hostRegion
  let x := (s.loafFrames l).foldl (fun (a : State × List Nat) e =>
    match (if demotion then none else e.2) with
    | some f => (a.1.chooseFrame f, a.2 ++ [f])
    | none => let y := a.1.foldFrame r (if demotion then 1 else 0) e.1; (y.1, a.2 ++ [y.2])) (s, [])
  let t := x.1.setLoaf l { x.1.loaf l with busy := true }
  let t := x.2.foldl (fun u f => u.completeFrame f (streamRequester q) (streamCls q)) t
  (chunksOf 64 4 x.2).zipIdx.foldl (fun u e => u.addPage { Page.blank q s.now with
    items := e.1.map .frame, stage := .target, aligned := some (l * 4 + e.2), fold := true, heated := true }) t

/-- Pages of a stream that stand ready as the four quarters of a loaf, in quarter order. -/
def State.quarters (s : State) (q : Stream) (l : Nat) : List Nat :=
  (List.range 4).filterMap (fun k => (s.stk.pages.find? (fun e => decide (e.2.stream = q) &&
    decide (e.2.aligned = some (l * 4 + k)) && (decide (e.2.stage = .target) || decide (e.2.stage = .alignedWait)))).map
      (·.1))

/-- Whether the host stream may issue a page now: unrestricted above URGENT, else against its credit (07 R212). -/
def State.hostPaced (s : State) (q : Stream) : Bool :=
  decide (q = .host) && !s.upk.pantry && decide (s.freeStripes ≤ s.liveFld .upk 0x44 31 16) && decide (s.upk.credit < 64)

/-- Spends the host stream's credit for `n` pages, or earns it for relocation pages issued (07 R212). -/
def State.spendCredit (s : State) (q : Stream) (n : Nat) : State :=
  if s.freeStripes ≤ s.liveFld .upk 0x44 31 16 then
    match q with
    | .host => { s with upk := { s.upk with credit := s.upk.credit - 64 * n } }
    | .upkeep =>
      let v := s.upk.lastV
      { s with upk := { s.upk with credit := s.upk.credit + n * ((s.upk.lastPages - v) * 64 / max 1 v) } }
    | _ => s
  else s


/-- The lookups that page targeting makes, on the Translate rails at priority 4 (04 R125); they are answered at once (log entry
11). -/
def State.askRails (s : State) (q : Nat → TReq) (prio : Nat) (slices : List Nat) : State :=
  let rs := slices.foldl (fun (m : SMap (Rail TReq)) x => m.upd .empty (x % 4) (fun r => r.through 512 (q x) prio))
    s.rails.translate
  { slices.foldl State.cacheLookup s with rails := { s.rails with translate := rs } }

/-- Targets a page that is judged mappable: promotions and heats are stored first (04 R127, R128). -/
def State.placePartial (s : State) (i : Nat) (p : Page) : State :=
  let s := s.askRails .page 4 (p.frames.map (fun f => (s.frame f).slice))
  let js := s.judge (if p.heated then 0 else 1) (hostRegion.size - s.used hostRegion) (s.pageLoaves p)
  let folds := js.filter (fun j => decide (j.2.1 = .fold))
  if !folds.isEmpty then
    if folds.any (fun j => s.loafOnWay j.1) then s
    else
      let t := folds.foldl (fun u j => u.dissolveLoaf j.1) (s.dissolve i p)
      folds.foldl (fun u j => (u.setHeat j.1 j.2.2).foldLoaf j.1 false) t
  else if js.any (fun j => decide (j.2.1 = .wait)) then s.updPage i (fun p => { p with stage := .sliceWait })
  else if s.hostPaced p.stream || !s.stagingRoom js.length then s
  else
    let t := js.foldl (fun u j =>
      (if j.2.1 = .promote then u.promote j.1 else u).setHeat j.1 j.2.2) s
    match t.targetPage i p.stream t.aboveFloor with
    | some u =>
      let u := u.spendCredit p.stream 1
      let ds := u.siv.demote.filter (fun l =>
        !((s.pageLoaves p).contains l && decide (0 < (u.loaf l).heat) && !u.aboveDemote))
      (({ u with siv := { u.siv with demote := ds } }).updPage i (fun p => { p with heated := true })).completePage i
    | none => s

/-- Targets a ring page: to the open spike stripe of its half of the ring, once the other one is closed (18 R506). -/
def State.targetSpike (s : State) (i : Nat) : State :=
  let S := s.spikeStripe
  let t := s.sealRows
  if t.med.openStripes.any (fun o => decide (o.stream = .spike) && decide (o.stripe ≠ S)) then t
  else if t.med.openStripes.any (fun o => decide (o.stripe = S)) || t.med.onDeck.contains S then
    (t.targetPage i .spike true).getD t
  else t

/-- The sieve judges one page (04 R126, R127): a metadata page takes the next place; an aligned page is held for its
quarters or targeted with them; an upkeep page of single slices takes the next place; another is judged by the
placement rule. -/
def State.judgePage (s : State) (i : Nat) (p : Page) : State :=
  match p.stream, p.aligned with
  | .journal, _ => (s.targetPage i .journal true).getD s
  | .checkpoint, _ => (s.targetPage i .checkpoint true).getD s
  | .spike, _ => s.targetSpike i
  | q, some a =>
    let is := s.quarters q (a / 4)
    if is.length = 4 then
      if s.hostPaced q then s
      else ((s.targetQuad is q s.aboveFloor).map (fun t => is.foldl State.completePage (t.spendCredit q 4))).getD s
    else s.updPage i (fun p => { p with stage := .alignedWait, since := s.now })
  | .host, none => s.placePartial i p
  | q, none => ((s.targetPage i q s.aboveFloor).map (fun t => (t.spendCredit q 1).completePage i)).getD s

/-- The oldest page in a stage; a failed page of a quad waits for the quad's others (`State.settleQuad`). -/
def State.oldestPage (s : State) (st : PageStage) : Option (Nat × Page) :=
  s.stk.pages.find? (fun e => decide (e.2.stage = st) && e.2.quad.isNone)

/-! ### Program results (03 R105, 04 R126 to R138, 05 R162 to R171) -/

/-- Frees a frame whose drained copy is mapped, or keeps it resident where it was written again (03 R105, R27). -/
def State.releaseFrame (s : State) (f : Nat) : State :=
  let x := s.frame f
  (if x.redirty && !x.erased then
    s.setFrame f { x with
      state := .resident, redirty := false, discarded := false, home := .copy, since := s.now, key := none }
  else s.freeFrame f)

/-- Counts a programmed copy that no map entry takes: nothing points at it, so its sector is never valid (04 R130). -/
def State.dropFrame (s : State) (f : Nat) : State := s.releaseFrame f

/-- Whether the map still points at the place an upkeep copy was read from (04 R130). -/
def State.unmoved (s : State) (x : Frame) : Bool := decide (s.addrOf x.slice = x.src)

/-- Whether the slice entry that a demotion fold read is as it was then (04 R130). -/
def State.unfolded (s : State) (x : Frame) : Bool :=
  let e := s.loaf (x.slice / 256)
  decide (e.fmt = 2) && !s.discardWaits x.slice && decide ((s.sliceE e.loc (x.slice % 256)).word = x.entry)

/-- Switches the map for one sector of a passed page: unless a discard covers it, or an upkeep source has moved (04
R126, R130, R145). None where it must wait for a slice block (R128), for room in staging (R134), or for a discard that is
ordered before it (R144). -/
def State.switchOne (s : State) (addr : Nat) (seq : BitVec 48) (f : Nat) : Option State :=
  let x := s.frame f
  if (x.discarded && !x.redirty) || (decide (x.quota ≠ 0) && !s.unmoved x) then some (s.dropFrame f)
  else if s.discardWaits x.slice then none
  else (s.toSlices (x.slice / 256)).map (fun t => (t.mapSlice x.slice addr seq).releaseFrame f)

/-- Removes page `i`; its frames of the metadata quota are free. -/
def State.dropPage (s : State) (i : Nat) : State :=
  let t := match s.stk.pages.find i with
    | none => s
    | some p => (p.frames.filter metaRegion.has).foldl State.freeFrame s
  { t with stk := { t.stk with pages := t.stk.pages.del i } }

/-- The lookups of a map switch on the Translate rails: at priority 4, for upkeep's at 2 (04 R125). -/
def State.askSwitch (s : State) (fs : List Nat) : State :=
  let up := fs.filter (fun f => decide ((s.frame f).quota ≠ 0))
  let own := fs.filter (fun f => decide ((s.frame f).quota = 0))
  (s.askRails .switch 4 (own.map (fun f => (s.frame f).slice))).askRails .upkeep 2 (up.map (fun f => (s.frame f).slice))

/-- Switches a page slice by slice; slices that must wait keep the page in place, their frames in STATE 5. -/
def State.switchSlices (s : State) (i : Nat) (p : Page) : State :=
  let a := p.addr.getD 0
  let r := p.items.zipIdx.foldl (fun (acc : State × List PageItem) e => match e.1 with
    | .sector x (some f) => match acc.1.switchOne (a + e.2) p.seq f with
      | some t => (t, acc.2 ++ [.sector x none])
      | none => (acc.1, acc.2 ++ [e.1])
    | x => (acc.1, acc.2 ++ [x])) (s.askSwitch p.frames, [])
  let left := r.2.any (fun i => match i with
    | .sector _ (some _) => true
    | _ => false)
  if left then r.1.updPage i (fun p => { p with items := r.2 }) else r.1.dropPage i

/-- Whether a relocated quad's loaf entry still points at the quad it was read from (04 R130). -/
def State.sameQuad (s : State) (l : Nat) (fs : List Nat) : Bool :=
  let e := s.loaf l
  decide (e.fmt = 1) && fs.all (fun f => s.unmoved (s.frame f))

/-- The four pages of a quad, once all have passed: the whole loaf is mapped, or slice by slice where a discard covers part of
it or a relocated loaf was promoted meanwhile, HEAT 0 unless they come from a fold; a demotion fold whose loaf changed is dropped
(04 R126, R130). -/
def State.switchQuad (s : State) (q : Nat) (is : List (Nat × Page)) : State :=
  let fs := (is.map (fun e => e.2.frames)).flatten
  let l := ((fs.head?.map (fun f => (s.frame f).slice)).getD 0) / 256
  let upkeep := fs.any (fun f => decide ((s.frame f).quota ≠ 0))
  let seq := ((is.getLast?).map (fun e => e.2.seq)).getD 0
  let fold := is.any (fun e => e.2.fold)
  let t := s.setLoaf l { s.loaf l with busy := false, heat := if fold then (s.loaf l).heat else 0 }
  if upkeep && fold && !fs.all (fun f => s.unfolded (s.frame f)) then
    is.foldl (fun u e => u.dropPage e.1) (fs.foldl (fun u f => u.dropFrame f) t)
  else if fs.any (fun f => (s.frame f).discarded) || (upkeep && !fold && !s.sameQuad l fs) then
    is.foldl (fun u e => (u.updPage e.1 (fun p => { p with quad := none })).switchSlices e.1 { e.2 with quad := none }) t
  else if !s.stagingRoom 1 || s.discardWaits (l * 256) then s
  else
    let u := (s.askSwitch (fs.take 1)).mapLoaf l q seq fold
    is.foldl (fun u e => u.dropPage e.1) (fs.foldl (fun u f => u.releaseFrame f) u)

/-- A page position back as the frame it was taken from, to be snapshot again (03 R105). -/
def PageItem.unsnap : PageItem → PageItem
  | .sector _ (some f) => .frame f
  | y => y

/-- A page is reassembled from the same slices for a new target (03 R105); a page of metadata keeps its sectors. -/
def State.reassemble (s : State) (i : Nat) (p : Page) : State :=
  let data := p.frames.all (fun f => !metaRegion.has f)
  let t := s.updPage i (fun p => { p with
    items := if data then p.items.map PageItem.unsnap else p.items
    stage := .target, addr := none, quad := none, snapped := false, reissued := true })
  p.frames.foldl (fun u f => u.updFrame f (fun x => { x with state := .chosen, redirty := false })) t

/-- What becomes of a quad once none of its pages is on its way: with all four passed the map switches; with one failed the whole
quad is reassembled for a new one (log entry 88). -/
def State.settleQuad (s : State) (q : Nat) : State :=
  let is := s.stk.pages.filter (fun e => decide (e.2.quad = some q))
  if is.length = 4 ∧ is.all (fun e => decide (e.2.stage = .passed)) then s.switchQuad q is
  else if is.all (fun e => decide (e.2.stage = .passed) || decide (e.2.stage = .target)) &&
      is.any (fun e => decide (e.2.stage = .target)) then
    is.foldl (fun u e => u.reassemble e.1 e.2) s
  else s

/-- Retire Burner and Retire Die complete when the checkpoint they forced is durable (07 R229, R230). -/
def State.endRetires (s : State) (ckpt : Nat) : State :=
  s.endRuns (fun r => (decide (r.opcode = 0xC061) || decide (r.opcode = 0xC063)) && decide (r.args.headD 0 ≤ ckpt)) rcOk
    (leBytes 4 0)

/-- A flush mark or a checkpoint end in a durable journal page takes effect (04 R138, R140). -/
def State.durableRecs (s : State) (p : Page) : State :=
  let t := { s with siv := { s.siv with
    journal := s.siv.journal ++ p.recs
    journalBytes := s.siv.journalBytes + 16384 } }
  p.recs.foldl (fun u r =>
    match r.kind with
    | .flushMark =>
      { u with siv := { u.siv with
        mark := some ⟨r.seq, (p.recs.filter (fun x => decide (x.kind = .cursor))).map (·.loc),
          (p.recs.filter (fun x => decide (x.kind = .onDeck))).map (·.loc)⟩
        markRecs := p.mark.getD u.siv.markRecs
        markDone := u.now } }
    | .ckptEnd =>
      let jr := u.siv.journal.dropWhile (fun x => !(decide (x.kind = .ckptStart) && decide (x.loc = r.loc)))
      ({ u with siv := { u.siv with
        ckptActive := false, ckptDone := u.siv.ckptImage, ckptDoneStart := u.siv.ckptStarted, ckptProgress := 0,
        journal := jr, journalBytes := jr.length * 16 } }).raise .siv 2 |>.endRetires r.loc
    | _ => u) t

/-- Settles the passed pages of the journal in order: a page is durable when every earlier one has passed (04 R138). -/
def State.settleJournal : Nat → State → State
  | 0, s => s
  | k + 1, s => match s.stk.pages.find? (fun e => decide (e.2.stream = .journal) && decide (e.2.parity = 0) && !e.2.pads) with
    | some (i, p) => if p.stage = .passed then State.settleJournal k ((s.durableRecs p).dropPage i) else s
    | none => s

/-- The map entries that point into a plane block (13 R390). -/
def State.pointers (s : State) (x : Nat) : Nat :=
  (s.siv.loafs.map (fun e => if e.2.fmt = 1 ∧ pbOfAddr (e.2.loc * 256) / 4 = x / 4 then 64 else 0)).sum +
    countIf (fun e => decide (e.2.fmt = 1) && decide (pbOfAddr e.2.saddr = x)) s.siv.slices

/-- A checkpoint counts the entries that point into each plane block marked unknown and clears its mark (13 R390). -/
def State.countUnknown (s : State) : State :=
  let t := s.mec.unknown.foldl (fun u x => u.updBlk x (fun b => { b with valid := s.pointers x })) s
  { t with mec := { t.mec with unknown := [] } }

/-- Settles one passed page (R105): its parity, metadata or data effect; a page of pad sectors has none. -/
def State.settlePage (s : State) (i : Nat) (p : Page) : State :=
  if p.pads then s.dropPage i
  else if p.parity = 3 then
    (match p.mark with
      | some x => s.updBlk x (fun b => { b with mirror := p.addr.getD 0 })
      | none => s).dropPage i
  else if p.parity ≠ 0 then s.dropPage i
  else match p.stream with
    | .journal => s.settleJournal (s.stk.pages.length)
    | .checkpoint =>
      let t := { s with siv := { s.siv with
        ckptPassed := s.siv.ckptPassed + 1
        ckptProgress := (s.siv.ckptPassed + 1) * 100 / max 1 s.siv.ckptPages } }
      let t := t.dropPage i
      if t.siv.ckptPassed = t.siv.ckptPages then t.countUnknown.stage ⟨.ckptEnd, 0, t.siv.ckptNum, t.siv.seq⟩ else t
    | .spike => (s.dropPage i).ringPassed (p.mark.getD 0)
    | _ => if p.frames.any (fun f => s.lockedUnit (s.frame f).slice) then s else match p.quad with
      | some q => s.settleQuad q
      | none => s.switchSlices i p

/-- Settles every page that has passed. -/
def State.settle (s : State) : State :=
  s.stk.pages.foldl (fun t e => match t.stk.pages.find e.1 with
    | some p => if p.stage = .passed then t.settlePage e.1 p else t
    | none => t) s

/-- Position `k` of the inner-parity ring of a die: planes fastest, then pages, then blocks 2,040 to 2,047 (05 R169; log entry
91). -/
def ringPos (b ce k : Nat) : Nat := saOf b ce (2040 + k / 4096 % 8) (k / 4 % 1024) (k % 4) 0

/-- The source plane block in a mirror's header: sector address [37:18] above [7:6] (05 R167; log entry 91). -/
def srcOf (x : Nat) : Nat := pbAddr x / 2 ^ 18 * 4 + x % 4

/-- The plane block that a mirror's header names. -/
def srcPb (src : Nat) : Nat := pbOfAddr (src / 4 * 2 ^ 18 + src % 4 * 2 ^ 6)

/-- The mirrors that a ring block holds. -/
def State.mirrorsIn (s : State) (blk : Nat) : List ParPage :=
  (s.med.parity.filter (fun e => decide (e.1 / 4096 = blk))).map (·.2)

/-- Whether every source block whose mirrors a ring block holds has been verified (05 R169). -/
def State.ringDone (s : State) (blk : Nat) : Bool :=
  (s.mirrorsIn blk).all (fun x => decide ((s.blk (srcPb x.src)).state ≠ .open_) &&
    decide ((s.blk (srcPb x.src)).state ≠ .closed))

/-- The last page of a plane block that its parity slot covers (05 R169). -/
def State.lastCovered (s : State) (x : Nat) : Nat :=
  s.stk.pages.foldl (fun m e => match e.2.addr with
    | some a => if pbOfAddr a = x ∧ !e.2.snapped ∧ e.2.stage ≠ .passed then min m (saPage a) else m
    | none => m) (s.blk x).cursor - 1

/-- Programs the inner mirror of a plane block that is due (05 R169): a copy of its slot, on the same burner, on chip enable
(c + 5) mod N, at the die's next ring position. A ring block that still holds mirrors is reset first, once their sources have been
verified; until then the mirror waits. -/
def State.mirror (s : State) (x : Nat) : State :=
  let done := { s with med := { s.med with mirrorDue := s.med.mirrorDue.filter (fun y => y != x) } }
  if !s.stk.blockSlots.contains x then done
  else
    let b := x / 81920
    let ce := (x / 8192 % 10 + 5) % max 1 s.dieCount
    let k := s.med.ringNext.getD (b * 10 + ce) 0
    let addr := ringPos b ce k
    if decide (k % 4096 = 0) && !(s.mirrorsIn (addr / 2 ^ 18)).isEmpty then
      if s.med.ringReset.contains (addr / 2 ^ 18) || !s.ringDone (addr / 2 ^ 18) then s
      else ({ s with med := { s.med with ringReset := (addr / 2 ^ 18) :: s.med.ringReset } }).request .reset addr .scraper
        .scraper .ring
    else
      let q := match s.med.openStripes.find? (fun o => o.members.any (fun r => (List.range 4).any (fun pl =>
          decide (pbOfAddr (s.memberAddr o.stripe r 1023 pl) = x)))) with
        | some o => o.stream
        | none => .upkeep
      let i := done.stk.nextPage
      let t := { done with med := { done.med with ringNext := done.med.ringNext.set 0 (b * 10 + ce) ((k + 1) % 32768) } }
      let t := t.addPage { Page.blank q s.now with
        parity := 3, stage := .completing, mark := some x
        par := some ⟨3, 0, 0, s.lastCovered x, srcOf x, s.stk.blockPar.getD x []⟩ }
      (t.aim i addr).issueProgram i

/-- Programs the mirrors that are due. -/
def State.pumpMirrors (s : State) : State := s.med.mirrorDue.foldl State.mirror s

/-- What a passed page leaves on media: its parity page, or its sectors (05 R153, R167). -/
def State.storePage (s : State) (p : Page) : State :=
  let a := p.addr.getD 0
  match p.par with
  | some x => { s with med := { s.med with parity := s.med.parity.put (a / 64) x } }
  | none =>
    let put := fun (m : SMap Sector) (e : PageItem × Nat) => match e.1 with
      | .sector x _ => m.put (a + e.2) x
      | _ => m
    { s with med := { s.med with sectors := p.items.zipIdx.foldl put s.med.sectors } }

/-- A program passed: what it wrote stands on media, the anchors follow, journal records leave staging, and the mirror of every
64th page is due (04 R105, R134, 05 R169, 07 R205). -/
def State.programPassed (s : State) (i : Nat) (p : Page) : State :=
  let a := p.addr.getD 0
  let t := s.storePage p
  let t := if saPage a % 256 = 0 then
      t.updBlk (pbOfAddr a) (fun b => { b with anchors := updAt (fun _ => t.upk.driftClk.toNat) (saPage a / 256) b.anchors })
    else t
  let t := t.updPage i (fun p => { p with stage := .passed })
  let t := { t with siv := { t.siv with staging := p.recs.foldl (fun l r => l.erase r) t.siv.staging } }
  let t := if p.parity = 0 ∧ saPage a % 64 = 63 then t.dueMirrors [pbOfAddr a] else t
  let t := t.tally ⟨0x012, none, none, none, some (match p.stream with
    | .host => 1
    | .upkeep => 2
    | .rebuild => 2
    | _ => 6)⟩ 1
  let t := if p.stream = .upkeep ∧ p.parity = 0 then t.tally ⟨0x030, none, none, none, some 2⟩ 1 else t
  let w := if p.parity = 0 ∧ (p.stream = .host ∨ p.stream = .upkeep) then
      t.upk.wa ++ [(t.now, 64, countIf (fun f => decide ((t.frame f).link < 32)) p.frames)] else t.upk.wa
  { t with upk := { t.upk with wa := w } }

/-- The spare block of a burner with the fewest RESETS (07 R223): its address [37:18]. -/
def State.spareOf (s : State) (b : Nat) : Option Nat :=
  let c := s.med.table.filter (fun e => decide (e.1 % 4 = 0) && decide (e.1 / 81920 = b) && decide (e.2.state = .spare))
  let best := c.foldl (fun (m : Option (Nat × Nat)) e => match m with
    | none => some (e.1, e.2.resets)
    | some (_, r) => if e.2.resets < r then some (e.1, e.2.resets) else m) none
  best.map (fun x => saOf b (x.1 / 8192 % 10) (x.1 / 4 % 2048) 0 0 0 / 2 ^ 18)

/-- Puts the burner's spare in place of a stripe member from page `p0` on (05 R171, 07 R223). -/
def State.remapMember (s : State) (S b p0 : Nat) : State :=
  match s.spareOf b with
  | none => s
  | some sp =>
    let e := s.blk (pbOf b (s.stripeCe S) (s.stripeBlock S) 0)
    let t := s.updBlock4 b (s.stripeCe S) (s.stripeBlock S) (fun x => { x with remap := sp, p0 := p0 })
    t.updBlock4 (saBurner (sp * 2 ^ 18)) (saCe (sp * 2 ^ 18)) (saBlock (sp * 2 ^ 18)) (fun x =>
      { x with state := e.state, width := e.width, role := e.role })

/-- Withdraws the program of a page that has not run: from its lane, its burner and the die's latches; on the Media request
rail it is dropped at entry. -/
def State.recall (s : State) (i : Nat) : State :=
  let mine := fun (q : MReq) => decide (q.op = .program i)
  let t := { s with pass := { s.pass with
    lanes := (s.pass.lanes.mapVal (fun _ (l : List MReq) => l.filter (fun q => !mine q))).keep (fun _ l => !l.isEmpty) } }
  let t := t.burners.foldl (fun u e => u.updBurner e.1 (fun b => { b with
    granted := b.granted.filter (fun q => !mine q), buffer := b.buffer.filter (fun x => x != i) })) t
  t.dies.foldl (fun u e => if e.2.latches.any (fun l => decide (l.2 = i)) then
      u.updDie (e.1 / 10) (e.1 % 10) (fun d => { d with latches := d.latches.keep (fun _ x => x != i) }) else u) t

/-- The parity domain of a page as it stands in the write buffer (05 R151). -/
def State.domOf (s : State) (p : Page) : List Byte :=
  pageDom s.prot.keys (p.addr.getD 0) (p.items.map (fun i => match i with
    | .sector x _ => x
    | _ => { padSector with seq := p.seq }))

/-- Takes a page out of its row slot and its block slot again, using the copy in the write buffer (05 R171). -/
def State.takeOut (s : State) (p : Page) : State :=
  if p.snapped && decide (p.parity = 0) then s.addParity (p.addr.getD 0) (s.domOf p) else s

/-- A page whose program failed, or whose place became a vacancy, asks for a new target (03 R105, 05 R171): its number is
abandoned. One of a quad waits for the quad's others; one of pad sectors is dropped, for the vacancy fills its position. -/
def State.retarget (s : State) (i : Nat) (p : Page) : State :=
  let s := s.recall i
  if p.pads then s.dropPage i
  else match p.quad with
    | none => (s.reassemble i p).updPage i (fun x => { x with aligned := none })
    | some q => (s.updPage i (fun x => { x with stage := .target, addr := none, snapped := false })).settleQuad q

/-- The open stripe and the failed position's member, of a program at an address. -/
def State.openAt (s : State) (a : Nat) : Option OpenStripe :=
  s.med.openStripes.find? (fun (o : OpenStripe) => o.members.any (fun r => decide (r = saBurner a) &&
    decide (s.memberAddr o.stripe r (saPage a) (saPlane a) = a)))

/-- Whether a member of a stripe can be remapped: its burner has a spare, and it has not been remapped before, for the table
holds one remap (log entry 92). -/
def State.canRemap (s : State) (S b : Nat) : Bool :=
  (s.spareOf b).isSome && decide ((s.blk (pbOf b (s.stripeCe S) (s.stripeBlock S) 0)).remap = 0xFFFFF)

/-- Closes the plane block a failed program stood on (05 R171): its higher pages become vacancies; rows from there on continue
with a member remapped to a spare, which closes the block's other planes too; the closed plane blocks are mirrored and queued for
the seal scan. -/
def State.closeFailed (s : State) (o : OpenStripe) (a : Nat) (parity : Bool) : State :=
  let b := saBurner a
  let has := s.canRemap o.stripe b
  let p0 := if parity then saPage a else (o.positions.map (·.1)).foldl max (saPage a + 1)
  let planes := if has then List.range 4 else [saPlane a]
  let shut := planes.map (fun pl => pbOf b (saCe a) (saBlock a) pl)
  let t := if has then s.remapMember o.stripe b p0 else s
  let t := shut.foldl (fun u x => u.updBlk x (fun y => { y with state := .closed })) t
  let next := fun (m : SMap Nat) => planes.foldl (fun m pl => m.put (b * 4 + pl) (if has then p0 else 1024)) m
  let f := fun (x : OpenStripe) => if x.stripe = o.stripe ∧ ¬ parity then { x with next := next x.next } else x
  let t := { t with
    med := { t.med with openStripes := t.med.openStripes.map f }
    upk := { t.upk with sealQueue := t.upk.sealQueue ++ shut.map (fun x => (x, t.now)) } }
  t.dueMirrors (shut.filter t.stk.blockSlots.contains)

/-- The pages on their way to the higher pages of the plane blocks that `closeFailed` closes. -/
def State.overtaken (s : State) (o : OpenStripe) (a : Nat) : List (Nat × Page) :=
  let all := s.canRemap o.stripe (saBurner a)
  s.stk.pages.filter (fun e => match e.2.addr with
    | some x => decide (e.2.stage ≠ .passed) && decide (x / 2 ^ 18 = a / 2 ^ 18) && decide (saPage a ≤ saPage x) &&
        decide (x ≠ a) && (all || decide (saPlane x = saPlane a)) && !s.dies.any (fun d => d.2.opReqs.any (fun q =>
          decide (q.op = .program e.1)))
    | none => false)

/-- Issues the parity of the rows of a stripe from page `p` on again on a member that was remapped there: the slots are still
held (05 R171). -/
def State.reissueParity (s : State) (S b p : Nat) : State :=
  match s.med.openStripes.find? (fun o => decide (o.stripe = S)) with
  | none => s
  | some o => match o.parity.find? (fun e => decide (e.2 = b)) with
    | none => s
    | some e => (o.rows.filter (fun r => decide (p ≤ r.1) && o.issued.contains r.1)).foldl (fun t r =>
        (List.range 4).foldl (fun u pl =>
          let i := u.stk.nextPage
          let u := u.addPage { Page.blank o.stream s.now with
            parity := e.1, stage := .completing, par := some ⟨e.1, 0, S, r.1, 0, o.slot r.1 (e.1 - 1) pl⟩ }
          let a := u.memberAddr S b r.1 pl
          ((u.updBlk (pbOfAddr a) (fun x => { x with cursor := max x.cursor (r.1 + 1) })).aim i a).issueProgram i) t) s

/-- A failed program (05 R171, 03 R105): it is charged to the block unless a die reset lost it; the page leaves its parity
slots, the plane block is closed, and the page, with those that were to follow it there, is issued elsewhere. A parity page is
issued again from the row slot on the remapped member; where there is none, the row goes without it and the stripe is refreshed
(log entry 92). A mirror is due again. -/
def State.programFailed (s : State) (i : Nat) (p : Page) (charge : Bool) : State :=
  let a := p.addr.getD 0
  let t := (if charge then s.report 3 0 (blockId a) else s).raise .stk 4
  if p.parity = 3 then ((t.recall i).dropPage i).dueMirrors p.mark.toList
  else match t.openAt a with
    | none => (t.takeOut p).retarget i p
    | some o =>
      let late := t.overtaken o a
      let has := t.canRemap o.stripe (saBurner a)
      let t := late.foldl (fun u e => u.takeOut e.2) (t.takeOut p)
      let t := t.closeFailed o a (decide (p.parity ≠ 0))
      let again := fun (u : State) (e : Nat × Page) =>
        if e.2.parity ≠ 0 then (u.recall e.1).dropPage e.1 else u.retarget e.1 e.2
      let t := late.foldl again (again t (i, p))
      if p.parity = 0 then t
      else if has then t.reissueParity o.stripe (saBurner a) (saPage a)
      else t.queueForced 5 o.stripe

/-! ### Flush marks and checkpoints (04 R138, R140) -/

/-- H: every page with a number up to it has passed, with its records staged, or been abandoned (04 R138): one less than the
lowest number of a targeted page still on its way, or of one whose map switch is still to come, else the counter. -/
def State.coveredSeq (s : State) : BitVec 48 :=
  let open_ := fun (p : Page) => p.addr.isSome && (decide (p.stage ≠ .passed) ||
    decide (p.stream = .host) || decide (p.stream = .upkeep) || decide (p.stream = .rebuild))
  (s.stk.pages.filter (fun e => open_ e.2)).foldl
    (fun h e => if seqNewer e.2.seq h then h else e.2.seq - 1) s.siv.seq

/-- The open plane blocks and the next page of each: the cursors of a mark. -/
def State.cursors (s : State) : List Nat :=
  (s.med.openStripes.map (fun o => (o.data.map (fun r => (List.range 4).map (fun pl =>
    s.memberAddr o.stripe r (min 1023 (o.nextOf r pl)) pl))).flatten)).flatten

/-- The blocks on a burner's on-deck list, in order: of the user stripes on deck or being put there, those whose reset on this
burner has passed (04 R138, 06 R196). -/
def State.deckOf (s : State) (b : Nat) : List Nat :=
  let rest := (s.med.resetting.filter (fun e => s.userStripe e.1 && !e.2.contains b)).map (·.1)
  (s.med.onDeck.filter s.userStripe ++ rest).map (fun S => s.memberAddr S b 0 0)

/-- Whether the on-deck list of some burner is empty (04 R138). -/
def State.deckEmpty (s : State) : Bool := s.liveBurners.any (fun b => (s.deckOf b).isEmpty)

/-- The blocks reserved to open next: the first 8 of each burner's list, and those of the metadata rings (04 R138). -/
def State.onDeckBlocks (s : State) : List Nat :=
  (s.liveBurners.map (fun b => (s.deckOf b).take 8)).flatten ++
    ((s.med.onDeck.filter (fun S => !s.userStripe S)).map (fun S => s.liveBurners.map (fun r => s.memberAddr S r 0 0))).flatten

/-- Writes a flush mark (04 R138): the mark, its cursors and the on-deck blocks are staged, and the metadata stream
pads the page they end in. -/
def State.writeMark (s : State) : State :=
  let cs := s.cursors
  let ds := s.onDeckBlocks
  let t := s.stage ⟨.flushMark, 0, cs.length + ds.length, s.coveredSeq⟩
  let t := cs.foldl (fun u a => u.stage ⟨.cursor, 0, a, 0⟩) t
  let t := ds.foldl (fun u a => u.stage ⟨.onDeck, 0, a, 0⟩) t
  { t with siv := { t.siv with markPending := true, recordsSinceMark := 0, markSent := s.siv.recTotal + 1, markAt := s.now } }

/-- Halves the heat of every loaf in a cooling sweep and queues for demotion the slice-mapped loaves it leaves at 0
(04 R131, R132). -/
def State.cool (s : State) : State :=
  let ls := s.siv.loafs.mapVal (fun _ e => { e with heat := e.heat / 2 })
  let zero := (ls.filter (fun e => decide (e.2.fmt = 2) && decide (e.2.heat = 0))).map (·.1)
  { s with siv := { s.siv with
    loafs := ls.keep (fun _ e => decide (e ≠ .unmapped))
    demote := zero.foldl insertNew s.siv.demote
    sweepAt := s.now } }

/-- Starts a checkpoint (04 R131, R140): a CKPT_START record, the image taken, and the cooling sweep when the last one
began at least 10 minutes ago. -/
def State.startCkpt (s : State) (early : Bool) : State :=
  if s.siv.ckptActive then { s with siv := { s.siv with ckptPending := true } }
  else
    let t := s.stage ⟨.ckptStart, 0, s.siv.ckptNum + 1, s.siv.seq⟩
    let t := if s.siv.sweepAt + 600 * Config.sec ≤ s.now then t.cool else t
    let img : Ckpt := {
      number := s.siv.ckptNum + 1, loafs := t.siv.loafs, slices := t.siv.slices,
      blocksUsed := t.siv.blocksUsed, table := t.med.table, driftClk := t.upk.driftClk, opsec := t.opsec,
      retiredMask := t.upk.retiredMask, rebuildState := t.upk.rebuildState, rebuildLeft := t.upk.rebuildLeft,
      trims := t.upk.trims }
    let t := { t with siv := { t.siv with
      ckptNum := s.siv.ckptNum + 1, ckptActive := true, ckptStarted := s.now, ckptProgress := 0,
      ckptImage := some img, ckptPages := ckptPageCount t.siv.blocksUsed.length, ckptNext := 0, ckptPassed := 0,
      ckptPending := false } }
    if early then t.raise .siv 3 else t

/-! ### Emptied stripes (07 R207, R211, R224, R227) -/

/-- Whether every member of a stripe holds no valid sector and has no read in flight (07 R207). -/
def State.drained (s : State) (S : Nat) : Bool :=
  (s.memberPbs S).all (fun x => decide ((s.blk x).valid = 0) && decide (s.med.inflight.getD x 0 = 0))

/-- Whether every journal record that moved data out of a stripe is covered by a durable flush mark (04 R135). -/
def State.covered (s : State) (S : Nat) : Bool :=
  (s.memberPbs S).all (fun x => decide (s.med.moved.getD x 0 ≤ s.siv.markRecs))

/-- Takes a stripe out of service once it is empty (07 R224): its surviving members join their burners' pools. -/
def State.withdraw (s : State) (S : Nat) : State :=
  let t := (s.memberPbs S).foldl (fun u x => u.updBlk x (fun b =>
    if b.state = .retired then b else { b with state := .spare, role := 3 })) s
  (({ t with upk := { t.upk with
    withdrawing := t.upk.withdrawing.filter (fun x => x != S), withdrawn := t.upk.withdrawn + 1 } }).record
      0x3006 S 0 0 0).raise .upk 5

/-- A stripe relocated for a rebuild counts down LEFT; at 0 the rebuild is complete (07 R227). -/
def State.rebuiltOne (s : State) (S : Nat) : State :=
  if s.upk.rebuilt.contains S then
    let left := s.upk.rebuildLeft - 1
    let t := { s with upk := { s.upk with rebuilt := s.upk.rebuilt.filter (fun x => x != S), rebuildLeft := left } }
    if left = 0 then
      (({ t with upk := { t.upk with rebuildState := 0 } }).record 0x3005 t.upk.lastRetired t.upk.rebuildBytes 0 0).raise
        .upk 4
    else t
  else s

/-- Releases open-block parity slots (03 R108). -/
def State.dropSlots (s : State) (xs : List Nat) : State :=
  { s with
    stk := { s.stk with
      blockSlots := s.stk.blockSlots.filter (fun x => !xs.contains x)
      blockPar := s.stk.blockPar.keep (fun k _ => !xs.contains k)
      blockLost := s.stk.blockLost.filter (fun x => !xs.contains x) }
    med := { s.med with mirrorDue := s.med.mirrorDue.filter (fun x => !xs.contains x) } }

/-- Turns an emptied stripe FREE, or withdraws it (07 R207, R224). -/
def State.freeStripe (s : State) (S : Nat) : State :=
  let pbs := s.memberPbs S
  let t := (s.dropSlots pbs)
  let t := { t with
    upk := { s.upk with
      sealQueue := s.upk.sealQueue.filter (fun x => !pbs.contains x.1)
      victim := if s.upk.victim = some S then none else s.upk.victim
      victimRead := if s.upk.victim = some S then [] else s.upk.victimRead } }
  let t := t.rebuiltOne S
  if t.upk.withdrawing.contains S then t.withdraw S else t.updStripe S (fun b => { b with state := .free })

/-- The closed stripes that hold nothing. -/
def State.emptied (s : State) : List Nat :=
  s.listedStripes.filter (fun S => s.userStripe S && (decide (s.stripeState S = .verified) ||
    decide (s.stripeState S = .victim) || decide (s.stripeState S = .closed)) && s.drained S)

/-- Frees the emptied stripes whose moves are durable; for one whose moves are not, the scraper asks for a flush mark at
once (07 R207, 04 R135). -/
def State.freeEmptied (s : State) : State :=
  let t := s.emptied.foldl (fun u S => if u.covered S then u.freeStripe S else u) s
  let asks := fun (S : Nat) => t.drained S &&
    (t.memberPbs S).any (fun x => decide (t.siv.markSent < t.med.moved.getD x 0))
  if t.upk.victim.any asks then t.writeMark else t

/-! ### Relocation reads (07 R210) -/

/-- The quota and stream of a victim's relocation: the rebuild quota for precedence 1, else the upkeep quota. -/
def State.moveRegion (s : State) : Region × Nat :=
  if s.upk.victimPrec = 1 then (rebuildRegion, 2) else (upkeepRegion, 1)

/-- Relocation reads under way. -/
def State.moving (s : State) : Nat := countIf (fun r => match r.purpose with
  | .relocate _ => decide (r.op = .read)
  | _ => false) s.outstanding

/-- REBUILD.STATE waits for space while F is at the keep and a rebuild is queued or under way (07 R227). -/
def State.judgeRebuild (s : State) : State :=
  if s.upk.rebuildState = 0 then s
  else if s.atKeep && ((s.upk.victim.isSome && decide (s.upk.victimPrec = 1)) ||
      s.upk.forced.any (fun f => decide (f.prec = 1))) then { s with upk := { s.upk with rebuildState := 2 } }
  else { s with upk := { s.upk with rebuildState := 1 } }

/-- Issues the relocation reads of the current victim, at most 16 at a time and while its quota has frames for them;
paused in lid down, a rebuild also while F is at the keep (07 R210, R227, 12 R368). -/
def State.scrape : Nat → State → State
  | 0, s => s
  | n + 1, s => match s.upk.victim, s.upk.victimRead with
    | some S, a :: as =>
      let r := s.moveRegion.1
      if s.prot.lid || (decide (s.upk.victimPrec = 1) && s.atKeep) || decide (16 ≤ s.moving) || decide (r.size < s.used r + 16 * (s.moving + 1)) then s
      else
        let who := if s.upk.victimPrec = 1 then Requester.rebuild else .scraper
        State.scrape n (({ s with upk := { s.upk with victimRead := as } }).request .read a who .scraper (.relocate S))
    | _, _ => s

/-- After anything that may fill a row, seal one, change F or free a quota frame. -/
def State.afterPrograms (s : State) : State :=
  let t := State.scrape 16 s.settle.fillRows.sealRows.pumpMirrors.freeEmptied.judgeCapacity.judgeRebuild
  if t.siv.ckptPending && !t.siv.ckptActive then t.startCkpt false else t

end Sys2Proof.Machine
end

