-- ==== Sys2Proof/Machine/Visibility.lean ====
section
/-!
DEFINITION. What each path sees of the control window (19 R524, R525, 02 R54, R74, R75).
-/

namespace Sys2Proof.Machine

/-- What a path sees of a page: everything and may write it, may only read it, the tenant's filtered part, or zeros. -/
inductive View where
  | full
  | readOnly
  | tenant
  | hidden
deriving DecidableEq, Repr

/-- Whether whisk channel `c` is granted to link `n` (11 R326, R352). -/
def State.granted (s : State) (c n : Nat) : Bool :=
  let g := s.getLive (.wsk c) 0x40
  bitOf g 5 && decide (fld g 4 0 = n)

/-- The view of a path in Boil, by page and role (19 R524). -/
def State.roleView (s : State) (path : Path) (p : RPage) : View :=
  if s.isFo path then .full
  else match path, p with
    | _, .glb => .readOnly
    | .link n, .port q => if n.val / 4 = q then .tenant else .hidden
    | .link n, .wsk c => if s.granted c n.val then .tenant else .hidden
    | _, .tly => .tenant
    | _, _ => .hidden

/-- What a path sees of a page now (19 R524): in recovery mode only the global page and, over MCTP, BOOT_RESET; in
Simmer what R74 and R75 leave. -/
def State.view (s : State) (path : Path) (p : RPage) : View :=
  if s.recovery then (if p = .glb then s.roleView path p else .hidden)
  else if s.pwrState = .simmer then
    match path, p with
    | .mctp, .pwr => .full
    | .mctp, _ => .readOnly
    | .link n, .glb => if n.val = s.ports.simmerLink then .readOnly else .hidden
    | .link n, .pwr => if n.val = s.ports.simmerLink then (if s.isFo path then .full else .readOnly) else .hidden
    | .link n, .port q => if n.val = s.ports.simmerLink ∧ n.val / 4 = q then .readOnly else .hidden
    | _, _ => .hidden
  else s.roleView path p

/-- Whether register accesses of a path reach the device: of a link that is up and whose link stream is not Insecure (02
R62, R76), and over MCTP while the core runs (15 R436, 19 R523). -/
def State.heard (s : State) (path : Path) : Bool :=
  match path with
  | .mctp => decide (s.pwrState = .starting) || decide (s.pwrState = .boil) || decide (s.pwrState = .simmer)
  | .link n => (s.link n.val).up && !(s.link n.val).insecure.contains 1

/-- Whether a path's write to a page of fabric-owner registers has an effect. -/
def State.mayWrite (s : State) (path : Path) (p : RPage) : Bool := s.heard path && decide (s.view path p = .full)

/-! ### Writes that do not take effect at once (09 R277) -/

/-- Whether a page is a dead target (09 R277): a retired burner's, or that of a whisk channel held in reset. -/
def State.deadPage (s : State) (p : RPage) : Bool :=
  match p with
  | .brn b => (s.burner b).retired
  | .wsk c => (s.chan c).held
  | _ => false

/-- Whether a path's writes reach registers of a page: it sees the page in full, or as the tenant it is. -/
def State.reaches (s : State) (path : Path) (p : RPage) : Bool :=
  decide (s.view path p = .full) || decide (s.view path p = .tenant)

/-- Adds a write to those of its link that wait behind a full hold list. -/
def State.deferWrite (s : State) (n off : Nat) (path : Path) (data : W32) : State :=
  ({ s with ports := { s.ports with nextHeld := s.ports.nextHeld + 1 } }).setLink n (fun (l : Link) => { l with
    blocked := l.blocked ++ [Bar0Write.mk s.ports.nextHeld path off data] })

/-- Holds a register write to a dead target; with 16 held it waits. Over MCTP it is discarded and recorded. -/
def State.holdWrite (s : State) (path : Path) (off : Nat) (data : W32) : State :=
  match path with
  | .mctp => s.record 0x1005 0x20 off data.toNat 0
  | .link n =>
    if 16 ≤ (s.link n.val).holds.length then s.deferWrite n.val off path data
    else ({ s with ports := { s.ports with nextHeld := s.ports.nextHeld + 1 } }).setLink n.val (fun (l : Link) => { l with
      holds := l.holds ++ [Bar0Write.mk s.ports.nextHeld path off data] })

/-- A write to a control-window offset (09 R277): behind a write of its link that waits it waits too, to a dead target it is
held, else `body` says what it does. -/
def State.portWrite (s : State) (path : Path) (off : Nat) (data : W32) (body : State → State) : State :=
  let waits := match path with
    | .mctp => false
    | .link n => !(s.link n.val).blocked.isEmpty
  if !s.heard path then s
  else if waits then
    match path with
    | .mctp => s
    | .link n => s.deferWrite n.val off path data
  else match locate off with
    | none => s
    | some (p, _) => if s.deadPage p && s.reaches path p then s.holdWrite path off data else body s

end Sys2Proof.Machine
end

