-- ==== Sys2Proof/Machine/DrainCommands.lean ====
section
/-!
DEFINITION. The commands of the drain and of the sieve's own timers: assembly, placement, program results, flush marks,
checkpoints, demotion folds (03_stockpot.md, 04_translation.md, 05_media_layout.md).
-/

namespace Sys2Proof.Machine

/-- PAGE_ASSEMBLY (03 R104): the drain of a stream assembles its next page; a frozen stockpot issues no drain (R115). -/
def execPageAssembly (q : Stream) (s : State) : Host.Outcome State Fault Refusal :=
  if s.halted then .next s
  else match q with
    | .journal => .next s.assembleJournal
    | .checkpoint => .next (s.assembleCkpt (fun k => match s.siv.ckptImage with
        | some c => c.sector k
        | none => .zero))
    | .spike => .next s.assembleSpike
    | q => .next (s.assembleData q)

/-- PAD_FILL_EXPIRY (03 R104): 20 µs after a page's first slice was chosen, its remaining sectors become pad sectors. -/
def execPadFillExpiry (q : Stream) (s : State) : Host.Outcome State Fault Refusal :=
  if s.halted then .next s
  else match s.stk.pages.find? (fun e => decide (e.2.stream = q) && decide (e.2.stage = .assembling)) with
  | none => .next s
  | some (i, p) =>
    let t := s.reach (p.since + 20 * Config.us)
    .next (t.updPage i (fun p =>
      { p with items := p.items ++ List.replicate (64 - p.items.length) .pad, stage := .target }))

/-- AGE_MAX_EXPIRY (03 R103): the oldest resident slice has been resident for STK_AGE_MAX, and drains below LO too. -/
def execAgeMaxExpiry (s : State) : Host.Outcome State Fault Refusal :=
  if s.unclocked then .next s else
  let age := max 1 (s.liveFld .stk 0x58 15 0) * Config.ms
  let c := s.stk.frames.filter (fun e => hostRegion.has e.1 && decide (e.2.state = .resident))
  match c with
  | [] => .next s
  | (_, x) :: xs => .next (s.reach (xs.foldl (fun m e => min m e.2.since) x.since + age))

/-- PAGE_TARGETING (04 R126, R127): the sieve judges the oldest page that waits for a target. -/
def execPageTargeting (s : State) : Host.Outcome State Fault Refusal :=
  if s.halted then .next s
  else match s.oldestPage .target with
  | none => .next s
  | some (i, p) => .next (s.judgePage i p).judgeCapacity

/-- ALIGNED_PAGE_WAIT_EXPIRY (04 R126): the 20 µs hold of the oldest waiting aligned page ends, and it is placed as a
partial-loaf page. -/
def execAlignedPageWaitExpiry (s : State) : Host.Outcome State Fault Refusal :=
  if s.halted then .next s
  else match s.oldestPage .alignedWait with
  | none => .next s
  | some (i, p) =>
    let t := s.reach (p.since + 20 * Config.us)
    let t := t.updPage i (fun p => { p with stage := .target, aligned := none })
    .next (t.judgePage i { p with stage := .target, aligned := none }).judgeCapacity

/-- SLICE_WAIT_REJUDGE (04 R127, R128): the waiting page is judged again, and switches that wait for a slice block are
tried, when a slice block or 256 host-share frames are free. -/
def execSliceWaitRejudge (s : State) : Host.Outcome State Fault Refusal :=
  if s.halted then .next s
  else if 0 < s.freeBlocks ∨ 256 ≤ hostRegion.size - s.used hostRegion then
    let t := s.settle
    match t.oldestPage .sliceWait with
    | none => .next t
    | some (i, p) => .next (t.placePartial i p).judgeCapacity
  else .next s

/-- A page program's result (03 R105): a pass puts the page on media; a failure shown in PFAIL closes the block. -/
def State.programResult (s : State) (r : MReq) (pfail : BitVec 4) : State :=
  match r.op with
  | .program i =>
    match s.stk.pages.find i with
    | none => s
    | some p =>
      let s := s.updBurner (saBurner r.addr) (fun b => { b with buffer := b.buffer.filter (fun x => x != i) })
      if pfail.getLsbD (saPlane r.addr) then s.programFailed i p true else s.programPassed i p
  | _ => s

/-- A block reset has passed: nothing stands on it any more, its table entries are blank and RESETS has risen (05 R169, 07
R207). -/
def State.blockBlank (s : State) (a : Nat) (st : BState) : State :=
  let t := s.updBlock4 (saBurner a) (saCe a) (saBlock a) (fun x =>
    { Block.blank with state := st, resets := sat 24 (x.resets + 1), remap := x.remap, p0 := x.p0, patrolT := x.patrolT })
  { t with med := { t.med with
    sectors := t.med.sectors.keep (fun k _ => !decide (k / 2 ^ 18 = a / 2 ^ 18))
    parity := t.med.parity.keep (fun k _ => !decide (k / 4096 = a / 2 ^ 18)) } }
  |>.tally (.plain 0x031) 1

/-- A member of stripe `S` has been reset: with the last member the stripe is on deck, or free where it is being wiped (07
R207, 12 R372). -/
def State.resetPassed (s : State) (r : MReq) (S : Nat) : State :=
  let t := s.blockBlank r.addr .onDeck
  let left := ((t.med.resetting.getD S []).filter (fun x => x != saBurner r.addr))
  if left.isEmpty && t.upk.wiping.contains S then
    ({ t with
      med := { t.med with resetting := t.med.resetting.del S }
      upk := { t.upk with wiping := t.upk.wiping.filter (fun x => x != S) } }).updStripe S (fun x => { x with state := .free })
  else if left.isEmpty then
    { t with med := { t.med with resetting := t.med.resetting.del S, onDeck := insertNew t.med.onDeck S } }
  else { t with med := { t.med with resetting := t.med.resetting.put S left } }

/-- A block of the inner-parity ring has been reset (05 R169). -/
def State.ringResetPassed (s : State) (a : Nat) : State :=
  let t := s.blockBlank a .reserved
  ({ t with med := { t.med with ringReset := t.med.ringReset.filter (fun x => x != a / 2 ^ 18) } }).pumpMirrors

/-- The image to replay: the area whose marker carries the larger flush count. -/
def State.image (s : State) : Option (Nat × FlushImage) :=
  s.med.flushArea.foldl (fun m e => match m with
    | none => some e
    | some y => if field y.2.marker 8 8 < field e.2.marker 8 8 then some e else m) none

/-- Issues the next resets of the area just replayed (05 R174): the blocks that hold the marker after every other one (15 R433). With none
left the area is reset, and its image is gone. -/
def State.pumpArea (s : State) : State :=
  match s.med.areaReset with
  | [] => match s.image with
    | some (area, _) => { s with med := { s.med with
        flushArea := s.med.flushArea.del area, flushReset := s.med.flushReset ||| BitVec.ofNat 2 (2 ^ area) } }
    | none => s
  | a :: _ => s.request .reset a .scraper .scraper .area

/-- A block of the replayed flush area has been reset (05 R174). -/
def State.areaResetPassed (s : State) (a : Nat) : State :=
  let t := s.blockBlank a .reserved
  (({ t with med := { t.med with areaReset := t.med.areaReset.filter (fun x => x != a) } }).pumpArea).presentMemory

/-- A block reset's result (07 R207): RESETS rises, the block is blank, and a stripe whose members are all reset stands
on deck, or is FREE where a Sanitize reset it (12 R372). A failure is reported; a ring block is then reset again. -/
def State.resetResult (s : State) (r : MReq) (passed : Bool) : State :=
  match r.purpose with
  | .ring => if passed then s.ringResetPassed r.addr
    else
      let t := s.report 3 0 (blockId r.addr)
      { t with med := { t.med with ringReset := t.med.ringReset.filter (fun x => x != r.addr / 2 ^ 18) } }
  | .area => if passed then s.areaResetPassed r.addr else (s.report 3 0 (blockId r.addr)).areaResetPassed r.addr
  | .relocate S => if passed then s.resetPassed r S else s.report 3 0 (blockId r.addr)
  | _ => if passed then s.resetPassed r (s.stripeOf (saCe r.addr) (saBlock r.addr)) else s.report 3 0 (blockId r.addr)

/-- An operation that a die reset aborted (06 R188): a program has failed, uncharged; a reset is issued again. -/
def State.lostResult (s : State) (r : MReq) : State :=
  match r.op with
  | .program i => match s.stk.pages.find i with
    | some p => (s.programFailed i p false).afterPrograms
    | none => s
  | _ => s

/-- PROGRAM_RESULT (03 R105): the program or reset result at the head of a burner's Media result rail is taken; a pass leads to
map switch, journal records and slice release, and rows that fill are sealed. A codeword result there is MEDIA_RESULT's. -/
def execProgramResult (b : Fin 32) (s : State) : Host.Outcome State Fault Refusal :=
  if s.unclocked then .next s else
  match (s.rails.mediaRes.getD b.val .empty).take 256 with
  | none => .next s
  | some (x, rl) =>
    let rs := s.rails.mediaRes.set .empty b.val rl
    let t := { s with rails := { s.rails with mediaRes := rs } }
    match x with
    | .program r pf => .next (t.programResult r pf).afterPrograms
    | .reset r ok => .next (t.resetResult r ok).judgeCapacity
    | .lost r => .next (t.lostResult r)
    | .read _ _ => .next s

/-- Fills the unfilled positions of a row of an open stripe with pad pages (05 R163). -/
def State.padRow (s : State) (o : OpenStripe) (page : Nat) : State :=
  ((o.positions.filter (fun y => decide (y.1 ≤ page))).foldl (fun u y => u.padPos o page y.2.1 y.2.2) s).fillRows

/-- ROW_PAD_EXPIRY (05 R163): the oldest row that has held its slot for 10 ms has its unfilled positions padded. -/
def execRowPadExpiry (s : State) : Host.Outcome State Fault Refusal :=
  let rows := (s.med.openStripes.map (fun o => (o.rows.filter (fun e => !o.issued.contains e.1 && o.started.contains e.1)).map
    (fun e => (e.2, o.stripe, e.1)))).flatten
  if s.halted then .next s
  else match rows with
  | [] => .next s
  | r :: rest =>
    let x := rest.foldl (fun m e => if e.1 < m.1 then e else m) r
    let t := s.reach (x.1 + 10 * Config.ms)
    match t.med.openStripes.find? (fun o => decide (o.stripe = x.2.1)) with
    | none => .next t
    | some o => .next (t.padRow o x.2.2)

/-- DEMOTION_FOLD (04 R132): upkeep folds the first queued loaf, at no more than SIV_FOLD.RATE loaves per millisecond,
with frames of its own quota. -/
def execDemotionFold (s : State) : Host.Outcome State Fault Refusal :=
  let w := s.now / Config.ms
  let n := if s.siv.foldWindow = w then s.siv.foldCount else 0
  if s.halted then .next s
  else match s.siv.demote with
  | [] => .next s
  | l :: ls =>
    if max 1 (s.liveFld .siv 0x48 7 0) ≤ n ∨ upkeepRegion.size < s.used upkeepRegion + 256 then .next s
    else
      let t := { s with siv := { s.siv with demote := ls, foldWindow := w, foldCount := n + 1 } }
      if (t.loaf l).fmt = 2 then .next (t.foldLoaf l true) else .next t

/-- FLUSH_MARK (04 R138): the mark that is due 100 ms after the previous one, after 32 MiB of records, or when an
on-deck list empties. -/
def execFlushMark (s : State) : Host.Outcome State Fault Refusal :=
  if s.unclocked then .next s
  else if s.siv.recordsSinceMark * 16 < 32 * 2 ^ 20 ∧ !s.deckEmpty then
    .next (s.reach (s.siv.markAt + 100 * Config.ms)).writeMark
  else .next s.writeMark

/-- CHECKPOINT_START (04 R140): the sweep starts on its 10-minute timer, or early once the journal has reached 16 GiB. -/
def execCheckpointStart (s : State) : Host.Outcome State Fault Refusal :=
  if s.unclocked ∨ s.siv.ckptActive then .next s
  else if 16 * 2 ^ 30 ≤ s.siv.journalBytes then .next (s.startCkpt true)
  else .next ((s.reach (s.siv.ckptStarted + 600 * Config.sec)).startCkpt false)

/-- CKPT_NOW (04 R148): a write of 1 to SIV_CTRL.CKPT_NOW starts a checkpoint; ignored while one runs. -/
def execCkptNow (path : Path) (s : State) : Host.Outcome State Fault Refusal :=
  if s.unclocked then .next s else
  .next (s.portWrite path 0x21000C 1 (fun s =>
    if s.mayWrite path .siv && !s.siv.ckptActive then (s.startCkpt false) else s))

/-- FREEZE (03 R115): a write of STK_CTRL.FREEZE freezes or unfreezes the stockpot for test. -/
def execFreeze (path : Path) (v : Bool) (s : State) : Host.Outcome State Fault Refusal :=
  .next (s.portWrite path 0x20000C (bit32 v 0) (fun s =>
    if s.mayWrite path .stk then (s.freezeWrite v) else s))

end Sys2Proof.Machine
end

