-- ==== Sys2Proof/Machine/Pass.lean ====
section
/-!
DEFINITION. The pass (08_read_path_and_pass.md R248 to R254): stamps, lanes, grants and masks.
-/

namespace Sys2Proof.Machine

/-- The fc counter of a lane, modulo 2^32 (08 R248). -/
def State.fc32 (s : State) : BitVec 32 := BitVec.ofNat 32 s.fc

/-- The deadline of a request's class in fc (08 R248, 03 R103, 07 R212, 11 R329). -/
def State.deadline (s : State) (q : MReq) : Nat :=
  let u := Config.fcPerUs s.fuses.grade
  match q.cls with
  | .hostRead => max 1 (s.liveFld .pas 0x40 27 0)
  | .whisk => match q.purpose with
    | .whisk ctx _ => max 2 (min 50000 (s.liveFld (.wsk (ctx / 4)) (0x104 + ctx % 4 * 0x100) 15 0)) * u
    | _ => max 1 (s.liveFld .pas 0x40 27 0)
  | .drain =>
    if decide (q.requester = .stream 0) && s.urgent then min 400 (max 1 (s.liveFld .stk 0x5C 15 0)) * u
    else max 1 (s.liveFld .pas 0x44 27 0)
  | .scraper =>
    if decide (q.requester = .scraper) && decide (s.freeStripes ≤ s.liveFld .upk 0x44 31 16) then
      min 5000 (max 1 (s.liveFld .upk 0x48 12 0)) * u
    else max 1 (s.liveFld .pas 0x48 27 0)
  | .taster => max 1 (s.liveFld .pas 0x4C 27 0)

/-- The lane of burner `b`. -/
def State.lane (s : State) (b : Nat) : List MReq := s.pass.lanes.getD b []

/-- Writes the lane of burner `b`. -/
def State.setLane (s : State) (b : Nat) (l : List MReq) : State :=
  { s with pass := { s.pass with lanes := s.pass.lanes.set [] b l } }

/-- Whether a program that comes off the rail is withdrawn: in Flush (03 R113), or where its page has been given another target
meanwhile (05 R171). -/
def State.gone (s : State) (q : MReq) : Bool :=
  match q.op with
  | .program i => decide (s.pwrState = .flush) || (match s.stk.pages.find i with
    | some p => decide (p.addr ≠ some q.addr) || decide (p.stage ≠ .loaded)
    | none => true)
  | _ => false

/-- Whether a request carries an epoch that its requester has left (14 R407, R408): it is consumed as a no-op. -/
def State.stale (s : State) (q : MReq) : Bool := decide (q.epoch ≠ (s.epochOf q.requester).toNat)

/-- Answers a request whose die or burner is out of service: a read is a lost codeword, to be rebuilt by class C at its own stamp, a
program is reissued, a reset is dropped (R401, 07 R227). -/
def State.failRequest (s : State) (q : MReq) : State :=
  let post := fun (r : MRes) =>
    let rs := s.rails.mediaRes.upd .empty (saBurner q.addr) (fun rl => rl.push 256 r 0)
    { s with rails := { s.rails with mediaRes := rs } }
  match q.op with
  | .read => post (.read q .fail)
  | .program _ => post (.lost q)
  | .reset => s

/-- MEDIA_REQUEST_ENTRY (08 R248): a request commits on a burner's Media request rail and enters its lane, stamped with
its deadline; a retry or member read keeps its stamp. -/
def execMediaRequestEntry (b : Fin 32) (s : State) : Host.Outcome State Fault Refusal :=
  if s.unclocked then .next s else
  match (s.rails.mediaReq.getD b.val .empty).take 256 with
  | none => .next s
  | some (q, rl) =>
    let rs := s.rails.mediaReq.set .empty b.val rl
    let t := { s with rails := { s.rails with mediaReq := rs } }
    if s.stale q then .next (if q.op = .read then t.dropInflight q.addr else t)
    else if s.gone q then .next t
    else if s.unitLost q.addr then .next (t.failRequest q)
    else
    let q' := { q with
      stamp := if q.retry then q.stamp else s.fc32 + BitVec.ofNat 32 (s.deadline q)
      entered := s.now }
    .next (t.setLane b.val (t.lane b.val ++ [q']))

/-- Whether stamp `a` is nearer than `b`, modulo 2^32 (08 R249). -/
def nearer (a b : BitVec 32) : Bool :=
  let d := (b - a).toNat
  decide (1 ≤ d) && decide (d ≤ 2 ^ 31 - 1)

/-- Order of the classes at a tie (08 R249). -/
def DlClass.order : DlClass → Nat
  | .hostRead => 0
  | .whisk => 1
  | .drain => 2
  | .scraper => 3
  | .taster => 4

/-- A requester's number, for the last tie (08 R249). -/
def requesterNum : Requester → Nat
  | .link n => n
  | .whisk c => c
  | .stream q => q
  | .scraper => 0
  | .taster => 1
  | .rebuild => 2

/-- Whether a request goes before another that entered after it (08 R249). -/
def MReq.before (a b : MReq) : Bool :=
  nearer a.stamp b.stamp || (decide (a.stamp = b.stamp) && (decide (a.cls.order < b.cls.order) ||
    (decide (a.cls.order = b.cls.order) && (decide (a.entered < b.entered) || (decide (a.entered = b.entered) &&
      decide (requesterNum a.requester ≤ requesterNum b.requester))))))

/-- Whether a requester's mask is raised (08 R252). -/
def State.masked (s : State) : Requester → Bool
  | .link n => bitOf s.pass.maskLink n
  | .whisk c => bitOf s.pass.maskWsk c
  | r => s.pass.maskOther.contains r

/-- Whether a page lower in its plane block than a plane-page address has not been sent to its die, or not been granted: within
a plane block pages are programmed in ascending order (05 R150). -/
def State.lowerWaits (s : State) (a : Nat) (granted : Bool) : Bool :=
  s.stk.pages.any (fun e => match e.2.addr with
    | some x => decide (pbOfAddr x = pbOfAddr a) && decide (saPage x < saPage a) && (decide (e.2.stage = .completing) ||
        (decide (e.2.stage = .loaded) && (granted || !e.2.snapped)))
    | none => false)

/-- Whether a request may be granted (08 R251): neither its lane nor its requester is masked, and the burner can take
it. -/
def State.eligible (s : State) (b : Nat) (q : MReq) : Bool :=
  !bitOf s.pass.maskBrn b && !s.masked q.requester && decide ((s.burner b).granted.length < 16) &&
    (match q.op with
      | .program i => decide ((s.burner b).buffer.length < 8) && !s.lowerWaits q.addr false && (match s.stk.pages.find i with
        | some p => s.pageReady { p with stage := .completing }
        | none => false)
      | _ => true)

/-- Whether a request's deadline has passed by 2^30 fc. -/
def State.over (s : State) (q : MReq) : Bool := decide (2 ^ 30 ≤ (s.fc32 - q.stamp).toNat) && nearer q.stamp s.fc32

/-- Holds the stamp of every request overdue by 2^30 fc at the counter less 2^30; the first time raises IRQ.CLAMPED
(08 R249). -/
def State.clampLane (s : State) (b : Nat) : State :=
  let fresh := (s.lane b).any (fun q => s.over q && !q.clamped)
  let l := (s.lane b).map (fun q => if s.over q then { q with stamp := s.fc32 - BitVec.ofNat 32 (2 ^ 30), clamped := true }
    else q)
  let t := s.setLane b l
  if fresh then t.raise .pas 1 else t

/-- The request a lane grants: the eligible one that goes before all others (08 R249). -/
def State.nearest (s : State) (b : Nat) : Option MReq :=
  ((s.lane b).filter (s.eligible b)).foldl (fun m q => match m with
    | none => some q
    | some a => if a.before q then some a else some q) none

/-- Class bit of a deadline class in the tallies (18 R493). -/
def DlClass.bit : DlClass → Nat
  | .hostRead => 0
  | .whisk => 4
  | .drain => 1
  | .scraper => 2
  | .taster => 3

/-- Master of a requester in the tallies (18 R493). -/
def requesterMaster : Requester → Nat × Nat
  | .link n => (1, n)
  | .whisk c => (2, c)
  | .stream _ => (4, 3)
  | .scraper => (4, 0)
  | .taster => (4, 1)
  | .rebuild => (4, 2)

/-- An event of a requester, with its privilege, its master and its class (18 R492, R493). -/
def State.requesterEv (s : State) (code : Nat) (r : Requester) (cls : DlClass) : TEv :=
  ⟨code, some (match r with
    | .link n => decide (n = s.foLink)
    | .whisk c => decide (s.whiskLink c = s.foLink)
    | _ => true), some (requesterMaster r), none, some cls.bit⟩

/-- What a page position is in the write buffer: a frame's contents under the key copied when the page was assembled, with the
poison of lines it took nothing for (04 R121, 12 R362; log entry 93), or the sector prepared for it, or a pad sector (05 R154);
the page's number stands in each (04 R133). -/
def State.snapItem (s : State) (p : Page) : PageItem → PageItem
  | .frame f =>
    let y := s.frame f
    let x := y.zeroComplete
    let lost := if y.home = .copy then 0 else s.mapPoison x.slice &&& ~~~ x.valid
    .sector {
      data := x.data, unit := x.slice, seq := p.seq, keyslot := x.keyslot, poison := x.poison ||| lost
      kind := if p.quad.isSome then 2 else 1, frame := 0, keyId := x.key.getD (s.slot x.keyslot).keyId, tagOk := true
      tweak := x.tweak } (some f)
  | .sector x f => .sector { x with seq := p.seq } f
  | .pad => .sector { padSector with seq := p.seq } none

/-- Copies a page into the burner's write buffer (03 R105, R106): its frames in STATE 4, a slice in a quad as KIND 2 and another
as KIND 1 (05 R154); the page enters its row slot and its block slot (05 R161, R168). -/
def State.snapshot (s : State) (i : Nat) (p : Page) : State :=
  let items := p.items.map (s.snapItem p)
  let t := p.frames.foldl (fun (u : State) f =>
    u.updFrame f (fun y => { y.zeroComplete with state := .snapshot, valid := 0xF })) s
  let p' := { p with items := items, snapped := true, par := p.par.map (fun x => { x with seq := p.seq }) }
  let t := t.updPage i (fun _ => p')
  if p.parity = 0 then t.addParity (p.addr.getD 0) (t.domOf p') else t

/-- Gives a granted request to its burner: a program fills a write-buffer page (06 R193). -/
def State.grant (s : State) (b : Nat) (q : MReq) : State :=
  let t := s.setLane b ((s.lane b).filter (fun r => r.id != q.id))
  let late := nearer q.stamp s.fc32
  let e : TEv := ⟨0x020, none, some (requesterMaster q.requester), none, some q.cls.bit⟩
  let t := t.tally e 1
  let t := if late then t.tally { e with code := 0x021 } 1 else t
  let t := if late && decide (q.cls = .hostRead) then t.raise .pas 0 else t
  let t := t.updBurner b (fun x => { x with granted := x.granted ++ [q] })
  match q.op with
  | .program i => match t.stk.pages.find i with
    | some p => (t.snapshot i p).updBurner b (fun x => { x with buffer := x.buffer ++ [i] })
    | none => t
  | _ => t

/-- PASS_GRANT (08 R249): a lane grants its eligible request with the nearest deadline to the burner. -/
def execPassGrant (b : Fin 32) (s : State) : Host.Outcome State Fault Refusal :=
  if s.unclocked then .next s else
  let t := s.clampLane b.val
  match t.nearest b.val with
  | none => .next t
  | some q => .next (t.grant b.val q)

/-- Raises or lowers a requester's mask (08 R252). -/
def State.setMask (s : State) (r : Requester) (v : Bool) : State :=
  match r with
  | .link n =>
    let b := BitVec.ofNat 32 (2 ^ n)
    { s with pass := { s.pass with maskLink := if v then s.pass.maskLink ||| b else s.pass.maskLink &&& ~~~ b } }
  | .whisk c =>
    let b := BitVec.ofNat 64 (2 ^ c)
    { s with pass := { s.pass with maskWsk := if v then s.pass.maskWsk ||| b else s.pass.maskWsk &&& ~~~ b } }
  | r => { s with pass := { s.pass with
      maskOther := if v then insertNew s.pass.maskOther r else s.pass.maskOther.filter (fun x => decide (x ≠ r)) } }

/-- Masks or unmasks a burner's lane (08 R252). -/
def State.maskLane (s : State) (b : Nat) (v : Bool) : State :=
  let m := BitVec.ofNat 32 (2 ^ b)
  { s with pass := { s.pass with maskBrn := if v then s.pass.maskBrn ||| m else s.pass.maskBrn &&& ~~~ m } }

/-- Removes the waiting requests that a test names, at once and without media access (08 R252), and the rebuilds that serve
them. -/
def State.dropRequests (s : State) (gone : MReq → Bool) : State :=
  let t := (s.pass.lanes.map (fun e => e.2.filter gone)).flatten.foldl
    (fun (t : State) q => if q.op = .read then t.dropInflight q.addr else t) s
  let t := (t.med.rebuilds.filter (fun e => gone e.2.req)).foldl (fun (u : State) e => u.dropInflight e.2.req.addr) t
  let ls := (t.pass.lanes.mapVal (fun _ (l : List MReq) => l.filter (fun q => !gone q))).keep
    (fun _ l => decide (l ≠ []))
  { t with
    pass := { t.pass with lanes := ls }
    med := { t.med with rebuilds := t.med.rebuilds.keep (fun _ e => !gone e.req) } }

/-- Removes the waiting reads of a link (08 R252, 02 R71 step 3). -/
def State.dropLinkReads (s : State) (n : Nat) : State :=
  s.dropRequests (fun q => decide (q.requester = .link n) && decide (q.op = .read))

/-- Removes a requester's waiting requests that carry another epoch than `e` (08 R252). -/
def State.dropEpoch (s : State) (r : Requester) (e : Nat) : State :=
  s.dropRequests (fun q => decide (q.requester = r) && decide (q.epoch ≠ e))

/-- Increments an owner epoch (14 R406). -/
def State.bumpEpoch (s : State) (o : Nat) : State :=
  { s with flt := { s.flt with epochs := s.flt.epochs.upd 0 o (· + 1) } }

/-- A requester's epoch is incremented: its requests in the lanes leave the pass, and those on the rails are stale (14 R406 to R408). -/
def State.revert (s : State) (r : Requester) : State :=
  let t := s.bumpEpoch (s.ownerOf r)
  t.dropEpoch r (t.epochOf r).toNat

/-- REQUESTER_MASK (08 R252): a requester's sideband raises or lowers its mask; the waiting requests stay, with their
stamps. -/
def execRequesterMask (r : Requester) (v : Bool) (s : State) : Host.Outcome State Fault Refusal :=
  if s.unclocked then .next s else
  .next (s.setMask r v)

end Sys2Proof.Machine
end

