-- ==== Sys2Proof/Machine/Dies.lean ====
section
/-!
DEFINITION. The burner channel (06_burner_channel.md): what a burner sends its dies and what comes back. What a die
answers (its status word, whether a codeword decodes, what it reads) is an operand of the command.
-/

namespace Sys2Proof.Machine

/-! ### Read levels (07 R216, R217, R219) -/

/-- Key of a media sensor (17 R476). -/
def mediaSensor (b ce : Nat) : Nat := 2 * 1024 + b * 10 + ce

/-- The temperature band of a die (17 R481). -/
def State.dieBand (s : State) (b ce : Nat) : Nat :=
  match s.thm.sensors.find (mediaSensor b ce) with
  | none => 0
  | some x => x.band

/-- The age of a page of a plane block, in ticks (07 R216). -/
def State.ageTicks (s : State) (x p : Nat) : Nat :=
  (s.upk.driftClk - BitVec.ofNat 32 ((s.blk x).anchors.getD (p / 256) 0xFFFFFFFF)).toNat

/-- The age bucket of a number of ticks (07 R217). -/
def bucketOf (ticks : Nat) : Nat := if ticks = 0 then 0 else min 15 (1 + Nat.log2 ticks / 2)

/-- The house value of the base table (07 R219). -/
def rltHouse (k t i : Nat) : Int :=
  match i with
  | 0 => (k : Int) - t
  | 1 => 2 * (k : Int) - t
  | _ => 3 * (k : Int) - 2 * t

/-- An entry of the base table (07 R217, R219). -/
def State.rltOf (s : State) (k t i : Nat) : Int :=
  match s.upk.rlt.find (k * 5 + t) with
  | some l => l.getD i 0
  | none => rltHouse k t i

/-- A trim of a die: burner × 10 + chip enable, bucket, level (07 R206). -/
def State.trimOf (s : State) (d k i : Nat) : Int := (s.upk.trims.getD (d * 16 + k) []).getD i 0

/-- The read levels of a page at a bucket (07 R217). -/
def State.levelsAt (s : State) (a k : Nat) : List Nat :=
  let b := saBurner a
  let ce := saCe a
  (List.range 3).map (fun i =>
    let v : Int := ((s.die b ce).defaults.getD i 0 : Int) + s.rltOf k (s.dieBand b ce) i + s.trimOf (b * 10 + ce) k i
    (max 0 (min 255 v)).toNat)

/-- The signed offset of UPK_RETRY for level `i` (07 R218, R219). -/
def State.retryOffset (s : State) (i : Nat) : Int := (BitVec.ofNat 8 (s.liveFld .upk 0x6C (8 * i + 7) (8 * i))).toInt

/-- The offset of level `i` at step `k` of a calibration (07 R222): step 0 reads at the current levels; then each level in turn stands
at −6, −4, −2, +2, +4 and +6 while the other two are held. -/
def calOffset (k i : Nat) : Int := if k = 0 ∨ (k - 1) / 6 ≠ i then 0 else ([-6, -4, -2, 2, 4, 6] : List Int).getD ((k - 1) % 6) 0

/-- The read levels a codeword read takes: a seal scan's are those of bucket 0 (07 R217, 05 R170), a calibration's those of its bucket at
its step's offsets (07 R222), a class B retry's are shifted by UPK_RETRY (07 R218). -/
def State.levelsOf (s : State) (q : MReq) : List Nat :=
  let l := match q.purpose with
    | .seal _ => s.levelsAt q.addr 0
    | .calibrate _ bucket k =>
      (s.levelsAt q.addr bucket).zipIdx.map (fun e => (max 0 (min 255 ((e.1 : Int) + calOffset k e.2))).toNat)
    | _ => s.levelsAt q.addr (bucketOf (s.ageTicks (pbOfAddr q.addr) (saPage q.addr)))
  if q.soft then l.zipIdx.map (fun e => (max 0 (min 255 ((e.1 : Int) + s.retryOffset e.2))).toNat) else l

/-! ### Dies -/

/-- Microseconds and tenths in BRN_SUSP: MIN_RUN in 0.1 µs, at least 5; WIN in µs, 2 to 8 (06 R204). -/
def State.minRun (s : State) (b : Nat) : Nat := max 5 (s.liveFld (.brn b) 0x48 23 16) * (Config.us / 10)
/-- BRN_SUSP.WIN. -/
def State.suspWin (s : State) (b : Nat) : Nat := max 2 (min 8 (s.liveFld (.brn b) 0x48 31 24)) * Config.us

/-- Whether a burner ever lowers a chip enable: it is not retired (06 R197), and once N is set the enable is below N (06 R178). -/
def State.ceUsed (s : State) (b ce : Nat) : Bool :=
  !(s.burner b).retired && (decide (s.dieCount = 0) || decide (ce < s.dieCount))

/-- Whether a die takes commands: present, its chip enable in use, neither failed nor retired (06 R178, R197). -/
def State.dieLive (s : State) (b ce : Nat) : Bool :=
  let d := s.die b ce
  d.present && !d.failed && !d.retired && s.ceUsed b ce

/-- Whether a burner may start an operation on a die: live, neither waiting for the ledger nor in a backoff (14 R399), and past its
last reset or owner write (R186). -/
def State.dieFree (s : State) (b ce : Nat) : Bool :=
  s.dieLive b ce && !(s.die b ce).held && (s.die b ce).retryAt.isNone && decide ((s.die b ce).busyUntil ≤ s.now)

/-- Whether a sense runs: its register does not hold the codeword yet (06 R183). -/
def Die.reading (d : Die) : Bool := d.sensing.any (fun e => !d.drdy.getLsbD e.1)

/-- Whether a die is neither busy nor has an operation suspended: what most commands need (06 R183, R190). -/
def Die.ready (d : Die) : Bool := decide (d.op = .none) && !d.reading

/-- Whether a die is idle: nothing runs, stands suspended or waits in a register (06 R183). -/
def Die.idle (d : Die) : Bool := decide (d.op = .none) && decide (d.sensing = [])

/-- The levels a burner has on record for a plane (06 R195). -/
def Die.levelsOn (d : Die) (pl : Nat) : List Nat := d.levels.getD pl d.defaults

/-- Sends a command frame to a die: word 0 is the opcode and the plane mask (06 R183). -/
def State.frameTo (s : State) (b ce opcode planes : Nat) (rest : List Nat) : State :=
  s.emit (.die b ce ((opcode + planes * 256) :: rest))

/-- A byte lane as DBI drives it (06 R181): inverted, its DBI bit high, where more than four of its bits would be low. -/
def dbiLane (x : Byte) : Byte × Bool :=
  if 4 < countIf (fun i => !x.getLsbD i) (List.range 8) then (~~~ x, true) else (x, false)

/-- Sends data to a die, with DBI where its parameter page declares it (06 R181). -/
def State.sendData (s : State) (b ce : Nat) (bytes : List Byte) : State :=
  let l := bytes.map dbiLane
  s.emit (if (s.die b ce).dbi then .dieData b ce (l.map (·.1)) (l.map (·.2)) else .dieData b ce bytes [])

/-- Words 1 and 2 of a frame that carries an address (06 R183). -/
def addrWords (a : Nat) : List Nat := [saPage a + saSector a / 16 * 1024, saBlock a]

/-- Takes a request off a burner's granted list. -/
def State.ungrant (s : State) (b : Nat) (q : MReq) : State :=
  s.updBurner b (fun x => { x with granted := x.granted.filter (fun r => r.id != q.id) })

/-- Puts requests back on a burner's granted list. -/
def State.regrant (s : State) (b : Nat) (qs : List MReq) : State :=
  s.updBurner b (fun x => { x with granted := x.granted ++ qs })

/-- The request of a list that carries the nearest deadline (06 R182). -/
def nearestOf (qs : List MReq) : Option MReq :=
  qs.foldl (fun m q => match m with
    | none => some q
    | some a => if a.before q then some a else some q) none

/-- Posts a result on a burner's Media result rail, with its latency sample (01 R37, 18 R499). -/
def State.postResult (s : State) (b : Nat) (q : MReq) (r : MRes) : State :=
  let rs := s.rails.mediaRes.upd .empty b (fun rl => rl.push 256 r 0)
  let t := { s with rails := { s.rails with mediaRes := rs } }
  t.sample 5 (t.requesterEv 0 q.requester q.cls) (t.now - q.entered)

/-- Whether a read addresses a page being programmed or a block being reset (06 R190). -/
def Die.collides (d : Die) (a : Nat) : Bool :=
  d.opReqs.any (fun q => match q.op with
    | .program _ => decide (q.addr / 64 = a / 64)
    | _ => decide (q.addr / 2 ^ 18 = a / 2 ^ 18))

/-- Whether a plane may take a read's levels (`levels` false) or its sense now: no operation runs, or it is suspended and shown so;
the plane's register is free. A sense goes beside those of other planes where the levels on record are those the read takes; levels
that differ are set while no sense runs (06 R183, R190, R195). -/
def State.maySense (s : State) (b : Nat) (q : MReq) (levels : Bool) : Bool :=
  let ce := saCe q.addr
  let d := s.die b ce
  let pl := saPlane q.addr
  decide (q.op = .read) && s.dieFree b ce && (d.sensing.find pl).isNone &&
    (decide (d.op = .none) || (d.suspended && (bitOf d.status 1 || decide (d.suspendedAt + 400 * Config.ns ≤ s.now)) &&
      !d.collides q.addr)) &&
    (decide (d.levelsOn pl = s.levelsOf q) == levels) && (levels || !d.reading)

/-- The plane registers of a burner that hold a sensed codeword, as (chip enable, plane, request). -/
def State.sensed (s : State) (b : Nat) : List (Nat × Nat × MReq) :=
  ((List.range 10).map (fun ce =>
    let d := s.die b ce
    (d.sensing.filter (fun e => d.drdy.getLsbD e.1)).map (fun e => (ce, e.1, e.2)))).flatten

/-- Whether a page program can be loaded into its plane's latch now: the die neither busy nor suspended, the planes loaded so far
lower and at the same page and block (06 R183, R184). -/
def State.mayLoad (s : State) (b : Nat) (q : MReq) : Bool :=
  let ce := saCe q.addr
  let d := s.die b ce
  let same := d.latches.all (fun e => decide (e.1 < saPlane q.addr) && (match s.stk.pages.find e.2 with
    | some p => match p.addr with
      | some a => decide (a / 2 ^ 8 = q.addr / 2 ^ 8)
      | none => false
    | none => false))
  (match q.op with
    | .program _ => true
    | _ => false) && s.dieFree b ce && d.ready && same && !s.lowerWaits q.addr true

/-- The page data, in bytes, that programs may take in a window of the wear governor (07 R214, R232, 17 R483). -/
def State.programBudget (s : State) : Nat :=
  let g := max 16 (min (12 * max 1 s.dieCount) (s.liveFld .upk 0x50 6 0))
  let t := max 8 (min 120 (s.liveFld .thm 0x54 6 0))
  (if s.thm.throttle then min g t else g) * 1000000000

/-- The granted programs that stand in a die's latches. -/
def State.loadedReqs (s : State) (b ce : Nat) : List MReq :=
  (s.burner b).granted.filter (fun q => match q.op with
    | .program i => (s.die b ce).latches.any (fun e => decide (e.2 = i))
    | _ => false)

/-- Whether the loaded planes of a die may be programmed now: the die is neither busy nor suspended, and no further plane can be
loaded (06 R183, R184). -/
def State.mayConfirm (s : State) (b ce : Nat) : Bool :=
  s.dieFree b ce && (s.die b ce).ready && !(s.burner b).granted.any (fun q => decide (saCe q.addr = ce) && s.mayLoad b q &&
    ((s.die b ce).latches.find (saPlane q.addr)).isNone)

/-- Whether the wear governor's budget has room for a number of pages (07 R214). -/
def State.inBudget (s : State) (n : Nat) : Bool := decide (s.upk.govSpent + 16384 * n ≤ s.programBudget)

/-- Whether a block may be reset now: its die takes the command (06 R183), and no read is in flight against it (01 R33). -/
def State.mayReset (s : State) (b : Nat) (q : MReq) : Bool :=
  let d := s.die b (saCe q.addr)
  decide (q.op = .reset) && s.dieFree b (saCe q.addr) && d.ready && decide (d.latches = []) &&
    (List.range 4).all (fun pl => decide (s.med.inflight.getD (pbOf b (saCe q.addr) (saBlock q.addr) pl) 0 = 0))

/-- The uses of a burner's bus that are ready (06 R182). -/
def State.busUses (s : State) (b : Nat) : List BusUse :=
  let granted := (s.burner b).granted.filterMap (fun q => match q.op with
    | .read => if s.maySense b q false then some (.set q) else if s.maySense b q true then some (.sense q) else none
    | .program _ => if s.mayLoad b q && ((s.die b (saCe q.addr)).latches.find (saPlane q.addr)).isNone then some (.load q)
        else none
    | .reset => if s.mayReset b q then some (.reset q) else none)
  let out := (s.sensed b).map (fun e => BusUse.out e.1 e.2.1 e.2.2)
  let confirm := (List.range 10).filterMap (fun ce =>
    let qs := s.loadedReqs b ce
    if s.mayConfirm b ce && s.inBudget qs.length then (nearestOf qs).map (fun q => BusUse.confirm ce q qs) else none)
  granted ++ out ++ confirm

/-- The next use of a burner's bus: of those that are ready, the one whose request carries the nearest deadline (06 R182). -/
def State.nextUse (s : State) (b : Nat) : Option BusUse :=
  (s.busUses b).foldl (fun m u => match m with
    | none => some u
    | some v => if v.req.before u.req then some v else some u) none

/-- READ_LEVEL_SET (06 R195): the burner sets a plane's three thresholds for the granted read with the nearest deadline
whose codes differ from its record, where that is the next use of its bus. -/
def execReadLevelSet (b : Fin 32) (s : State) : Host.Outcome State Fault Refusal :=
  if s.unclocked then .next s else
  match s.nextUse b.val with
  | some (.set q) =>
    let ce := saCe q.addr
    let pl := saPlane q.addr
    let l := s.levelsOf q
    let t := s.frameTo b.val ce 0x40 (2 ^ pl) [l.getD 0 0 + l.getD 1 0 * 256, 0, l.getD 2 0]
    .next (t.updDie b.val ce (fun d => { d with levels := d.levels.put pl l }))
  | _ => .next s

/-- SECTOR_READ (06 R183): the burner sends the sense of the granted read with the nearest deadline that a die can take
now, where that is the next use of its bus. -/
def execSectorRead (b : Fin 32) (s : State) : Host.Outcome State Fault Refusal :=
  if s.unclocked then .next s else
  match s.nextUse b.val with
  | some (.sense q) =>
    let ce := saCe q.addr
    let pl := saPlane q.addr
    let t := (s.ungrant b.val q).frameTo b.val ce 0x01 (2 ^ pl) (addrWords q.addr)
    .next (t.updDie b.val ce (fun d => { d with
      sensing := d.sensing.put pl q, senseAt := d.senseAt.put pl s.now, drdy := d.drdy &&& ~~~ BitVec.ofNat 4 (2 ^ pl) }))
  | _ => .next s
/-- The decoder's iteration limit: BRN_LDPC.ITER, 4 to 20, else 20 (06 R194, R204). -/
def State.ldpcIter (s : State) (b : Nat) : Nat :=
  let v := s.liveFld (.brn b) 0x4C 4 0
  if 4 ≤ v ∧ v ≤ 20 then v else 20

/-- DATA_OUT (06 R183, R185, R194): the burner transfers the sensed codeword with the nearest deadline, where that is the next use of
its bus, and decodes it: it converges in `iters` iterations with a number of corrected bits; beyond the limit, or where it never
converges, it fails. A plane that read BLANK reports 'reset'. -/
def execDataOut (b : Fin 32) (iters : Option (Fin 64)) (corrected : Fin 1024) (s : State) :
    Host.Outcome State Fault Refusal :=
  if s.unclocked then .next s else
  match s.nextUse b.val with
  | some (.out ce pl q) =>
    let d := s.die b.val ce
    let r := if d.blank.getLsbD pl then Decode.blank
      else if iters.any (fun n => decide (n.val ≤ s.ldpcIter b.val)) then .classA corrected.val else .fail
    let t := s.frameTo b.val ce 0x05 (2 ^ pl) (addrWords q.addr)
    let t := t.updDie b.val ce (fun d => { d with
      sensing := d.sensing.del pl, drdy := d.drdy &&& ~~~ BitVec.ofNat 4 (2 ^ pl), retries := 0 })
    .next (t.postResult b.val q (.read q r))
  | _ => .next s

/-- The physical page that a program sends: the parity page, or the page's sectors encrypted and tagged, each codeword followed
by its code parity (05 R151, R157, R167, 06 R193). -/
def State.pageBytes (s : State) (i : Nat) : List Byte :=
  match s.stk.pages.find i with
  | none => []
  | some p => physPage (match p.par with
    | some x => x.bytes
    | none => s.domOf p)

/-- A page's program is issued to its die: its frames are in STATE 5 (03 R105). -/
def State.issued (s : State) (i : Nat) : State :=
  match s.stk.pages.find i with
  | none => s
  | some p => (p.frames.foldl (fun (u : State) f => u.updFrame f (fun x => { x with state := .programming })) s).updPage i
      (fun p => { p with stage := .programming })

/-- PROGRAM_LOAD (06 R183, R184, R193): the burner fills a plane's program latch with the physical page of the granted
program with the nearest deadline, where that is the next use of its bus. -/
def execProgramLoad (b : Fin 32) (s : State) : Host.Outcome State Fault Refusal :=
  if s.unclocked then .next s else
  match s.nextUse b.val with
  | some (.load q) => match q.op with
    | .program i =>
      let ce := saCe q.addr
      let t := (s.frameTo b.val ce 0x10 (2 ^ saPlane q.addr) (addrWords q.addr)).sendData b.val ce (s.pageBytes i)
      .next ((t.updDie b.val ce (fun d => { d with latches := d.latches.put (saPlane q.addr) i })).issued i)
    | _ => .next s
  | _ => .next s

/-- PROGRAM_CONFIRM (06 R184, 07 R214): the burner starts the program of the loaded planes of a die, where that is the next use of
its bus; beyond the governor's budget the program waits for the next window. -/
def execProgramConfirm (b : Fin 32) (ce : Fin 10) (s : State) : Host.Outcome State Fault Refusal :=
  if s.unclocked then .next s else
  let n := (s.loadedReqs b.val ce.val).length
  if 0 < n ∧ s.mayConfirm b.val ce.val ∧ ¬ s.inBudget n then .next { s with upk := { s.upk with governed := true } }
  else match s.nextUse b.val with
    | some (.confirm c q qs) =>
      if c ≠ ce.val then .next s
      else
        let mask := (s.die b.val c).latches.foldl (fun m e => m + 2 ^ e.1) 0
        let t := s.frameTo b.val c 0x15 mask (addrWords (q.addr / 256 * 256))
        let t := qs.foldl (fun u q => u.ungrant b.val q) t
        let t := { t with upk := { t.upk with govSpent := t.upk.govSpent + 16384 * qs.length } }
        .next (t.updDie b.val c (fun d => { d with
          op := .program, opReqs := qs, suspended := false, suspensions := 0, runSince := s.now, ran := 0 }))
    | _ => .next s

/-- BLOCK_RESET (06 R183): the burner starts the reset of all four plane blocks of a block, for the granted reset with
the nearest deadline, where that is the next use of its bus. -/
def execBlockReset (b : Fin 32) (s : State) : Host.Outcome State Fault Refusal :=
  if s.unclocked then .next s else
  match s.nextUse b.val with
  | some (.reset q) =>
    let ce := saCe q.addr
    let t := (s.ungrant b.val q).frameTo b.val ce 0x20 0xF (addrWords q.addr)
    .next (t.updDie b.val ce (fun d => { d with
      op := .reset, opReqs := [q], suspended := false, suspensions := 0, runSince := s.now, ran := 0 }))
  | _ => .next s

/-! ### Suspension (06 R189 to R192) -/

/-- Whether a granted read waits for a die whose deadline is nearer than that of the operation under way, and the
operation may be suspended once more: the first two conditions of R189. -/
def State.wantsSuspend (s : State) (b ce : Nat) : Bool :=
  let d := s.die b ce
  let lim := match d.op with
    | .program => s.liveFld (.brn b) 0x48 3 0
    | _ => s.liveFld (.brn b) 0x48 9 4
  decide (d.op ≠ .none) && !d.suspended && s.dieFree b ce && decide (d.suspensions < lim) &&
    (s.burner b).granted.any (fun q => decide (q.op = .read) && decide (saCe q.addr = ce) &&
      d.opReqs.all (fun o => nearer q.stamp o.stamp))

/-- Sends SUSPEND: the suspension shows once tSUS has passed or a status read shows it (06 R186). -/
def State.suspend (s : State) (b ce : Nat) : State :=
  (s.frameTo b ce 0x30 0 []).updDie b ce (fun d => { d with
    suspended := true, status := d.status &&& ~~~ 2#32, suspendedAt := s.now, suspensions := d.suspensions + 1, ran := d.ran + (s.now - d.runSince) })
  |>.tally (.plain 0x022) 1

/-- SUSPEND (06 R189): the burner suspends the running program or reset of a die for a read with a nearer deadline,
where all three conditions hold. -/
def execSuspend (b : Fin 32) (ce : Fin 10) (s : State) : Host.Outcome State Fault Refusal :=
  if s.unclocked then .next s else
  if s.wantsSuspend b.val ce.val && decide ((s.die b.val ce.val).runSince + s.minRun b.val ≤ s.now) then
    .next (s.suspend b.val ce.val)
  else .next s

/-- MIN_RUN_EXPIRY (06 R189): MIN_RUN has passed since the operation started or resumed, and a waiting read is judged
again. -/
def execMinRunExpiry (b : Fin 32) (ce : Fin 10) (s : State) : Host.Outcome State Fault Refusal :=
  if s.unclocked then .next s else
  let d := s.die b.val ce.val
  if d.op = .none ∨ d.suspended then .next s
  else
    let t := s.reach (d.runSince + s.minRun b.val)
    .next (if t.wantsSuspend b.val ce.val then t.suspend b.val ce.val else t)

/-- Sends RESUME: the operation runs again after tRSM (06 R186, R191). -/
def State.resume (s : State) (b ce : Nat) : State :=
  (s.frameTo b ce 0x31 0 []).updDie b ce (fun d => { d with suspended := false, runSince := s.now + 200 * Config.ns })

/-- The most time an operation runs (06 R186). -/
def DieOp.maxTime : DieOp → Nat
  | .none => 0
  | .program => 16 * Config.us
  | .reset => 1500 * Config.us

/-- Whether a suspended operation may resume: a reset that Flush suspended never does (06 R196). -/
def State.mayResume (s : State) (d : Die) : Bool :=
  d.suspended && decide (d.op ≠ .none) && !(decide (s.pwrState = .flush) && decide (d.op = .reset))

/-- Whether a suspended operation is to resume (06 R190): no granted read for the die remains, WIN has passed since the
SUSPEND, or the operation's deadline has come within its remaining maximum time. -/
def State.mustResume (s : State) (b ce : Nat) : Bool :=
  let d := s.die b ce
  let left := BitVec.ofNat 32 ((d.op.maxTime - d.ran) / Config.ticksPerFc s.fuses.grade)
  s.mayResume d &&
    ((decide (d.sensing = []) && !(s.burner b).granted.any (fun q => decide (q.op = .read) &&
        decide (saCe q.addr = ce))) || decide (d.suspendedAt + s.suspWin b ≤ s.now) ||
      d.opReqs.any (fun o => !nearer (s.fc32 + left) o.stamp))

/-- RESUME (06 R190): the burner resumes a suspended operation at the first moment that one of its conditions holds. -/
def execResume (b : Fin 32) (ce : Fin 10) (s : State) : Host.Outcome State Fault Refusal :=
  if s.unclocked then .next s else
  if s.mustResume b.val ce.val then .next (s.resume b.val ce.val) else .next s

/-- SUSPEND_WINDOW_EXPIRY (06 R190): BRN_SUSP.WIN has passed since the SUSPEND, and the burner resumes the operation. -/
def execSuspendWindowExpiry (b : Fin 32) (ce : Fin 10) (s : State) : Host.Outcome State Fault Refusal :=
  if s.unclocked then .next s else
  let d := s.die b.val ce.val
  if s.mayResume d then
    .next ((s.reach (d.suspendedAt + s.suspWin b.val)).resume b.val ce.val)
  else .next s

/-! ### Status, temperature, resets -/

/-- The result of an ended program or reset, from PFAIL (06 R185). -/
def opResult (d : Die) (w : W32) (q : MReq) : MRes :=
  match d.op with
  | .reset => .reset q (!bitOf w 2 && decide (fld w 11 8 = 0))
  | _ => .program q (BitVec.ofNat 4 (fld w 11 8))

/-- Takes an ended operation's results. -/
def State.endOp (s : State) (b ce : Nat) (w : W32) : State :=
  let d := s.die b ce
  let t := d.opReqs.foldl (fun t q => t.postResult b q (opResult d w q)) s
  t.updDie b ce (fun d => { d with op := .none, opReqs := [], suspended := false, latches := [], retries := 0 })

/-- A die's transient fault: its operations wait for the fault ledger (14 R399), and IRQ.DIE_FAULT is raised. -/
def State.dieFault (s : State) (b ce source : Nat) : State :=
  ((s.updDie b ce (fun d => { d with held := true })).report source 1 (dieId b ce)).raise (.brn b) 1

/-- What a status word shows (06 R185, R192): senses whose register holds data, an operation that ended, the alert, a
command that was rejected. -/
def State.takeStatus (s : State) (b ce : Nat) (w : W32) : State :=
  let t := s.updDie b ce (fun d => { d with
    status := w, alert := bitOf w 3, busyUntil := if bitOf w 0 ∧ fld w 6 5 = 0 then 0 else d.busyUntil
    drdy := BitVec.ofNat 4 (fld w 15 12), blank := BitVec.ofNat 4 (fld w 19 16) })
  let d := t.die b ce
  if bitOf w 4 then
    let back := d.sensing.map (·.2) ++ (if fld w 6 5 = 0 then d.opReqs else [])
    let t := t.regrant b back
    let t := t.updDie b ce (fun d => if fld w 6 5 = 0 then
        { d with sensing := [], op := .none, opReqs := [], suspended := false }
      else { d with sensing := [] })
    t.dieFault b ce 2
  else if d.op ≠ .none ∧ bitOf w 0 ∧ ¬ bitOf w 1 ∧ fld w 6 5 = 0 then t.endOp b ce w
  else t

/-- Whether a die is polled: it takes commands, or its burner, retired meanwhile, completes a program on it (06 R197). -/
def State.polled (s : State) (b ce : Nat) : Bool :=
  let d := s.die b ce
  s.dieLive b ce || (d.present && (s.burner b).retired && decide (d.op = .program))

/-- STATUS (06 R185, R187): the burner polls a die's status word, which the die answers. -/
def execStatus (b : Fin 32) (ce : Fin 10) (w : W32) (s : State) : Host.Outcome State Fault Refusal :=
  if s.unclocked then .next s else
  if s.polled b.val ce.val then .next ((s.frameTo b.val ce.val 0x70 0 []).takeStatus b.val ce.val w) else .next s

/-- Takes a die's temperature, with its offset (06 R183, R204). -/
def State.takeTemp (s : State) (b ce : Nat) (raw : BitVec 16) : State :=
  s.updDie b ce (fun d => { d with temp := raw + d.tempOffset })

/-- TEMPERATURE (06 R183): the burner reads a die's temperature. -/
def execTemperature (b : Fin 32) (ce : Fin 10) (raw : BitVec 16) (s : State) : Host.Outcome State Fault Refusal :=
  if s.unclocked then .next s else
  if s.dieLive b.val ce.val then .next ((s.frameTo b.val ce.val 0x71 0 []).takeTemp b.val ce.val raw) else .next s

/-- ALERT_N (06 R187): the wired alert line of a burner falls; it reads STATUS and TEMPERATURE from every present die,
which answer the listed words and temperatures. The ledger has no source of report for an alert (14 R398, log entry 100). -/
def execAlertN (b : Fin 32) (words : List W32) (temps : List (BitVec 16)) (s : State) :
    Host.Outcome State Fault Refusal :=
  if s.unclocked then .next s else
  .next ((List.range 10).foldl (fun t ce =>
    if (t.die b.val ce).present && t.ceUsed b.val ce then
      let t := (t.frameTo b.val ce 0x70 0 []).takeStatus b.val ce (words.getD ce (t.die b.val ce).status)
      (t.frameTo b.val ce 0x71 0 []).takeTemp b.val ce
        (temps.getD ce ((t.die b.val ce).temp - (t.die b.val ce).tempOffset))
    else t) (s.raise (.brn b.val) 2))

/-- DIE RESET (06 R183, R188, R195): any operation is aborted and the die's default levels stand again. An aborted read
is reissued at the same levels, an aborted reset reissued; an aborted program counts as failed, charged to no block. -/
def State.dieReset (s : State) (b ce : Nat) : State :=
  let d := s.die b ce
  let t := s.frameTo b ce 0xFE 0 []
  let t := t.regrant b (d.sensing.map (·.2) ++ (if d.op = .reset then d.opReqs else []))
  let t := if d.op = .program then d.opReqs.foldl (fun t q => t.postResult b q (.lost q)) t else t
  t.updDie b ce (fun d => { d with
    op := .none, opReqs := [], suspended := false, sensing := [], drdy := 0, latches := [], levels := [], status := 1
    busyUntil := s.now + 10 * Config.us })

/-- DIE_RESET (06 R183): the burner resets a die. -/
def execDieReset (b : Fin 32) (ce : Fin 10) (s : State) : Host.Outcome State Fault Refusal :=
  if s.unclocked then .next s else
  if s.ceUsed b.val ce.val then .next (s.dieReset b.val ce.val) else .next s

/-- DIE_TIMEOUT (06 R188): an operation has not ended when twice its maximum time has passed; the burner resets the die
and reports a transient fault. -/
def execDieTimeout (b : Fin 32) (ce : Fin 10) (s : State) : Host.Outcome State Fault Refusal :=
  if s.unclocked then .next s else
  let d := s.die b.val ce.val
  if !s.dieLive b.val ce.val then .next s
  else if d.reading then
    let since := (d.sensing.filter (fun e => !d.drdy.getLsbD e.1)).map (fun e => d.senseAt.getD e.1 0)
    .next (((s.reach (since.foldl min (since.headD 0) + 2200 * Config.ns)).dieReset b.val ce.val).dieFault b.val ce.val 1)
  else if d.op ≠ .none ∧ ¬ d.suspended then
    .next (((s.reach (d.runSince + 2 * d.op.maxTime - d.ran)).dieReset b.val ce.val).dieFault b.val ce.val 1)
  else .next s

/-! ### Discovery and owner records (06 R198, R199) -/

/-- One copy of the parameter page with a valid CRC, where there is one. -/
def validCopy (bs : List Byte) : Option (List Byte) :=
  (chunksOf 1024 3 bs).find? (fun c => decide (c.length = 1024) &&
    decide (crc32c (c.take 1020) = BitVec.ofNat 32 (field c 1020 4)))

/-- Whether a parameter page holds the values the device requires (06 R198). -/
def pageOk (c : List Byte) : Bool :=
  decide (field c 0 4 = 0x564E4C50) && decide (1 ≤ field c 4 2) && decide (field c 6 2 = 4) &&
    decide (field c 8 4 = 2048) && decide (field c 12 2 = 1024) && decide (field c 14 2 = 20736) &&
    decide (field c 16 1 = 3) && (field c 20 1).testBit 1 && decide (field c 24 4 ≤ 1100) &&
    decide (field c 28 4 ≤ 16000) && decide (field c 32 4 ≤ 1500) && decide (field c 36 2 ≤ 400) &&
    decide (field c 38 2 ≤ 200)

/-- The code of an owner class in BRN_DIE.OWNER (06 R204). -/
def OwnerClass.code : OwnerClass → Nat
  | .ok => 0
  | .blank => 1
  | .foreign => 2
  | .wrongPosition => 3
  | .unreadable => 4

/-- The MEDIA_CONFIG record of a die (18 R509). -/
def State.mediaConfig (s : State) (b ce : Nat) : State := s.record 0x3001 b ce (s.die b ce).owner.code 0

/-- A configuration fault of a burner: the interrupt and the record (06 R178, R198, R204). -/
def State.configFault (s : State) (b ce : Nat) : State := (s.raise (.brn b) 3).mediaConfig b ce

/-- PARAMETER_PAGE (06 R178, R198): the burner reads a die's parameter page in discovery. A die that returns no valid
copy is absent; a page that breaks a required value is a configuration fault; a die at or above N is ignored. The blocks
of the factory defect list are retired. -/
def execParameterPage (b : Fin 32) (ce : Fin 10) (bytes : List Byte) (s : State) : Host.Outcome State Fault Refusal :=
  if s.unclocked then .next s else
  if !(s.die b.val ce.val).ready || !s.ceUsed b.val ce.val then .next s
  else
    let t := s.frameTo b.val ce.val 0x80 0 []
    match validCopy bytes with
    | none => .next (t.updDie b.val ce.val (fun d => { d with present := false }))
    | some c =>
      if s.dieCount ≠ 0 ∧ s.dieCount ≤ ce.val then .next (t.mediaConfig b.val ce.val)
      else
        let defects := ((List.range 64).map (fun k => field c (64 + 2 * k) 2)).filter (fun x => decide (x < 2048))
        let t := t.updDie b.val ce.val (fun d => { d with
          present := true
          defaults := [field c 17 1, field c 18 1, field c 19 1]
          dbi := (field c 20 1).testBit 0
          uid := BitVec.ofNat 64 (field c 40 8)
          tempOffset := BitVec.ofNat 16 (field c 48 2)
          defects := defects })
        let t := defects.foldl (fun t k => t.updBlock4 b.val ce.val k (fun x => { x with state := .retired })) t
        .next (if pageOk c then t else t.configFault b.val ce.val)

/-- The bytes of an owner record before its CRC (06 R199). -/
def ownerBody (serial : BitVec 64) (b ce n : Nat) (seq : BitVec 48) : List Byte :=
  leBytes 8 serial.toNat ++ [byteOf b, byteOf ce, byteOf n] ++ leBytes 5 0 ++ leBytes 6 seq.toNat ++ leBytes 38 0

/-- An owner record: 60 bytes and their CRC-32C (06 R199). -/
def ownerRecord (serial : BitVec 64) (b ce n : Nat) (seq : BitVec 48) : List Byte :=
  let x := ownerBody serial b ce n seq
  x ++ leBytes 4 (crc32c x).toNat

/-- The records classified as matching so far. -/
def State.matching (s : State) : List (List Byte) :=
  (s.dies.filter (fun e => decide (e.2.owner = .ok) && decide (e.2.ownerRec.length = 64))).map (fun e => e.2.ownerRec)

/-- Classifies an owner record at a position (06 R199): unreadable where the CRC fails; foreign where the serial is
another device's, or the format sequence or N differ from the other matching records'; misplaced where it names another
position. Where records of the own serial disagree, the first one read decides which the others are held against (DESIGN
CHOICE, log entry 110). -/
def State.classify (s : State) (b ce : Nat) (blank : Bool) (r : List Byte) : OwnerClass :=
  if blank then .blank
  else if r.length ≠ 64 ∨ crc32c (r.take 60) ≠ BitVec.ofNat 32 (field r 60 4) then .unreadable
  else if field r 0 8 ≠ s.fuses.serial.toNat ∨ s.matching.any (fun m =>
      decide (field m 10 1 ≠ field r 10 1) || decide (field m 16 6 ≠ field r 16 6)) then .foreign
  else if field r 8 1 ≠ b ∨ field r 9 1 ≠ ce then .wrongPosition
  else .ok

/-- N is set (06 R178): a die found at CE N or above is ignored and recorded. -/
def State.setDieCount (s : State) (n : Nat) : State :=
  if s.dieCount = n then s
  else
    let out := s.dies.filter (fun e => e.2.present && decide (n ≤ e.1 % 10))
    out.foldl (fun t e => (t.updDie (e.1 / 10) (e.1 % 10) (fun d => { d with present := false })).mediaConfig (e.1 / 10) (e.1 % 10))
      { s with med := { s.med with dies := n } }

/-- OWNER_READ (06 R199): the burner reads a die's owner record and classifies it; N and the format sequence are taken
from the matching records. -/
def execOwnerRead (b : Fin 32) (ce : Fin 10) (blank : Bool) (bytes : List Byte) (s : State) :
    Host.Outcome State Fault Refusal :=
  if s.unclocked then .next s else
  let d := s.die b.val ce.val
  if !d.present || !d.ready || !s.ceUsed b.val ce.val then .next s
  else
    let c := s.classify b.val ce.val blank bytes
    let t := (s.frameTo b.val ce.val 0x88 0 []).updDie b.val ce.val (fun d => { d with
      owner := c, ownerRec := if c = .ok then bytes else [] })
    .next (if c = .ok then
        ({ t with med := { t.med with formatSeq := BitVec.ofNat 48 (field bytes 16 6) } }).setDieCount (field bytes 10 1)
      else t)

/-- OWNER_WRITE (06 R199): at format the burner writes a die's owner record; a foreign die's record on formatted media
is not overwritten. Once every present die has its record the media is formatted. -/
def execOwnerWrite (b : Fin 32) (ce : Fin 10) (s : State) : Host.Outcome State Fault Refusal :=
  if s.unclocked then .next s else
  let d := s.die b.val ce.val
  if s.med.formatted || decide (s.dieCount = 0) || !s.dieLive b.val ce.val || !d.ready || decide (s.now < d.busyUntil) then .next s
  else
    let r := ownerRecord s.fuses.serial b.val ce.val s.dieCount s.med.formatSeq
    let t := (s.frameTo b.val ce.val 0x89 0 []).sendData b.val ce.val r
    let t := t.updDie b.val ce.val (fun d => { d with owner := .ok, ownerRec := r, busyUntil := s.now + 16 * Config.us })
    let all := t.dies.all (fun e => !e.2.present || decide (e.2.ownerRec.length = 64))
    .next { t with med := { t.med with formatted := all } }

/-! ### Training transfers (06 R183, R200) -/

/-- Whether a training transfer may go to a die: present, its enable in use, idle and past its last reset (06 R183, R186). -/
def State.mayTrainDie (s : State) (b ce : Nat) : Bool :=
  (s.die b ce).present && (s.die b ce).idle && s.ceUsed b ce && decide ((s.die b ce).busyUntil ≤ s.now)

/-- TRAIN_READ (06 R183): the die's PRBS-15 pattern is read; an idle die only. -/
def execTrainRead (b : Fin 32) (ce : Fin 10) (s : State) : Host.Outcome State Fault Refusal :=
  if s.burnersStopped then .next s else
  if s.mayTrainDie b.val ce.val then
    .next (s.frameTo b.val ce.val 0x90 0 [])
  else .next s

/-- TRAIN_WRITE (06 R183): the die's 512 B scratch register is loaded; an idle die only. -/
def execTrainWrite (b : Fin 32) (ce : Fin 10) (pattern : List Byte) (s : State) : Host.Outcome State Fault Refusal :=
  if s.burnersStopped then .next s else
  if s.mayTrainDie b.val ce.val then
    let p := pattern.take 512 ++ List.replicate (512 - pattern.length) 0
    .next (((s.frameTo b.val ce.val 0x91 0 []).sendData b.val ce.val p).updDie b.val ce.val
      (fun d => { d with scratch := p }))
  else .next s

/-- TRAIN_READBACK (06 R183): the die returns its scratch register; an idle die only. -/
def execTrainReadback (b : Fin 32) (ce : Fin 10) (s : State) : Host.Outcome State Fault Refusal :=
  if s.burnersStopped then .next s else
  if s.mayTrainDie b.val ce.val then
    .next (s.frameTo b.val ce.val 0x92 0 [])
  else .next s

end Sys2Proof.Machine
end

