-- ==== Sys2Proof/Machine/Windows.lean ====
section
/-!
DEFINITION. Windows and HDM decoders (02_host_ports.md R47 to R52, R56): which line, key slot and window type a host
address names on a link, and which host address names a line (10 R553).
-/

namespace Sys2Proof.Machine

/-- A register of window `k` of port `p` (02 R78): 0 DPA_BASE, 4 SIZE, 8 CTRL, 0xC LINKS. -/
def State.winReg (s : State) (p k o : Nat) : W32 := s.getLive (.port p) (0x100 + k * 0x20 + o)

/-- DPA base of a window in 256 MiB units. -/
def State.winBase (s : State) (p k : Nat) : Nat := fld (s.winReg p k 0) 16 0
/-- Size of a window in 256 MiB units. -/
def State.winSize (s : State) (p k : Nat) : Nat := fld (s.winReg p k 4) 17 0
/-- TYPE of a window. -/
def winTypeOf (c : W32) : WinType := match fld c 1 0 with
  | 0 => .priv
  | 1 => .openShelf
  | _ => .coherent

/-- Whether window `k` of a link's port is enabled and admits the link (02 R47, R51). -/
def State.winAdmits (s : State) (n k : Nat) : Bool :=
  bitOf (s.winReg (n / 4) k 8) 31 && bitOf (s.winReg (n / 4) k 0xC) (n % 4)

/-- Whether a coherent window decodes on a link: not where the link runs without 256 B flit (02 R41). -/
def State.winDecodes (s : State) (n k : Nat) : Bool :=
  decide (winTypeOf (s.winReg (n / 4) k 8) ≠ .coherent) || (s.link n).flit256

/-- The size an HDM decoder reports, in 256 MiB units: 0 where its window is disabled, excludes the link, or is coherent
without 256 B flit (02 R41, R47). -/
def State.decoderSize (s : State) (n k : Nat) : Nat :=
  if s.winAdmits n k && s.winDecodes n k then s.winSize (n / 4) k else 0

/-- What a host address names on a link (02 R50, R51). -/
inductive HostAddr where
  | hit (window line keyslot keyId : Nat) (wtype : WinType)
  | miss (window reason : Nat)
deriving DecidableEq, Repr

/-- The committed decoder of a link that covers an HPA. -/
def State.coveringDecoder (s : State) (n : Nat) (hpa : Nat) : Option (Nat × Decoder) :=
  (s.link n).decoders.find? (fun e => e.2.committed && s.winAdmits n e.1 && decide (e.2.base.toNat ≤ hpa) &&
    decide (hpa < e.2.base.toNat + e.2.size.toNat))

/-- The window offset of an HPA: the interleave-selector bits are removed (02 R48). -/
def Decoder.offset (d : Decoder) (hpa : Nat) : Nat :=
  let o := hpa - d.base.toNat
  o / (d.gran * d.ways) * d.gran + o % d.gran

/-- The interleave-selector bits of an HPA (10 R553). -/
def Decoder.selector (d : Decoder) (hpa : Nat) : Nat := (hpa - d.base.toNat) / d.gran % d.ways

/-- Whether a DPA unit of 256 MiB lies in an extent added to a link (02 R56). -/
def State.inExtent (s : State) (n region unit : Nat) : Bool :=
  (s.link n).extents.any (fun x => decide (x.region = region) && decide (x.base ≤ unit) && decide (unit < x.base + x.len))

/-- Decodes a host address on a link (02 R50, R51, R56, R77). -/
def State.hostDecode (s : State) (n : Nat) (hpa : BitVec 64) : HostAddr :=
  let a := hpa.toNat
  match s.coveringDecoder n a with
  | none => .miss 0x1F (if (s.link n).memActive then 0 else 4)
  | some (k, d) =>
    let c := s.winReg (n / 4) k 8
    let keyed := bitOf c 2
    let off := d.offset a
    let lo := if keyed then off % 2 ^ 45 else off
    let keyId := if keyed then off / 2 ^ 46 % 64 else 0
    let dpa := s.winBase (n / 4) k * 2 ^ 28 + lo
    if !(s.link n).memActive then .miss k 4
    else if keyed && decide (off / 2 ^ 45 % 2 = 1) then .miss k 1
    else if s.winSize (n / 4) k * 2 ^ 28 ≤ lo then .miss k 2
    else if !s.winDecodes n k then .miss k 5
    else if bitOf c 7 && !s.inExtent n (fld c 10 8) (dpa / 2 ^ 28) then .miss k 3
    else .hit k (dpa / 64) (fld c 6 3 * 64 + keyId) keyId (winTypeOf c)

/-- Latches the selector bits of the first request a link decodes through an interleaved decoder (10 R553). -/
def State.latchSelector (s : State) (n : Nat) (hpa : BitVec 64) : State :=
  match s.coveringDecoder n hpa.toNat with
  | some (k, d) =>
    if 1 < d.ways ∧ ((s.link n).selectors.find k).isNone then
      s.setLink n (fun l => { l with selectors := l.selectors.put k (d.selector hpa.toNat) })
    else s
  | none => s

/-- The windows of a link's port that cover a line and admit the link. -/
def State.windowsOf (s : State) (n line : Nat) : List Nat :=
  let u := line / 2 ^ 22
  (List.range 16).filter (fun k => s.winAdmits n k && decide (s.winBase (n / 4) k ≤ u) &&
    decide (u < s.winBase (n / 4) k + s.winSize (n / 4) k))

/-- The HPA that names a line on a link, under a key ID in a keyed window (10 R553); a link that a commit has removed is
still snooped (10 R299). -/
def State.hpaOf (s : State) (n line keyId : Nat) : Nat :=
  let u := line / 2 ^ 22
  match (List.range 16).find? (fun k => decide (winTypeOf (s.winReg (n / 4) k 8) = .coherent) &&
      ((s.link n).decoders.getD k .blank).committed && decide (s.winBase (n / 4) k ≤ u) &&
      decide (u < s.winBase (n / 4) k + s.winSize (n / 4) k)) with
  | none => 0
  | some k =>
    let d := (s.link n).decoders.getD k .blank
    let off := line * 64 - s.winBase (n / 4) k * 2 ^ 28
    let off := if bitOf (s.winReg (n / 4) k 8) 2 then off + keyId * 2 ^ 46 else off
    d.base.toNat + off / d.gran * (d.gran * d.ways) + (s.link n).selectors.getD k 0 * d.gran + off % d.gran

/-- An out-of-range request loads the port's capture words and is recorded (02 R51). -/
def State.outOfRange (s : State) (n : Nat) (hpa : BitVec 64) (window reason : Nat) : State :=
  let p := RPage.port (n / 4)
  let t := ((s.setLive p 0x20 (hpa.extractLsb' 0 32)).setLive p 0x24 (hpa.extractLsb' 32 32)).setLive p 0x28 (at32 n 0)
  let t := t.setLive p 0x2C (at32 1 0 ||| at32 window 4 ||| at32 reason 9)
  t.record 0x1002 n window hpa.toNat 0

/-- The sharing set of a coherent line, as holders: links of one failover group are one (10 R297, R298). -/
def State.sharingSet (s : State) (line : Nat) : List Nat :=
  let u := line / 2 ^ 22
  match s.spr.ssets.find? (fun x => decide (x.base ≤ u) && decide (u < x.base + x.size)) with
  | none => []
  | some x => (x.links.map s.group).eraseDups

end Sys2Proof.Machine
end

