-- ==== Sys2Proof/Machine/Spice.lean ====
section
/-!
DEFINITION. The spice rack (10_coherence.md R294 to R316): the directory, snoops, trackers, the conflict queues.
-/

namespace Sys2Proof.Machine

/-! ### The directory (R296, R297, R311) -/

/-- The set of a line (R296). -/
def dirSet (line : Nat) : Nat := (BitVec.ofNat 18 line ^^^ BitVec.ofNat 18 (line / 2 ^ 18)).toNat

/-- The way that holds a line, where it is not I. -/
def State.dirKey (s : State) (line : Nat) : Option Nat :=
  ((s.spr.dir.filter (fun e => decide (e.2.line = line))).head?).map (·.1)

/-- The directory entry of a line; none in I. -/
def State.dirOf (s : State) (line : Nat) : Option DirE :=
  ((s.spr.dir.filter (fun e => decide (e.2.line = line))).head?).map (·.2)

/-- Writes the spice rack. -/
def State.updSpr (s : State) (f : Spice → Spice) : State := { s with spr := f s.spr }

/-- The holders of an entry: its pointers, or the whole sharing set (R297). -/
def State.holders (s : State) (e : DirE) : List Nat := if e.bcast then s.sharingSet e.line else e.ptrs

/-- Changes the entry of a line; none removes it. -/
def State.updDir (s : State) (line : Nat) (f : DirE → Option DirE) : State :=
  match s.dirKey line, s.dirOf line with
  | some k, some e => s.updSpr (fun x => { x with dir := x.dir.setOpt k (f e) })
  | _, _ => s

/-- Removes a holder; the last one leaves the line in I; a broadcast entry keeps its sharers (R297). -/
def State.removeHolder (s : State) (line g : Nat) : State :=
  s.updDir line (fun e =>
    if e.bcast then some e
    else
      let ps := e.ptrs.filter (fun x => x != g)
      if ps = [] then none else some { e with ptrs := ps })

/-- Takes the line out of the directory. -/
def State.dirDrop (s : State) (line : Nat) : State := s.updDir line (fun _ => none)

/-- The lowest-numbered way in I of a line's set (R311). -/
def State.freeWay (s : State) (line : Nat) : Option Nat :=
  ((List.range 16).map (fun w => dirSet line * 16 + w)).find? (fun k => (s.spr.dir.find k).isNone)

/-- Puts a line into the directory: its own way, or the free one. -/
def State.dirPut (s : State) (line : Nat) (st : DState) (ptrs : List Nat) (bcast : Bool) (keyId : Nat) : State :=
  match (s.dirKey line).or (s.freeWay line) with
  | none => s
  | some k => s.updSpr (fun x => { x with
      dir := x.dir.put k ⟨line, st, bcast, ptrs, keyId, x.uses + 1⟩, uses := x.uses + 1 })

/-- Makes a line's way the youngest (R311). -/
def State.dirTouch (s : State) (line : Nat) : State :=
  (s.updDir line (fun e => some { e with last := s.spr.uses + 1 })).updSpr (fun x => { x with uses := x.uses + 1 })

/-- Adds a sharer; a fifth makes the entry a broadcast one (R297). -/
def State.addSharer (s : State) (line g keyId : Nat) : State :=
  match s.dirOf line with
  | none => s.dirPut line .shared [g] false keyId
  | some e =>
    if e.bcast then s.dirTouch line
    else if e.ptrs.contains g then s.dirPut line .shared e.ptrs false keyId
    else if e.ptrs.length < 4 then s.dirPut line .shared (e.ptrs ++ [g]) false keyId
    else s.dirPut line .shared [] true keyId

/-- Makes a link the one holder in a state. -/
def State.setOwner (s : State) (line g keyId : Nat) (st : DState) : State := s.dirPut line st [g] false keyId

/-- Whether a line has an open tracker: its entry is pinned (R309). -/
def State.trackerOf (s : State) (line : Nat) : Option Tracker :=
  s.spr.trackers.find? (fun t => decide (t.line = line))

/-- Open trackers of a set. -/
def State.setTrackers (s : State) (set : Nat) : Nat := countIf (fun t => decide (dirSet t.line = set)) s.spr.trackers

/-- The oldest of some entries. -/
def oldestE (xs : List DirE) : Option DirE :=
  xs.foldl (fun m e => match m with
    | none => some e
    | some o => if e.last < o.last then some e else some o) none

/-- The victim of a full set (R311): among the unpinned ways the oldest with one sharer, else the oldest shared, else
the oldest exclusive, else the oldest. -/
def State.chooseDirVictim (s : State) (set : Nat) : Option DirE :=
  let c := (s.spr.dir.filter (fun e => decide (e.1 / 16 = set) && (s.trackerOf e.2.line).isNone)).map (·.2)
  (oldestE (c.filter (fun e => decide (e.state = .shared) && !e.bcast && decide (e.ptrs.length = 1)))).or <|
  (oldestE (c.filter (fun e => decide (e.state = .shared)))).or <|
  (oldestE (c.filter (fun e => decide (e.state = .exclusive)))).or (oldestE c)

/-! ### Snoops (R302, R305, R317, R321, R553) -/

/-- The up link a holder is snooped on: the lower of its group that is up (02 R72). -/
def State.snoopLink (s : State) (g : Nat) : Option Nat :=
  match s.partner g with
  | none => if (s.link g).up then some g else none
  | some m => if (s.link (min g m)).up then some (min g m) else if (s.link (max g m)).up then some (max g m) else none

/-- The lowest free index among a port's 128 reserved response entries (R317, R321). -/
def State.freeTag (s : State) (p : Nat) : Option Nat :=
  (List.range 128).find? (fun i => s.spr.snoops.all (fun x => decide (x.link / 4 ≠ p) || (match x.tag with
    | none => true
    | some t => decide (t % 128 ≠ i))))

/-- Sends the snoops that wait, where their holder's link is up and the port has a response entry: the BITag's index and
its generation (R317, R321). -/
def State.sendSnoops (s : State) : State :=
  s.spr.snoops.zipIdx.foldl (fun t e =>
    let x := e.1
    if x.tag.isSome then t
    else match t.snoopLink x.holder with
      | none => t
      | some n => match t.freeTag (n / 4) with
        | none => t
        | some i =>
          let g := t.spr.gens.getD (n / 4 * 128 + i) 0
          let tag := i + 128 * g
          let t := t.updSpr (fun r => { r with
            gens := r.gens.set 0 (n / 4 * 128 + i) ((g + 1) % 32)
            snoops := updAt (fun y => { y with tag := some tag, link := n, sentAt := s.now }) e.2 r.snoops })
          let t := t.tally ⟨0x040, none, some (1, n), some x.line, none⟩ 1
          t.emit (.snoop n x.kind (t.hpaOf n x.line x.keyId) tag)) s

/-- Opens a tracker for a line and queues its snoops of a kind to some holders (R309). -/
def State.openTracker (s : State) (line : Nat) (act : TAct) (kind keyId : Nat) (hs : List Nat) : State :=
  let i := s.spr.nextTracker
  let n := s.setTrackers (dirSet line) + 1
  let t := s.updSpr (fun x => { x with
    trackers := x.trackers ++ [⟨i, line, act, [], false, none⟩], nextTracker := i + 1, setMax := max x.setMax n
    snoops := x.snoops ++ hs.map (fun g => ⟨i, g, g, kind, line, keyId, none, 0, none, []⟩) })
  t.sendSnoops

/-- Evicts an entry (R312): BISnpInv to each holder. -/
def State.evict (s : State) (e : DirE) (act : TAct) : State :=
  (s.openTracker e.line act 2 e.keyId (s.holders e)).tally ⟨0x042, none, none, some e.line, none⟩ 1

/-! ### Requests (R301, R303, R310) -/

/-- Adds a request to its set's conflict queue (R310). -/
def State.waitQueue (s : State) (r : CReq) : State :=
  let full := decide (196608 ≤ s.spr.queue.length + 1) && !s.spr.cqFull
  let t := s.updSpr (fun x => { x with queue := x.queue ++ [r], cqFull := x.cqFull || full })
  let t := t.tally (if r.link < 32 then s.linkEv 0x043 r.link (some r.line) none
    else ⟨0x043, none, some (2, r.link - 64), some r.line, none⟩) 1
  if full then t.raise .spr 4 else t

/-- The holder a requester counts as: the lower link of its failover group; a whisk channel holds nothing. -/
def State.holderOf (s : State) (n : Nat) : Nat := if n < 32 then s.group n else n

/-- The snoops a request needs: their kind and the holders (R301, R303). -/
def State.needs (s : State) (r : CReq) : Nat × List Nat :=
  let g := s.holderOf r.link
  match s.dirOf r.line with
  | none => (0, [])
  | some e =>
    let o := (s.holders e).filter (fun h => h != g)
    let owned := decide (e.state ≠ .shared)
    match r.kind with
    | .rdI => (0, if owned then o else [])
    | .rdS | .invS => (1, if owned then o else [])
    | .rdData => (1, if owned then o else [])
    | .rdA | .invA => (2, o)
    | .write => (2, o)
    | .invI => (0, [])

/-- Whether a request leaves a holder where the line stands in I, so that it needs an entry. -/
def State.needsEntry (s : State) (r : CReq) : Bool :=
  (s.dirOf r.line).isNone && (match r.kind with
    | .rdI | .write | .invI => false
    | _ => true)

/-- The state a request leaves when its snoops are complete (R301): what it answers is its completion kind or MetaValue
(0 I, 1 S, 2 A). -/
def State.grantReq (s : State) (r : CReq) : State × Nat :=
  let g := s.holderOf r.link
  match r.kind with
  | .rdI => (s.dirTouch r.line, 0)
  | .rdS | .invS => match s.dirOf r.line with
    | some e => if e.state ≠ .shared ∧ e.ptrs = [g] then (s.dirPut r.line .shared [g] false r.keyId, 1)
        else (s.addSharer r.line g r.keyId, 1)
    | none => (s.addSharer r.line g r.keyId, 1)
  | .rdA => match s.dirOf r.line with
    | some e => if e.state ≠ .shared ∧ e.ptrs = [g] then (s.dirTouch r.line, 2)
        else (s.setOwner r.line g r.keyId .exclusive, 2)
    | none => (s.setOwner r.line g r.keyId .exclusive, 2)
  | .rdData => match s.dirOf r.line with
    | none => (s.setOwner r.line g r.keyId .exclusive, 2)
    | some e => if !e.bcast && decide (e.ptrs = [g]) then (s.setOwner r.line g r.keyId .exclusive, 2)
        else (s.addSharer r.line g r.keyId, 1)
  | .invA => (s.setOwner r.line g r.keyId .modified, 2)
  | .invI => (s.removeHolder r.line g, 0)
  | .write => match s.dirOf r.line with
    | some e => if e.bcast then (s.dirDrop r.line, 0)
        else (s.updDir r.line (fun e => if e.ptrs.contains g then some { e with ptrs := [g] } else none), 0)
    | none => (s, 0)

/-- What a coherent request comes to: it must wait, its snoops are under way, or it is granted with a MetaValue. -/
inductive CAns where
  | wait
  | snooping
  | granted (metaVal : Nat)
deriving DecidableEq, Repr

/-- Whether a request asks for data. -/
def RKind.reads : RKind → Bool
  | .rdI | .rdS | .rdA | .rdData => true
  | _ => false

/-- The copy of a line that a tracker in forward mode keeps until its write-back is accepted (R308). -/
def State.copyOf (s : State) (line : Nat) : Option Line := (s.trackerOf line).bind (fun k => k.copy)

/-- Whether a request for a line whose tracker keeps a copy is served from it (R308): a read that needs neither a snoop nor an entry,
under the key ID the line is held under; another waits for the tracker. -/
def State.fromCopy (s : State) (r : CReq) : Bool :=
  (s.copyOf r.line).isSome && r.kind.reads &&
    decide ((s.needs r).2 = []) && !s.needsEntry r && (match s.dirOf r.line with
      | some e => decide (e.keyId = r.keyId)
      | none => true)

/-- Tries a coherent request (R301, R303, R308, R310, R553). A request under another key ID than the line is held under first
has every holder invalidated. -/
def State.tryReq (s : State) (r : CReq) : State × CAns :=
  if s.fromCopy r then
    let x := s.grantReq r
    (x.1, .granted x.2)
  else if (s.trackerOf r.line).isSome then (s, .wait)
  else
    let full := decide (12 ≤ s.setTrackers (dirSet r.line))
    let clash := match s.dirOf r.line with
      | some e => decide (e.keyId ≠ r.keyId) && decide (r.kind ≠ RKind.invI)
      | none => false
    if clash then
      if full then (s, .wait)
      else match s.dirOf r.line with
        | some e => (s.openTracker r.line (.retry r) 2 e.keyId (s.holders e), .snooping)
        | none => (s, .wait)
    else
      let n := s.needs r
      if n.2 ≠ [] then
        if full then (s, .wait) else (s.openTracker r.line (.serve r) n.1 r.keyId n.2, .snooping)
      else if s.needsEntry r && (s.freeWay r.line).isNone then
        if full then (s, .wait)
        else match s.chooseDirVictim (dirSet r.line) with
          | some e => (s.evict e .evict, .wait)
          | none => (s, .wait)
      else
        let x := s.grantReq r
        (x.1, .granted x.2)

/-! ### Answers (R302) -/

/-- The writes of a link to a line that are queued: the write-backs that belong to its answer (R302). -/
def State.writeBacks (s : State) (n line : Nat) : List Nat :=
  ((s.link n).iwq.filter (fun e => decide (e.line = line))).map (·.arr)

/-- Whether a snoop's answer is complete: the answer has come and every write-back with it is accepted (R302). -/
def State.answered (s : State) (x : Snp) : Bool :=
  x.answer.isSome && (s.link x.link).iwq.all (fun e => !x.wb.contains e.arr)

/-- What an answer leaves of a holder (R302); a broadcast entry's sharers stay until it leaves S (R297). -/
def State.applyAnswer (s : State) (x : Snp) : State :=
  match x.answer with
  | some 2 => s
  | some 1 => s.updDir x.line (fun e => some { e with state := .shared })
  | _ => s.removeHolder x.line x.holder

/-- The snoops of a tracker. -/
def State.snoopsOf (s : State) (i : Nat) : List Snp := s.spr.snoops.filter (fun x => decide (x.tracker = i))

/-- Marks an answer to an outstanding snoop (R302): an answer the snoop does not allow counts as BIRspI and raises
PROTOCOL; one that matches no outstanding snoop is discarded (R321). -/
def State.takeAnswer (s : State) (n tag ans : Nat) : State :=
  match s.spr.snoops.find? (fun x => decide (x.tag = some tag) && decide (x.link / 4 = n / 4) && x.answer.isNone) with
  | none => s
  | some y =>
    let ok := decide (ans = 0) || (decide (ans = 1) && decide (y.kind ≠ 2)) || (decide (ans = 2) && decide (y.kind = 0))
    let wb := s.writeBacks n y.line
    let mark := fun (x : Snp) => if x.tag = some tag ∧ x.link / 4 = n / 4 ∧ x.answer.isNone then
        { x with answer := some (if ok then ans else 0), wb := wb, link := n } else x
    let t := s.updSpr (fun r => { r with snoops := r.snoops.map mark })
    if ok then t else t.raise .spr 5

/-- The oldest tracker whose answers are all complete. -/
def State.closable (s : State) : Option Tracker :=
  s.spr.trackers.find? (fun t => (s.snoopsOf t.id).all (fun x => s.answered x))

end Sys2Proof.Machine
end

