-- ==== Sys2Proof/Machine/Loads.lean ====
section
/-!
DEFINITION. How a host load is served (01_architecture.md R28 to R32, 03 R98, 08 R235, R236, 10 R306, R307), how
acceptance and snoop answers let waiting requests go on (10 R302 to R310).
-/

namespace Sys2Proof.Machine

/-! ### Answers -/

/-- Answers a load with a line (08 R235, 18 R492, R499); the data of a poisoned line is a free value. -/
def State.answerLoad (s : State) (id : Nat) (l : Load) (data : Line) (poison media : Bool) : State :=
  let d := s.draw
  let t := if poison then d.2 else s
  let t := { t with loads := t.loads.del id }
  let t := t.emit (.data l.link l.tag (if poison then Config.freeLine d.1 else data) poison l.respE)
  let t := if poison then t.tally (t.linkEv 0x008 l.link (some l.line) none) 1 else t
  let e := t.linkEv 0 l.link (some l.line) (some 0)
  let t := t.sample 0 e (t.now - l.started)
  if media then (t.sample 1 e (t.now - l.started)).noteWait l.started else t

/-- Answers load `id`, where it still waits. -/
def State.answer (s : State) (id : Nat) (data : Line) (poison media : Bool) : State :=
  match s.loads.find id with
  | none => s
  | some l => s.answerLoad id l data poison media

/-- The loads that share a fill entry of a ladle, or the one load. -/
def State.sharing (s : State) (id : Nat) (l : Load) : List Nat :=
  match l.fill with
  | none => [id]
  | some i => (s.loads.filter (fun e => decide (e.2.fill = some i) && decide (e.2.link / 4 = l.link / 4))).map (·.1)

/-- Media data, zeros or poison return for a load: the ladle allocates clean data, and every load that shares the fill
is answered (08 R234, R236). -/
def State.finishLoad (s : State) (id : Nat) (data : Line) (poison media : Bool) : State :=
  match s.loads.find id with
  | none => s
  | some l =>
    let ids := s.sharing id l
    let t := match l.fill with
      | some i => s.closeFill (l.link / 4) i (if poison then none else some data)
      | none => s
    ids.foldl (fun u j => u.answer j data poison media) t

/-! ### The stockpot and media path -/

/-- What the stockpot answers a load: the frame's line, poison for another or an unloaded key slot, or nothing (03 R98,
12 R363). -/
inductive PotAns where
  | data (l : Line)
  | poison
  | masked (frame : Nat)
  | miss
deriving DecidableEq, Repr

/-- Looks a line up in the stockpot under a key slot, with the alarm a key clash raises (12 R363); the copy that a tracker keeps of a
line's write-back stands before it (10 R308). -/
def State.potLookup (s : State) (line keyslot requester : Nat) : PotAns × State :=
  match s.copyOf line with
  | some d => (.data d, s)
  | none => match s.resident (line / 4) with
  | none => (.miss, s)
  | some f =>
    let x := s.frame f
    let n := line % 4
    if x.valid.getLsbD n then
      if x.keyslot ≠ keyslot then (.poison, s.alarm 4 ⟨keyslot, x.keyslot, requester, line / 4, 0⟩)
      else if !s.loaded keyslot then (.poison, s.alarm 3 ⟨keyslot, x.keyslot, requester, line / 4, 0⟩)
      else if x.poison.getLsbD n then (.poison, s)
      else (.data (x.data.get n), s)
    else if x.maskOf n ≠ 0 then (.masked f, s)
    else (.miss, s)

/-- Whether another load already waits for the read of a masked line (03 R98). -/
def State.maskedWait (s : State) (line : Nat) : Bool :=
  s.loads.any (fun e => decide (e.2.line = line) && decide (e.2.stage = .masked))

/-- The class bits a host load carries: fabric-owner privilege and its master. -/
def State.loadEv (s : State) (code : Nat) (l : Load) : TEv := s.linkEv code l.link (some l.line) none

/-- A lookup that needs a locked map-stack line waits in the sieve (01 R38, 13 R388). -/
def State.parkLookup (s : State) (q : TReq) : State := { s with siv := { s.siv with waiting := s.siv.waiting ++ [q] } }

/-- A load goes to its ladle, the stockpot and media, in that order (01 R28, 08 R235); a ladle answers only under a
LOADED slot (12 R372). -/
def State.pathLoad (s : State) (id : Nat) (l : Load) : State :=
  let p := l.link / 4
  match (if s.loaded l.keyslot && (s.copyOf l.line).isNone then (s.ladle p).hit l.line l.keyslot else none) with
  | some d =>
    let t := s.updLadle p (fun x => match x.find l.line (fun w => decide (w.state = .valid)) with
      | some k => x.touch (s.lockWays p) k
      | none => x)
    (t.tally (t.loadEv 0x003 l) 1).answerLoad id l d false false
  | none =>
    let r := s.potLookup l.line l.keyslot l.link
    match r.1 with
    | .data d => (r.2.tally (r.2.loadEv 0x004 l) 1).answerLoad id l d false false
    | .poison => (r.2.tally (r.2.loadEv 0x004 l) 1).answerLoad id l 0 true false
    | .masked f =>
      let t := { s with loads := s.loads.put id { l with stage := .masked } }
      if s.maskedWait l.line then t
      else if s.lockedUnit (l.line / 4) then t.parkLookup (.load id)
      else match s.addrOf (l.line / 4) with
      | none =>
        let t := s.updFrame f (fun x => ({ x with home := .noCopy }).zeroComplete)
        let q := t.potLookup l.line l.keyslot l.link
        (match q.1 with
          | .data d => q.2.answerLoad id l d false false
          | _ => q.2.answerLoad id l 0 true false)
      | some a => t.request .read a (.link l.link) .hostRead (.load id)
    | .miss => match (s.ladle p).fillFor l.line l.keyslot with
      | some i => { s with loads := s.loads.put id { l with stage := .media, fill := some i } }
      | none =>
        let x := s.openFill p l.line l.keyslot
        let t := { x.1 with loads := x.1.loads.put id { l with stage := .translate, fill := x.2 } }
        t.translate (l.line / 4 % 4) (.load id) 7

/-! ### Coherent requests served -/

/-- The MetaValue a response carries: No-Op where the request carried it (10 R301). -/
def Load.answerMeta (l : Load) (m : Nat) : Nat := if l.metaVal = 3 ∨ l.metaVal = 5 then 3 else m

/-- The completion kind of a MetaValue: Cmp, Cmp-S, Cmp-E (10 R301). -/
def cmpKind : Nat → Nat
  | 1 => 1
  | 2 => 2
  | _ => 0

/-- Commits a write to its link's ingress queue: the next sequence number, its completion, the Accept rail (03 R87, R88,
10 R303). -/
def State.commitWrite (s : State) (n : Nat) (u : UWrite) (wt : WinType) : State :=
  let q := (s.link n).nextSeq
  let e : IwqEntry := {
    seq := q, line := u.line, data := u.data, mask := u.mask, keyslot := u.keyslot, wtype := wt, poison := u.poison
    committed := true, metaVal := u.metaVal, tag := u.tag, sent := false, at' := s.now, arr := u.arr
    heldAt := u.heldAt }
  let t := s.setLink n (fun l => { l with nextSeq := q + 1, iwq := l.iwq ++ [e] })
  let t := t.tally (t.linkEv 0x002 n (some u.line) none) 1
  (t.emit (.cmp n u.tag 0)).feedAccept n

/-- A granted request goes on (10 R301, R303, R306): a read to its data, an ownership request to its completion, a write
to its commit, a whisk access to its chunk. -/
def State.serveGranted (s : State) (r : CReq) (m : Nat) : State :=
  if 64 ≤ r.link then s.updCtx r.id (fun c => { c with granted := insertNew c.granted r.line })
  else match r.kind with
    | .rdI | .rdS | .rdA | .rdData => match s.loads.find r.id with
      | none => s
      | some l => s.pathLoad r.id { l with respE := l.answerMeta m }
    | .invI | .invS | .invA => s.emit (.cmp r.link r.tag (cmpKind m))
    | .write => match (s.link r.link).unowned.find? (fun u => decide (u.arr = r.id)) with
      | none => s
      | some u => (s.setLink r.link (fun l => { l with
          unowned := l.unowned.filter (fun x => x.arr != r.id) })).commitWrite r.link u .coherent

/-- Submits a coherent request: it is served, its snoops go out, or it waits in its set's conflict queue (10 R310). -/
def State.submit (s : State) (r : CReq) : State :=
  let x := s.tryReq r
  match x.2 with
  | .wait => x.1.waitQueue r
  | .snooping => x.1
  | .granted m => x.1.serveGranted r m

/-- Applies the change a write's MetaValue asks for at acceptance (10 R304): nothing where the link has lost the line
since the write arrived. A change that needs other holders gone, or a way, opens a tracker. -/
def State.applyMeta (s : State) (n line keyId m : Nat) (heldAt : Bool) : State :=
  let g := s.group n
  let holds := match s.dirOf line with
    | some e => e.bcast || e.ptrs.contains g
    | none => false
  if heldAt && !holds then s
  else
    match m with
    | 0 => s.removeHolder line g
    | 1 | 2 =>
      let others := match s.dirOf line with
        | some e => (s.holders e).filter (fun h => h != g)
        | none => []
      if m = 2 ∧ others ≠ [] then s.openTracker line (.become n 2 line keyId) 2 keyId others
      else if (s.dirOf line).isNone ∧ (s.freeWay line).isNone then
        match s.chooseDirVictim (dirSet line) with
        | some e => s.evict e (.become n m line keyId)
        | none => s
      else if m = 1 then
        (match s.dirOf line with
          | some e => if e.ptrs = [g] ∧ !e.bcast then s.dirPut line .shared [g] false keyId
              else s.addSharer line g keyId
          | none => s.addSharer line g keyId)
      else s.setOwner line g keyId .exclusive
    | _ => s

/-- The MetaValue change of an accepted write: at once, or when the line's tracker closes (10 R304). -/
def State.metaAtAccept (s : State) (n : Nat) (e : IwqEntry) : State :=
  if e.wtype ≠ .coherent then s
  else match s.trackerOf e.line with
    | some k =>
      let holds := match s.dirOf e.line with
        | some d => d.bcast || d.ptrs.contains (s.group n)
        | none => false
      if e.heldAt && !holds then s
      else s.updSpr (fun x => { x with trackers := x.trackers.map (fun (t : Tracker) => if t.id = k.id then
          { t with metas := t.metas ++ [(n, e.metaVal, e.keyslot % 64)] } else t) })
    | none => s.applyMeta n e.line (e.keyslot % 64) e.metaVal e.heldAt

/-! ### Closing trackers -/

/-- Retries the waiting requests of a set in order of arrival (10 R310). -/
def State.retrySet (s : State) (set : Nat) : State :=
  let ws := s.spr.queue.filter (fun r => decide (dirSet r.line = set))
  let t := s.updSpr (fun x => { x with queue := x.queue.filter (fun r => decide (dirSet r.line ≠ set)), cqFull := false })
  ws.foldl (fun u r =>
    let x := u.tryReq r
    match x.2 with
    | .wait => x.1.updSpr (fun y => { y with queue := y.queue ++ [r] })
    | .snooping => x.1
    | .granted m => x.1.serveGranted r m) t

/-- Closes a tracker whose answers are complete (10 R301, R303, R304, R312, R320): the answers' states, what it was for,
the MetaValue changes that waited. -/
def State.closeTracker (s : State) (k : Tracker) : State :=
  let t := if k.served then s else (s.snoopsOf k.id).foldl (fun u x => u.applyAnswer x) s
  let t := t.updSpr (fun x => { x with
    trackers := x.trackers.filter (fun y => y.id != k.id)
    snoops := x.snoops.filter (fun y => y.tracker != k.id) })
  let t := match k.act with
    | .serve r => if k.served then t else let x := t.grantReq r
        x.1.serveGranted r x.2
    | .retry r => (t.dirDrop k.line).submit r
    | .evict | .flush none => t.dirDrop k.line
    | .flush (some _) | .abandon => t
    | .become n m line keyId => (if line = k.line then t else t.dirDrop k.line).applyMeta n line keyId m false
  k.metas.foldl (fun u x => u.applyMeta x.1 k.line x.2.2 x.2.1 false) t

/-- The data a tracker in forward mode copies from its holders' write-backs, over device memory (10 R308); device memory
that is not at hand is a free value. -/
def State.forwardData (s : State) (k : Tracker) : Option Line :=
  let es := ((s.snoopsOf k.id).map (fun x => (s.link x.link).iwq.filter (fun e => x.wb.contains e.arr))).flatten
  match es with
  | [] => none
  | _ =>
    let base := match s.resident (k.line / 4) with
      | some f => (s.frame f).data.get (k.line % 4)
      | none => match s.addrOf (k.line / 4) with
        | some a => ((s.sector a).map (fun x => x.data.get (k.line % 4))).getD 0
        | none => 0
    some (es.foldl (fun d e => mergeLine d e.data e.mask) base)

/-- Whether the spice rack is in forward mode (10 R308). -/
def State.forwardMode (s : State) : Bool := s.isFrozen || bitOf (s.getLive .spr 0x0C) 0

/-- In forward mode a tracker whose answers have come, with a write-back among them, answers its read from its copy at
once, with the states that R301 gives; it stays open until the write-back is accepted, and what waits for the line is served from the
copy (10 R308). -/
def State.forwardTrackers (s : State) : State :=
  if !s.forwardMode then s
  else s.spr.trackers.foldl (fun t k =>
    match k.act with
    | .serve r =>
      if !r.kind.reads || k.served || !(t.snoopsOf k.id).all (fun x => x.answer.isSome) then t
      else match t.forwardData k with
        | none => t
        | some d =>
          let mark := fun (y : Tracker) => if y.id = k.id then { y with served := true, copy := some d } else y
          let t := (t.snoopsOf k.id).foldl (fun u x => u.applyAnswer x) t
          let t := t.updSpr (fun x => { x with trackers := x.trackers.map mark })
          let g := t.grantReq r
          ((if r.link < 32 then match g.1.loads.find r.id with
              | some l => g.1.answerLoad r.id { l with respE := l.answerMeta g.2 } d false false
              | none => g.1
            else g.1.serveGranted r g.2)).retrySet (dirSet k.line)
    | _ => t) s

/-- Closes every tracker that can close, oldest first, and retries what waited for it; ends a directory flush whose last
snoop is complete (10 R310, R320). -/
def State.settleSpice : Nat → State → State
  | 0, s => s
  | n + 1, s =>
    match s.closable with
    | none => s
    | some k => State.settleSpice n ((s.closeTracker k).retrySet (dirSet k.line))

/-- Evicts the lines of a running directory flush for which a tracker is free now; a flush for one link snoops that link
alone (10 R299, R320). -/
def State.pumpFlush (s : State) : State :=
  s.spr.flushTodo.foldl (fun t x =>
    match t.dirOf x.1 with
    | none => t.updSpr (fun r => { r with flushTodo := r.flushTodo.filter (fun y => decide (y ≠ x)) })
    | some e =>
      if (t.trackerOf x.1).isSome || decide (12 ≤ t.setTrackers (dirSet x.1)) then t
      else
        let u := match x.2 with
          | none => t.evict e (.flush none)
          | some g => if e.bcast || e.ptrs.contains g then t.openTracker x.1 (.flush (some g)) 2 e.keyId [g] else t
        u.updSpr (fun r => { r with flushTodo := r.flushTodo.filter (fun y => decide (y ≠ x)) })) s

/-- Everything the spice rack does after an answer or an acceptance. -/
def State.spice (s : State) : State :=
  let t := s.forwardTrackers
  let t := State.settleSpice (t.spr.trackers.length + t.spr.queue.length + 1) t
  t.pumpFlush.sendSnoops

/-! ### Loads that waited for a write (01 R29, R31) -/

/-- Whether the write with an arrival number is still queued on a link. -/
def State.stillQueued (s : State) (n arr : Nat) : Bool :=
  (s.link n).iwq.any (fun e => decide (e.arr = arr)) || (s.link n).unowned.any (fun u => decide (u.arr = arr))

/-- The coherent kind of a load by its MetaValue; MemRdData has its own (10 R301). -/
def loadKind : Nat → RKind
  | 1 => .rdS
  | 2 => .rdA
  | 4 => .rdData
  | 5 => .rdData
  | _ => .rdI

/-- A load goes on from order 2 of R28: a coherent one through the directory (01 R31). -/
def State.goOn (s : State) (id : Nat) (l : Load) : State :=
  if l.wtype = .coherent then
    ({ s with loads := s.loads.put id { l with stage := .directory } }).submit
      ⟨loadKind l.metaVal, l.link, l.tag, l.line, l.keyId, id⟩
  else s.pathLoad id l

/-- Lets the loads of a link go on whose awaited write has been accepted. -/
def State.resumeLoads (s : State) (n : Nat) : State :=
  s.loads.foldl (fun t e => match e.2.stage with
    | .ingress a => if e.2.link = n ∧ !t.stillQueued n a then t.goOn e.1 e.2 else t
    | _ => t) s

/-- Everything that follows an accepted entry: the acknowledgement, the MetaValue, loads that waited, answers that
became complete (03 R88, 10 R302, R304). -/
def State.afterAccept (s : State) (n : Nat) (e : IwqEntry) : State :=
  ((((s.noteAccepted n e.arr).acknowledge n e.seq).metaAtAccept n e).resumeLoads n).spice

/-- The write-accept of the entry at the head of a link's Accept rail (03 R88, R89): one not later than the last acknowledged
number is dropped; one whose header was lost (13 R386) is passed over. None where there is none, or it must wait. The entry
comes with the outcome. -/
def State.acceptHead (s : State) (n : Nat) (landing : Bool) : Option (Option IwqEntry × State) :=
  match (s.rails.accept.getD n .empty).take 64 with
  | none => none
  | some (q, r) =>
    let t := { s with rails := { s.rails with accept := s.rails.accept.set .empty n r } }
    if !seqLater q (s.link n).lastAck then some (none, t)
    else match (s.link n).iwq.find? (fun e => decide (e.seq = q)) with
      | none => some (none, t.setLink n (fun l => { l with lastAck := q, lastAckCopy := q }))
      | some e => (t.accept (t.writeOf n e landing)).map (fun u => (some e, u))

/-- Accepts the committed entries of a link's queue in order, `k` at most. -/
def State.drainLoop (n : Nat) : Nat → State → State
  | 0, s => s
  | k + 1, s => match s.acceptHead n true with
    | none => s
    | some (none, t) => State.drainLoop n k t
    | some (some e, t) => State.drainLoop n k (t.afterAccept n e)

/-- Accepts every committed entry of a link's queue in order, with the landing reserve (03 R88, R112; 02 R60, R71, 15 R432);
while STK_CTRL.FREEZE is 1 they wait, but for Flush (03 R113, R115). -/
def State.drainIngress (s : State) (n : Nat) : State :=
  if bitOf (s.getLive .stk 0x0C) 0 && decide (s.pwrState ≠ .flush) then s
  else State.drainLoop n ((s.link n).iwq.length + 64) s

end Sys2Proof.Machine
end

