-- ==== Sys2Proof/Machine/Fences.lean ====
section
/-!
DEFINITION. Fences and hooks (09_ordering.md R271 to R293), but the register writes a fence waits for, which
Sys2Proof.Machine.RegWrites delivers.
-/

namespace Sys2Proof.Machine

/-! ### Fences -/

/-- A fence as it arrives on a link (R271): the committed writes of the link not yet accepted, the register writes it
covers, the invalidations its own ladle has to apply, and, where every covered write is accepted, the marks of all
ladles. A link with Memory_Active 0 waits for register writes alone (R275). -/
def State.newFence (s : State) (n scope : Nat) (read : Bool) (serial : Nat) : Fence :=
  let l := s.link n
  let ws := if l.memActive then l.iwq.map (fun (e : IwqEntry) => e.arr) else []
  let mine := fun (w : Bar0Write) => decide (pathNum w.path = n)
  { scope := scope, read := read, arrived := s.now, started := none, serial := serial, waits := ws
    holds := (l.holds ++ l.blocked).map (fun (w : Bar0Write) => w.id) ++ (s.cmt.waiting.filter mine).map (fun (w : Bar0Write) => w.id)
    own := if l.memActive ∧ 1 ≤ scope then s.ports.posted.getD (n / 4) 0 else 0
    marks := if l.memActive ∧ scope = 2 ∧ ws = [] then l.invMark else []
    commit := s.cmt.pending && (match s.cmt.by_ with
      | some p => decide (pathNum p = n)
      | none => false)
    discards := 0 }

/-- Whether a register write is still held or waiting. -/
def State.writeWaits (s : State) (n id : Nat) : Bool :=
  ((s.link n).holds ++ (s.link n).blocked).any (fun w => decide (w.id = id)) || s.cmt.waiting.any (fun w => decide (w.id = id))

/-- Whether every wait of a fence of a link has ended (R271, R275). -/
def State.fenceDone (s : State) (n : Nat) (f : Fence) : Bool :=
  decide (f.waits = []) && f.holds.all (fun i => !s.writeWaits n i) && !(f.commit && s.cmt.pending) &&
    decide (f.own ≤ s.ports.applied.getD (n / 4) 0) &&
    f.marks.zipIdx.all (fun e => decide (e.1 ≤ s.ports.applied.getD e.2 0))

/-- The fence status word (R274). -/
def fenceWord (result scope discards serial : Nat) : W32 :=
  at32 result 0 ||| at32 scope 3 ||| at32 (sat 4 discards) 8 ||| at32 (serial % 65536) 16

/-- Starts the first fence of a link that has not started: they run one at a time, in arrival order (R273). -/
def State.startFence (s : State) (n : Nat) : State :=
  s.setLink n (fun l => { l with fences := match l.fences with
    | f :: fs => { f with started := some (f.started.getD s.now) } :: fs
    | [] => [] })

/-- Whether a link's fence registers answer it now: the link is up and sees its own port page (R272, 19 R524, 02 R75). -/
def State.fenceAdmits (s : State) (n : Nat) (h : n < 32) (read : Bool) : Bool :=
  s.heard (.link ⟨n, h⟩) && (match s.view (.link ⟨n, h⟩) (.port (n / 4)) with
    | .full => true
    | .tenant => true
    | .readOnly => read
    | .hidden => false)

/-- Issues a fence of a scope on a link (R271, R273). -/
def State.fence (s : State) (n : Fin 32) (scope : Nat) (read : Bool) : State :=
  if s.fenceAdmits n.val n.isLt read then
    let q := ((s.link n.val).fenceSerial + 1) % 65536
    let f := s.newFence n.val scope read q
    (s.setLink n.val (fun l => { l with fences := l.fences ++ [f], fenceSerial := q })).startFence n.val
  else s

/-- A fence read, or a fence write in its turn among its link's writes (R272, R273, R277). -/
def State.fenceAccess (s : State) (n : Fin 32) (scope : Nat) (read : Bool) : State :=
  if read then s.fence n scope true
  else s.portWrite (.link n) (RPage.base (.port (n.val / 4)) + 0x1000 + scope * 4) 0 (fun t => t.fence n scope false)

/-- FENCE_LINK (R271): a read or write of PORT_FENCE_LINK issues a link-scope fence. -/
def execFenceLink (n : Fin 32) (read : Bool) (s : State) : Host.Outcome State Fault Refusal :=
  .next (s.fenceAccess n 0 read)

/-- FENCE_PORT (R271): a read or write of PORT_FENCE_PORT issues a port-scope fence. -/
def execFencePort (n : Fin 32) (read : Bool) (s : State) : Host.Outcome State Fault Refusal :=
  .next (s.fenceAccess n 1 read)

/-- FENCE_DEV (R271): a read or write of PORT_FENCE_DEV issues a device-scope fence. -/
def execFenceDev (n : Fin 32) (read : Bool) (s : State) : Host.Outcome State Fault Refusal :=
  .next (s.fenceAccess n 2 read)

/-- Ends the running fence of a link: its status word is kept and, for a read, returned; the next fence starts (R273,
R274). -/
def State.endFence (s : State) (n : Nat) (f : Fence) : State :=
  let w := fenceWord (if f.discards = 0 then 0 else 1) f.scope f.discards f.serial
  let t := s.setLink n (fun l => { l with fences := l.fences.drop 1, fenceLast := w })
  let t := (if f.read then t.emit (.fence n w) else t).startFence n
  (t.tally (t.linkEv 0x060 n none none) 1).sample 2 (t.linkEv 0 n none none) (s.now - f.arrived)

/-- FENCE_COMPLETE (R275): the last wait of a link's running fence has ended. -/
def execFenceComplete (n : Fin 32) (s : State) : Host.Outcome State Fault Refusal :=
  match (s.link n.val).fences with
  | [] => .next s
  | f :: _ => if s.fenceDone n.val f then .next (s.endFence n.val f) else .next s

/-- Discards the held writes of a link that a fence covers (R277, R278): a record for each, and the capture words of the
port for the first. A held write that two running fences cover counts for the one whose 2 ms discard it (DESIGN CHOICE, log
entry 109). -/
def State.discardHeld (s : State) (n : Nat) (f : Fence) (serial : Nat) : State × Nat :=
  let ws := (s.link n).holds.filter (fun w => f.holds.contains w.id)
  let p := RPage.port (n / 4)
  let t := match ws with
    | [] => s
    | w :: _ => (((s.setLive p 0x20 (BitVec.ofNat 32 (w.off % 2 ^ 26))).setLive p 0x24 w.data).setLive p 0x28
        (at32 n 0)).setLive p 0x2C (at32 2 0 ||| at32 (serial % 65536) 16)
  let t := ws.foldl (fun u w => u.record 0x1005 n w.off w.data.toNat serial) t
  (t.setLink n (fun l => { l with holds := l.holds.filter (fun w => !f.holds.contains w.id) }), ws.length)

/-- FENCE_DISCARD_EXPIRY (R277): 2 ms after a link's fence started, or after the release of hook `h` whose own fence
runs, the held writes to dead targets that it covers are discarded. The serial of a hook's own fence, which has none, is
a free value in the record. -/
def execFenceDiscardExpiry (n : Fin 32) (h : Option (Fin 4096)) (s : State) : Host.Outcome State Fault Refusal :=
  match h with
  | none => match (s.link n.val).fences with
    | [] => .next s
    | f :: _ => match f.started with
      | none => .next s
      | some at' =>
        let t := s.reach (at' + 2 * Config.ms)
        let r := t.discardHeld n.val f f.serial
        .next (r.1.setLink n.val (fun l => { l with
          fences := updAt (fun x => { x with discards := x.discards + r.2 }) 0 l.fences }))
  | some h =>
    let k := s.hooks.getD h.val .fresh
    match k.fence with
    | none => .next s
    | some f =>
      let t := s.reach (f.arrived + 2 * Config.ms)
      let d := t.draw
      let r := d.2.discardHeld k.link f ((Config.freeWord d.1).toNat % 65536)
      .next { r.1 with hooks := r.1.hooks.put h.val { k with fence := some { f with discards := r.2 } } }

/-- A link's fences end at its link-down (R276), and its held and waiting register writes are discarded (R277). A link-down
with no fence since one that aborted fences keeps ABORTED in PORT_FENCE_LAST (DESIGN CHOICE, log entry 109). -/
def State.abortFences (s : State) (n : Nat) : State :=
  s.setLink n (fun l => { l with
    fenceLast := match l.fences.getLast? with
      | some f => fenceWord 2 f.scope f.discards 0
      | none => l.fenceLast &&& 0xFFFF
    fences := [], fenceSerial := 0, holds := [], blocked := [] })

/-! ### Hooks (R282 to R291) -/

/-- Hook `h`. -/
def State.hook (s : State) (h : Nat) : Hook := s.hooks.getD h .fresh

/-- Changes hook `h`. -/
def State.setHook (s : State) (h : Nat) (k : Hook) : State := { s with hooks := s.hooks.set .fresh h k }

/-- Whether a hook's group is open to a link, by the lower link of its failover group (R282). -/
def State.hookOpen (s : State) (h n : Nat) : Bool := bitOf (s.getLive .spr (0x800 + h / 64 * 4)) (s.group n)

/-- The lease a grant or renewal takes, in ms (R287, R293). -/
def State.leaseOf (s : State) (k : Hook) : Nat :=
  if k.set = 0 then max 10 (s.liveFld .spr 0x900 21 0) else k.set

/-- The token of a read of PORT_HOOK_ACQ_h (R284). -/
def hookToken (granted broken denied : Bool) (owner : Nat) (serial : BitVec 16) : W32 :=
  bit32 granted 0 ||| bit32 broken 1 ||| bit32 denied 2 ||| at32 (owner % 32) 8 ||| at32 serial.toNat 16

/-- The word of PORT_HOOK_PEEK_h (R284). A part unit of LEASE_LEFT is rounded down (DESIGN CHOICE, log entry 109). -/
def State.hookPeek (s : State) (k : Hook) : W32 :=
  let held := decide (k.state = 1)
  let left := (k.since + k.lease * Config.ms - s.now) / (16 * Config.ms)
  at32 k.state 0 ||| at32 (if held || decide (k.state = 3) then k.owner else 0) 2 ||| at32 k.serial.toNat 8 |||
    at32 (if held then sat 8 left else 0) 24

/-- HOOK_ACQUIRE (R283): a read of PORT_HOOK_ACQ_h on a link grants a free hook or reports its holder. -/
def execHookAcquire (n : Fin 32) (h : Fin 4096) (s : State) : Host.Outcome State Fault Refusal :=
  if !s.fenceAdmits n.val n.isLt true then .next s
  else
    let answer := fun (t : State) (w : W32) (code : Nat) =>
      (t.tally (t.linkEv code n.val none none) 1).emit (.regRead (.link n) [w])
    let k := s.hook h.val
    if !s.hookOpen h.val n.val then .next (answer s (hookToken false false true 0 0) 0x062)
    else if k.state = 0 ∨ k.state = 2 then
      let g := s.group n.val
      let t := s.setHook h.val { k with
        state := 1, owner := g, serial := k.serial + 1, since := s.now, lease := s.leaseOf k }
      .next (answer t (hookToken true (decide (k.state = 2)) false g (k.serial + 1)) 0x061)
    else .next (answer s (hookToken false false false k.owner k.serial) 0x062)

/-- Whether a write to a hook is judged: the link is in the mask, or its agent holds the hook (R282). -/
def State.hookWritable (s : State) (h n : Nat) : Bool :=
  s.hookOpen h n || (decide ((s.hook h).state = 1) && decide ((s.hook h).owner = s.group n))

/-- Whether a write acts on a hook: it is HELD, by the writer, with that serial (R285). -/
def State.hookActs (s : State) (h n : Nat) (serial : BitVec 16) : Bool :=
  let k := s.hook h
  decide (k.state = 1) && decide (k.owner = s.group n) && decide (k.serial = serial)

/-- HOOK_RELEASE (R285, R286): a write with RELEASE by the holder puts the hook in RELEASING and runs the hook's own
device fence at once; another's is ignored and recorded. -/
def execHookRelease (n : Fin 32) (h : Fin 4096) (serial : BitVec 16) (s : State) : Host.Outcome State Fault Refusal :=
  .next (s.portWrite (.link n) (RPage.base (.port (n.val / 4)) + 0x8000 + h.val * 8)
    (bit32 true 0 ||| at32 serial.toNat 16) (fun s =>
    if !s.fenceAdmits n.val n.isLt false || !s.hookWritable h.val n.val then s
    else if s.hookActs h.val n.val serial then
      let f := { s.newFence n.val 2 false 0 with started := some s.now }
      (s.setHook h.val { s.hook h.val with state := 3, link := n.val, fence := some f })
    else (s.record 0x4002 n.val h.val serial.toNat 0)))

/-- HOOK_RENEW (R285): a write with RENEW by the holder restarts the hook's lease; another's is ignored and recorded. -/
def execHookRenew (n : Fin 32) (h : Fin 4096) (serial : BitVec 16) (s : State) : Host.Outcome State Fault Refusal :=
  .next (s.portWrite (.link n) (RPage.base (.port (n.val / 4)) + 0x8000 + h.val * 8)
    (bit32 true 1 ||| at32 serial.toNat 16) (fun s =>
    if !s.fenceAdmits n.val n.isLt false || !s.hookWritable h.val n.val then s
    else if s.hookActs h.val n.val serial then
      let k := s.hook h.val
      (s.setHook h.val { k with since := s.now, lease := s.leaseOf k })
    else (s.record 0x4002 n.val h.val serial.toNat 0)))

/-- A hook is released in the broken state (R288). -/
def Hook.break_ (k : Hook) : Hook := { k with state := 2, owner := 0, fence := none }

/-- HOOK_RELEASE_FENCE_COMPLETE (R286): the fence of a releasing hook ends: DONE leaves it FREE, DISCARDED leaves it
FREE_BROKEN. -/
def execHookReleaseFenceComplete (h : Fin 4096) (s : State) : Host.Outcome State Fault Refusal :=
  if s.unclocked then .next s else
  let k := s.hook h.val
  match k.fence with
  | none => .next s
  | some f =>
    if s.fenceDone k.link f then
      .next (s.setHook h.val (if f.discards = 0 then { k with state := 0, owner := 0, fence := none } else k.break_))
    else .next s

/-- HOOK_LEASE_EXPIRY (R287): on a 1 ms tick a hook whose lease has run out is released in the broken state. -/
def execHookLeaseExpiry (h : Fin 4096) (s : State) : Host.Outcome State Fault Refusal :=
  if s.unclocked then .next s else
  let k := s.hook h.val
  if k.state = 1 then .next ((s.reach (k.since + k.lease * Config.ms)).setHook h.val k.break_) else .next s

/-- HOOK_BREAK (R293): a write of SPR_HOOK_BREAK with GO breaks a HELD hook. -/
def execHookBreak (path : Path) (h : Fin 4096) (s : State) : Host.Outcome State Fault Refusal :=
  .next (s.portWrite path 0x250908 (at32 h.val 0 ||| bit32 true 31) (fun s =>
    if !s.mayWrite path .spr then s
    else
      let t := s.setLive .spr 0x908 (at32 h.val 0)
      if (s.hook h.val).state = 1 then t.setHook h.val (s.hook h.val).break_ else t))

/-- The hooks of an owner whose epoch is incremented, and the releases of a link that went down (R286, R288). -/
def State.breakHooks (s : State) (owner link : Nat) (epoch : Bool) : State :=
  { s with hooks := s.hooks.mapVal (fun _ (k : Hook) =>
      if k.state = 1 ∧ epoch ∧ k.owner = owner then k.break_
      else if k.state = 3 ∧ k.link = link then k.break_ else k) }

end Sys2Proof.Machine
end

