-- ==== Sys2Proof/Machine/HostCommands.lean ====
section
/-!
DEFINITION. Memory requests of the hosts and their answers to snoops (01_architecture.md R22 to R31, 02_host_ports.md R50,
R51, R77, 03_stockpot.md R87 to R91, 10_coherence.md R294, R301 to R305, R316).
-/

namespace Sys2Proof.Machine

/-- The number of a MetaValue. -/
def metaNum : MetaV → Nat
  | .inv => 0
  | .shared => 1
  | .any => 2
  | .noOp => 3

/-! ### Loads -/

/-- What a link's queued writes say of a line: the youngest byte of each, which bytes they carry, and which of those
come from a poisoned write (03 R90). -/
def forwarded (ws : List IwqEntry) : Line × Mask × Mask :=
  ws.foldl (fun (a : Line × Mask × Mask) e =>
    (mergeLine a.1 e.data e.mask, a.2.1 ||| e.mask,
      if e.poison then a.2.2 ||| e.mask else a.2.2 &&& ~~~ e.mask)) (0, 0, 0)

/-- The youngest write of a link to a line that is queued or held, by its arrival number. -/
def State.youngest (s : State) (n line : Nat) : Option Nat :=
  let as := ((s.link n).iwq.filter (fun e => decide (e.line = line))).map (·.arr) ++
    ((s.link n).unowned.filter (fun u => decide (u.line = line))).map (·.arr)
  as.foldl (fun m a => match m with
    | none => some a
    | some b => some (max a b)) none

/-- A load that decoded (01 R28, R29, R31): it is forwarded where the link's queued writes cover the line, waits for the
youngest of them where they do not or the window is coherent, and else goes on to the ladle. -/
def State.load (s : State) (l : Load) : State :=
  let id := s.nextLoad
  let s1 := ({ s with nextLoad := id + 1 }).tally (s.loadEv 0x001 l) 1
  let ws := (s.link l.link).iwq.filter (fun e => decide (e.line = l.line))
  let f := forwarded ws
  if l.wtype ≠ .coherent ∧ f.2.1 = fullMask then
    (s1.tally (s.loadEv 0x004 l) 1).answerLoad id l f.1 (decide (f.2.2 ≠ 0)) false
  else match s.youngest l.link l.line with
    | some a => { s1 with loads := s1.loads.put id { l with stage := .ingress a } }
    | none => s1.goOn id l

/-- Answers an out-of-range read: 64 B of zeros with poison (02 R51); the MetaValue it carries is a free value. -/
def State.missRead (s : State) (n tag : Nat) (hpa : BitVec 64) (window reason : Nat) : State :=
  let t := s.outOfRange n hpa window reason
  let d := t.draw
  let t := d.2.tally (t.linkEv 0x001 n none none) 1
  (t.tally (t.linkEv 0x008 n none none) 1).emit (.data n tag 0 true ((Config.freeWord d.1).toNat % 4))

/-! ### Writes -/

/-- The waiting unowned writes of the busiest link pass 192: UNOWNED_HI and its interrupt (10 R305). -/
def State.judgeUnowned (s : State) : State :=
  let hi := s.ports.links.any (fun e => decide (192 < e.2.unowned.length))
  let t := s.updSpr (fun x => { x with unownedHi := hi })
  if hi && !s.spr.unownedHi then t.raise .spr 1 else t

/-- Whether a link has an unanswered snoop for a line (10 R303). -/
def State.snooped (s : State) (n line : Nat) : Bool :=
  s.spr.snoops.any (fun x => decide (x.line = line) && decide (x.link = n) && x.tag.isSome && x.answer.isNone)

/-- Whether a coherent write of a link is owned (10 R303, R553). -/
def State.owned (s : State) (n line keyId : Nat) : Bool :=
  s.snooped n line || (match s.dirOf line with
    | none => true
    | some e => !e.bcast && decide (e.ptrs = [s.group n]) && decide (e.keyId = keyId))

/-- A write that decoded (03 R87, 10 R303): it commits at once, or waits uncommitted in its ingress slot until the line's
holders are invalidated, or until an earlier write of its link to the line has committed. -/
def State.store (s : State) (n tag line keyslot keyId : Nat) (wt : WinType) (data : Line) (mask : Mask) (poison : Bool)
    (m : Nat) : State :=
  let a := s.ports.arrivals
  let holds := match s.dirOf line with
    | some e => e.bcast || e.ptrs.contains (s.group n)
    | none => false
  let u : UWrite := { arr := a, line := line, data := data, mask := mask, keyslot := keyslot, keyId := keyId,
                      poison := poison, metaVal := m, tag := tag, heldAt := holds }
  let t := { s with ports := { s.ports with arrivals := a + 1 } }
  let t := t.setLink n (fun l => { l with credits := l.credits - 1 })
  if wt ≠ .coherent then t.commitWrite n { u with metaVal := 3 } wt
  else if t.owned n line keyId && !(t.link n).unowned.any (fun v => decide (v.line = line)) then
    t.commitWrite n u .coherent
  else
    let t := t.setLink n (fun l => { l with unowned := l.unowned ++ [u] })
    (t.submit ⟨.write, n, tag, line, keyId, a⟩).judgeUnowned

/-! ### Requests -/

/-- Serves a memory request. -/
def State.serve (s : State) (r : MemReq) : State :=
  match r with
  | .read n tag hpa m other =>
    match s.hostDecode n hpa with
    | .miss k why => s.missRead n tag hpa k why
    | .hit k line slot keyId wt =>
      let s := s.latchSelector n hpa
      if other then
        let t := s.missRead n tag hpa k 6
        if wt = .coherent then t.raise .spr 5 else t
      else s.load { link := n, tag := tag, line := line, keyslot := slot, keyId := keyId, wtype := wt, metaVal := m,
                    stage := .directory, started := s.now, fill := none, respE := 3 }
  | .write n tag hpa data mask poison m =>
    match s.hostDecode n hpa with
    | .miss k why => (s.outOfRange n hpa k why).emit (.cmp n tag 0)
    | .hit _ line slot keyId wt => (s.latchSelector n hpa).store n tag line slot keyId wt data mask poison m
  | .own n tag hpa m =>
    match s.hostDecode n hpa with
    | .miss k why => s.missRead n tag hpa k why
    | .hit _ line _ keyId wt =>
      let s := s.latchSelector n hpa
      if wt ≠ .coherent then s.emit (.cmp n tag 0)
      else
        let kind := match m with
          | 1 => RKind.invS
          | 2 => RKind.invA
          | _ => RKind.invI
        (s.submit ⟨kind, n, tag, line, keyId, 0⟩).spice
  | .evict n tag hpa =>
    match s.hostDecode n hpa with
    | .miss k why => s.missRead n tag hpa k why
    | .hit _ line _ _ wt =>
      let s := s.latchSelector n hpa
      let t := s.emit (.cmp n tag 0)
      if wt ≠ .coherent then t else t.removeHolder line (t.group n)

/-- Whether a port holds its requests in its receive buffers for a commit (16 R473). -/
def State.quiesced (s : State) (n : Nat) : Bool := s.cmt.ports.contains (n / 4)

/-- A request arrives: on a link that is up (R71, R76) and whose CXL stream is not Insecure (R62), a write with a credit (03 R91); during a quiesce of its port it
waits in the receive buffer (16 R473). -/
def State.arrive (s : State) (r : MemReq) : State :=
  let n := reqLink r
  if !(s.link n).up || (s.link n).insecure.contains 0 then s
  else if s.quiesced n then { s with cmt := { s.cmt with requests := s.cmt.requests ++ [r] } }
  else match r with
    | .write _ _ _ _ _ _ _ => if (s.link n).credits = 0 then s else s.serve r
    | _ => s.serve r

/-- MEM_RD (01 R28 to R31, 10 R301): a CXL.mem MemRd arrives on a link and is served from the first source that holds the
line. `other` marks an M2S Req opcode that the spec does not list, which is out of range (10 R294, R301). -/
def execMemRd (n : Fin 32) (tag : BitVec 16) (hpa : BitVec 64) (m : MetaV) (other : Bool) (s : State) :
    Host.Outcome State Fault Refusal := .next (s.arrive (.read n.val tag.toNat hpa (metaNum m) other))

/-- MEM_RD_DATA (10 R301): a MemRdData arrives: handled as MemRd A or MemRd S by the directory state. -/
def execMemRdData (n : Fin 32) (tag : BitVec 16) (hpa : BitVec 64) (noOp : Bool) (s : State) :
    Host.Outcome State Fault Refusal := .next (s.arrive (.read n.val tag.toNat hpa (if noOp then 5 else 4) false))

/-- MEM_WR (03 R87): a full-line write arrives. -/
def execMemWr (n : Fin 32) (tag : BitVec 16) (hpa : BitVec 64) (data : Line) (poison : Bool) (m : MetaV) (s : State) :
    Host.Outcome State Fault Refusal :=
  .next (s.arrive (.write n.val tag.toNat hpa data fullMask poison (metaNum m)))

/-- MEM_WR_PTL (03 R87): a partial write arrives with its byte enables as its mask. -/
def execMemWrPtl (n : Fin 32) (tag : BitVec 16) (hpa : BitVec 64) (data : Line) (mask : Mask) (poison : Bool)
    (m : MetaV) (s : State) : Host.Outcome State Fault Refusal :=
  .next (s.arrive (.write n.val tag.toNat hpa data mask poison (metaNum m)))

/-- MEM_INV (10 R301): a MemInv changes the directory per its MetaValue and is answered with Cmp, Cmp-S or Cmp-E. -/
def execMemInv (n : Fin 32) (tag : BitVec 16) (hpa : BitVec 64) (m : MetaV) (s : State) :
    Host.Outcome State Fault Refusal := .next (s.arrive (.own n.val tag.toNat hpa (metaNum m)))

/-- MEM_INV_NT (10 R301): handled as MemInv. -/
def execMemInvNt (n : Fin 32) (tag : BitVec 16) (hpa : BitVec 64) (m : MetaV) (s : State) :
    Host.Outcome State Fault Refusal := .next (s.arrive (.own n.val tag.toNat hpa (metaNum m)))

/-- MEM_CLN_EVCT (10 R301): the requester is removed as a holder and receives Cmp. -/
def execMemClnEvct (n : Fin 32) (tag : BitVec 16) (hpa : BitVec 64) (s : State) : Host.Outcome State Fault Refusal :=
  .next (s.arrive (.evict n.val tag.toNat hpa))

/-- MEM_SPEC_RD (10 R301): taken with no state change and no response. -/
def execMemSpecRd (_n : Fin 32) (_hpa : BitVec 64) (s : State) : Host.Outcome State Fault Refusal :=
  .next s

/-! ### What each link reports of itself (02 R42, R43, R60) -/

/-- What a link's CDAT reports: the read latency in ns, and the read and the write bandwidth in MB/s (02 R42). -/
structure Cdat where
  readNs : Nat
  readMBps : Nat
  writeMBps : Nat
deriving DecidableEq, Repr

/-- The CDAT of every link of a grade (02 R42): the class A bound, and one sixth of the media-bound read ceiling and of the sustained
host write rate of R5, in whole MB/s (log entry 104). -/
def cdatOf : Grade → Cdat
  | .g30 => ⟨3200, 140000 / 6, 40000 / 6⟩
  | .g24 => ⟨3300, 96000 / 6, 32000 / 6⟩

/-- The CDAT that a link reports over DOE (02 R41, R42); a link that is absent reports none. -/
def State.cdat (s : State) (n : Nat) : Option Cdat := if s.present n then some (cdatOf s.fuses.grade) else none

/-- The GPF part of a link's CXL DVSEC (02 R60): the duration of Phase 2 in µs, and its power in mW, the grade's maximum. -/
def gpfDvsec : Grade → Nat × Nat
  | .g30 => (10, 165000)
  | .g24 => (10, 140000)

/-- A base address register of a link (02 R43). -/
structure Bar where
  index : Nat
  bytes : Nat
  wide : Bool
  prefetchable : Bool
deriving DecidableEq, Repr

/-- The base address registers of every link (02 R43): the control window, and the CXL component and device registers with the primary
mailbox. What the second holds is reached by commands: HDM_DECODER_COMMIT and the mailbox's. -/
def linkBars : List Bar := [⟨0, 64 * 2 ^ 20, true, false⟩, ⟨2, 128 * 2 ^ 10, true, false⟩]

/-! ### Snoop answers -/

/-- An answer to a snoop arrives on a link that is up (10 R302). -/
def State.snoopAnswer (s : State) (n tag ans : Nat) : State :=
  if !(s.link n).up || (s.link n).insecure.contains 0 then s
  else
    let y := s.spr.snoops.find? (fun x => decide (x.tag = some tag) && decide (x.link / 4 = n / 4) && x.answer.isNone)
    let t := match y with
      | some x => s.sample 3 ⟨0, none, some (1, n), some x.line, none⟩ (s.now - x.sentAt)
      | none => s
    (t.takeAnswer n tag ans).spice

/-- BI_RSP_I (10 R302): a BIRspI arrives. -/
def execBiRspI (n : Fin 32) (tag : BitVec 12) (s : State) : Host.Outcome State Fault Refusal :=
  .next (s.snoopAnswer n.val tag.toNat 0)

/-- BI_RSP_S (10 R302): a BIRspS arrives. -/
def execBiRspS (n : Fin 32) (tag : BitVec 12) (s : State) : Host.Outcome State Fault Refusal :=
  .next (s.snoopAnswer n.val tag.toNat 1)

/-- BI_RSP_E (10 R302): a BIRspE arrives. -/
def execBiRspE (n : Fin 32) (tag : BitVec 12) (s : State) : Host.Outcome State Fault Refusal :=
  .next (s.snoopAnswer n.val tag.toNat 2)

/-- BI_CONFLICT (10 R316): the host has a request outstanding for a line it is snooped for. The device answers with
BIConflictAck at once: where it has sent the request's response, that went before on the same link; where the request
waits, it is served after the tracker closes. -/
def execBiConflict (n : Fin 32) (tag : BitVec 12) (s : State) : Host.Outcome State Fault Refusal :=
  if (s.link n.val).up && !(s.link n.val).insecure.contains 0 then
    let line := (s.spr.snoops.find? (fun x => decide (x.tag = some tag.toNat) && decide (x.link / 4 = n.val / 4))).map
      (·.line)
    .next ((s.tally (s.linkEv 0x041 n.val line none) 1).emit (.cmp n.val tag.toNat 3))
  else .next s

end Sys2Proof.Machine
end

