-- ==== Sys2Proof/Machine/Links.lean ====
section
/-!
DEFINITION. Links (02_host_ports.md R41, R47, R48, R55, R60, R62, R71 to R76, R80), what a link-down does to the spice
rack, the hooks and the whisk channels (10 R317 to R320, 11 R350, 14 R406), the directory flush, and lid down (12 R366 to
R368).
-/

namespace Sys2Proof.Machine

/-! ### Status -/

/-- PORT_LINK_STATUS of a link (R80); a link whose sub-link is absent reads as down (R44). While a link is down FLIT256 and DEGRADED
keep what they last were (DESIGN CHOICE, log entry 101). -/
def State.linkStatus (s : State) (n : Nat) : W32 :=
  let l := s.link n
  if !s.present n then 0
  else
    at32 (if l.up then l.width else 0) 0 ||| at32 (if l.up then l.rate else 0) 4 ||| bit32 l.up 8 |||
      bit32 l.flit256 9 ||| bit32 l.memActive 10 ||| bit32 l.ideIo 11 ||| bit32 l.ideMem 12 ||| bit32 l.degraded 13 |||
      bit32 l.disabled 14 ||| bit32 (s.partner n).isSome 15 ||| at32 (sat 8 l.downCount) 16 |||
      at32 ((s.flt.epochs.getD (s.group n) 0).toNat % 256) 24

/-! ### Reads of a link that went down -/

/-- A load that shares another's media read: its fill entry, or its masked line. -/
def Load.sharesWith (l x : Load) : Bool :=
  (decide (l.fill ≠ none) && decide (l.fill = x.fill) && decide (l.link / 4 = x.link / 4)) ||
    (decide (l.stage = .masked) && decide (x.stage = .masked) && decide (l.line = x.line))

/-- Drops a load: another load that shares its read takes its place; else its fill entry closes (R71 step 3). -/
def State.dropLoad (s : State) (id : Nat) : State :=
  match s.loads.find id with
  | none => s
  | some l =>
    match s.loads.find? (fun e => decide (e.1 ≠ id) && decide (e.2.link ≠ l.link) && l.sharesWith e.2) with
    | some (j, x) => { s with loads := (s.loads.del j).put id x }
    | none =>
      let t := { s with loads := s.loads.del id }
      match l.fill with
      | some i => if t.loads.any (fun e => decide (e.2.fill = some i) && decide (e.2.link / 4 = l.link / 4)) then t
          else t.closeFill (l.link / 4) i none
      | none => t

/-- Drops every load of a link, and its waiting media reads (R71 step 3, 08 R252). -/
def State.dropLoads (s : State) (n : Nat) : State :=
  let t := (s.loads.filter (fun e => decide (e.2.link = n))).foldl (fun (t : State) e => t.dropLoad e.1) s
  t.dropRequests (fun q => decide (q.requester = .link n) && decide (q.op = .read) && (match q.purpose with
    | .load id => (t.loads.find id).isNone
    | _ => false))

/-! ### Whisk channels of a link that went down (11 R342, R343, R350) -/

/-- Whether a context has work and can stop. -/
def Ctx.active (c : Ctx) : Bool := decide (c.state = 2) || decide (c.state = 3)

/-- Stops a context at the start of its chunk, with a cause (11 R342 steps 1 to 3, R343): its queued media requests
leave the pass; writes of earlier chunks still complete. -/
def State.stopCtx (s : State) (i cause : Nat) : State :=
  if (s.ctx i).active then
    let t := s.dropRequests (fun q => decide (q.requester = .whisk (i / 4)) && (match q.purpose with
      | .whisk x _ => decide (x = i)
      | _ => false))
    t.updCtx i (fun c => { c with
      state := 6, stopCause := cause, pausing := false, granted := [], issued := false, need := [], got := [], bad := 0
      slots := [], masked := [], reads := [], pages := [] })
  else s

/-- Stops every context of a channel. -/
def State.stopChannel (s : State) (c cause : Nat) : State :=
  (List.range 4).foldl (fun t k => t.stopCtx (c * 4 + k) cause) s

/-- Stops the channels granted to a link: STOP_CAUSE LINK (11 R350). -/
def State.stopGranted (s : State) (n : Nat) : State :=
  (List.range 64).foldl (fun t c => if t.granted c n then t.stopChannel c 2 else t) s

/-! ### The spice rack at a link-down (10 R317 to R319) -/

/-- What a tracker opened by an owner's request does once the owner is gone. -/
def TAct.orphan (mine : Nat → Bool) (a : TAct) : TAct :=
  match a with
  | .serve r => if mine r.link then .abandon else a
  | .retry r => if mine r.link then .evict else a
  | .become n _ _ _ => if mine n then .abandon else a
  | .evict | .flush _ | .abandon => a

/-- Step 4 of R71 in the spice rack (10 R319): snoops to the holder are answered BIRspI, its requests and trackers end
without a response, its unowned writes are discarded, and it is removed from every entry. -/
def State.forgetHolder (s : State) (g : Nat) : State :=
  let mine := fun (n : Nat) => decide (n < 32) && decide (s.group n = g)
  let t := s.updSpr (fun x => { x with
    snoops := x.snoops.map (fun (y : Snp) => if y.holder = g ∧ y.answer.isNone then { y with answer := some 0 } else y)
    trackers := x.trackers.map (fun (k : Tracker) => { k with
      act := k.act.orphan mine, metas := k.metas.filter (fun m => !mine m.1) })
    queue := x.queue.filter (fun r => !mine r.link) })
  let t := (List.range 32).foldl (fun u n => if mine n then u.setLink n (fun l => { l with unowned := [] }) else u) t
  let t := t.spice
  (t.spr.dir.map (fun e => e.2.line)).foldl (fun u line => u.removeHolder line g) t

/-- A link-down whose failover partner stays up (10 R319): snoops outstanding to the link are sent again to the
partner. -/
def State.resendSnoops (s : State) (n : Nat) : State :=
  (s.updSpr (fun x => { x with snoops := x.snoops.map (fun (y : Snp) =>
    if y.link = n ∧ y.answer.isNone then { y with tag := none, link := y.holder } else y) })).sendSnoops

/-! ### Link-down and link-up (R71, R76) -/

/-- Whether a formed failover partner of a link is up (R72). -/
def State.partnerUp (s : State) (n : Nat) : Bool :=
  match s.partner n with
  | none => false
  | some m => (s.link m).up

/-- Step 4 of R71 (10 R319, 09 R288, 11 R350, 14 R406). -/
def State.ownerGone (s : State) (n : Nat) : State :=
  let g := s.group n
  (((s.bumpEpoch g).breakHooks g n true).stopGranted n).forgetHolder g

/-- A link goes down for a reason (R71, 18 R509), one that was retraining too: it stops taking requests, its committed writes are
accepted, its reads are discarded, its owner loses what it held unless a failover partner stays up, and the event is recorded. -/
def State.linkDown (s : State) (n reason : Nat) : State :=
  if !(s.link n).up && !(s.link n).retraining then s
  else
    let prior := s.linkStatus n
    let t := { s with
      cmt := { s.cmt with requests := s.cmt.requests.filter (fun r => decide (reqLink r ≠ n)) }
      prot := { s.prot with doe := s.prot.doe.del n, ideKeys := s.prot.ideKeys.del n } }
    let t := t.setLink n (fun l => { l with
      up := false, retraining := false, memActive := false, ideIo := false, ideMem := false, msix := false, insecure := []
      downCount := sat 8 (l.downCount + 1), downSince := s.now, unowned := [] })
    let t := ((t.drainIngress n).dropLoads n).abortFences n
    let t := if t.partnerUp n then (t.breakHooks 64 n false).resendSnoops n else t.ownerGone n
    let t := (t.setLink n (fun l => { l with credits := 256, owed := 0, stalled := false })).account
    (t.setMask (.link n) true).record 0x1001 n reason (t.flt.epochs.getD (t.group n) 0).toNat prior.toNat

/-- A link that is up leaves L0 to retrain: steps 1 to 3 of R71, with no epoch (R73). -/
def State.retrain (s : State) (n : Nat) : State :=
  if !(s.link n).up then s
  else
    let t := s.setLink n (fun l => { l with up := false, retraining := true, memActive := false, unowned := [], downSince := s.now })
    (((t.drainIngress n).dropLoads n).abortFences n).setLink n (fun l => { l with credits := 256, owed := 0, stalled := false })

/-- Takes a link down and holds it in Detect.Quiet (R76). -/
def State.holdLink (s : State) (n reason : Nat) : State :=
  (s.linkDown n reason).setLink n (fun l => { l with held := true })

/-- Whether the device lets a link train now (R76): firmware has reached link training, and the link is neither disabled
nor held by its port's PERST#, lid down or Flush; in Simmer the Simmer link alone. -/
def State.mayTrain (s : State) (n : Nat) : Bool :=
  s.present n && !(s.link n).disabled && !s.ports.perst.contains (n / 4) && !s.prot.lid &&
    (match s.pwrState with
      | .starting => s.recovery || decide ((if s.boot.warm then 5 else 7) ≤ s.boot.step)
      | .boil => true
      | .simmer => decide (n = s.ports.simmerLink)
      | _ => false)

/-- Lets every link that may train do so. -/
def State.releaseLinks (s : State) : State :=
  (List.range 32).foldl (fun t n => t.setLink n (fun l => { l with held := !t.mayTrain n })) s

/-- LINK_DOWN (R71): a link loses L0 with failed recovery, or goes down by surprise. -/
def execLinkDown (n : Fin 32) (surprise : Bool) (s : State) : Host.Outcome State Fault Refusal :=
  .next (s.linkDown n.val (if surprise then 1 else 0))

/-- Lanes of a sub-link in its port's bifurcation mode (R44). -/
def State.subLanes (s : State) (n : Nat) : Nat :=
  match s.liveFld (.port (n / 4)) 0x40 1 0 with
  | 1 => 8
  | 2 => 4
  | _ => 16

/-- The WIDTH code of a number of lanes (R80). -/
def widthCode (k : Nat) : Nat := Nat.log2 k + 1

/-- The lanes of a sub-link that its link trains on, as the first and their number, after one more of its lanes is retired (R73): the
half of them without it, and none of a single one. -/
def withoutLane (x : Nat × Nat) (k : Nat) : Nat × Nat :=
  if k < x.1 ∨ x.1 + x.2 ≤ k then x
  else if x.2 ≤ 1 then (x.1, 0)
  else if k < x.1 + x.2 / 2 then (x.1 + x.2 / 2, x.2 / 2)
  else (x.1, x.2 / 2)

/-- The lanes a link may train on: those of its sub-link, halved for every lane the ledger has retired (R73, 14 R397). -/
def State.goodLanes (s : State) (n : Nat) : Nat × Nat :=
  (s.flt.lanes.filter (fun u => decide (u % 32 = n))).foldl (fun x u => withoutLane x (u / 32)) (0, s.subLanes n)

/-- LINK_UP (R452, R470, 19 R520): a link that may train reaches L0 with a width, a rate and a flit mode; MEM_ACTIVE is
set where the device is ready; with MSI-X enabled, pending interrupt messages are sent again. The width is at most that of the
link's good lanes, and with none it stays down (R73). In Simmer the Simmer link comes up at 2.5 GT/s x1 with CXL.io only (R74). -/
def execLinkUp (n : Fin 32) (width rate : Fin 7) (flit256 msix : Bool) (s : State) :
    Host.Outcome State Fault Refusal :=
  let sim := decide (s.pwrState = .simmer)
  let w := if sim then 1 else width.val
  let r := if sim then 1 else rate.val
  let good := (s.goodLanes n.val).2
  if (s.link n.val).up || (s.link n.val).held || !s.mayTrain n.val || decide (w = 0) || decide (r = 0) || decide (good = 0) ||
      decide (widthCode good < w) then .next s
  else
    let mem := s.mayPresent && !sim
    let retired := decide (good < s.subLanes n.val)
    let t := s.setLink n.val (fun l => { l with
      up := true, retraining := false, width := w, rate := if flit256 then r else min 5 r, flit256 := flit256, memActive := mem, msix := msix
      degraded := retired && !sim && decide (w < widthCode (s.subLanes n.val)), fenceSerial := 0 })
    let t := { t with flt := { t.flt with laneRetry := t.flt.laneRetry.del n.val } }
    .next ((t.setMask (.link n.val) false).resendMsix n.val).sendSnoops.account

/-- The port that PORT_ROLE names for a role (R79): bit 0 the fabric owner, 1 the alternate, 2 the default Simmer link;
where the recipe names none, port 0, and port 1 for the alternate. -/
def State.rolePort (s : State) (bit : Nat) : Nat :=
  ((List.range 8).find? (fun p => bitOf (s.getLive (.port p) 0x44) bit)).getD (if bit = 1 then 1 else 0)

/-- Moves the fabric-owner role to a port (R55, R69, 19 R520). FO_ALTERNATE_ACTIVE is set on every port but the primary (DESIGN
CHOICE, log entry 102). -/
def State.moveOwner (s : State) (p how : Nat) : State :=
  let t := { s with ports := { s.ports with foPort := p, foMoved := decide (p ≠ s.rolePort 0) } }
  ((t.record 0x1003 p how 0 0).raise .glb 1).resendMsix (p * 4)

/-- FO_FAILOVER (R55): the primary fabric-owner link has been down for 500 ms while sub-link 0 of the alternate port is
up, and the alternate port takes the role. -/
def execFoFailover (s : State) : Host.Outcome State Fault Refusal :=
  let p := s.rolePort 0
  let a := s.rolePort 1
  if s.ports.foPort = p ∧ a ≠ p ∧ ¬ (s.link (p * 4)).up ∧ (s.link (a * 4)).up then
    .next ((s.reach ((s.link (p * 4)).downSince + 500 * Config.ms)).moveOwner a 0)
  else .next s

/-- PERST_ASSERT (R452): PERST# of a port asserts; its links go down and are held. -/
def execPerstAssert (p : Fin 8) (s : State) : Host.Outcome State Fault Refusal :=
  let t := { s with ports := { s.ports with perst := insertNew s.ports.perst p.val } }
  .next ((List.range 4).foldl (fun u k => u.holdLink (p.val * 4 + k) 2) t)

/-- PERST_DEASSERT (R452): PERST# of a port deasserts, and its links train. -/
def execPerstDeassert (p : Fin 8) (s : State) : Host.Outcome State Fault Refusal :=
  .next { s with ports := { s.ports with perst := s.ports.perst.filter (fun q => q != p.val) } }.releaseLinks

/-! ### GPF, viral, IDE (R41, R60, R62) -/

/-- GPF_PHASE_1 (R60): answered at once. -/
def execGpfPhase1 (n : Fin 32) (s : State) : Host.Outcome State Fault Refusal :=
  if (s.link n.val).up then .next (s.emit (.gpf n.val 1)) else .next s

/-- GPF_PHASE_2 (R60): every committed entry of every ingress queue is accepted, and the device answers; while Flush
runs, the answer waits for it. -/
def execGpfPhase2 (n : Fin 32) (s : State) : Host.Outcome State Fault Refusal :=
  if s.pwrState = .flush then
    .next { s with ports := { s.ports with gpfWaiting := insertNew s.ports.gpfWaiting n.val } }
  else if (s.link n.val).up then
    .next (((List.range 32).foldl (fun t k => t.drainIngress k) s).emit (.gpf n.val 2))
  else .next s

/-- VIRAL_RECEIVED (R41): a viral indication is recorded and otherwise ignored. -/
def execViralReceived (n : Fin 32) (s : State) : Host.Outcome State Fault Refusal :=
  .next (s.setLink n.val (fun l => { l with viral := true }))

/-- Whether a stream has a key set in use in both directions. -/
def ideSecure (ks : List Nat) (stream : Nat) : Bool :=
  [0, 1].all (fun d => [0, 1].any (fun k => ks.contains (stream * 8 + k * 4 + d * 2 + 1)))

/-- Sets the IDE keys of a link; IDE_MEM and IDE_IO follow: the CXL stream is secure, some PCIe stream is (R80). -/
def State.setIdeKeys (s : State) (n : Nat) (ks : List Nat) : State :=
  let t := { s with prot := { s.prot with ideKeys := s.prot.ideKeys.set [] n ks } }
  t.setLink n (fun l => { l with
    ideMem := ideSecure ks 0 && !l.insecure.contains 0
    ideIo := (List.range 5).any (fun i => ideSecure ks (i + 1) && !l.insecure.contains (i + 1)) })

/-- IDE_CHECK_FAIL (R62; which stream a packet of the model travels on: log entry 103): a received flit or TLP of a stream (0 the CXL stream, 1 the link stream, 2 to 5 selective) fails
its check; the stream is Insecure until it is re-keyed. -/
def execIdeCheckFail (n : Fin 32) (stream : Fin 6) (s : State) : Host.Outcome State Fault Refusal :=
  if (s.link n.val).up && !(s.link n.val).insecure.contains stream.val then
    let t := s.setLink n.val (fun l => { l with insecure := l.insecure ++ [stream.val] })
    let t := t.setIdeKeys n.val ((t.prot.ideKeys.getD n.val []).filter (fun k => decide (k / 8 ≠ stream.val)))
    .next (t.record 0x1004 n.val stream.val 0 0)
  else .next s

/-! ### HDM decoders (R47, R48) -/

/-- Whether a commit of a decoder succeeds. -/
def State.decoderOk (s : State) (n k : Nat) (base size ways gran : Nat) : Bool :=
  let w := s.decoderSize n k
  let keyed := bitOf (s.winReg (n / 4) k 8) 2
  decide (w ≠ 0) && decide (base % 2 ^ 28 = 0) && decide (size % 2 ^ 28 = 0) && [1, 2, 4, 8, 16].contains ways &&
    [256, 512, 1024, 2048, 4096, 8192, 16384].contains gran &&
    (if keyed then decide (size = 2 ^ 52) && decide (base % 2 ^ 52 = 0) && decide (ways = 1)
      else decide (size = w * 2 ^ 28 * ways))

/-- HDM_DECODER_COMMIT (R47): the host sets or clears Commit in decoder `k` of a link with the values it has programmed. -/
def execHdmDecoderCommit (n : Fin 32) (k : Fin 16) (set : Bool) (base size : BitVec 64) (ways gran : Nat) (s : State) :
    Host.Outcome State Fault Refusal :=
  if !(s.link n.val).up || (s.link n.val).insecure.contains 1 then .next s
  else
    let ok := s.decoderOk n.val k.val base.toNat size.toNat ways gran
    let d : Decoder := { base := base, size := size, ways := ways, gran := gran, committed := set && ok
                         errNotCommitted := set && !ok }
    .next (s.setLink n.val (fun l => { l with decoders := l.decoders.put k.val d, selectors := l.selectors.del k.val }))

/-! ### Snoop timeout and the directory flush (10 R299, R318, R320) -/

/-- Disables a link: it goes down, is held, and the channels granted to it are held in reset (R70, 11 R350, 14 R406). -/
def State.disableLink (s : State) (n : Nat) : State :=
  let t := (s.setLink n (fun l => { l with disabled := true })).holdLink n 3
  (List.range 64).foldl (fun u c => if u.granted c n then ((u.updChan c (fun x => { x with held := true })).setMask (.whisk c) true).revert (.whisk c)
    else u) t

/-- SNOOP_TIMEOUT (10 R318): the oldest snoop of a link without a complete answer has passed SPR_BI_TMO: the link is
disabled, and the timeout is reported, recorded and raised. -/
def execSnoopTimeout (n : Fin 32) (s : State) : Host.Outcome State Fault Refusal :=
  if s.unclocked then .next s else
  match s.spr.snoops.find? (fun x => decide (x.link = n.val) && x.tag.isSome && !s.answered x) with
  | none => .next s
  | some x =>
    if !(s.link n.val).up then .next s
    else
      let t := s.reach (x.sentAt + max 1 (s.liveFld .spr 0x4C 15 0) * Config.ms)
      let t := ((t.report 17 7 (t.group n.val)).record 0x4001 n.val (x.line * 64) 0 0).raise .spr 0
      .next (t.disableLink n.val)

/-- Starts a directory flush of a range of loaves; a size of 0 covers every line; for one link, only its holdings (10
R299, R320). -/
def State.startFlush (s : State) (base size : Nat) (link : Option Nat) : State :=
  let ls := (s.spr.dir.filter (fun e => decide (size = 0) || (decide (base ≤ e.2.line / 1024) &&
    decide (e.2.line / 1024 < base + size)))).map (fun e => (e.2.line, link))
  (s.updSpr (fun x => { x with flushing := true, flushTodo := x.flushTodo ++ ls })).spice

/-- DIRECTORY_FLUSH (10 R320): a write of SPR_FLUSH_CTRL.GO starts a flush of FLUSH_BASE and FLUSH_SIZE; ignored while a
flush runs. -/
def execDirectoryFlush (path : Path) (s : State) : Host.Outcome State Fault Refusal :=
  .next (s.portWrite path 0x250060 1 (fun s =>
    if s.mayWrite path .spr && !s.spr.flushing then
      (s.startFlush (s.liveFld .spr 0x58 28 0) (s.liveFld .spr 0x5C 29 0) none)
    else s))

/-- Whether a tracker belongs to a directory flush. -/
def TAct.isFlush : TAct → Bool
  | .flush _ => true
  | _ => false

/-- Whether the running directory flush has completed its last snoop. -/
def State.flushOver (s : State) : Bool :=
  s.spr.flushing && decide (s.spr.flushTodo = []) && s.spr.trackers.all (fun k => !k.act.isFlush)

/-- DIRECTORY_FLUSH_END (10 R320): the last snoop of a directory flush completes, and FLUSH_DONE is raised. -/
def execDirectoryFlushEnd (s : State) : Host.Outcome State Fault Refusal :=
  if s.unclocked then .next s else
  if s.flushOver then .next ((s.updSpr (fun x => { x with flushing := false })).raise .spr 2) else .next s

/-! ### Lid down (12 R366 to R368) -/

/-- Adds a key-vault job. -/
def State.vaultJob (s : State) (j : VaultJob) : State := { s with prot := { s.prot with jobs := s.prot.jobs ++ [j] } }

/-- Whether some copy of the vault is valid, so that a change can be written (12 R367 step 5). -/
def State.vaultUsable (s : State) : Bool := s.prot.vaultA || s.prot.vaultB

/-- Enters lid down with a cause (12 R367): the latch and the output pin, every link down and held, the record, and the
latch's vault copy. -/
def State.lidDown (s : State) (cause : Nat) : State :=
  if s.prot.lid then s
  else
    let t := { s with prot := { s.prot with lid := true, cause := cause } }
    let t := (t.raise .key 5).emit (.pin "ALARM" true)
    let t := (List.range 32).foldl (fun u n => u.holdLink n 5) t
    let t := (List.range 64).foldl (fun u c => u.stopChannel c 2) t
    let t := t.record 0x6002 cause 0 0 0
    if t.vaultUsable then t.vaultJob ⟨.latch cause, none, 0⟩ else t

/-- An INTEGRITY failure of a slice counts towards lid down unless the slice is among the last 64 counted; eight within
1,000 ms of the first enter it (12 R367). -/
def State.countFailure (s : State) (slice : Nat) : State :=
  if s.prot.lastSlices.contains slice then s
  else
    let ts := (s.prot.counted ++ [s.now]).drop (s.prot.counted.length + 1 - 8)
    let ls := (s.prot.lastSlices ++ [slice]).drop (s.prot.lastSlices.length + 1 - 64)
    let t := { s with prot := { s.prot with counted := ts, lastSlices := ls } }
    if ts.length = 8 ∧ s.now ≤ ts.headD 0 + 1000 * Config.ms then t.lidDown 1 else t

/-- FORCE_LID (12 R376): a write of 1 to KEY_CTRL.FORCE_LID enters lid down with cause 4. -/
def execForceLid (path : Path) (s : State) : Host.Outcome State Fault Refusal :=
  .next (s.portWrite path 0x26000C 1 (fun s =>
    if s.mayWrite path .key then (s.lidDown 4) else s))

end Sys2Proof.Machine
end

