-- ==== Sys2Proof/Machine/Mailbox.lean ====
section
/-!
DEFINITION. The mailbox (02_host_ports.md R63 to R65, R75, 16 R460): which path may run which command now, how a command
answers, commands that run in the background, and authorisation (12_protection.md R370).
-/

namespace Sys2Proof.Machine

/-! ### Who may run what (02 R53, R64, R65, R75, 16 R460) -/

/-- Whether a path's mailbox answers now: MCTP while the core is powered; a link that is up, in Simmer the Simmer link
alone. -/
def State.mailboxUp (s : State) (p : Path) : Bool :=
  let live := decide (s.pwrState = .starting) || decide (s.pwrState = .boil) || decide (s.pwrState = .simmer)
  match p with
  | .mctp => live
  | .link n => live && (s.link n.val).up && !(s.link n.val).insecure.contains 1 &&
      (decide (s.pwrState ≠ .simmer) || decide (n.val = s.ports.simmerLink))

/-- Who may issue a command, and whether Simmer and recovery mode serve it. -/
structure Access' where
  tenant : Bool
  simmer : Bool
  recovery : Bool
deriving DecidableEq, Repr

/-- A command of any path. -/
def anyone : Access' := ⟨true, false, false⟩
/-- A command of the fabric owner. -/
def ownerOnly : Access' := ⟨false, false, false⟩

/-- The return code a command is turned away with before it runs, where it is: Unsupported in recovery mode and to a tenant
(02 R64, 16 R460), Busy in Simmer (02 R75). -/
def State.turnedAway (s : State) (p : Path) (a : Access') : Option Nat :=
  if s.recovery && !a.recovery then some rcUnsupported
  else if decide (s.pwrState = .simmer) && !a.simmer then some rcBusy
  else if !a.tenant && !s.isFo p then some rcUnsupported
  else none

/-- Runs a mailbox command: where the path's mailbox answers and the command is not turned away, its body. -/
def State.command (s : State) (p : Path) (opcode : Nat) (a : Access') (body : State → State) : State :=
  if s.mailboxUp p then
    match s.turnedAway p a with
    | some rc => s.fail p opcode rc
    | none => body s
  else s

/-- BACKGROUND_COMMAND_STARTED (02 R63): a path's oldest command has run for 2 s and returns Background Command
Started. -/
def execBackgroundCommandStarted (p : Path) (s : State) : Host.Outcome State Fault Refusal :=
  match s.mbx.runs.find? (fun r => decide (r.path = p) && !r.bg) with
  | none => .next s
  | some r => .next ((s.reach (r.since + 2 * Config.sec)).toBackground r)

/-! ### Authorisation (12 R370) -/

/-- How an authorisation block is judged. -/
inductive Auth where
  | short
  | failed
  | passed
deriving DecidableEq, Repr

/-- The message an authorisation block covers: the opcode, the payload before the block, the device serial, the nonce,
padded (12 R370). -/
def authInput (opcode : Nat) (payload : List Byte) (serial : BitVec 64) (nonce : List Byte) : List Byte :=
  pad16 (leBytes 2 opcode ++ payload ++ leBytes 8 serial.toNat ++ nonce)

/-- Whether a block passes under a secret and the outstanding nonce. -/
def State.blockPasses (s : State) (secret : List Byte) (opcode : Nat) (payload blk : List Byte) : Bool :=
  match s.prot.nonce with
  | none => false
  | some n => decide (blk.take 16 = n) &&
      decide ((blk.drop 16).take 16 = (tagOf secret (authInput opcode payload s.fuses.serial n)).take 16)

/-- Judges an authorised command (12 R370): a short input is not one; with no secret set any block passes; during a
lockout none does; the nonce is consumed; a third failure starts a lockout of 10 s. -/
def State.authorise (s : State) (opcode : Nat) (payload blk : List Byte) : Auth × State :=
  if blk.length < 32 then (.short, s)
  else
    let t := { s with prot := { s.prot with nonce := none } }
    match s.prot.secret with
    | none => (.passed, t)
    | some k =>
      if s.prot.lockedUntil.isSome then (.failed, t)
      else if s.blockPasses k opcode payload blk then (.passed, { t with prot := { t.prot with authFails := 0 } })
      else if s.prot.authFails = 2 then
        (.failed, { t with prot := { t.prot with authFails := 0, lockedUntil := some (s.now + 10 * Config.sec) } })
      else (.failed, { t with prot := { t.prot with authFails := s.prot.authFails + 1 } })

/-- Runs the body of an authorised command whose output has an outcome byte: 2 where the block fails (12 R369, R370). -/
def State.authorised (s : State) (p : Path) (opcode : Nat) (payload blk : List Byte) (body : State → State) : State :=
  let r := s.authorise opcode payload blk
  match r.1 with
  | .short => r.2.fail p opcode rcInvalid
  | .failed => r.2.outcome p opcode 2
  | .passed => body r.2

/-- AUTH_LOCKOUT_END (12 R370): 10 s after the third failed block the lockout ends. -/
def execAuthLockoutEnd (s : State) : Host.Outcome State Fault Refusal :=
  match s.prot.lockedUntil with
  | none => .next s
  | some t =>
    let u := s.reach t
    .next { u with prot := { u.prot with lockedUntil := none } }

/-- NONCE_EXPIRY (12 R370): an unused nonce expires 60 s after it was given. -/
def execNonceExpiry (s : State) : Host.Outcome State Fault Refusal :=
  match s.prot.nonce with
  | none => .next s
  | some _ =>
    let u := s.reach (s.prot.nonceAt + 60 * Config.sec)
    .next { u with prot := { u.prot with nonce := none } }

/-- GET_AUTH_NONCE (12 R371): a new nonce, drawn from the device's entropy source; the one before is void. -/
def execGetAuthNonce (p : Path) (s : State) : Host.Outcome State Fault Refusal :=
  .next (s.command p 0xC013 ownerOnly (fun s =>
    let d := s.draw
    let e := d.2.draw
    let n := leBytes 8 (Config.freeWord d.1).toNat ++ leBytes 8 (Config.freeWord e.1).toNat
    ({ e.2 with prot := { e.2.prot with nonce := some n, nonceAt := s.now } }).reply p 0xC013 rcOk n))

/-- SET_HOOK_LEASE (09 R291): sets the lease of a range of hooks, from their next grant or renewal on. -/
def execSetHookLease (p : Path) (first count lease : Nat) (s : State) : Host.Outcome State Fault Refusal :=
  .next (s.command p 0xC050 ownerOnly (fun s =>
    if 4096 ≤ first ∨ count = 0 ∨ 4096 < first + count ∨ (lease ≠ 0 ∧ (lease < 10 ∨ 4194303 < lease)) then
      s.fail p 0xC050 rcInvalid
    else
      ((List.range count).foldl (fun t i => t.setHook (first + i) { t.hook (first + i) with set := lease }) s).reply p
        0xC050 rcOk []))

/-- UNSUPPORTED_COMMAND (02 R64, R65): an opcode that the device does not implement. -/
def execUnsupportedCommand (p : Path) (opcode : BitVec 16) (s : State) : Host.Outcome State Fault Refusal :=
  .next (s.command p opcode.toNat ⟨true, false, true⟩ (fun s => s.fail p opcode.toNat rcUnsupported))

/-! ### Link control (02 R69, R70) -/

/-- The output of Link Control: PORT_LINK_STATUS and the owner epoch. -/
def State.linkReply (s : State) (p : Path) (n : Nat) : State :=
  s.reply p 0xC004 rcOk (leBytes 4 (s.linkStatus n).toNat ++ leBytes 4 (s.flt.epochs.getD (s.group n) 0).toNat)

/-- LINK_STATUS (02 R70): Link Control action 0. -/
def execLinkStatus (p : Path) (n : Fin 32) (s : State) : Host.Outcome State Fault Refusal :=
  .next (s.command p 0xC004 ownerOnly (fun s => s.linkReply p n.val))

/-- LINK_DISABLE (02 R70): Link Control action 1 fences the link, takes it down and holds it; the fabric-owner link cannot
disable itself. -/
def execLinkDisable (p : Path) (n : Fin 32) (s : State) : Host.Outcome State Fault Refusal :=
  .next (s.command p 0xC004 ownerOnly (fun s =>
    if p = .link n then s.fail p 0xC004 rcInvalid else (s.disableLink n.val).linkReply p n.val))

/-- LINK_ENABLE (02 R70, 11 R350): Link Control action 2 releases a disabled link to train; its channels leave reset. -/
def execLinkEnable (p : Path) (n : Fin 32) (s : State) : Host.Outcome State Fault Refusal :=
  .next (s.command p 0xC004 ownerOnly (fun s =>
    let t := if (s.link n.val).disabled then
        let t := (s.setLink n.val (fun l => { l with disabled := false })).releaseLinks
        (List.range 64).foldl (fun u c => if u.granted c n.val then (u.updChan c (fun x => { x with held := false })).setMask (.whisk c) false
          else u) t
      else s
    t.linkReply p n.val))

/-- LINK_RETRAIN (02 R70, R73): Link Control action 3 retrains the link: steps 1 to 3 of R71, with no epoch. -/
def execLinkRetrain (p : Path) (n : Fin 32) (s : State) : Host.Outcome State Fault Refusal :=
  .next (s.command p 0xC004 ownerOnly (fun s =>
    (s.retrain n.val).linkReply p n.val))

/-- FABRIC_OWNER_TRANSFER (02 R69): moves the role to a port, under authorisation; a port whose sub-link 0 is down is
refused. The return code of a block that fails is a free value: the command has no output to carry outcome 2. -/
def execFabricOwnerTransfer (p : Path) (port : Byte) (blk : List Byte) (s : State) :
    Host.Outcome State Fault Refusal :=
  .next (s.command p 0xC003 ownerOnly (fun s =>
    let r := s.authorise 0xC003 [port, 0, 0, 0] blk
    match r.1 with
    | .short => r.2.fail p 0xC003 rcInvalid
    | .failed =>
      let d := r.2.draw
      d.2.fail p 0xC003 ((Config.freeWord d.1).toNat % 65536)
    | .passed =>
      if 8 ≤ port.toNat ∨ ¬ (r.2.link (port.toNat * 4)).up then r.2.fail p 0xC003 rcInvalid
      else (r.2.moveOwner port.toNat 1).reply p 0xC003 rcOk []))

end Sys2Proof.Machine
end

