-- ==== Sys2Proof/Machine/Bells.lean ====
section
/-!
DEFINITION. Doorbells of whisk contexts (11_whisk_engines.md R333, R334, R337, R344): a write of CTX_TAIL, RESUME or TLB_INV
acts once the writes its link had committed before it are accepted.
-/

namespace Sys2Proof.Machine

/-- Register `o` of a context (11 R352), from the context's CFG. -/
def State.wreg (s : State) (i o : Nat) : W32 := s.getLive (.wsk (i / 4)) (0x100 + i % 4 * 0x100 + o)

/-- Entries of a context's ring: 2^SIZE_LOG2, 4 to 16 (11 R354). -/
def State.ringSize (s : State) (i : Nat) : Nat := 2 ^ max 4 (min 16 (fld (s.wreg i 0x2C) 12 8))

/-- The CWA of a context's ring (11 R334). -/
def State.ringBase (s : State) (i : Nat) : Nat := (s.wreg i 0x28).toNat + fld (s.wreg i 0x2C) 3 0 * 2 ^ 32

/-- A TAIL write takes effect (11 R334): one past the ring's size is ignored and sets TAIL_ERR. -/
def State.takeTail (s : State) (i : Nat) (v : BitVec 32) : State :=
  let n := s.ringSize i
  s.updCtx i (fun c =>
    if n < (v - c.head).toNat then { c with tailErr := true }
    else { c with tail := v, tailErr := false, state := if c.state = 1 ∧ v ≠ c.head then 2 else c.state })

/-- RESUME takes effect (11 R344): in PAUSED, FAULTED or STOPPED, not while the channel is HALTED or the save area lost. -/
def State.takeResume (s : State) (i : Nat) : State :=
  if (s.chan (i / 4)).halted then s
  else s.updCtx i (fun c =>
    if (c.state = 4 ∨ c.state = 5 ∨ c.state = 6) ∧ c.saveErr = false then
      { c with
        state := if c.head = c.tail then 1 else 2
        kind := 0, ringErr := false, tableErr := false, stopCause := 0 }
    else c)

/-- TLB_INV takes effect (11 R333): the context's cached translations go; it reads 1 until the chunk in flight ends. -/
def State.takeTlbInv (s : State) (i : Nat) : State :=
  (s.updChan (i / 4) (fun c => { c with tlb := c.tlb.filter (fun e => e.1 != i % 4) })).updCtx i (fun c =>
    { c with tlbInv := c.issued || decide (c.writes ≠ []) })

/-- A doorbell acts. -/
def State.ring (s : State) (i : Nat) (b : Bell) : State :=
  match b.kind with
  | 0 => s.takeTail i b.value
  | 1 => s.takeResume i
  | _ => s.takeTlbInv i

/-- Whether a doorbell's writes are all accepted. -/
def State.bellReady (s : State) (b : Bell) : Bool :=
  (s.link b.link).iwq.all (fun e => !b.waits.contains e.arr)

/-- Lets a context's doorbells act, in order. -/
def State.ringBells : Nat → Nat → State → State
  | 0, _, s => s
  | n + 1, i, s => match (s.ctx i).bells with
    | [] => s
    | b :: bs =>
      if s.bellReady b then State.ringBells n i ((s.updCtx i (fun c => { c with bells := bs })).ring i b) else s

/-- Lets every doorbell act whose writes are accepted. -/
def State.settleBells (s : State) : State :=
  s.ctxs.foldl (fun t e => State.ringBells e.2.bells.length e.1 t) s

/-- A doorbell write arrives on a path (11 R337): it waits for the link's committed writes; over MCTP it does not wait. -/
def State.addBell (s : State) (path : Path) (i kind : Nat) (v : BitVec 32) : State :=
  let b : Bell := match path with
    | .mctp => ⟨kind, v, 0, []⟩
    | .link n => ⟨kind, v, n.val, (s.link n.val).iwq.map (fun (e : IwqEntry) => e.arr)⟩
  (s.updCtx i (fun c => { c with bells := c.bells ++ [b] })).settleBells

end Sys2Proof.Machine
end

