-- ==== Sys2Proof/Machine/Rebuild.lean ====
section
/-!
DEFINITION. The arithmetic of class C (05_media_layout.md R161, R162, R164, 07_upkeep.md R218): the members of a row, the bytes of
a codeword as they stand on media, and what a codeword is rebuilt to.
-/

namespace Sys2Proof.Machine

/-- The burners a stripe was opened over, ascending: its members (05 R160). -/
def State.spans (s : State) (S : Nat) : List Nat :=
  (List.range 32).filter (fun b => decide ((s.blk (pbOfAddr (s.memberAddr S b 1023 0))).width ≠ 0))

/-- Whether a row of a stripe is sealed (05 R162): a row that an unclean loss left open never is (05 R175). -/
def State.rowSealed (s : State) (S p : Nat) : Bool :=
  match s.med.openStripes.find? (fun o => decide (o.stripe = S)) with
  | some o => o.issued.contains p && (o.rows.find p).isNone
  | none => (decide (s.stripeState S = .closed) || decide (s.stripeState S = .verified) || decide (s.stripeState S = .victim)) &&
      !s.med.unsealed.contains (S, p)

/-- The burners of a row's P and Q members (05 R160). -/
def rowParity (S : Nat) (ms : List Nat) : Nat × Nat := (ms.getD (pPos S ms.length) 0, ms.getD (qPos S ms.length) 0)

/-- The burners of a row's data members, by data index (05 R160, R161). -/
def rowData (S : Nat) (ms : List Nat) : List Nat :=
  ms.filter (fun b => decide (b ≠ (rowParity S ms).1) && decide (b ≠ (rowParity S ms).2))

/-- The address, on another member, of the codeword at the same index, plane and row as a sector address (05 R164). -/
def State.memberCw (s : State) (S b a : Nat) : Nat := s.memberAddr S b (saPage a) (saPlane a) + a % 64 / 16 * 16

/-- The parity domain of the page of a sector address as it stands on media; empty, for zeros, where nothing has been programmed
(05 R151, R161). -/
def State.pageDomAt (s : State) (a : Nat) : List Byte :=
  let p := a / 64 * 64
  match s.med.parity.find (a / 64) with
  | some x => x.bytes
  | none => if s.programmed a then pageDom s.prot.keys p ((List.range 64).map (fun i => (s.sector (p + i)).getD padSector)) else []

/-- The 4,608 bytes of the codeword of a sector address. -/
def State.cwBytes (s : State) (a : Nat) : List Byte := ((s.pageDomAt a).drop (a % 64 / 16 * 4608)).take 4608

/-- P and Q combined with every surviving data member (05 R164). -/
def State.combined (s : State) (S a : Nat) (lost : List Nat) : List Byte × List Byte :=
  let ms := s.spans S
  let par := rowParity S ms
  let get := fun (b : Nat) => if lost.contains b then [] else s.cwBytes (s.memberCw S b a)
  ((rowData S ms).zipIdx.foldl (fun x e => xorLong x (get e.1)) (get par.1),
    (rowData S ms).zipIdx.foldl (fun x e => xorLong x (scale (gpow2 e.2) (get e.1))) (get par.2))

/-- The data members among the lost ones with their codewords (05 R164). -/
def State.lostData (s : State) (S a : Nat) (lost : List Nat) : List (Nat × List Byte) :=
  let ms := s.spans S
  let c := s.combined S a lost
  match (rowData S ms).zipIdx.filter (fun e => lost.contains e.1) with
  | [] => []
  | [x] => [(x.1, if lost.contains (rowParity S ms).1 then c.2.map (rebuildQ x.2) else c.1.map rebuildOne)]
  | x :: y :: _ =>
    let r := rebuildPage x.2 (some y.2) c.1 c.2
    [(x.1, r.1), (y.1, r.2)]

/-- The codeword of a lost member from those of the others (05 R164): a data member's from the parity, P's and Q's recomputed. -/
def State.rebuiltCw (s : State) (S a b : Nat) (lost : List Nat) : List Byte :=
  let ms := s.spans S
  let d := s.lostData S a lost
  let get := fun (x : Nat) => match d.find? (fun e => decide (e.1 = x)) with
    | some e => e.2
    | none => s.cwBytes (s.memberCw S x a)
  if b = (rowParity S ms).1 then (rowData S ms).foldl (fun x m => xorLong x (get m)) []
  else if b = (rowParity S ms).2 then
    (rowData S ms).zipIdx.foldl (fun x e => xorLong x (scale (gpow2 e.2) (get e.1))) []
  else get b

/-- The sectors of a codeword whose rebuilt bytes, with the reserved bytes zero (05 R164), are not those that were programmed:
their tags do not verify. -/
def State.stillBad (s : State) (a : Nat) (x : List Byte) : BitVec 16 :=
  let g := a / 16 * 16
  let y := zeroReserved x
  (List.range 16).foldl (fun m i => match s.sector (g + i) with
    | some z => if !z.corrupt && ((y.drop (288 * i)).take 288) = { z with tagOk := true }.bytes s.prot.keys (g + i) then m
        else m ||| BitVec.ofNat 16 (2 ^ i)
    | none => m) 0

/-- The sectors of a codeword whose stored tag does not verify. -/
def State.storedBad (s : State) (a : Nat) : BitVec 16 :=
  (List.range 16).foldl (fun m i => match s.sector (a / 16 * 16 + i) with
    | some x => if x.tagOk && !x.corrupt then m else m ||| BitVec.ofNat 16 (2 ^ i)
    | none => m) 0

/-- The members of a row whose codewords a rebuild reads first: every other data member, and P where the lost one is a data
member (05 R164). -/
def State.firstReads (s : State) (S b : Nat) : List Nat :=
  let ms := s.spans S
  let par := rowParity S ms
  let d := (rowData S ms).filter (fun m => m != b)
  if b = par.1 ∨ b = par.2 then d else par.1 :: d

/-- The parity member that a second loss takes in (05 R164). -/
def State.secondRead (s : State) (S b : Nat) : Nat :=
  let par := rowParity S (s.spans S)
  if b = par.2 then par.1 else par.2

end Sys2Proof.Machine
end

