-- ==== Sys2Proof/Machine/Deliver.lean ====
section
/-!
DEFINITION. What a codeword read brings (07_upkeep.md R218, 12_protection.md R363 to R365): the checks of its sectors, and its
delivery to loads, completion reads, whisks and relocations (01_architecture.md R30, 03_stockpot.md R98 to R101, 07 R210).
-/

namespace Sys2Proof.Machine

/-! ### How a codeword read ends (07 R218, 12 R363) -/

/-- The outcome of a codeword read: its class (0 A, 1 B, 2 C, 3 uncorrectable), the sectors whose tag fails for good, and
those that the rebuild corrected. -/
structure CwOut where
  cls : Nat
  bad : BitVec 16
  fixed : BitVec 16
deriving DecidableEq, Repr

/-- Counts a class B retry against its plane block (07 R218, R221). -/
def State.noteRetry (s : State) (a : Nat) : State :=
  let x := pbOfAddr a
  let t := s.updBlk x (fun b => { b with retryCnt := sat 16 (b.retryCnt + 1) })
  if t.liveFld .upk 0x68 23 16 < (t.blk x).retryCnt then t.queueForced 5 (t.stripeAt a) else t

/-- Counts a read's class, and a class C read against its plane block and its stripe (07 R218, R221, 18 R492). -/
def State.noteClass (s : State) (q : MReq) (o : CwOut) : State :=
  let x := pbOfAddr q.addr
  let S := s.stripeAt q.addr
  let line := match q.purpose with
    | .load id => (s.loads.find id).map (·.line)
    | .whisk _ l => some l
    | _ => none
  let ev := fun (k : Nat) => ({ s.requesterEv (0x005 + k) q.requester q.cls with line := line } : TEv)
  match o.cls with
  | 0 => s.tally (ev 0) 1
  | 1 => s.tally (ev 1) 1
  | 2 => ((s.updBlk x (fun b => { b with reconCnt := sat 16 (b.reconCnt + 1) })).tally (ev 2) 1).urgentRefresh S
  | _ => (((s.tally (ev 2) 1).report 7 0 (blockId q.addr)).raise .upk 6).urgentRefresh S

/-! ### Poison and integrity failures (12 R364, R365) -/

/-- Records a data loss (18 R509). -/
def State.dataLoss (s : State) (a slice : Nat) : State := s.record 0x3002 a slice 0 0

/-- Records all four lines of a slice as poisoned in the map, promoting its loaf where needed; not recorded where no
slice block is free (07 R210, 12 R364). -/
def State.poisonAll (s : State) (slice : Nat) : State :=
  match s.toSlices (slice / 256) with
  | some t => t.poisonSlice slice 0xF
  | none => s

/-- Whether the map still points a slice at an address. -/
def State.pointsAt (s : State) (slice a : Nat) : Bool := decide (s.addrOf slice = some a)

/-- An integrity failure of a sector (12 R364, R366): the alarm; a data sector counts towards lid down and its slice is
poisoned in the map unless a completion read keeps it; a metadata sector enters lid down at once. -/
def State.tagFailure (s : State) (a : Nat) (x : Sector) (slot requester : Nat) (record : Bool) : State :=
  if x.kind = 4 ∨ x.kind = 5 ∨ x.kind = 8 ∨ x.kind = 9 then
    (s.alarm 2 ⟨0x3FF, x.keyslot, requester, x.unit, a⟩).lidDown 2
  else
    let t := (s.alarm 1 ⟨slot, x.keyslot, requester, x.unit, a⟩).countFailure x.unit
    if record && (decide (x.kind = 1) || decide (x.kind = 2)) && t.pointsAt x.unit a then t.poisonAll x.unit else t

/-- The alarm of a sector that only the rebuild made verify (12 R363 step 1). -/
def State.miscorrect (s : State) (a : Nat) (x : Sector) (slot requester : Nat) : State :=
  s.alarm 6 ⟨slot, x.keyslot, requester, x.unit, a⟩

/-- What an access gets of a sector: its lines with their poison. -/
inductive SecAns where
  | lines (d : Four) (poison : BitVec 4)
  | poison
deriving DecidableEq, Repr

/-- A line of free data. -/
def State.freeFour (s : State) : Four × State :=
  let a := s.draw
  let b := a.2.draw
  let c := b.2.draw
  let d := c.2.draw
  (⟨Config.freeLine a.1, Config.freeLine b.1, Config.freeLine c.1, Config.freeLine d.1⟩, d.2)

/-- Decrypts a sector under the key its slot holds: data encrypted under another key is indeterminate (12 R362, R372). -/
def State.plain (s : State) (x : Sector) : Four × State :=
  if (s.slot x.keyslot).keyId = x.keyId then (x.data, s) else s.freeFour

/-- Checks a sector for an access under a key slot (12 R363). -/
def State.checkSector (s : State) (a slot requester : Nat) (o : CwOut) (x : Sector) (record : Bool) :
    SecAns × State :=
  let i := a % 16
  if o.cls = 3 then (.poison, s.dataLoss a x.unit)
  else if o.bad.getLsbD i then (.poison, s.tagFailure a x slot requester record)
  else
    let s := if o.fixed.getLsbD i then (s.miscorrect a x slot requester).urgentRefresh (s.stripeAt a) else s
    if x.keyslot ≠ slot then (.poison, s.alarm 4 ⟨slot, x.keyslot, requester, x.unit, a⟩)
    else if !s.loaded slot then (.poison, s.alarm 3 ⟨slot, x.keyslot, requester, x.unit, a⟩)
    else let p := s.plain x; (.lines p.1 x.poison, p.2)

/-! ### Delivery to loads, completions and whisks -/

/-- Delivers a sector to the loads that wait for a masked line: the frame is completed and each repeats its lookup; where
the frame has been freed, they take the whole path again (03 R98, 12 R365). -/
def State.deliverMasked (s : State) (l : Load) (r : SecAns) (tagFail : Bool) : State :=
  let waiting := s.loads.filter (fun e => decide (e.2.stage = .masked) && decide (e.2.line / 4 = l.line / 4))
  match s.resident (l.line / 4) with
  | none => waiting.foldl (fun u e => u.pathLoad e.1 e.2) s
  | some f =>
    let t := s.updFrame f (fun x =>
      if tagFail then { x with valid := 0xF, poison := 0xF, mask0 := 0, mask1 := 0, mask2 := 0, mask3 := 0,
                               masked := false, home := .copy }
      else match r with
        | .lines d p => { x with home := .copy }.mergeMedia d p
        | .poison => { x with home := .copy }.mergeMedia .zero 0xF)
    waiting.foldl (fun u e =>
      let q := u.potLookup e.2.line e.2.keyslot e.2.link
      match q.1 with
      | .data d => q.2.answerLoad e.1 e.2 d false true
      | _ => q.2.answerLoad e.1 e.2 0 true true) t

/-- Delivers a codeword to a host load (01 R30, 12 R363). -/
def State.deliverLoad (s : State) (id : Nat) (q : MReq) (o : CwOut) : State :=
  match s.loads.find id with
  | none => s
  | some l =>
    let x := (s.sector q.addr).getD padSector
    let masked := decide (l.stage = .masked)
    let r := s.checkSector q.addr l.keyslot l.link o x (!masked)
    if masked then r.2.deliverMasked l r.1 (o.bad.getLsbD (q.addr % 16))
    else match r.1 with
      | .lines d p => r.2.finishLoad id (d.get (l.line % 4)) (p.getLsbD (l.line % 4)) true
      | .poison => r.2.finishLoad id 0 true true

/-- Whether a frame waits for a completion read: of a targeted page, or of a fold's (03 R100, 04 R129). -/
def Frame.waits (f : Frame) : Bool := (decide (f.state = .completing) || decide (f.state = .chosen)) && !f.complete

/-- The frames that a group read completes: those that wait whose old sector lies in the codeword (03 R100). -/
def State.waitingFrames (s : State) (g : Nat) : List Nat :=
  (s.stk.frames.filter (fun e => e.2.waits && (match s.addrOf e.2.slice with
    | some a => decide (a / 16 = g)
    | none => false))).map (·.1)

/-- Completes a frame from its old sector (03 R100, R101, 12 R363, R365). -/
def State.completeFrom (s : State) (f : Nat) (o : CwOut) : State :=
  let x := s.frame f
  match s.addrOf x.slice with
  | none => s
  | some a =>
    let sec := (s.sector a).getD padSector
    let i := a % 16
    let put := fun (t : State) (y : Frame) => t.setFrame f { y with home := .copy }
    if o.cls = 3 then (put (s.dataLoss a sec.unit) (x.mergeMedia .zero 0xF))
    else if o.bad.getLsbD i then
      put (s.tagFailure a sec x.keyslot 33 false) { x with
        valid := 0xF, poison := 0xF, mask0 := 0, mask1 := 0, mask2 := 0, mask3 := 0, masked := false }
    else
      let t := if o.fixed.getLsbD i then (s.miscorrect a sec x.keyslot 33).urgentRefresh (s.stripeAt a) else s
      if sec.keyslot ≠ x.keyslot then
        put (t.alarm 4 ⟨x.keyslot, sec.keyslot, 33, x.slice, a⟩) (x.mergeMedia .zero 0xF)
      else if !t.loaded x.keyslot then
        put (t.alarm 3 ⟨x.keyslot, sec.keyslot, 33, x.slice, a⟩) (x.mergeMedia .zero 0xF)
      else
        let p := t.plain sec
        put p.2 (x.mergeMedia p.1 sec.poison)

/-- Reads again for the frames of targeted pages and folds whose copy has moved, or fills them with zeros where it is gone. -/
def State.recomplete (s : State) : State :=
  (s.stk.pages.filter (fun e => decide (e.2.stage = .completing) || e.2.fold)).foldl (fun t e =>
    e.2.frames.foldl (fun u f => if (u.frame f).waits then
        u.completeFrame f (streamRequester e.2.stream) (streamCls e.2.stream) else u) t) s

/-- Delivers a group read to every frame that waits for it, and issues the programs that became ready. -/
def State.deliverCompletion (s : State) (q : MReq) (o : CwOut) : State :=
  ((s.waitingFrames (q.addr / 16)).foldl (fun t f => t.completeFrom f o) s).recomplete.issueReady

/-- A line returns for a whisk chunk (11 R340, R346); the first fault a read ends in is kept: 3 integrity, 4 poison. -/
def State.whiskLine (s : State) (i line : Nat) (data : Option Line) (fault : Nat) : State :=
  s.updCtx i (fun c =>
    if c.need.contains line then
      { c with
        need := c.need.filter (fun x => x != line)
        got := match data with
          | some d => c.got.put line d
          | none => c.got
        bad := if c.bad = 0 ∧ data.isNone then fault else c.bad }
    else c)

/-- The key slot a context reads a line under: that of its channel's chunk. -/
def Ctx.readSlot (c : Ctx) (line : Nat) : Nat := c.slots.getD line 0

/-- Looks a line up for a chunk: the stockpot, else a Translate rail at priority 5 (11 R346, 04 R125); masked bytes found
there are merged when the media data return (03 R98). -/
def State.lookLine (s : State) (i line slot : Nat) : State :=
  let q := s.potLookup line slot (64 + i / 4)
  match q.1 with
  | .data d => q.2.whiskLine i line (some d) 0
  | .poison => q.2.whiskLine i line none 4
  | .masked _ => (q.2.updCtx i (fun c => { c with masked := line :: c.masked.filter (fun x => x != line) })).translate
      (line / 4 % 4) (.whisk i line) 5
  | .miss => (q.2.updCtx i (fun c => { c with masked := c.masked.filter (fun x => x != line) })).translate
      (line / 4 % 4) (.whisk i line) 5

/-- Media data or zeros return for a whisk line: where its lookup found masked bytes, the frame is completed and the lookup
repeated; where the frame has been freed, it is looked up again (03 R98, 11 R346). -/
def State.whiskMedia (s : State) (i line slot : Nat) (d : Four) (poison : BitVec 4) : State :=
  if (s.ctx i).masked.contains line then
    match s.resident (line / 4) with
    | none => s.lookLine i line slot
    | some f =>
      let q := (s.updFrame f (fun x => x.mergeMedia d poison)).potLookup line slot (64 + i / 4)
      match q.1 with
      | .data x => q.2.whiskLine i line (some x) 0
      | _ => q.2.whiskLine i line none 4
  else if poison.getLsbD (line % 4) then s.whiskLine i line none 4
  else s.whiskLine i line (some (d.get (line % 4))) 0

/-- Delivers a codeword to the lines of a whisk chunk that lie in it (11 R342, R346). -/
def State.deliverWhisk (s : State) (i : Nat) (q : MReq) (o : CwOut) : State :=
  ((s.ctx i).need.filter (fun l => match (s.ctx i).reads.find l with
    | some a => decide (a / 16 = q.addr / 16)
    | none => false)).foldl (fun t l =>
      match (t.ctx i).reads.find l with
      | none => t
      | some a =>
        let x := (t.sector a).getD padSector
        let r := t.checkSector a ((t.ctx i).readSlot l) (64 + i / 4) o x true
        match r.1 with
        | .lines d p => r.2.whiskMedia i l ((t.ctx i).readSlot l) d p
        | .poison => r.2.whiskLine i l none (if o.bad.getLsbD (a % 16) then 3 else 4)) s

/-! ### Relocation (07 R210) -/

/-- Takes a sector into a frame of the relocation's quota: it keeps its unit, key slot and poison, and the identity of its
key; where its slot is not LOADED, its ciphertext is copied unchanged (07 R210, 12 R362). A sector of a quad waits for its
loaf. -/
def State.moveFrame (s : State) (r : Region × Nat) (a : Nat) (x : Sector) (quad : Bool) : State :=
  match s.freeIn r.1 with
  | none => s
  | some f =>
    let s := if r.2 = 2 then { s with upk := { s.upk with rebuildBytes := s.upk.rebuildBytes + 256 } } else s
    s.setFrame f { Frame.free with
      slice := x.unit, keyslot := x.keyslot, valid := 0xF, poison := x.poison, home := .copy
      state := if quad then .chosen else .resident, quota := r.2, data := x.data, link := 32, since := s.now
      src := some a, key := some x.keyId
      tweak := if s.loaded x.keyslot ∧ (s.slot x.keyslot).keyId = x.keyId then none
        else some (x.tweak.getD (a, x.seq)) }

/-- Relocates one sector that its read gave back: a quad's sector with its loaf, a slice alone, another is skipped (07
R210). -/
def State.moveSector (s : State) (r : Region × Nat) (a : Nat) (x : Sector) : State :=
  let e := s.loaf (x.unit / 256)
  if x.kind = 2 ∧ e.fmt = 1 ∧ e.loc = a / 256 then s.moveFrame r a x true
  else if (x.kind = 1 ∨ x.kind = 2) ∧ e.fmt = 2 ∧ s.pointsAt x.unit a then s.moveFrame r a x false
  else s

/-- Relocation frames of a quad that wait for their loaf, in slice order. -/
def State.quadFrames (s : State) (quad : Nat) : List Nat :=
  (List.range 256).filterMap (fun k => (s.stk.frames.find? (fun e => decide (e.2.src = some (quad * 256 + k)) &&
    decide (e.2.state = .chosen) && decide (e.2.quota ≠ 0) && decide (e.2.link = 32))).map (·.1))

/-- Forms the four aligned pages of every loaf whose 256 sectors have been read; where the loaf no longer stands on that
quad, its sectors go on as slices (07 R210). -/
def State.gatherQuads (s : State) : State :=
  let inPage := fun (t : State) (f : Nat) => t.stk.pages.any (fun e => e.2.frames.contains f)
  let quads := ((s.stk.frames.filter (fun e => decide (e.2.quota ≠ 0) && decide (e.2.state = .chosen) &&
    !inPage s e.1)).filterMap (fun e => e.2.src.map (· / 256))).eraseDups
  quads.foldl (fun t q =>
    let fs := (t.quadFrames q).filter (fun f => !inPage t f)
    match fs with
    | [] => t
    | f :: _ =>
      let l := (t.frame f).slice / 256
      let stream := if (t.frame f).quota = 2 then Stream.rebuild else Stream.upkeep
      if (t.loaf l).fmt = 1 ∧ (t.loaf l).loc = q then
        if fs.length = 256 then
          (chunksOf 64 4 fs).zipIdx.foldl (fun u e => u.addPage { Page.blank stream t.now with
            items := e.1.map .frame, stage := .target, aligned := some (l * 4 + e.2) }) t
        else t
      else fs.foldl (fun u g => u.backToResident g) t) s

/-- Delivers a codeword read for relocation out of stripe `S`: what cannot be rebuilt is poisoned and reported (07 R210); upkeep checks the
tag alone (12 R363). -/
def State.deliverMove (s : State) (S : Nat) (q : MReq) (o : CwOut) : State :=
  let g := q.addr / 16
  let r := if s.upk.victim = some S then s.moveRegion else (upkeepRegion, 1)
  let t := (List.range 16).foldl (fun t i =>
    let a := g * 16 + i
    match t.sector a with
    | none => t
    | some x =>
      let data := decide (x.kind = 1) || decide (x.kind = 2)
      if o.cls = 3 then
        if data && t.pointsAt x.unit a then (t.dataLoss a x.unit).poisonAll x.unit else t
      else if o.bad.getLsbD i then t.tagFailure a x 0x3FF 34 true
      else
        let t := if o.fixed.getLsbD i then t.miscorrect a x 0x3FF 34 else t
        t.moveSector r a x) s
  (State.scrape 16 t.gatherQuads).freeEmptied.judgeCapacity

end Sys2Proof.Machine
end

