-- ==== Sys2Proof/Machine/Taster.lean ====
section
/-!
DEFINITION. The taster's results and the seal scan (05_media_layout.md R170, R171, 07_upkeep.md R220, R221), the class B retry and
the class C rebuild of a codeword (07 R218), and MEDIA_RESULT.
-/

namespace Sys2Proof.Machine

/-! ### The taster (05 R170, 07 R220, R221) -/

/-- What a patrol read that decodes reports (07 R221). -/
def State.notePatrol (s : State) (q : MReq) (d : Decode) (o : CwOut) : State :=
  let c := match d with
    | .classA n => n / 2
    | _ => 0
  let x := pbOfAddr q.addr
  let warn := s.liveFld .upk 0x68 7 0
  let refresh := max warn (s.liveFld .upk 0x68 15 8)
  let k := bucketOf (s.ageTicks x (saPage q.addr))
  let die := saBurner q.addr * 10 + saCe q.addr
  let t := if o.cls ≤ 1 ∧ warn ≤ c then
      let u := s.updBlk x (fun b => { b with errPeak := max b.errPeak (sat 8 c), errBucket := k })
      { u with upk := { u.upk with warnCounts := u.upk.warnCounts.upd 0 (die * 16 + k) (· + 1) } }
    else s
  let first := decide (saPage q.addr = 0) && decide (q.addr % 64 = 0)
  let last := decide (saPage q.addr + 1 = min 1024 (s.blk x).cursor) && decide (q.addr % 64 = 48)
  let t := if first ∧ o.cls ≤ 1 then t.updBlk x (fun b => { b with errPeak := if warn ≤ c then sat 8 c else 0 }) else t
  let t := if last then t.updBlk x (fun b => { b with patrolT := t.opsec % 2 ^ 32, retryCnt := 0, reconCnt := 0 }) else t
  if (o.cls ≤ 1 ∧ refresh ≤ c) ∨ o.cls = 1 then t.queueForced 5 (t.stripeAt q.addr) else t

/-- The sectors of a codeword that a taster's read finds bad: an uncorrectable or untagged data sector is poisoned, its
loss recorded (07 R221, 12 R364). -/
def State.tasterSectors (s : State) (q : MReq) (o : CwOut) : State :=
  let g := q.addr / 16
  (List.range 16).foldl (fun t i =>
    let a := g * 16 + i
    match t.sector a with
    | none => t
    | some x =>
      let data := decide (x.kind = 1) || decide (x.kind = 2)
      if o.cls = 3 then
        if data && t.pointsAt x.unit a then (t.dataLoss a x.unit).poisonAll x.unit else t
      else if o.bad.getLsbD i then t.tagFailure a x 0x3FF 35 true
      else if o.fixed.getLsbD i then t.miscorrect a x 0x3FF 35
      else t) s

/-! ### The seal scan (05 R170, R171) -/

/-- Whether a seal-scan read of a plane block is under way. -/
def State.sealing (s : State) (x : Nat) : Bool := s.outstanding.any (fun r => decide (r.purpose = .seal x))

/-- Whether a page of a plane block waits for its repair. -/
def State.repairing (s : State) (x : Nat) : Bool := s.upk.repairs.any (fun e => decide (pbOfAddr e.1 = x))

/-- Releases the block-parity slots of the plane blocks that are verified, their repairs done, with every row that holds a page of
theirs sealed (05 R170, 03 R108). -/
def State.releaseSlots (s : State) : State :=
  s.dropSlots (s.stk.blockSlots.filter (fun x => decide ((s.blk x).state = .verified) && !s.repairing x &&
    (List.range (s.blk x).cursor).all (fun p => s.rowSealed (s.stripeAt (pbAddr x)) p)))

/-- What the block slot, or the newest mirror where the slot is lost, makes of a page: exclusive or with every other page of the
block that it covers (05 R168 to R170). None where it does not cover the page. -/
def State.innerRebuilt (s : State) (a : Nat) : Option (List Byte) :=
  let x := pbOfAddr a
  let lost := s.stk.blockLost.contains x
  let from_ := if s.stk.blockSlots.contains x ∧ ¬ lost then some ((s.blk x).cursor, s.stk.blockPar.getD x [])
    else match s.med.parity.find ((s.blk x).mirror / 64) with
      | some m => if m.pkind = 3 ∧ m.src = srcOf x ∧ saPage a ≤ m.row then some (m.row + 1, m.dom) else none
      | none => none
  from_.map (fun e => ((List.range e.1).filter (fun p => decide (p ≠ saPage a))).foldl (fun y p =>
    xorLong y (s.pageDomAt (pbAddr x + p * 256))) e.2)

/-- Frames free in the upkeep quota. -/
def State.upkeepFree (s : State) : Nat := upkeepRegion.size - s.used upkeepRegion

/-- Relocates the slices of a page that its block slot gave back (05 R170): a sector whose tag still fails is an integrity failure
(12 R364); a quad's other planes are read for relocation too, for a quad moves whole (07 R210). -/
def State.relocatePage (s : State) (a : Nat) (x : List Byte) : State :=
  let cw := fun (k : Nat) => (x.drop (4608 * k)).take 4608
  let t := (List.range 64).foldl (fun (t : State) i => match t.sector (a + i) with
    | none => t
    | some y =>
      if (s.stillBad (a + i) (cw (i / 16))).getLsbD (i % 16) then t.tagFailure (a + i) y 0x3FF 35 true
      else t.moveSector (upkeepRegion, 1) (a + i) y) s
  let quad := match s.sector a with
    | some y => decide (y.kind = 2) && decide ((s.loaf (y.unit / 256)).fmt = 1) && decide ((s.loaf (y.unit / 256)).loc = a / 256)
    | none => false
  if quad then
    ((List.range 4).filter (fun pl => decide (pl ≠ saPlane a))).foldl (fun t pl => (List.range 4).foldl (fun u k =>
      u.request .read (a / 256 * 256 + pl * 64 + k * 16) .taster .taster (.relocate (s.stripeAt a))) t) t
  else t.gatherQuads

/-- Repairs one page that failed its seal scan (05 R170): from its block slot where it may be, else by reads that rebuild it from its
row once the row is sealed, or that poison what an unsealed row cannot give. None while its row may still be sealed, or the upkeep
quota lacks room for its loaf. -/
def State.repairPage (s : State) (a : Nat) (slot : Bool) : Option State :=
  let S := s.stripeAt a
  if s.upkeepFree < 256 then none
  else match (if slot then s.innerRebuilt a else none) with
    | some x => some (s.relocatePage a x)
    | none =>
      if !s.rowSealed S (saPage a) && s.med.openStripes.any (fun o => decide (o.stripe = S)) then none
      else some ((List.range 4).foldl (fun u k => u.request .read (a + k * 16) .taster .taster (.relocate S)) s)

/-- Repairs the pages that wait for it, and releases the slots that are no longer needed. -/
def State.pumpRepairs (s : State) : State :=
  (s.upk.repairs.foldl (fun (t : State) e => match t.repairPage e.1 e.2 with
    | some u => { u with upk := { u.upk with repairs := u.upk.repairs.filter (fun x => x != e) } }
    | none => t) s).releaseSlots

/-- Ends the seal scan of a plane block whose last codeword has been read (05 R170): every failing page is reported and its repair
queued, a parity page's failure refreshes its stripe, and the block, once closed, is verified. -/
def State.settleSeals (s : State) (x : Nat) : State :=
  if s.upk.sealQueue.any (fun e => decide (e.1 = x)) || s.sealing x then s
  else
    let fails := s.upk.sealFails.getD x []
    let t := fails.foldl (fun (u : State) _ => u.report 7 0 (blockId (pbAddr x))) s
    let t := { t with upk := { t.upk with seals := t.upk.seals.del x, sealFails := t.upk.sealFails.del x } }
    let t : State := if fails.isEmpty then t
      else if (t.blk x).role ≠ 0 then t.queueForced 5 (t.stripeAt (pbAddr x))
      else
        let one := decide (fails.length = 1)
        { t with upk := { t.upk with repairs := t.upk.repairs ++ fails.map (fun p => (pbAddr x + p * 256, one)) } }
    let t := if (t.blk x).state = .closed then t.updBlk x (fun b => { b with state := .verified }) else t
    t.pumpRepairs

/-- A seal-scan codeword that neither class A nor class B decodes: its page fails the scan (05 R170). -/
def State.sealFailed (s : State) (x : Nat) (q : MReq) : State :=
  let fails := s.upk.sealFails.getD x []
  ({ s with upk := { s.upk with sealFails := s.upk.sealFails.put x (insertNat (saPage q.addr) fails) } }).settleSeals x

/-- The line ranges of a Scan Media run: a codeword that needed class C or is lost lists its slices (02 R64). -/
def State.deliverScan (s : State) (q : MReq) (o : CwOut) : State :=
  let g := q.addr / 16
  let t := s.tasterSectors q o
  if o.cls = 3 ∨ o.bad ≠ 0 then
    let ls := (List.range 16).filterMap (fun i => match s.sector (g * 16 + i) with
      | some x => if s.pointsAt x.unit (g * 16 + i) && (decide (o.cls = 3) || o.bad.getLsbD i) then some (x.unit, 4)
          else none
      | none => none)
    { t with mbx := { t.mbx with scan := t.mbx.scan ++ ls } }
  else t

/-! ### Classes B and C (07 R218) -/

/-- Delivers a codeword read to its requester. -/
def State.deliver (s : State) (q : MReq) (d : Decode) (o : CwOut) : State :=
  let t := s.noteClass q o
  match q.purpose with
  | .load id => t.deliverLoad id q o
  | .completion _ _ => t.deliverCompletion q o
  | .whisk i _ => t.deliverWhisk i q o
  | .relocate S => t.deliverMove S q o
  | .patrol _ => (t.notePatrol q d o).tasterSectors q o
  | .seal x => (t.tasterSectors q o).settleSeals x
  | .scanMedia _ => t.deliverScan q o
  | .calibrate .. => t
  | .ring => t
  | .area => t

/-- Ends a read that class C cannot serve: an undecoded codeword is uncorrectable; of one whose tags failed the failing sectors are
integrity failures (07 R218, 12 R363, R364). -/
def State.rebuildLost (s : State) (q : MReq) (tagged : Bool) (bad : BitVec 16) : State :=
  s.deliver q .fail (if tagged then ⟨if q.soft then 1 else 0, bad, 0⟩ else ⟨3, 0, 0⟩)

/-- Ends rebuild `j` with its codeword rebuilt from the row: a sector that only the rebuild made verify is a MISCORRECT (05 R164, 12
R363). -/
def State.rebuilt (s : State) (j : Nat) (r : Rebuild) : State :=
  let t := ({ s with med := { s.med with rebuilds := s.med.rebuilds.del j } }).dropInflight r.req.addr
  let still := t.stillBad r.req.addr (t.rebuiltCw r.stripe r.req.addr (saBurner r.req.addr) r.lost) ||| r.spoiled
  t.deliver r.req .fail ⟨2, still, if r.tagged then r.bad &&& ~~~ still else 0⟩

/-- Carries rebuild `j` on once the members it asked for have been read (07 R218): a second lost member takes in the second parity; with
three lost the codeword is uncorrectable. -/
def State.rebuildStep (s : State) (j : Nat) : State :=
  match s.med.rebuilds.find j with
  | none => s
  | some r =>
    if !r.waits.isEmpty then s
    else if r.lost.length ≤ 1 ∨ (r.lost.length = 2 ∧ r.asked = true) then s.rebuilt j r
    else if r.lost.length = 2 then
      let m := s.secondRead r.stripe (saBurner r.req.addr)
      ({ s with med := { s.med with rebuilds := s.med.rebuilds.put j { r with waits := [m], asked := true } } }).requestFor
        r.req (s.memberCw r.stripe m r.req.addr) false (some j)
    else (({ s with med := { s.med with rebuilds := s.med.rebuilds.del j } }).dropInflight r.req.addr).rebuildLost r.req
      r.tagged r.bad

/-- Starts the rebuild of a read's codeword from its row (07 R218, 12 R363 step 1), where the row is sealed (05 R162, R175): the reads of
the other members go out, each with the stamp of the read it serves. The read stays in flight against its block (01 R33). -/
def State.startRebuild (s : State) (q : MReq) (tagged : Bool) (bad : BitVec 16) : State :=
  let S := s.stripeAt q.addr
  let b := saBurner q.addr
  if !s.rowSealed S (saPage q.addr) then s.rebuildLost q tagged bad
  else
    let j := s.med.nextJob
    let ms := s.firstReads S b
    let t := { s with med := { s.med with
      nextJob := j + 1
      rebuilds := s.med.rebuilds.put j ⟨q, S, tagged, bad, ms, [b], false, 0⟩ } }
    (ms.foldl (fun u m => u.requestFor q (s.memberCw S m q.addr) false (some j)) (t.addInflight q.addr)).rebuildStep j

/-- A member's codeword for rebuild `j` has been read, or is lost. -/
def State.memberDone (s : State) (j b : Nat) (lost : Bool) (spoiled : BitVec 16) : State :=
  match s.med.rebuilds.find j with
  | none => s
  | some r =>
    let r' := { r with
      waits := r.waits.filter (fun x => x != b), lost := if lost then b :: r.lost else r.lost, spoiled := r.spoiled ||| spoiled }
    ({ s with med := { s.med with rebuilds := s.med.rebuilds.put j r' } }).rebuildStep j

/-- A class B retry of a read (07 R218): the codeword is sensed again at the levels shifted by UPK_RETRY. -/
def State.retryRead (s : State) (q : MReq) : State := (s.noteRetry q.addr).requestFor q q.addr true q.job

/-- A read whose classes A and B have failed: a member of a rebuild is lost, a seal scan notes the page, another is rebuilt. -/
def State.readLost (s : State) (q : MReq) : State :=
  match q.job, q.purpose with
  | some j, _ => s.memberDone j (saBurner q.addr) true 0
  | none, .seal x => s.sealFailed x q
  | none, _ => s.startRebuild q false 0

/-- A read of a plane that was found reset (06 R185): a programmed page has been lost; an unprogrammed position of a row counts as
zeros in a rebuild (05 R161), and the taster passes over it. -/
def State.readBlank (s : State) (q : MReq) : State :=
  if s.programmed q.addr then s.readLost q
  else match q.job, q.purpose with
    | some j, _ => s.memberDone j (saBurner q.addr) false 0
    | none, .seal x => s.settleSeals x
    | none, .patrol _ => s
    | none, .scanMedia _ => s
    | none, .relocate _ => s
    | none, .calibrate .. => s
    | none, _ => s.readLost q

/-- Whether a read is a calibration's, whose result says only how many bits its levels left to correct (07 R222). -/
def MReq.calibrates (q : MReq) : Bool := match q.purpose with
  | .calibrate .. => true
  | _ => false

/-- A codeword read's result (07 R218, 12 R363): one that decodes is delivered, unless a tag fails and the codeword is rebuilt; one that
does not is retried once as class B, and then rebuilt. Codewords of a lost unit are rebuilt at once (07 R227). A calibration's read is
over with its decode. -/
def State.readResult (s : State) (q : MReq) (d : Decode) (bad : BitVec 16) : State :=
  let s := s.dropInflight q.addr
  if q.calibrates then s else
  match d with
  | .classA _ => match q.job with
    | some j => s.memberDone j (saBurner q.addr) false bad
    | none =>
      let m := bad ||| s.storedBad q.addr
      if m = 0 then s.deliver q d ⟨if q.soft then 1 else 0, 0, 0⟩ else s.startRebuild q true m
  | .fail => if q.soft || s.readsLost q.addr then s.readLost q else s.retryRead q
  | .blank => s.readBlank q

/-- MEDIA_RESULT (01 R30, 07 R218, 12 R363): the codeword result at the head of a burner's Media result rail is taken; the retry and the
rebuild that it may need are asked for, its sectors are checked, and it is delivered to its requester. `bad` names the sectors whose tags
fail in what was read. A program's or reset's result there is PROGRAM_RESULT's. -/
def execMediaResult (b : Fin 32) (bad : BitVec 16) (s : State) : Host.Outcome State Fault Refusal :=
  if s.unclocked then .next s else
  match (s.rails.mediaRes.getD b.val .empty).take 256 with
  | none => .next s
  | some (x, rl) =>
    let rs := s.rails.mediaRes.set .empty b.val rl
    let t := { s with rails := { s.rails with mediaRes := rs } }
    match x with
    | .read q d => .next (t.readResult q d bad).pumpRepairs.freeEmptied
    | _ => .next s

end Sys2Proof.Machine
end

