-- ==== Sys2Proof/Machine/WordCode.lean ====
section
/-!
DEFINITION. The word code of on-chip SRAM and of the map stacks, the counts and buckets of corrected words, and the map-stack
words that the test mode planted (13_memory_integrity.md R378 to R384, R392).
-/

namespace Sys2Proof.Machine

/-! ### The word code (R378, R379) -/

/-- Shifts `n` zero coefficients into a remainder modulo g(x) = m1(x) m3(x), whose 15 coefficients are 0x4377. -/
def bchStep (r : BitVec 14) (b : Bool) : BitVec 14 :=
  let s := (r <<< 1) ||| (if b then 1 else 0)
  if r.getLsbD 13 then s ^^^ 0x0377 else s

/-- The 14 check bits of 64 data bits: x^14 d(x) mod g(x) (R378). -/
def bchCheck (d : BitVec 64) : BitVec 14 :=
  let r := (List.range 64).foldl (fun r i => bchStep r (d.getLsbD (63 - i))) 0
  (List.range 14).foldl (fun r _ => bchStep r false) r

/-- The 78 stored bits of 64 data bits. -/
def bchEncode (d : BitVec 64) : BitVec 78 := (d ++ bchCheck d : BitVec 78)

/-- Multiplies by α in the field of x^7 + x^3 + 1. -/
def alphaStep (a : BitVec 7) : BitVec 7 := if a.getLsbD 6 then (a <<< 1) ^^^ 9 else a <<< 1

/-- α to a power. -/
def alphaPow (n : Nat) : BitVec 7 := (List.range n).foldl (fun a _ => alphaStep a) 1

/-- α^i and α^(3i) of the 78 positions. -/
def bchTable : List (BitVec 7 × BitVec 7) := (List.range 78).map (fun i => (alphaPow i, alphaPow (3 * i)))

/-- The two syndromes of a stored word. -/
def bchSyndromes (x : BitVec 78) : BitVec 7 × BitVec 7 :=
  bchTable.zipIdx.foldl (fun s e => if x.getLsbD e.2 then (s.1 ^^^ e.1.1, s.2 ^^^ e.1.2) else s) (0, 0)

/-- What the decoder makes of a stored word (R379). -/
inductive BchRes where
  | clean
  | corrected (pos0 : Nat) (pos1 : Option Nat)
  | bad
deriving DecidableEq, Repr

/-- Decodes a stored word (R379): one or two positions that explain the syndromes, else uncorrectable. -/
def bchDecode (x : BitVec 78) : BchRes :=
  let s := bchSyndromes x
  if s.1 = 0 ∧ s.2 = 0 then .clean
  else match bchTable.zipIdx.find? (fun e => decide (e.1 = s)) with
    | some e => .corrected e.2 none
    | none =>
      let pairs := bchTable.zipIdx.filterMap (fun e =>
        (bchTable.zipIdx.find? (fun f => decide (e.2 < f.2) && decide (e.1.1 ^^^ f.1.1 = s.1) &&
          decide (e.1.2 ^^^ f.1.2 = s.2))).map (fun f => (e.2, f.2)))
      match pairs with
      | [] => .bad
      | p :: _ => .corrected p.1 (some p.2)

/-- A stored word with its one or two wrong bits corrected. -/
def flipBits (w : BitVec 78) (p : Nat) (q : Option Nat) : BitVec 78 :=
  let x := w ^^^ BitVec.ofNat 78 (2 ^ p)
  match q with
  | none => x
  | some q => x ^^^ BitVec.ofNat 78 (2 ^ q)

/-! ### Counts, buckets, reports (R382 to R384) -/

/-- Index of an instance of a domain. -/
def mecKey (domain inst : Nat) : Nat := domain * 8 + inst

/-- Instances of a domain (R381). -/
def domainInsts : Nat → Nat
  | 1 => 8
  | 8 => 2
  | _ => 1

/-- The counts of an instance. -/
def State.mecCount (s : State) (domain inst : Nat) : MecCount := s.mec.counts.getD (mecKey domain inst) .zero

/-- Changes the counts of an instance. -/
def State.updMec (s : State) (domain inst : Nat) (f : MecCount → MecCount) : State :=
  { s with mec := { s.mec with counts := s.mec.counts.upd .zero (mecKey domain inst) f } }

/-- Raises SAT at the first saturation (R384). -/
def State.noteSat (s : State) (full : Bool) : State :=
  if full && !s.mec.satSeen then ({ s with mec := { s.mec with satSeen := true } }).raise .mec 10 else s

/-- The unit that an SRAM line or a map-stack row is (14 R397). -/
def wordUnit (domain inst off : Nat) : Nat × Nat :=
  if domain = 8 then (4, rowId off) else (5, domain + inst * 2 ^ 4 + off / 64 % 2 ^ 23 * 2 ^ 7)

/-- A corrected word is counted and fills its bucket (R383, R384). -/
def State.countCorrected (s : State) (domain inst off pos0 pos1 : Nat) : State :=
  let depth := max 1 (s.liveFld .mec (0x80 + domain * 4) 7 0)
  let c := s.mecCount domain inst
  let spill := decide (depth ≤ c.level)
  let t := s.updMec domain inst (fun c => { c with
    ce := sat 31 (c.ce + 1)
    level := if spill then depth else c.level + 1
    overflows := if spill then sat 16 (c.overflows + 1) else c.overflows
    lastOff := off, pos0 := pos0, pos1 := pos1 })
  let t := t.tally (.plain 0x070) 1
  let t := if spill then t.raise .mec domain else t
  t.noteSat (decide (2 ^ 31 - 1 ≤ c.ce + 1))

/-- An uncorrectable word is counted, UE raised and the record made (R384, R385). -/
def State.countBad (s : State) (domain inst off action : Nat) : State :=
  let c := s.mecCount domain inst
  let t := (s.updMec domain inst (fun c => { c with ue := sat 31 (c.ue + 1) })).tally (.plain 0x071) 1
  ((t.raise .mec 9).noteSat (decide (2 ^ 31 - 1 ≤ c.ue + 1))).record 0x7001 domain inst off action

/-! ### Words planted in the map stacks (R392) -/

/-- The loaf entry that 8 B of the loaf table spell (04 R120). -/
def LoafE.ofWord (w : Nat) : LoafE := ⟨BitVec.ofNat 2 w, w / 4 % 2 ^ 30, w / 2 ^ 32 % 64, decide (w / 2 ^ 38 % 2 = 1)⟩

/-- The slice entry that 8 B of the slice table spell (04 R121). -/
def SliceE.ofWord (w : Nat) : SliceE := ⟨BitVec.ofNat 2 w, w / 4 % 2 ^ 38, BitVec.ofNat 4 (w / 2 ^ 40)⟩

/-- The key of a stored word that a raw write planted: its instance, whether it stands in the test row, its offset. In the map stacks
the offset's bit [12] names the stack (R381). -/
def plantKey (domain inst off : Nat) (row : Bool) : Nat :=
  (mecKey domain (if domain = 8 ∧ row = false then off / 4096 % 2 else inst) * 2 + (if row then 1 else 0)) * 2 ^ 40 + off

/-- What the map stacks hold after a raw write of a word of the loaf or slice table: the entry that the word decodes to; of a word
that does not decode the entry stands until its line is rebuilt. -/
def State.plantEntry (s : State) (off : Nat) (w : BitVec 78) : State :=
  let put := fun (x : BitVec 78) =>
    let d := (x.extractLsb' 14 64).toNat
    if off < 0x100000000 then s.setLoaf (off / 8) (LoafE.ofWord d)
    else if off < 0x300000000 then s.setSliceE ((off - 0x100000000) / 2048) (off / 8 % 256) (SliceE.ofWord d)
    else s
  match bchDecode w with
  | .clean => put w
  | .corrected p q => put (flipBits w p q)
  | .bad => s

/-- Whether the entry cache holds the line of a map-stack offset (04 R123). -/
def State.cached (s : State) (off : Nat) : Bool := (s.siv.cache.getD (off / 64 % cacheSets) []).contains (off / 64)

/-- The sieve reads the word at a map-stack offset, where the entry cache does not hold its line (R382, R385, R392): a planted word that decodes with a correction is counted and
reported; one that does not is counted, recorded and reported, and its line is locked for reconstruction. -/
def State.readPlanted (s : State) (off : Nat) : State :=
  let inst := off / 4096 % 2
  if s.cached off then s
  else match s.mec.words.find (plantKey 8 inst off false) with
  | none => s
  | some w => match bchDecode w with
    | .clean => s
    | .corrected p q => (s.countCorrected 8 inst off p (q.getD 0x7F)).report 12 4 (rowId off)
    | .bad =>
      let t := (s.countBad 8 inst off 3).report 13 4 (rowId off)
      { t with mec := { t.mec with locked := insertNew t.mec.locked (off / 64) } }

/-- What a lookup of a slice reads of the map stacks: its loaf entry, then its slice entry. -/
def State.readEntries (s : State) (slice : Nat) : State :=
  let e := s.loaf (slice / 256)
  let t := s.readPlanted (loafOff (slice / 256))
  if e.fmt = 2 then t.readPlanted (sliceOff e.loc (slice % 256)) else t

end Sys2Proof.Machine
end

