-- ==== Sys2Proof/Machine/Results.lean ====
section
/-!
DEFINITION. Lookups and acceptance (01_architecture.md R22 to R32, R35, 03_stockpot.md R95 to R97, R110, 04 R122, R125).
-/

namespace Sys2Proof.Machine

/-! ### Lookups (04 R122) -/

/-- A map entry with FMT 3: the row that holds it is reported (14 R398 source 14). -/
def State.reportEntry (s : State) (slice : Nat) : State :=
  let e := s.loaf (slice / 256)
  s.report 14 4 (rowId (if e.fmt = 2 then sliceOff e.loc (slice % 256) else loafOff (slice / 256)))

/-- Resolves a host load's lookup: zeros, poison, or a media read at the host-read deadline (01 R30, 04 R122). -/
def State.lookupLoad (s : State) (id : Nat) (l : Load) : State :=
  match s.lookup (l.line / 4) (l.line % 4) with
  | .zeros => s.finishLoad id 0 false false
  | .poison => s.finishLoad id 0 true false
  | .corrupt => (s.reportEntry (l.line / 4)).finishLoad id 0 true false
  | .sector a =>
    ({ s with loads := s.loads.put id { l with stage := .media } }).request .read a (.link l.link) .hostRead (.load id)

/-- Resolves a whisk line's lookup; lines of one codeword share a read (11 R346). -/
def State.lookupWhisk (s : State) (i line : Nat) : State :=
  if !(s.ctx i).need.contains line then s
  else match s.lookup (line / 4) (line % 4) with
    | .zeros => s.whiskMedia i line ((s.ctx i).readSlot line) .zero 0
    | .poison => s.whiskLine i line none 4
    | .corrupt => (s.reportEntry (line / 4)).whiskLine i line none 4
    | .sector a =>
      let s := s.updCtx i (fun c => { c with reads := c.reads.put line a })
      if s.outstanding.any (fun r => decide (r.addr / 16 = a / 16) && (match r.purpose with
          | .whisk j _ => decide (j = i)
          | _ => false)) then s
      else s.request .read a (.whisk (i / 4)) .whisk (.whisk i line)

/-- Whether a lookup waits for a locked map-stack line (13 R388). -/
def State.lookupLocked (s : State) : TReq → Bool
  | .load id => match s.loads.find id with
    | some l => s.lockedUnit (l.line / 4)
    | none => false
  | .home f => s.lockedUnit (s.frame f).slice
  | .whisk _ line => s.lockedUnit (line / 4)
  | .page x => s.lockedUnit x
  | .switch x => s.lockedUnit x
  | .upkeep x => s.lockedUnit x

/-- Reads the slice of a load that waits for a masked line (03 R98); one without a media copy is zero-completed. -/
def State.readMasked (s : State) (id : Nat) (l : Load) : State :=
  match s.addrOf (l.line / 4) with
  | none => s.deliverMasked l (.lines .zero 0) false
  | some a => s.request .read a (.link l.link) .hostRead (.load id)

/-- Resolves one lookup to zeros, poison or a sector address, through the entry cache (R123); a stockpot lookup resolves the HOME of its frame (03 R97). Those of page
targeting, map switches and upkeep were answered in the step that placed them (log entry 11). -/
def State.resolveLookup (s : State) : TReq → State
  | .load id => match s.loads.find id with
    | none => s
    | some l =>
      let t := s.cacheLookup (l.line / 4)
      if l.stage = .masked then t.readMasked id l else t.lookupLoad id l
  | .home f =>
    let x := s.frame f
    if x.state = .free ∨ x.home ≠ .unknown then s
    else
      let h := s.homeOf x.slice
      (s.cacheLookup x.slice).updFrame f (fun x => if h = .noCopy then ({ x with home := h }).zeroComplete else { x with home := h })
  | .whisk c line => (s.cacheLookup (line / 4)).lookupWhisk c line
  | .page _ => s
  | .switch _ => s
  | .upkeep _ => s

/-- Lets the lookups go on whose map-stack lines are no longer locked (13 R388). -/
def State.wakeLookups (s : State) : State :=
  s.siv.waiting.foldl (fun t q => if t.lookupLocked q then t.parkLookup q else t.resolveLookup q)
    { s with siv := { s.siv with waiting := [] } }

/-- The sieve reads the map-stack words that a lookup needs, with what the test mode planted there (13 R392). -/
def State.readFor (s : State) : TReq → State
  | .load id => match s.loads.find id with
    | some l => s.readEntries (l.line / 4)
    | none => s
  | .home f => s.readEntries (s.frame f).slice
  | .whisk _ line => s.readEntries (line / 4)
  | .page x => s.readEntries x
  | .switch x => s.readEntries x
  | .upkeep x => s.readEntries x

/-- TRANSLATE_LOOKUP (04 R122, R125): the sieve takes the next lookup off Translate rail `i` and resolves it; one that needs
a locked map-stack line waits in the sieve (13 R388). -/
def execTranslateLookup (i : Fin 4) (s : State) : Host.Outcome State Fault Refusal :=
  if s.unclocked then .next s else
  match (s.rails.translate.getD i.val .empty).take 512 with
  | none => .next s
  | some (q, r) =>
    let rs := s.rails.translate.set .empty i.val r
    let t := ({ s with rails := { s.rails with translate := rs } }).readFor q
    .next (if t.lookupLocked q then t.parkLookup q else t.resolveLookup q)

/-! ### Acceptance (03 R95, R96, R110) -/

/-- Accepts the entry at the head of a link's Accept rail; a link that must wait for a frame is stalled (03 R88, R96,
R110). An entry already acknowledged is dropped (03 R86). -/
def State.acceptLink (s : State) (n : Nat) : State :=
  if (s.rails.accept.getD n .empty).waiting.isEmpty then s
  else
    let stall := s.setLink n (fun l => { l with stalled := true })
    match s.acceptHead n false with
    | none => stall
    | some (none, t) => t
    | some (some e, u) =>
      if s.used hostRegion < u.used hostRegion ∧ ¬ s.myTurn n then stall
      else
        let rr := if (s.link n).stalled then (n + 1) % 32 else u.stk.rr
        ({ u with stk := { u.stk with rr := rr } }).afterAccept n e

/-- Whether a line lies in a coherent sharing set. -/
def State.isCoherent (s : State) (line : Nat) : Bool := decide (s.sharingSet line ≠ [])

/-- Accepts the oldest write of a channel that waits, once its line, where coherent, is granted (10 R306, 11 R340). -/
def State.acceptWhisk (s : State) (c : Nat) : State :=
  match ((List.range 4).map (fun k => c * 4 + k)).find? (fun i => decide ((s.ctx i).writes ≠ [])) with
  | none => s
  | some i => match (s.ctx i).writes with
    | [] => s
    | w :: ws =>
      if s.isCoherent w.line && !(s.ctx i).granted.contains w.line then s
      else
        let win : WriteIn := {
          line := w.line, data := w.data, mask := w.mask, keyslot := w.keyslot, poison := false, link := s.whiskLink c
          port := none, landing := false, master := some (2, c), fo := decide (s.whiskLink c = s.foLink)
          coherent := s.isCoherent w.line }
        match s.accept win with
        | none => s
        | some t => (t.updCtx i (fun x => { x with
            writes := ws, granted := x.granted.filter (fun l => l != w.line), marks := t.postedAll
            progress := if ws = [] then max x.progress x.began else x.progress })).spice

/-- Accepts the next line of a ladle's zero-a-line operation; the ladle takes the line (08 R244). -/
def State.acceptZero (s : State) (p : Nat) : State :=
  let l := s.ladle p
  if !l.zeroBusy || decide (l.zeroLeft = 0) then s
  else
    let win : WriteIn := {
      line := l.zeroNext, data := 0, mask := fullMask, keyslot := l.zeroKey, poison := false, link := s.foLink
      port := some p, landing := false, master := none, fo := true, coherent := false }
    match s.accept win with
    | none => s
    | some t =>
      let t := if s.loaded l.zeroKey ∧ ¬ s.upk.pantry then t.allocLine p l.zeroNext l.zeroKey 0 else t
      let t := t.updLadle p (fun x => { x with
        zeroNext := x.zeroNext + 1, zeroLeft := x.zeroLeft - 1, zeroBusy := decide (1 < x.zeroLeft) })
      if (t.ladle p).zeroBusy then t else t.raise (.ldl p) 1

/-- The line of the write a link offers: that of the entry its Accept rail gives next. -/
def State.linkLine (s : State) (n : Nat) : Option Nat :=
  ((s.rails.accept.getD n .empty).take 64).bind (fun x =>
    ((s.link n).iwq.find? (fun e => decide (e.seq = x.1))).map (·.line))

/-- The line of the write a whisk channel offers. -/
def State.whiskLineOf (s : State) (c : Nat) : Option Nat :=
  (((List.range 4).map (fun k => (s.ctx (c * 4 + k)).writes)).find? (fun w => !w.isEmpty)).bind (fun w =>
    w.head?.map (·.line))

/-- The links among the first `k` that offer a write to a line in the same cycle, ascending (01 R35). -/
def State.offering (s : State) (k : Nat) (line : Option Nat) : List Nat :=
  (List.range k).filter (fun m => decide (line.isSome) && decide (s.linkLine m = line))

/-- Accepts what other sources offer to the line that a source offers, in the order of 01 R35: host links ascending, then
whisk channels ascending, all before the source itself; a zero-a-line write has the precedence of a whisk's (08 R244). -/
def State.acceptBefore (s : State) : AcceptSrc → State
  | .link n => (s.offering n.val (s.linkLine n.val)).foldl State.acceptLink s
  | .whisk c =>
    let line := s.whiskLineOf c.val
    let t := (s.offering 32 line).foldl State.acceptLink s
    ((List.range c.val).filter (fun d => decide (line.isSome) && decide (s.whiskLineOf d = line))).foldl State.acceptWhisk t
  | .zero p => if (s.ladle p.val).zeroBusy then
      (s.offering 32 (some (s.ladle p.val).zeroNext)).foldl State.acceptLink s else s

/-- ACCEPTANCE (03 R95, R96): the stockpot accepts the next write of a source, after those to the same line that come
before it (01 R35); frozen, it accepts none (03 R115). -/
def execAcceptance (src : AcceptSrc) (s : State) : Host.Outcome State Fault Refusal :=
  if s.unclocked then .next s else
  if s.isFrozen then .next s
  else
    let t := s.acceptBefore src
    match src with
    | .link n => .next (t.acceptLink n.val).settleBells
    | .whisk c => .next (t.acceptWhisk c.val).settleBells
    | .zero p => .next (t.acceptZero p.val)

end Sys2Proof.Machine
end

