-- ==== Sys2Proof/Machine/Resets.lean ====
section
/-!
DEFINITION. The start of Flush, of the down sequence and of a warm reset (15_power.md R421, R431, R432, 16_bring_up.md
R453), which faults of several blocks lead to.
-/

namespace Sys2Proof.Machine

/-- Name of a rail's enable pin (20_package_and_electrical.md). -/
def enName (i : Nat) : String := "PWR_EN" ++ toString i

/-- The rails whose enable is high, descending. -/
def State.enabledRails (s : State) : List Nat :=
  ((List.range 8).filter (fun i => (s.pwr.rails.getD i .off).enabled)).reverse

/-- Changes a rail. -/
def State.updRail (s : State) (i : Nat) (f : PRail → PRail) : State :=
  { s with pwr := { s.pwr with rails := s.pwr.rails.upd .off i f } }

/-- Lowers the enable of a rail. -/
def State.lowerRail (s : State) (i : Nat) : State :=
  (s.updRail i (fun r => { r with enabled := false, dropping := true, since := s.now })).emit (.pin (enName i) false)

/-- Whether the older region is B: the one without a valid copy, else the one that is not the newest (R358). -/
def State.olderIsB (s : State) : Bool :=
  if !s.prot.vaultA then false else if !s.prot.vaultB then true else !s.prot.vaultNewB

/-- The older region of the vault no longer holds a valid copy; whether it still shows the signature is open (log entry 2). -/
def State.spoilVault (s : State) : State :=
  let older := s.olderIsB
  let d := s.draw
  let bad := (Config.freeWord d.1).getLsbD 0
  { d.2 with
    nor := { d.2.nor with
      vaultA := if older then d.2.nor.vaultA else none
      vaultBadA := if older then d.2.nor.vaultBadA else bad
      vaultB := if older then none else d.2.nor.vaultB
      vaultBadB := if older then bad else d.2.nor.vaultBadB }
    prot := { d.2.prot with
      vaultA := if older then d.2.prot.vaultA else false
      vaultB := if older then false else d.2.prot.vaultB } }

/-- Whether copy B is the older of two: the one that holds nothing, else the one with the lower sequence number; copy A where
both hold nothing (14 R405, 16 R457). -/
def olderB {α : Type} (a b : Option (Nat × α)) : Bool :=
  match a, b with
  | some _, none => true
  | some x, some y => decide (y.1 < x.1)
  | none, _ => false

/-- Every program or erase of the SPI NOR under way is abandoned, and the copy it was writing holds nothing valid (20 R549). -/
def State.abandonNor (s : State) : State :=
  let t := if s.prot.jobs.isEmpty then s else s.spoilVault
  let wl := s.nor.writes.contains 1
  let wb := s.nor.writes.contains 2
  let la := olderB s.nor.ledgerA s.nor.ledgerB
  let ba := olderB s.nor.bootA s.nor.bootB
  { t with
    prot := { t.prot with jobs := [] }
    flt := { t.flt with writing := none }
    nor := { t.nor with
      writes := []
      ledgerA := if wl && !la then none else t.nor.ledgerA
      ledgerB := if wl && la then none else t.nor.ledgerB
      bootA := if wb && !ba then none else t.nor.bootA
      bootB := if wb && ba then none else t.nor.bootB } }

/-- The core stops as its power goes: no link is up, and no die runs an operation for it (02 R76). -/
def State.darken (s : State) : State :=
  { s with
    ports := { s.ports with links := s.ports.links.mapVal (fun _ (l : Link) => { Link.down with disabled := l.disabled }) }
    dies := s.dies.mapVal (fun _ (d : Die) => { d with op := .none, opReqs := [], sensing := [], suspended := false }) }

/-- The kettle's charger and its test load are off (15 R432, R439); `testing` says whether a test ran. -/
def State.kettleOff (s : State) (testing : Bool) : State :=
  let t := s.emit (.pin "KETTLE_CHG_EN" false)
  if testing then t.emit (.pin "KETTLE_TEST_EN" false) else t

/-- Starts the down sequence (15 R421): ALIVE falls and the highest rail that is up is disabled; the next follows when it
is off. -/
def State.powerDown (s : State) : State :=
  let s := s.abandonNor.darken
  let t := { s with
    pwrState := .shutdown
    pwr := { s.pwr with armed := false, charging := false, testing := false }
    boot := { s.boot with seq := .idle, ready := false } }
  let t := (t.emit (.pin "ALIVE" false)).kettleOff s.pwr.testing
  match t.enabledRails with
  | [] => t
  | i :: _ => t.lowerRail i

/-- Disables every rail at once (15 R421, R423). -/
def State.cutRails (s : State) : State :=
  let s := s.abandonNor.darken
  let t := { s with
    pwrState := .shutdown
    pwr := { s.pwr with armed := false, charging := false, testing := false }
    boot := { s.boot with seq := .idle, ready := false } }
  t.enabledRails.foldl (fun u i => u.lowerRail i)
    ((t.emit (.pin "ALIVE" false)).kettleOff s.pwr.testing)

/-- Stops every whisk channel at once (11 R351): writes not accepted are lost. -/
def State.stopWhisks (s : State) : State :=
  let t := (List.range 64).foldl (fun u c => u.stopChannel c 2) s
  { t with ctxs := t.ctxs.mapVal (fun _ (c : Ctx) => { c with writes := [], need := [], got := [] }) }

/-- Takes every link down and holds it (02 R76). -/
def State.holdLinks (s : State) : State := (List.range 32).foldl (fun u n => u.holdLink n 5) s

/-- Whether a request is a page program. -/
def MReq.isProgram (q : MReq) : Bool := match q.op with
  | .program _ => true
  | _ => false

/-- Whether Flush may start in a power state (15 R436). -/
def PState.flushable : PState → Bool
  | .starting | .boil | .simmer => true
  | _ => false

/-- What a burner does to a die when Flush starts (06 R196): a reset in progress is suspended for good, a suspended program
resumed, senses abandoned. -/
def State.flushDie (s : State) (b ce : Nat) : State :=
  let d := s.die b ce
  let t := if d.op = .reset ∧ ¬ d.suspended then s.suspend b ce else if d.op = .program ∧ d.suspended then s.resume b ce else s
  t.updDie b ce (fun x => { x with sensing := [], drdy := 0 })

/-- The burners act on the start of Flush (06 R196). -/
def State.flushBurners (s : State) : State :=
  let t := s.dies.foldl (fun u e => u.flushDie (e.1 / 10) (e.1 % 10)) s
  { t with med := { t.med with resetting := [] } }

/-- A Flush trigger (15 R431, R432 steps 1 and 2): not armed, the rails go straight down; armed, the cause is latched, the
charger stops, the whisks stop, the links go down with every committed ingress entry accepted, and the stockpot freezes
(03 R113). Once Flush has started, further triggers have no effect (R434). -/
def State.flush (s : State) (cause : Nat) : State :=
  if !s.pwrState.flushable then s
  else if !s.pwr.armed then s.powerDown
  else
    let s := s.abandonNor
    let t := { s.rootStart with
      pwrState := .flush, regs := { s.regs with entry := [] }
      pwr := { s.pwr with
        cause := cause, flushAt := s.now, fromSimmer := decide (s.pwrState = PState.simmer), charging := false
        testing := false, abandoned := false }
      cmt := { s.cmt with pending := false, ports := [], waiting := [], requests := [] } }
    let t := ((t.kettleOff s.pwr.testing).stopWhisks).holdLinks
    let t := (t.flushBurners).dropRequests MReq.isProgram
    { t with
      stk := { t.stk with frozen := true }
      thm := { t.thm with testState := if t.thm.testState = 1 then 3 else t.thm.testState }
      boot := { t.boot with seq := .flush, tap := if 3 ≤ t.boot.tap then 0 else t.boot.tap } }

/-- Whether frames are held in pantry bare (07 R226). -/
def State.heldFrames (s : State) : Bool := s.stk.frames.any (fun e => e.2.held)

/-- A warm reset starts its pre-reset phase (16 R453): the links go down, the whisks stop, a pending commit is abandoned;
frames held in pantry bare make the device flush at once with cause 3. `trap` marks a reset that counts as a firmware
fault (14 R410). -/
def State.warmReset (s : State) (trap : Bool) : State :=
  if s.pwrState ≠ .boil ∧ s.pwrState ≠ .starting ∧ s.pwrState ≠ .simmer then s
  else if s.heldFrames then ({ s with boot := { s.boot with trapped := trap } }).flush 3
  else
    let t := (s.holdLinks).stopWhisks
    { t with
      cmt := { t.cmt with pending := false, ports := [], waiting := [], requests := [] }
      boot := { t.boot with seq := .preReset, began := s.now, trapped := trap } }

end Sys2Proof.Machine
end

