-- ==== Sys2Proof/Machine/Retire.lean ====
section
/-!
DEFINITION. The fault ledger (14_faults_and_recovery.md R397 to R410, R415) and what upkeep does with a retirement
(07_upkeep.md R223, R224, R227).
-/

namespace Sys2Proof.Machine

/-! ### Units (R397) -/

/-- The number a unit is listed under. -/
def unitKey (utype uid : Nat) : Nat := utype * 2 ^ 32 + uid

/-- Burner of a block ID, `sector address [37:18]`. -/
def blockBurner (id : Nat) : Nat := id / 2 ^ 15
/-- Chip enable of a block ID. -/
def blockCe (id : Nat) : Nat := id / 2 ^ 11 % 16
/-- Block of a block ID. -/
def blockNum (id : Nat) : Nat := id % 2 ^ 11

/-- Whether a unit is out already: retired, failed in place, or inside a unit that is (R404). -/
def State.unitOut (s : State) (utype uid : Nat) : Bool :=
  let burnerOut := fun (b : Nat) => bitOf s.upk.retiredMask b || s.flt.inPlace.contains (unitKey 2 b)
  let dieOut := fun (b ce : Nat) => (s.die b ce).retired || (s.die b ce).failed || burnerOut b
  match utype with
  | 0 => decide ((s.blk (pbOf (blockBurner uid) (blockCe uid) (blockNum uid) 0)).state = .retired) ||
      dieOut (blockBurner uid) (blockCe uid)
  | 1 => dieOut (uid / 16) (uid % 16)
  | 2 => burnerOut uid
  | 3 => s.flt.lanes.contains uid
  | 4 => s.flt.rows.contains uid
  | 5 => s.flt.lines.contains uid
  | 6 => bitOf s.flt.stwRetired uid
  | _ => false

/-! ### Lost members (R402, 07 R227) -/

/-- Whether a stripe's member on a burner is lost: its burner retired while the stripe still spans it, or its block
retired with nothing standing in yet. -/
def State.memberLost (s : State) (S b : Nat) : Bool :=
  let e := s.blk (pbOf b (s.stripeCe S) (s.stripeBlock S) 0)
  let d := s.die b (s.stripeCe S)
  (bitOf s.upk.retiredMask b && decide (e.width ≠ 0)) || d.failed ||
    (decide (e.state = .retired) && decide (e.width ≠ 0) && (decide (e.remap = 0xFFFFF) || decide (0 < e.p0)))

/-- Whether a stripe holds valid data. -/
def State.holdsData (s : State) (S : Nat) : Bool := (s.memberPbs S).any (fun x => decide (0 < (s.blk x).valid))

/-- Whether some stripe with data would have more than two lost members once the members a test names are lost too. -/
def State.tooManyLost (s : State) (more : Nat → Nat → Bool) : Bool :=
  s.listedStripes.any (fun S => s.userStripe S && s.holdsData S &&
    decide (2 < countIf (fun b => s.memberLost S b || more S b) (List.range 32)))

/-! ### Work on a unit that is retired -/

/-- A die without the requests a test names: an operation of one of them is off, and so are the latches that hold a page of one. -/
def Die.without (d : Die) (p : MReq → Bool) (pages : List Nat) : Die :=
  let off := d.opReqs.any p
  { d with
    sensing := d.sensing.filter (fun x => !p x.2)
    op := if off then .none else d.op
    opReqs := d.opReqs.filter (fun q => !p q)
    suspended := d.suspended && !off
    latches := d.latches.filter (fun e => !pages.contains e.2) }

/-- Takes requests for a unit out of the lanes and its burner: reads become lost codewords, to be rebuilt by class C at their own
stamps; programs are reissued; resets are dropped (R401, 07 R227, 06 R197). Those still on a rail are answered as they leave it. -/
def State.failRequests (s : State) (p : MReq → Bool) : State :=
  let out := List.flatten [
    (s.pass.lanes.map (fun e => e.2)).flatten,
    (s.burners.map (fun e => e.2.granted)).flatten, (s.dies.map (fun e => e.2.sensing.map (fun x => x.2))).flatten,
    (s.dies.map (fun e => e.2.opReqs)).flatten]
  let mine := out.filter p
  let pages := mine.filterMap (fun q => match q.op with
    | .program i => some i
    | _ => none)
  let t := { s with
    pass := { s.pass with lanes := SMap.keep (s.pass.lanes.mapVal (fun _ (l : List MReq) => l.filter (fun q => !p q)))
                            (fun _ l => decide (l ≠ [])) }
    burners := s.burners.mapVal (fun _ (b : Burner) => { b with granted := b.granted.filter (fun q => !p q) })
    dies := s.dies.mapVal (fun _ (d : Die) => d.without p pages) }
  mine.foldl State.failRequest t

/-- Queues stripes for rebuild at precedence 1, and counts those that are to be rebuilt (07 R227). -/
def State.queueRebuild (s : State) (Ss : List Nat) : State :=
  let open_ := fun (S : Nat) => s.med.openStripes.any (fun o => decide (o.stripe = S))
  let fresh := Ss.filter (fun S => s.userStripe S && (s.holdsData S || open_ S) && !s.upk.rebuilt.contains S)
  let t := fresh.foldl (fun u S => u.queueForced 1 S) s
  if fresh = [] then t
  else
    { t with upk := { t.upk with
      rebuilt := t.upk.rebuilt ++ fresh, rebuildLeft := t.upk.rebuildLeft + fresh.length
      rebuildState := if t.upk.rebuildState = 0 then 1 else t.upk.rebuildState
      rebuildBytes := if t.upk.rebuildState = 0 then 0 else t.upk.rebuildBytes } }

/-- Spare blocks of a burner. -/
def State.spareCount (s : State) (b : Nat) : Nat :=
  countIf (fun e => decide (e.1 % 4 = 0) && decide (e.1 / 81920 = b) && decide (e.2.state = .spare)) s.med.table

/-- SPARE_LOW follows the spare counts; its interrupt when it is set (07 R224, R232). -/
def State.judgeSpares (s : State) : State :=
  let low := s.liveBurners.any (fun b => decide (s.spareCount b < 16))
  let t := { s with upk := { s.upk with spareLow := low } }
  if low && !s.upk.spareLow then t.raise .upk 3 else t

/-- Counts a retired block against its die. -/
def State.countBlock (s : State) (b ce : Nat) : State :=
  { s with flt := { s.flt with
    blocks := s.flt.blocks + 1
    dieBlocks := s.flt.dieBlocks.upd 0 (dieId b ce) (· + 1) } }

/-- Upkeep retires a block (R401, 07 R223, R224): STATE 6; a spare of its burner stands in, from the next row of an open
stripe or once its stripe goes on deck (P0 past the last page till then); with no spare the stripe is to be withdrawn. -/
def State.retireBlock (s : State) (b ce k : Nat) : State :=
  let e := s.blk (pbOf b ce k 0)
  let S := s.stripeAt (saOf b ce k 0 0 0)
  let member := decide (e.state ≠ .spare) && decide (4 ≤ S) && decide (S < ringFirst s.dieCount)
  let opened := s.med.openStripes.find? (fun o => decide (o.stripe = S))
  let p0 := match opened with
    | some o => (o.positions.map (·.1)).foldl max 0 + 1
    | none => 1024
  let spare := (s.spareOf b).isSome
  let t := if member && spare then s.remapMember S b p0 else s
  let t := t.updBlock4 b ce k (fun x => { x with state := .retired })
  let t := if member && !spare && s.userStripe S then
      let u := { t with
        upk := { t.upk with withdrawing := insertNew t.upk.withdrawing S }
        med := { t.med with onDeck := t.med.onDeck.filter (fun x => x != S), resetting := t.med.resetting.del S } }
      if u.holdsData S then u.queueForced 4 S else if opened.isSome then u else u.withdraw S
    else t
  let t := if member && spare && (t.med.resetting.find S).isSome then
      let u := t.updBlock4 b ce k (fun x => { x with p0 := 0 })
      u.request .reset (u.memberAddr S b 0 0) .scraper .scraper (.relocate S)
    else t
  ((t.queueRebuild [S]).judgeSpares).countBlock b ce

/-- Every block of a die is retired (R401), in ascending order. -/
def State.retireBlocks (s : State) (b ce : Nat) : State :=
  ((List.range 2048).filter (fun k => decide ((s.blk (pbOf b ce k 0)).state ≠ .retired))).foldl (fun t k => t.retireBlock b ce k) s

/-- Upkeep retires a die (R401): its blocks, its queued stripes, a forced checkpoint, reads on it to class C. -/
def State.retireDie (s : State) (b ce : Nat) : State :=
  let t := s.updDie b ce (fun d => { d with retired := true, held := false, retryAt := none })
  let t := t.retireBlocks b ce
  (t.failRequests (fun q => decide (saBurner q.addr = b) && decide (saCe q.addr = ce))).startCkpt false

/-- What a burner that is retired does with a die's operation (06 R196, R197): a reset is suspended and never resumed, a suspended
program is resumed and completes. -/
def State.settleDie (s : State) (b ce : Nat) : State :=
  let d := s.die b ce
  if d.op = .reset ∧ ¬ d.suspended then s.suspend b ce
  else if d.op = .program ∧ d.suspended then s.resume b ce
  else s

/-- Whether a request is the program that runs on its die. -/
def State.runsNow (s : State) (q : MReq) : Bool :=
  let d := s.die (saBurner q.addr) (saCe q.addr)
  decide (d.op = .program) && d.opReqs.any (fun o => decide (o.id = q.id))

/-- The burner's bit is set in the retired-burner mask, and the rebuild starts (07 R227 step 1). -/
def State.markRetired (s : State) (b : Nat) : State :=
  let fresh := decide (s.upk.rebuildState = 0)
  { s with upk := { s.upk with
    retiredMask := s.upk.retiredMask ||| BitVec.ofNat 32 (2 ^ b), lastRetired := b
    rebuildState := if fresh then 1 else s.upk.rebuildState
    rebuildBytes := if fresh then 0 else s.upk.rebuildBytes } }

/-- The rebuild is over where no stripe is queued for it (07 R227 step 5). -/
def State.judgeRebuilt (s : State) (b : Nat) : State :=
  if s.upk.rebuildLeft = 0 then
    (({ s with upk := { s.upk with rebuildState := 0 } }).record 0x3005 b 0 0 0).raise .upk 4
  else s

/-- The burner completes or abandons its work (06 R197), is masked, and takes no request more. -/
def State.silence (s : State) (b : Nat) : State :=
  let t := (List.range 10).foldl (fun u ce => u.settleDie b ce) s
  let t := (t.updBurner b (fun x => { x with retired := true })).maskLane b true
  t.failRequests (fun q => decide (saBurner q.addr = b) && !t.runsNow q)

/-- The stripes with a member on a burner. -/
def State.stripesOn (s : State) (b : Nat) : List Nat :=
  s.listedStripes.filter (fun S => decide ((s.blk (pbOf b (s.stripeCe S) (s.stripeBlock S) 0)).width ≠ 0))

/-- Upkeep retires a burner (07 R227): it is silenced, its bit set, every stripe with a member on it queued, a checkpoint
forced. -/
def State.retireBurner (s : State) (b : Nat) : State :=
  ((((s.silence b).markRetired b).queueRebuild (s.stripesOn b)).freeEmptied.judgeRebuilt b).startCkpt false

/-! ### The ledger region (R403, R405) -/

/-- Starts a write of the ledger region's older copy. -/
def State.writeLedger (s : State) : State :=
  { s with
    flt := { s.flt with writing := some s.flt.entries, regionSeq := s.flt.regionSeq + 1 }
    nor := { s.nor with writes := s.nor.writes ++ [1] } }

/-- Records a lane, row or line in the ledger region; a full region leaves it unrecorded (R405). -/
def State.ledgerEntry (s : State) (utype uid : Nat) : State :=
  if 8192 ≤ s.flt.entries.length then (s.record 0x7005 0 0 0 0).raise .flt 4
  else ({ s with flt := { s.flt with entries := s.flt.entries ++ [(utype, uid, s.opsec % 2 ^ 28)] } }).writeLedger

/-- Spare rows of a stack left (R403). -/
def State.rowsLeft (s : State) (stack : Nat) : Nat :=
  1024 - countIf (fun u => decide (u / 2 ^ 21 % 2 = stack)) s.flt.rows

/-- Size of a domain instance in KiB (13 R381). -/
def domainKiB (d : Nat) : Nat := match d with
  | 0 => 163840
  | 1 => 4096
  | 2 => 49152
  | 3 => 24576
  | 4 => 8192
  | 5 => 8192
  | 6 => 8192
  | 7 => 64
  | _ => 0

/-- Spare lines of a domain instance left (R403): the map stacks have spare rows and no spare lines. -/
def State.linesLeft (s : State) (domain inst : Nat) : Nat :=
  if 8 ≤ domain then 0 else max 1 (domainKiB domain / 64) - countIf (fun u => decide (u % 16 = domain) && decide (u / 16 % 8 = inst)) s.flt.lines

/-- The spares left for a map-stack row or an SRAM line (R403). -/
def State.sparesLeft (s : State) (utype uid : Nat) : Nat :=
  if utype = 4 then s.rowsLeft (uid / 2 ^ 21 % 2) else s.linesLeft (uid % 16) (uid / 16 % 8)

/-- Spares a map-stack row or an SRAM line, or leaves it in service where its pool is empty (R402, R403). -/
def State.spareUnit (s : State) (utype uid : Nat) : State :=
  let left := s.sparesLeft utype uid
  if left = 0 then { s with flt := { s.flt with exhausted := true } }
  else
    let t := { s with flt := { s.flt with
      rows := if utype = 4 then s.flt.rows ++ [uid] else s.flt.rows
      lines := if utype = 5 then s.flt.lines ++ [uid] else s.flt.lines } }
    let t := if left = 1 then ({ t with flt := { t.flt with exhausted := true } }).raise .flt 2 else t
    t.ledgerEntry utype uid

/-! ### Decisions (R400 to R404, R415) -/

/-- Loads the capture words (R415). -/
def State.capture (s : State) (r : Report) (outcome count : Nat) : State :=
  (((s.setLive .flt 0x20 (at32 r.utype 0 ||| at32 outcome 4 ||| at32 r.source 6)).setLive .flt 0x24
    (BitVec.ofNat 32 r.uid)).setLive .flt 0x28 (at32 (sat 8 count) 0)).setLive .flt 0x2C (BitVec.ofNat 32 s.opsec)

/-- Records a retirement and raises its interrupt (18 R509). -/
def State.noteRetire (s : State) (r : Report) (outcome : Nat) : State :=
  (s.record 0x3004 r.utype r.uid r.source outcome).raise .flt (if outcome = 3 then 1 else 0)

/-- A unit fails in place (R402). -/
def State.failInPlace (s : State) (r : Report) : State :=
  let t := { s with flt := { s.flt with inPlace := s.flt.inPlace ++ [unitKey r.utype r.uid], degraded := true } }
  let t := if r.utype = 1 then t.updDie (r.uid / 16) (r.uid % 16) (fun d =>
      { d with failed := true, held := false, retryAt := none }) else t
  let t := t.failRequests (fun q => decide (saBurner q.addr = (if r.utype = 1 then r.uid / 16 else r.uid)) &&
    (decide (r.utype ≠ 1) || decide (saCe q.addr = r.uid % 16)))
  t.noteRetire r 3

/-- Retires a burner, or leaves it failed in place: at most two are retired, and no stripe may lose more than two members
(R402, 07 R227). -/
def State.decideBurner (s : State) (r : Report) (b : Nat) : State :=
  let r := { r with utype := 2, uid := b }
  if s.unitOut 2 b then s
  else if 2 ≤ (bitsSet 32 s.upk.retiredMask.toNat).length ∨ s.tooManyLost (fun _ x => decide (x = b)) then s.failInPlace r
  else (s.retireBurner b).noteRetire r 1

/-- Dies of a burner that are retired. -/
def State.retiredDies (s : State) (b : Nat) : Nat := countIf (fun ce => (s.die b ce).retired) (List.range 10)

/-- Retires a die, or leaves it failed in place; enough retired dies retire their burner (R401, R402). -/
def State.decideDie (s : State) (r : Report) (b ce : Nat) : State :=
  let r := { r with utype := 1, uid := dieId b ce }
  if s.unitOut 1 (dieId b ce) then s
  else if s.tooManyLost (fun S x => decide (x = b) && decide (s.stripeCe S = ce)) then s.failInPlace r
  else
    let t := (s.retireDie b ce).noteRetire r 1
    if max 1 (t.liveFld .flt 0x44 11 8) ≤ t.retiredDies b then t.decideBurner r b else t

/-- A lane is retired: its link retrains at half width (02 R73). -/
def State.retireLane (s : State) (uid : Nat) : State :=
  let n := uid % 32
  let t := ({ s with flt := { s.flt with lanes := s.flt.lanes ++ [uid] } }).ledgerEntry 3 uid
  let t := t.retrain n
  t.record 0x1006 n ((t.link n).width - 1) 0 0

/-- Retires the die of a retired block once more than DIE_BLOCKS of its blocks are retired (R401). -/
def State.judgeDie (s : State) (r : Report) (b ce : Nat) : State :=
  if max 1 (s.liveFld .flt 0x44 7 0) < s.flt.dieBlocks.getD (dieId b ce) 0 then s.decideDie r b ce else s

/-- Decides for a block: it is retired, and its die where enough of its blocks are. -/
def State.decideBlock (s : State) (r : Report) (b ce k : Nat) : State :=
  ((s.retireBlock b ce k).noteRetire r 1).judgeDie r b ce

/-- Retires a unit that is permanently faulty (R401). -/
def State.retireUnit (s : State) (r : Report) : State :=
  match r.utype with
  | 0 => s.decideBlock r (blockBurner r.uid) (blockCe r.uid) (blockNum r.uid)
  | 1 => s.decideDie r (r.uid / 16) (r.uid % 16)
  | 2 => s.decideBurner r r.uid
  | 3 => (s.retireLane r.uid).noteRetire r 1
  | 4 | 5 => if s.sparesLeft r.utype r.uid = 0 then s.spareUnit r.utype r.uid else (s.spareUnit r.utype r.uid).noteRetire r 1
  | _ => s

/-- Transients that make a unit permanent, and the window in seconds (R414). -/
def State.transLimit (s : State) : Nat := max 2 (min 15 (s.liveFld .flt 0x40 7 0))
/-- FLT_TRANS.WINDOW. -/
def State.transWindow (s : State) : Nat := max 1 (s.liveFld .flt 0x40 23 8) * Config.sec

/-- Drops the unit whose latest transient is oldest, where the table of 4,096 is full (R400). -/
def State.makeRoom (s : State) (key : Nat) : State :=
  if s.flt.trans.length < 4096 ∨ (s.flt.trans.find key).isSome then s
  else
    let old := s.flt.trans.foldl (fun (m : Option (Nat × Nat)) e => match m with
      | none => some (e.1, e.2.foldl max 0)
      | some (k, t) => if e.2.foldl max 0 < t then some (e.1, e.2.foldl max 0) else some (k, t)) none
    match old with
    | none => s
    | some (k, _) => { s with flt := { s.flt with trans := s.flt.trans.del k } }

/-- Counts a transient against its unit and answers how many count (R400). -/
def State.countTransient (s : State) (r : Report) : Nat × State :=
  if r.utype = 0 then
    let b := blockBurner r.uid
    let t := s.updBlock4 b (blockCe r.uid) (blockNum r.uid) (fun x => { x with tfault := sat 4 (x.tfault + 1) })
    ((t.blk (pbOf b (blockCe r.uid) (blockNum r.uid) 0)).tfault, t)
  else
    let k := unitKey r.utype r.uid
    let t := s.makeRoom k
    let ts := (t.flt.trans.getD k []).filter (fun x => decide (s.now < x + s.transWindow)) ++ [s.now]
    (ts.length, { t with flt := { t.flt with trans := t.flt.trans.put k ts } })

/-- The transients that count against a unit now (R400, R415): TFAULT of a block. -/
def State.transients (s : State) (r : Report) : Nat :=
  if r.utype = 0 then (s.blk (pbOf (blockBurner r.uid) (blockCe r.uid) (blockNum r.uid) 0)).tfault
  else countIf (fun x => decide (s.now < x + s.transWindow)) (s.flt.trans.getD (unitKey r.utype r.uid) [])

/-- Whether a source's fault is permanent at once, and whether its operation is retried (R398). -/
def sourcePermanent (k : Nat) : Bool := [3, 4, 5, 6, 11, 13, 14].contains k
/-- Whether a source's transient is retried. -/
def sourceRetried (k : Nat) : Bool := [1, 2, 8, 9].contains k

/-- The backoff before retry `k`, in ticks of its base (R399). -/
def backoff (base k : Nat) : Nat := base * 4 ^ (k - 1)

/-- Plans the retry of a transient's operation; answers whether the third retry has failed (R399). -/
def State.planRetry (s : State) (r : Report) : Bool × State :=
  if r.utype = 1 then
    let d := s.die (r.uid / 16) (r.uid % 16)
    if 3 ≤ d.retries then (true, s)
    else (false, s.updDie (r.uid / 16) (r.uid % 16) (fun d => { d with
      retries := d.retries + 1, held := false
      retryAt := some (s.now + 10 * Config.us + backoff (10 * Config.us) (d.retries + 1)) }))
  else
    let n := r.uid % 32
    let k := (s.flt.laneRetry.getD n (0, 0)).1
    if 3 ≤ k then (true, { s with flt := { s.flt with laneRetry := s.flt.laneRetry.del n } })
    else (false, { s with flt := { s.flt with
      laneRetry := s.flt.laneRetry.put n (k + 1, s.now + backoff Config.ms (k + 1)) } })

/-- The ledger takes one report (R398 to R404): one on a unit that is out is counted and discarded; a permanent fault, the last retry or
enough transients retire the unit; else the transient is counted and its operation retried. -/
def State.takeReport (s : State) (r : Report) : State :=
  if r.source = 17 then s.capture r 0 0
  else if s.unitOut r.utype r.uid then
    let c := if sourcePermanent r.source then (s.transients r, s) else s.countTransient r
    c.2.capture r 2 c.1
  else if sourcePermanent r.source then
    let t := s.retireUnit r
    t.capture r (if s.flt.inPlace.length < t.flt.inPlace.length then 3 else 1) (s.transients r)
  else
    let c := s.countTransient r
    let p := if sourceRetried r.source then c.2.planRetry r else (false, c.2)
    if p.1 || decide (s.transLimit ≤ c.1) then
      let t := p.2.retireUnit r
      t.capture r (if s.flt.inPlace.length < t.flt.inPlace.length then 3 else 1) c.1
    else p.2.capture r 0 c.1

/-- RETRY_BACKOFF_EXPIRY (R399): the nearest backoff of a die or a link's recovery ends, and its operation is reissued: a link that is up
goes into recovery again. -/
def execRetryBackoffExpiry (s : State) : Host.Outcome State Fault Refusal :=
  if s.unclocked then .next s else
  let ds := s.dies.filterMap (fun e => e.2.retryAt.map (fun t => (t, e.1)))
  let ls := (s.flt.laneRetry.filter (fun e => decide (e.2.2 ≠ 0))).map (fun e => (e.2.2, 1000 + e.1))
  match ds ++ ls with
  | [] => .next s
  | x :: xs =>
    let y := xs.foldl (fun m e => if e.1 < m.1 then e else m) x
    let t := s.reach y.1
    if y.2 < 1000 then .next (t.updDie (y.2 / 10) (y.2 % 10) (fun d => { d with retryAt := none }))
    else
      let left := t.flt.laneRetry.upd (0, 0) (y.2 - 1000) (fun e => (e.1, 0))
      let u := t.retrain (y.2 - 1000)
      .next { u with flt := { u.flt with laneRetry := left } }

/-- CLR_LANES (R405): a write of FLT_CTRL.CLR_LANES removes every lane entry; links use the lanes from their next
training. -/
def execClrLanes (path : Path) (s : State) : Host.Outcome State Fault Refusal :=
  .next (s.portWrite path 0x57000C 1 (fun s =>
    if s.mayWrite path .flt then
      ({ s with flt := { s.flt with
        lanes := [], entries := s.flt.entries.filter (fun e => decide (e.1 ≠ 3)) } }).writeLedger
    else s))

/-! ### Stewards (R409, R410) -/

/-- Stewards retired. -/
def State.stwRetired (s : State) : Nat := (bitsSet 12 s.flt.stwRetired.toNat).length

/-- Retires a steward; the loss of a cluster or of nine stewards warm starts the device (R410). -/
def State.retireSteward (s : State) (c : Nat) : State :=
  let t := { s with
    flt := { s.flt with stwRetired := s.flt.stwRetired ||| BitVec.ofNat 12 (2 ^ c) }
    stw := { s.stw with state := s.stw.state.set 0 c 2 } }
  let u := (t.record 0x7003 c 0 0 0).raise .flt 3
  let cluster := (List.range 4).all (fun k => bitOf u.flt.stwRetired (c / 4 * 4 + k))
  if cluster || decide (9 ≤ u.stwRetired) then u.warmReset true else u

/-- The restarts of a steward that count now, this one with them (R410). -/
def State.stwRecent (s : State) (c : Nat) : List Nat :=
  (s.flt.stwTimes.getD c []).filter (fun x => decide (s.now < x + max 1 (s.liveFld .flt 0x48 31 16) * Config.sec)) ++
    [s.now]

/-- Counts and records a restart (R409). -/
def State.noteRestart (s : State) (c cause : Nat) (ts : List Nat) : State :=
  let t := { s with
    flt := { s.flt with stwTimes := s.flt.stwTimes.put c ts, stwRestarts := sat 16 (s.flt.stwRestarts + 1) }
    stw := { s.stw with restarts := s.stw.restarts.upd 0 c (· + 1), state := s.stw.state.set 0 c 0 } }
  ((t.record 0x7002 c cause (t.flt.epochs.getD (96 + c) 0).toNat 0).raise .stw 0).capture ⟨16, 6, c⟩ 0 ts.length

/-- A steward restarts (R409, R410): its epoch rises and the restart is recorded; it is back within 40 ms, so it runs
again when the step ends. Restarts too near each other retire it. -/
def State.stewardRestart (s : State) (c cause : Nat) : State :=
  if bitOf s.flt.stwRetired c then s
  else
    let t := s.bumpEpoch (96 + c)
    let ts := t.stwRecent c
    let u := t.noteRestart c cause ts
    if max 1 (u.liveFld .flt 0x48 3 0) ≤ ts.length then u.retireSteward c else u

/-- WATCHDOG_EXPIRY (R409): a steward's watchdog has not been serviced for 100 ms, and it restarts. -/
def execWatchdogExpiry (c : Fin 12) (s : State) : Host.Outcome State Fault Refusal :=
  if s.unclocked then .next s else
  .next (s.stewardRestart c.val 1)

/-- FIRMWARE_FAULT (R409): a steward's firmware detects a fault of its own, and it restarts. -/
def execFirmwareFault (c : Fin 12) (s : State) : Host.Outcome State Fault Refusal :=
  .next (s.stewardRestart c.val 2)

end Sys2Proof.Machine
end

