-- ==== Sys2Proof/Machine/Mec.lean ====
section
/-!
DEFINITION. Memory integrity (13_memory_integrity.md): correctable and uncorrectable words, the recovery of
each block, rail resets, reconstruction, the test mode and the scrubber; and the fault ledger's command (14 R398).
-/

namespace Sys2Proof.Machine

/-- A corrected word: counted, and reported to the ledger (R382). -/
def State.corrected (s : State) (domain inst off pos0 pos1 : Nat) : State :=
  let u := wordUnit domain inst off
  (s.countCorrected domain inst off pos0 pos1).takeReport ⟨if domain = 8 then 12 else 10, u.1, u.2⟩

/-- BUCKET_LEAK (R383): LEAK seconds of the housekeeping clock have passed for a domain, and each of its levels above 0
falls by 1; LEAK 0 stops the leak. -/
def execBucketLeak (d : Fin 9) (s : State) : Host.Outcome State Fault Refusal :=
  let leak := s.liveFld .mec (0x80 + d.val * 4) 15 8
  if leak = 0 then .next s
  else
    let t := s.reach (s.mec.leaks.getD d.val 0 + leak * Config.sec)
    let t := (List.range (domainInsts d.val)).foldl (fun u i => u.updMec d.val i (fun c => { c with level := c.level - 1 })) t
    .next { t with mec := { t.mec with leaks := t.mec.leaks.put d.val t.now } }

/-! ### Rail resets (03 R86, 04 R125, 08 R245, R253, 10 R321, 18 R507) -/

/-- The row of R37 and the instance of a rail, and the page and bit of its interrupt. -/
def railPlace : RailId → Nat × Nat × List (RPage × Nat)
  | .accept n => (1, n.val, [(.stk, 2)])
  | .lookup p => (2, p.val, [(.ldl p.val, 4)])
  | .translate i => (3, i.val, [(.siv, 4)])
  | .mediaReq b => (4, b.val, [(.brn b.val, 4), (.pas, 2)])
  | .mediaRes b => (5, b.val, [(.stk, 2)])
  | .invalidate p => (6, p.val, [(.ldl p.val, 4)])
  | .snoop p => (7, p.val, [(.spr, 3)])
  | .snoopResp p => (8, p.val, [(.spr, 3)])
  | .journal => (9, 0, [(.stk, 2)])
  | .event => (10, 0, [])

/-- A rail after its reset, with what its producer places on it again, in order. -/
def Rail.again {α : Type} (n : Nat) (r : Rail α) : Rail α :=
  (r.slots.filter (fun e => !e.used)).foldl (fun x e => x.push n e.cmd e.prio) .empty

/-- Accept rail: the ingress queue resends its unacknowledged entries from the oldest (03 R86). -/
def State.resetAccept (s : State) (n : Nat) : State :=
  let rs := s.rails.accept.set .empty n .empty
  let t := { s with rails := { s.rails with accept := rs } }
  (t.setLink n (fun l => { l with
    stalled := false, iwq := l.iwq.map (fun (e : IwqEntry) => { e with sent := false }) })).feedAccept n

/-- Media result rail: a program whose result was lost is reissued, without a charge; a lost read or reset result is
reissued as its operation (03 R86). -/
def State.resetResults (s : State) (b : Nat) : State :=
  let lost := (s.rails.mediaRes.getD b .empty).waiting
  let rs := s.rails.mediaRes.set .empty b .empty
  let t := { s with rails := { s.rails with mediaRes := rs } }
  let again := fun (u : State) (q : MReq) =>
    let rq := u.rails.mediaReq.upd .empty b (fun r => r.push 256 q 0)
    { u with rails := { u.rails with mediaReq := rq } }
  lost.foldl (fun u x => match x with
    | .read q _ => again u q
    | .reset q _ => again u q
    | .program q _ | .lost q => match q.op with
      | .program i => match u.stk.pages.find i with
        | some p => (u.programFailed i p false).afterPrograms
        | none => u
      | _ => again u q) t

/-- Invalidate rail: its ladle is cleared at once and keeps ENABLE (08 R245). -/
def State.resetInvalidate (s : State) (p : Nat) : State :=
  let rs := s.rails.invalidate.set .empty p .empty
  ({ s with
    rails := { s.rails with invalidate := rs }
    ports := { s.ports with applied := s.ports.applied.set 0 p (s.ports.posted.getD p 0) } }).updLadle p Ladle.clear

/-- Map journal rail: the sieve resends every record not yet durable (03 R86); where a staging slot was lost, it starts a
checkpoint at once (13 R385). -/
def State.resetJournal (s : State) : State :=
  let t := { s with rails := { s.rails with
    journal := s.siv.staging.foldl (fun r x => r.push 4096 x 0) .empty } }
  if t.siv.lostStaging then ({ t with siv := { t.siv with lostStaging := false } }).startCkpt false else t

/-- Event rail: what it held is lost, and a LOST record has a count of all ones (18 R507). -/
def State.resetEvent (s : State) : State :=
  (({ s with rails := { s.rails with event := .empty } }).raise .spk 1).record 1 (2 ^ 64 - 1) 0 0 0

/-- The recovery of each rail's consumer and producer. A Lookup rail holds nothing between steps. -/
def State.recoverRail (s : State) : RailId → State
  | .accept n => s.resetAccept n.val
  | .lookup _ => s
  | .translate i =>
    let rs := s.rails.translate.upd .empty i.val (fun r => r.again 512)
    { s with rails := { s.rails with translate := rs } }
  | .mediaReq b =>
    let rs := s.rails.mediaReq.upd .empty b.val (fun r => r.again 256)
    { s with rails := { s.rails with mediaReq := rs } }
  | .mediaRes b => s.resetResults b.val
  | .invalidate p => s.resetInvalidate p.val
  | .snoop p => (List.range 4).foldl (fun t k => t.resendSnoops (p.val * 4 + k)) s
  | .snoopResp p => (List.range 4).foldl (fun t k => t.resendSnoops (p.val * 4 + k)) s
  | .journal => s.resetJournal
  | .event => s.resetEvent

/-- A rail resets (03 R86): the recovery, the interrupt of its page, the record, and the report that charges the SRAM
line of its pointers, whose place the spec leaves open. -/
def State.resetRail (s : State) (r : RailId) : State :=
  let t := s.recoverRail r
  let t := (railPlace r).2.2.foldl (fun u x => u.raise x.1 x.2) t
  let t := t.record 6 (railPlace r).1 (railPlace r).2.1 0 0
  let d := t.draw
  d.2.report 15 5 (6 + (Config.freeWord d.1).toNat % 2 ^ 23 * 2 ^ 7)

/-- RAIL_RESET (03 R86): a rail finds its pointer copies unlike and resets. -/
def execRailReset (r : RailId) (s : State) : Host.Outcome State Fault Refusal :=
  if s.unclocked then .next s else .next (s.resetRail r)

/-- A word of steward memory that is lost may hold the progress record of a command past its ordering point; whose it is, if any
command's, is open (log entry 106). That command returns Internal Error, and the event is recorded (14 R409, 18 R509). -/
def State.loseProgress (s : State) : State :=
  let d := s.draw
  match s.mbx.runs[(Config.freeWord d.1).toNat % (s.mbx.runs.length + 1)]? with
  | some r => (d.2.endRun r rcInternal []).record 0x7004 r.opcode (pathNum r.path) 0 0
  | none => d.2

/-! ### The block's own rule for an uncorrectable word (R385 to R388) -/

/-- The action code of a word (R394), where the spec names one. -/
def badAction : BadWord → Option Nat
  | .frameData _ _ | .frameMask _ _ | .ingressData _ _ => some 1
  | .frameTag _ => some 10
  | .second | .staging => some 8
  | .ladleWay _ _ | .entryCache | .victim _ _ => some 2
  | .spiceSet _ => some 9
  | .steward _ => some 7
  | .whiskStaging _ => some 6
  | .railEntry _ => some 5
  | .keySlot _ _ => some 4
  | .mapLine => some 3
  | .scrubList _ => some 15
  | _ => none

/-- A page position without a frame that is lost: a pad sector in its place, or its snapshot with no slice to map. -/
def PageItem.without (f : Nat) : PageItem → PageItem
  | .frame g => if g = f then .pad else .frame g
  | .sector x (some g) => if g = f then .sector x none else .sector x (some g)
  | y => y

/-- A frame leaves the page it stands in: one with no target is dissolved, and one with a target goes on without it (log entry 105). -/
def State.leavePage (s : State) (f : Nat) : State :=
  match s.stk.pages.find? (fun e => e.2.frames.contains f) with
  | none => s
  | some (i, p) =>
    let p' := { p with items := p.items.map (PageItem.without f) }
    if p.addr.isNone then s.dissolve i p' else (s.updPage i (fun _ => p')).issueProgram i

/-- A frame's tag is lost (R385): the frame is freed and FRAME_LOST recorded; DEGRADED is set. -/
def State.loseFrame (s : State) (f : Nat) : State :=
  ((({ s with flt := { s.flt with degraded := true } }).leavePage f).freeFrame f).record 0x2001 f 0 0 0

/-! ### The state of an engine or a stream is lost (14 R406, R407) -/

/-- An owner of upkeep or of the stockpot takes a new epoch: what it had waiting leaves the pass, and what still must be done it asks for
again: the resets, and the programs of its pages that have a place (log entry 105). -/
def State.renew (s : State) (r : Requester) : State :=
  let waits := (s.pass.lanes.map (fun e => e.2)).flatten ++ (s.rails.mediaReq.map (fun e => e.2.waiting)).flatten
  let resets := waits.filter (fun q => decide (q.requester = r) && decide (q.op = .reset))
  let t := s.revert r
  let t := resets.foldl (fun (u : State) q => u.request .reset q.addr r q.cls q.purpose) t
  let t := (t.stk.pages.filter (fun e => decide (streamRequester e.2.stream = r) && decide (e.2.stage = .loaded) && !e.2.snapped)).foldl
    (fun (u : State) e => (u.updPage e.1 (fun p => { p with stage := .completing })).issueProgram e.1) t
  t.recomplete.issueReady

/-- The codewords of a victim's data members whose VALID is not 0, in ascending page and plane order (R210); a plane block
marked unknown is read in full (13 R390). -/
def State.victimReads (s : State) (S : Nat) : List Nat :=
  let ms := (List.range 32).filter (fun b =>
    let e := s.blk (pbOfAddr (s.memberAddr S b 1023 0))
    decide (e.width ≠ 0) && decide (e.role = 0))
  let top := (ms.map (fun b => ((List.range 4).map (fun pl =>
    max (s.blk (pbOfAddr (s.memberAddr S b 0 pl))).cursor (s.blk (pbOfAddr (s.memberAddr S b 1023 pl))).cursor)).foldl
      max 0)).foldl max 0
  ((List.range top).map (fun p => ((List.range 4).map (fun pl => (ms.map (fun b =>
    let a := s.memberAddr S b p pl
    let e := s.blk (pbOfAddr a)
    if (e.valid ≠ 0 ∨ s.mec.unknown.contains (pbOfAddr a) = true) ∧ p < e.cursor then
      (List.range 4).map (fun k => a + 16 * k) else [])).flatten)).flatten)).flatten

/-- The blocks of closed stripes wait for their seal scan again (05 R170). -/
def State.requeueSeals (s : State) : State :=
  let xs := s.med.table.filter (fun (e : Nat × Block) => decide (e.2.state = BState.closed))
  { s with upk := { s.upk with sealQueue := xs.map (fun (e : Nat × Block) => (e.1, s.now)) } }

/-- The relocations of a quota are abandoned (R407, 04 R130): their frames are freed, the loaves of their folds are no longer BUSY, and the
victim is read again from its start. -/
def State.abandonMoves (s : State) (r : Region) (rebuild : Bool) : State :=
  let folds := s.stk.pages.filter (fun e => e.2.fold && e.2.frames.any r.has)
  let t := folds.foldl (fun (u : State) e => (u.pageLoaves e.2).foldl (fun x l => x.setLoaf l { x.loaf l with busy := false }) u) s
  let t := (t.stk.frames.filter (fun e => r.has e.1)).foldl (fun (u : State) e => (u.leavePage e.1).freeFrame e.1) t
  match t.upk.victim with
  | some S => if decide (t.upk.victimPrec = 1) = rebuild then
      { t with upk := { t.upk with victimRead := t.victimReads S } } else t
  | none => t

/-- The scraper (0), the taster (1) or rebuild (2) finds its state uncorrectable (R406): its requests are removed, its relocations
abandoned, and what it must still do is asked for again. -/
def State.loseEngine (s : State) (e : Nat) : State :=
  match e with
  | 0 => (s.abandonMoves upkeepRegion false).renew .scraper
  | 1 => (s.renew .taster).requeueSeals
  | _ => (s.abandonMoves rebuildRegion true).renew .rebuild

/-- Poisons a line of a frame; the mask entry of the line is freed where it is the word lost. -/
def State.poisonLine (s : State) (f line : Nat) (mask : Bool) : State :=
  if (s.frame f).state = .free then s
  else s.updFrame f (fun x =>
    let y := { x with poison := x.poison ||| BitVec.ofNat 4 (2 ^ line) }
    if mask then ({ y with valid := y.valid ||| BitVec.ofNat 4 (2 ^ line) }.setMask line 0).fixMasked else y)

/-- The lines of the coherent ranges that map to a set, with the links that share them (R387). -/
def State.setLines (s : State) (set : Nat) : List (Nat × List Nat) :=
  (s.spr.ssets.map (fun r => (List.range (r.size * 16)).map (fun h =>
    let hi := r.base * 16 + h
    ((hi * 2 ^ 18 + (BitVec.ofNat 18 set ^^^ BitVec.ofNat 18 hi).toNat), r.links)))).flatten

/-- Sweeps one set (R387): its entries become I and its trackers close; the requests they served wait again; every line of
every coherent range that maps to it is invalidated at every link of its sharing set. -/
def State.sweepSet (s : State) (set : Nat) : State :=
  let mine := fun (k : Tracker) => decide (dirSet k.line = set)
  let old := (s.spr.dir.filter (fun e => decide (e.1 / 16 = set))).map (fun e => e.2)
  let gone := s.spr.trackers.filter mine
  let again := gone.filterMap (fun k => match k.act with
    | .serve r | .retry r => some r
    | _ => none)
  let t := s.updSpr (fun x => { x with
    dir := x.dir.keep (fun k _ => decide (k / 16 ≠ set))
    trackers := x.trackers.filter (fun k => !mine k)
    snoops := x.snoops.filter (fun y => !gone.any (fun k => decide (k.id = y.tracker)))
    queue := again ++ x.queue })
  (t.setLines set).foldl (fun u e =>
    let keyId := match old.find? (fun (d : DirE) => decide (d.line = e.1)) with
      | some d => d.keyId
      | none => 0
    u.openTracker e.1 .evict 2 keyId (e.2.map u.group).eraseDups) t

/-- A context faults (11 R342): its queued reads leave the pass, its state and kind are set, FAULT is raised. -/
def State.faultCtx (s : State) (i kind : Nat) : State :=
  let t := s.dropRequests (fun q => match q.purpose with
    | .whisk x _ => decide (x = i)
    | _ => false)
  (t.updCtx i (fun c => { c with
    state := 5, kind := kind, pausing := false, granted := [], need := [], got := [], bad := 0
    issued := false, slots := [], masked := [], reads := [], pages := [] })).raise
      (.wsk (i / 4)) (4 + i % 4)

/-- A channel halts (11 R343, 14 R406): its other contexts stop, and its epoch is incremented. -/
def State.haltChannel (s : State) (c : Nat) : State :=
  (((s.updChan c (fun x => { x with halted := true })).stopChannel c 1).revert (.whisk c)).raise (.wsk c) 8

/-- A row's parity in the stockpot is lost: the row is sealed with pad pages (R385, 05 R163). -/
def State.loseRow (s : State) (stripe page : Nat) : State :=
  match s.med.openStripes.find? (fun o => decide (o.stripe = stripe)) with
  | some o => s.padRow o page
  | none => s

/-- A block's open parity is lost (05 R170): its newest mirror stands in, and the pages above are seal-scanned at once. -/
def State.loseBlockParity (s : State) (pb : Nat) : State :=
  let from_ := match s.med.parity.find ((s.blk pb).mirror / 64) with
    | some m => if m.pkind = 3 ∧ m.src = srcOf pb then m.row + 1 else 0
    | none => 0
  { s with
    stk := { s.stk with blockLost := insertNew s.stk.blockLost pb }
    upk := { s.upk with
      sealQueue := (pb, s.now) :: s.upk.sealQueue.filter (fun e => e.1 != pb)
      seals := if s.upk.sealQueue.any (fun e => decide (e.1 = pb)) then s.upk.seals else s.upk.seals.put pb (4 * from_) } }

/-- Marks the parents of a counter INCOMPLETE (18 R496). -/
def State.incomplete : Nat → Nat → State → State
  | 0, _, s => s
  | fuel + 1, n, s =>
    let p := fld (s.sel n) 25 16
    if 512 ≤ p ∧ p < 768 then
      State.incomplete fuel p { s with tly := { s.tly with
        counters := s.tly.counters.upd .zero p (fun c => { c with incomplete := true }) } }
    else s

/-- A counter's word is lost (18 R496): it freezes and reads INVALID, and its ancestors INCOMPLETE. -/
def State.loseCounter (s : State) (n : Nat) : State :=
  (State.incomplete 258 n { s with tly := { s.tly with
    counters := s.tly.counters.upd .zero n (fun c => { c with invalid := true }) } }).raise .tly 1

/-- A staged spike record is lost: a DAMAGED record takes its place (18 R507). -/
def State.damageRecord (s : State) (slot : Nat) : State :=
  let f := fun (r : SpikeRec) => if r.serial.toNat % 4096 = slot then
    { r with code := 2, sev := 1, p0 := BitVec.ofNat 64 slot, p1 := r.serial.setWidth 64, p2 := 0, p3 := 0, suppressed := 0 }
    else r
  { s with spk := { s.spk with staged := s.spk.staged.map f } }

/-- An ingress entry's data are lost: the line's poison bit is set (R385). -/
def State.poisonIngress (s : State) (n : Nat) (q : BitVec 16) : State :=
  s.setLink n (fun l => { l with iwq := l.iwq.map (fun (e : IwqEntry) => if e.seq = q then { e with poison := true } else e) })

/-- Both copies of an ingress entry's header are lost (R386): the entry is discarded, INGRESS_LOST recorded, DEGRADED
set. -/
def State.loseIngress (s : State) (n : Nat) (q : BitVec 16) : State :=
  match (s.link n).iwq.find? (fun e => decide (e.seq = q)) with
  | none => s
  | some e =>
    let t := { s with flt := { s.flt with degraded := true } }
    let t := (t.freeEntry n q).noteAccepted n e.arr
    (t.record 0x2002 n q.toNat 0 0).spice

/-- Locks a map-stack line for reconstruction (R388). -/
def State.lockLine (s : State) (off : Nat) : State :=
  { s with mec := { s.mec with locked := insertNew s.mec.locked (off / 64) } }

/-- The rule of the block that read the word (R385). -/
def State.badWord (s : State) (off : Nat) : BadWord → State
  | .frameData f l => s.poisonLine f l.val false
  | .frameMask f l => s.poisonLine f l.val true
  | .frameTag f => s.loseFrame f
  | .second => s
  | .rowParity stripe page => s.loseRow stripe page
  | .blockParity pb => s.loseBlockParity pb
  | .ladleWay p w => s.updLadle p.val (fun l => l.setWay w .empty)
  | .spiceSet (some x) => (s.sweepSet x.val).spice
  | .spiceSet none => ((List.range 262144).foldl (fun t x => t.sweepSet x) s).spice
  | .hookCell h => s.setHook h.val { (s.hook h.val).break_ with serial := 0 }
  | .entryCache => s  -- the line is invalidated and refetched from the stacks: its set holds it as before
  | .staging => { s with siv := { s.siv with lostStaging := true } }
  | .steward c => (s.stewardRestart c.val 0).loseProgress
  | .whiskStaging i => (s.faultCtx i.val 4).haltChannel (i.val / 4)
  | .saveArea i => s.updCtx i.val (fun c => { c with saveErr := true })
  | .railEntry r => s.resetRail r
  | .ingressData n q => s.poisonIngress n.val q
  | .ingressHeader n q => s.loseIngress n.val q
  | .victim p k => s.updLadle p.val (fun l => { l with victims := l.victims.eraseIdx k })
  | .spikeSlot k => s.damageRecord k.val
  | .counter n => s.loseCounter n.val
  | .bin k => ({ s with tly := { s.tly with
      bins := s.tly.bins.upd .zero k.val (fun c => { c with invalid := true }) } }).raise .tly 1
  | .scrubList k => { s with mec := { s.mec with scrub := { s.mec.scrub with
      list := updAt (fun e => (e.1, 15)) k.val s.mec.scrub.list } } }
  | .keySlot n ok => if ok then s else s.updSlot n.val (fun x => { x with state := 2 })
  | .mapLine => s.lockLine off
  | .engine e => s.loseEngine e.val
  | .stream q => s.renew (.stream q.val)

/-- An uncorrectable word (R385): counted, recorded with its action (a free value where the spec names none), UE raised,
reported to the ledger, and handled by its block. Answers the action. -/
def State.uncorrectable (s : State) (domain inst off : Nat) (w : BadWord) : Nat × State :=
  let d := s.draw
  let a := match badAction w with
    | some a => (a, s)
    | none => ((Config.freeWord d.1).toNat % 16, d.2)
  let t := a.2.countBad domain inst off a.1
  let u := wordUnit domain inst off
  let t := t.takeReport ⟨if domain = 8 then 13 else 11, u.1, u.2⟩
  (a.1, t.badWord off w)

/-! ### The fault ledger's command (14 R398) -/

/-- The type of the unit that a source charges (14 R398). -/
def sourceUnit : Nat → Nat
  | 1 | 2 | 4 | 5 => 1
  | 3 | 7 => 0
  | 6 => 2
  | 8 | 9 => 3
  | 10 | 11 | 15 => 5
  | 12 | 13 | 14 => 4
  | 16 => 6
  | _ => 7

/-- FAULT_REPORT (14 R398): the ledger takes a report: the oldest that a block has made, one that reaches it now, or a
word corrected or found uncorrectable. -/
def execFaultReport (x : FaultIn) (s : State) : Host.Outcome State Fault Refusal :=
  match x with
  | .queued => match s.reports with
    | [] => .next s
    | r :: rs => .next (({ s with reports := rs }).takeReport r)
  | .unit source uid =>
    if source.val = 0 then .next s
    else if source.val = 16 then .next (s.stewardRestart (uid % 12) 0)
    else .next (s.takeReport ⟨source.val, sourceUnit source.val, uid⟩)
  | .corrected d i off p0 p1 => .next (s.corrected d.val i.val off p0.val p1.val)
  | .uncorrectable d i off w => .next (s.uncorrectable d.val i.val off w).2

/-! ### Map-stack reconstruction (R388 to R391) -/

/-- Rebuilds a line of the media block table (R388): its fields from the checkpoint copy, CURSOR from the newest durable
CURSOR record, VALID at 65,536, the plane block marked unknown. -/
def State.rebuildBlock (s : State) (pb : Nat) : State :=
  let old := match s.siv.ckptDone with
    | some c => c.table.getD pb .blank
    | none => .blank
  let cur := (s.siv.journal.filter (fun r => decide (r.kind = .cursor) && decide (pbOfAddr r.loc = pb))).getLast?
  let t := s.updBlk pb (fun _ => { old with
    valid := 65536
    cursor := match cur with
      | some r => saPage r.loc
      | none => old.cursor })
  { t with mec := { t.mec with unknown := insertNew t.mec.unknown pb } }

/-- Whether the checkpoint line that a reconstruction reads is lost after class C, or fails its tag (R391, 12 R366): a line of the loaf,
slice or block table of a device that has a durable checkpoint; whether it does is open (log entry 87). -/
def State.ckptLineLost (s : State) (x : Nat) : Bool :=
  decide (x * 64 < 0x310000000) && s.siv.ckptDone.isSome && Config.startReadLost (s.free * 2 ^ 40 + 2 ^ 39 + x)

/-- A line of the slice table of a block that no loaf owns is rewritten with zero entries (R389). -/
def State.zeroUnowned (s : State) (line : Nat) : State :=
  if s.siv.blocksUsed.contains (line / 32) then s
  else { s with siv := { s.siv with slices := (List.range 8).foldl (fun (m : SMap SliceE) k =>
    m.set .unmapped (line * 8 + k) .unmapped) s.siv.slices } }

/-- MAP_STACK_RECONSTRUCTION (R388, R389): the oldest locked line is rebuilt, written, its region's checksum recomputed, and
unlocked; what waited for it goes on. A line of the loaf or slice table is rebuilt to what it held, one of a block that no loaf owns
to zeros. A checkpoint line that cannot be
had is a metadata integrity failure (R391): the METADATA alarm and lid down, and the line stays locked. -/
def execMapStackReconstruction (s : State) : Host.Outcome State Fault Refusal :=
  if s.unclocked then .next s else
  match s.mec.locked with
  | [] => .next s
  | x :: xs =>
    if s.ckptLineLost x then .next (({ s with free := s.free + 1 }.alarm 2 ⟨0x3FF, 0x3FF, 33, 0, 0⟩).lidDown 2) else
    let t := { s with free := s.free + 1, mec := { s.mec with
      locked := xs
      words := (List.range 8).foldl (fun (m : SMap (BitVec 78)) k => m.del (plantKey 8 0 (x * 64 + 8 * k) false)) s.mec.words } }
    let off := x * 64
    let t := if 0x300000000 ≤ off ∧ off < 0x310000000 then t.rebuildBlock ((off - 0x300000000) / 64)
      else if 0x100000000 ≤ off ∧ off < 0x300000000 then t.zeroUnowned ((off - 0x100000000) / 64)
      else t
    .next ((t.raise .mec 12).wakeLookups.settle).afterPrograms

/-! ### Test mode (R392) -/

/-- Whether no link has MEM_ACTIVE set. -/
def State.rawOk (s : State) : Bool := (List.range 32).all (fun n => !(s.link n).memActive)

/-- Bytes of a domain's offset space: both map stacks share one. -/
def domainBytes (d : Nat) : Nat := if d = 8 then 24 * 2 ^ 30 else domainKiB d * 1024

/-- The instance that MEC_DOM_SEL names: one beyond the domain's count is 0 (R396). -/
def State.selInst (s : State) : Nat :=
  let i := s.liveFld .mec 0x40 6 4
  if i < domainInsts (s.liveFld .mec 0x40 3 0) then i else 0

/-- The offset in MEC_TEST_ADDR. -/
def State.testAddr (s : State) : Nat := (s.getLive .mec 0xA0).toNat + s.liveFld .mec 0xA4 2 0 * 2 ^ 32

/-- Whether a test access is accepted (R392). -/
def State.testOk (s : State) (row : Bool) : Bool :=
  let d := s.liveFld .mec 0x40 3 0
  if 8 < d then false
  else if row then decide (s.testAddr ≤ 0x1F8)
  else s.rawOk && !([0, 5, 7] : List Nat).contains d && decide (s.testAddr < domainBytes d)

/-- The key of the word that a test access names. -/
def State.testKey (s : State) (row : Bool) : Nat :=
  plantKey (s.liveFld .mec 0x40 3 0) s.selInst s.testAddr row

/-- The stored bits of the word a test access names: those a raw write planted; a test row holds zeros before; a map-stack
entry as the tables hold it; else the word of a block, whose place in the array the spec leaves open. -/
def State.testWord (s : State) (row : Bool) : BitVec 78 × State :=
  match s.mec.words.find (s.testKey row) with
  | some w => (w, s)
  | none =>
    let off := s.testAddr
    if row then (0, s)
    else if s.liveFld .mec 0x40 3 0 = 8 ∧ off < 0x100000000 then (bchEncode (BitVec.ofNat 64 (s.loaf (off / 8)).word), s)
    else if s.liveFld .mec 0x40 3 0 = 8 ∧ off < 0x300000000 then
      (bchEncode (BitVec.ofNat 64 (s.sliceE ((off - 0x100000000) / 2048) (off / 8 % 256)).word), s)
    else
      let d := s.draw
      (bchEncode (Config.freeWord d.1), d.2)

/-- Runs a test access where it is accepted; a refused one sets REFUSED. OP reads 0 when it is done. -/
def State.testAccess (s : State) (path : Path) (row : Bool) (body : State → State) : State :=
  if s.mayWrite path .mec then
    let t := s.setLive .mec 0xB4 (bit32 row 2)
    if t.testOk row then body { t with mec := { t.mec with refused := false } }
    else { t with mec := { t.mec with refused := true } }
  else s

/-- RAW_WRITE (R392): stores TEST_DATA and TEST_CHK without encoding; an entry of the map stacks is then what the word decodes to. -/
def execRawWrite (path : Path) (row : Bool) (s : State) : Host.Outcome State Fault Refusal :=
  .next (s.portWrite path 0x2700B4 (1 ||| bit32 row 2) (fun s =>
    (s.testAccess path row (fun t =>
      let d : BitVec 64 := t.getLive .mec 0xAC ++ t.getLive .mec 0xA8
      let w : BitVec 78 := d ++ (t.getLive .mec 0xB0).setWidth 14
      let u := { t with mec := { t.mec with words := t.mec.words.put (t.testKey row) w } }
      if u.liveFld .mec 0x40 3 0 = 8 ∧ row = false then u.plantEntry u.testAddr w else u))))

/-- Loads TEST_DATA and TEST_CHK from stored bits. -/
def State.loadTest (s : State) (w : BitVec 78) : State :=
  ((s.setLive .mec 0xA8 (w.extractLsb' 14 32)).setLive .mec 0xAC (w.extractLsb' 46 32)).setLive .mec 0xB0
    ((w.extractLsb' 0 14).setWidth 32)

/-- RAW_READ (R392): loads the stored bits without correction. -/
def execRawRead (path : Path) (row : Bool) (s : State) : Host.Outcome State Fault Refusal :=
  .next (s.portWrite path 0x2700B4 (2 ||| bit32 row 2) (fun s =>
    (s.testAccess path row (fun t =>
      let x := t.testWord row
      x.2.loadTest x.1))))

/-- CHECKED_READ (R392): decodes the word as a block would and reports the result and the corrected positions; nothing is
counted. -/
def execCheckedRead (path : Path) (row : Bool) (s : State) : Host.Outcome State Fault Refusal :=
  .next (s.portWrite path 0x2700B4 (3 ||| bit32 row 2) (fun s =>
    (s.testAccess path row (fun t =>
      let x := t.testWord row
      let put := fun (r p0 p1 : Nat) (w : BitVec 78) =>
        let u := x.2.loadTest w
        { u with mec := { u.mec with result := r, pos0 := p0, pos1 := p1 } }
      match bchDecode x.1 with
      | .clean => put 0 0x7F 0x7F x.1
      | .corrected p none => put 1 p 0x7F (flipBits x.1 p none)
      | .corrected p (some q) => put 1 p q (flipBits x.1 p (some q))
      | .bad => put 2 0x7F 0x7F x.1))))

/-! ### The scrubber (R393, R394) -/

/-- Whether a scrub may cover a range: domains 0 to 6 and 8, lines of 64 B, within the instance. -/
def scrubOk (domain inst start len : Nat) : Bool :=
  decide (domain ≤ 8) && decide (domain ≠ 7) && decide (inst < domainInsts domain) && decide (start % 64 = 0) &&
    decide (len % 64 = 0) && decide (start + len ≤ domainBytes domain)

/-- Starts a scrub. -/
def State.startScrub (s : State) (p : Option Path) (domain inst start len : Nat) : State :=
  { s with mec := { s.mec with scrub := {
    busy := true, since := s.now, path := p, domain := domain, inst := inst, start := start, len := len
    full := false, aborted := false, refused := false, words := 0, corrected := 0, bad := 0
    first := none, last := none, list := [] } } }

/-- SCRUB_GO (R393): a write of MEC_SCRUB_CTRL.GO with the registers' range; ignored while a scrub runs, refused where the
domain or the range is invalid. -/
def execScrubGo (path : Path) (domain : Fin 16) (inst : Fin 8) (s : State) : Host.Outcome State Fault Refusal :=
  .next (s.portWrite path 0x2700C0 (at32 domain.val 0 ||| at32 inst.val 4 ||| bit32 true 31) (fun s =>
    if !s.mayWrite path .mec || s.mec.scrub.busy then s
    else
      let t := s.setLive .mec 0xC0 (at32 domain.val 0 ||| at32 inst.val 4)
      let start := (t.getLive .mec 0xC4).toNat + t.liveFld .mec 0xC8 2 0 * 2 ^ 32
      let len := (t.getLive .mec 0xCC).toNat + t.liveFld .mec 0xD0 2 0 * 2 ^ 32
      if scrubOk domain.val inst.val start len then (t.startScrub none domain.val inst.val start len)
      else { t with mec := { t.mec with scrub := { t.mec.scrub with refused := true } } }))

/-- SCRUB_RANGE (R394): mailbox C070h starts a scrub; a range longer than 64 MiB runs in the background. -/
def execScrubRange (p : Path) (domain inst : Byte) (start len : BitVec 64) (s : State) :
    Host.Outcome State Fault Refusal :=
  .next (s.command p 0xC070 ownerOnly (fun s =>
    if s.mec.scrub.busy then s.fail p 0xC070 rcBusy
    else if scrubOk domain.toNat inst.toNat start.toNat len.toNat then
      let t := (s.startScrub (some p) domain.toNat inst.toNat start.toNat len.toNat).startRun p 0xC070 [] []
      if len.toNat ≤ 2 ^ 26 then t
      else match t.mbx.runs.getLast? with
        | some r => t.toBackground r
        | none => t
    else s.fail p 0xC070 rcInvalid))

/-- Notes an offset found in error. -/
def Scrub.note (b : Scrub) (off : Nat) : Scrub := { b with first := b.first.or (some off), last := some off }

/-- The instance that holds a word a scrub has read: of the map stacks, the stack that its offset names (R381). -/
def Scrub.instOf (b : Scrub) (off : Nat) : Nat := if b.domain = 8 then off / 4096 % 2 else b.inst

/-- The planted words that a scrub reads in error in the map stacks, by offset (R392, R393). -/
def State.plantedErrs (s : State) : List WordErr :=
  let b := s.mec.scrub
  if b.domain ≠ 8 then []
  else s.mec.words.filterMap (fun (e : Nat × BitVec 78) =>
    let off := e.1 % 2 ^ 40
    if b.start ≤ off ∧ off < b.start + b.len ∧ e.1 = plantKey 8 0 off false then
      match bchDecode e.2 with
      | .clean => none
      | .corrected p q => some (.corrected off (Fin.ofNat 128 p) (Fin.ofNat 128 (q.getD 0x7F)))
      | .bad => some (.bad off .mapLine)
    else none)

/-- The offset of a word in error. -/
def errOff : WordErr → Nat
  | .corrected off _ _ => off
  | .bad off _ => off

/-- Inserts a word in error by its offset; one already there stands. -/
def insertErr (e : WordErr) : List WordErr → List WordErr
  | [] => [e]
  | x :: xs => if errOff e < errOff x then e :: x :: xs else if errOff e = errOff x then x :: xs else x :: insertErr e xs

/-- What a scrub does with a word in error (R393): a corrected word is counted and written back; an uncorrectable one is
handled by its block and listed. -/
def State.scrubWord (s : State) : WordErr → State
  | .corrected off p0 p1 =>
    let b := s.mec.scrub
    let t := s.corrected b.domain (b.instOf off) off p0.val p1.val
    { t with mec := { t.mec with
      words := t.mec.words.del (plantKey b.domain b.inst off false)
      scrub := { t.mec.scrub.note off with corrected := t.mec.scrub.corrected + 1 } } }
  | .bad off w =>
    let b := s.mec.scrub
    let x := s.uncorrectable b.domain (b.instOf off) off w
    let t := x.2
    { t with mec := { t.mec with
      words := t.mec.words.del (plantKey b.domain b.inst off false)
      scrub := { t.mec.scrub.note off with
        bad := t.mec.scrub.bad + 1
        full := t.mec.scrub.full || decide (64 ≤ t.mec.scrub.list.length)
        list := if t.mec.scrub.list.length < 64 then t.mec.scrub.list ++ [(off, x.1)] else t.mec.scrub.list } } }

/-- The output of Scrub Range (R394). -/
def Scrub.output (b : Scrub) : List Byte :=
  let ones := 2 ^ 64 - 1
  leBytes 1 ((if b.full then 1 else 0) + (if b.aborted then 2 else 0)) ++ leBytes 1 b.list.length ++ leBytes 6 0 ++
    leBytes 8 b.words ++ leBytes 4 b.corrected ++ leBytes 4 b.bad ++ leBytes 8 (b.first.getD ones) ++
    leBytes 8 (b.last.getD ones) ++ (b.list.map (fun e => leBytes 8 e.1 ++ leBytes 8 e.2)).flatten

/-- Ends the running scrub: SCRUB_DONE, and the answer to the command that started it. -/
def State.endScrub (s : State) (words : Nat) (aborted : Bool) : State :=
  if s.mec.scrub.busy then
    let t := { s with mec := { s.mec with scrub := { s.mec.scrub with busy := false, words := words, aborted := aborted } } }
    (t.raise .mec 11).endRuns (fun r => decide (r.opcode = 0xC070)) rcOk t.mec.scrub.output
  else s

/-- SCRUB_END (R393): the scrub has read its range; `found` is what it found in error, in the order read, beside the words that the test
mode planted in the map stacks. -/
def execScrubEnd (found : List WordErr) (s : State) : Host.Outcome State Fault Refusal :=
  if s.unclocked then .next s else
  if s.mec.scrub.busy then
    .next (((s.plantedErrs.foldl (fun xs e => insertErr e xs) found).foldl (fun t e => t.scrubWord e) s).endScrub
      (s.mec.scrub.len / 8) false)
  else .next s

end Sys2Proof.Machine
end

