-- ==== Sys2Proof/Machine/Upkeep.lean ====
section
/-!
DEFINITION. Upkeep (07_upkeep.md): the scraper's victims, stripes moved on deck with wear rotation, the wear governor, the
drift clock, the taster's reads, and upkeep's mailbox commands.
-/

namespace Sys2Proof.Machine

/-! ### Stripes on deck (R207, R215) -/

/-- RESETS of a burner's member of a stripe. -/
def State.memberResets (s : State) (S b : Nat) : Nat := (s.blk (pbOfAddr (s.memberAddr S b 1023 0))).resets

/-- The sum of a stripe's members' RESETS: its mean but for the width. -/
def State.sumResets (s : State) (S : Nat) : Nat := (s.liveBurners.map (fun b => s.memberResets S b)).sum

/-- Units of wear of UPK_WEAR: SPREAD and ROTATE, in resets (R232). -/
def State.wearSpread (s : State) : Nat := max 1 (s.liveFld .upk 0x4C 7 0) * 10000
/-- UPK_WEAR.ROTATE in resets. -/
def State.wearRotate (s : State) : Nat := max 1 (s.liveFld .upk 0x4C 15 8) * 10000

/-- The stripe of some candidates that is least by a measure, ties by the lower stripe number. -/
def leastStripe (measure : Nat → Nat) (xs : List Nat) : Option Nat :=
  xs.foldl (fun m S => match m with
    | none => some S
    | some T => if measure S < measure T ∨ (measure S = measure T ∧ S < T) then some S else m) none

/-- The lowest user stripe that no table entry lists: FREE and never reset. -/
def State.firstBlank (s : State) : Option Nat :=
  let listed := s.listedStripes
  ((List.range (listed.length + 1)).map (fun i => 46 + i)).find? (fun S => s.userStripe S && !listed.contains S)

/-- The FREE user stripe that moves on deck next (R207). -/
def State.nextFree (s : State) : Option Nat :=
  let listed := s.listedStripes.filter (fun S => s.userStripe S && decide (s.stripeState S = .free) &&
    !s.upk.withdrawing.contains S)
  leastStripe s.sumResets (match s.firstBlank with
    | none => listed
    | some S => listed ++ [S])

/-- The ring area of a metadata stream: its first stripe and its length (05 R172). -/
def ringArea : Stream → Option (Nat × Nat)
  | .spike => some (4, 2)
  | .checkpoint => some (6, 16)
  | .journal => some (22, 24)
  | _ => none

/-- Whether a ring stripe holds a journal record not yet before the oldest live position (05 R172). -/
def State.ringLive (s : State) (S : Nat) : Bool :=
  let oldest := s.siv.journalSector - (s.siv.journal.length + 15) / 16
  s.med.sectors.any (fun e => decide (e.2.kind = 4) && decide (s.stripeAt e.1 = S) && decide (oldest ≤ e.2.unit) &&
    seqNewer e.2.seq s.med.formatSeq)

/-- The reserved stripe that a ring takes next, where none of its area stands on deck. -/
def State.nextRing (s : State) (q : Stream) : Option Nat :=
  match q, ringArea q with
  | _, none => none
  | .spike, some _ =>
    let S := s.spikeStripe
    if s.med.onDeck.contains S || s.med.resetting.any (fun e => decide (e.1 = S)) ||
        s.med.openStripes.any (fun o => decide (o.stripe = S)) then none
    else some S
  | _, some (f, n) =>
    let S := f + s.med.ringNext.getD (1000 + f) 0 % n
    let inArea := fun (T : Nat) => decide (f ≤ T) && decide (T < f + n)
    if s.med.onDeck.any inArea || s.med.resetting.any (fun e => inArea e.1) || s.ringLive S ||
        s.med.openStripes.any (fun o => decide (o.stripe = S)) then none
    else some S

/-- Mean RESETS of a burner's user blocks. -/
def State.meanResets (s : State) (b : Nat) : Nat :=
  ((s.med.table.filter (fun e => decide (e.1 % 4 = 0) && decide (e.1 / 81920 = b) &&
    s.userStripe (s.stripeOf (e.1 / 8192 % 10) (e.1 / 4 % 2048)))).map (fun e => e.2.resets)).sum / max 1 s.userTotal

/-- The spare of a burner with the most RESETS: its address [37:18]. -/
def State.heavySpare (s : State) (b : Nat) : Option (Nat × Nat) :=
  (s.med.table.filter (fun e => decide (e.1 % 4 = 0) && decide (e.1 / 81920 = b) && decide (e.2.state = .spare))).foldl
    (fun (m : Option (Nat × Nat)) e =>
      let x := (saOf b (e.1 / 8192 % 10) (e.1 / 4 % 2048) 0 0 0 / 2 ^ 18, e.2.resets)
      match m with
      | none => some x
      | some y => if y.2 < e.2.resets then some x else m) none

/-- Puts the spare `sp` in the place of the block that stands for a member now, which joins the pool (R215). -/
def State.swapSpare (s : State) (S b sp : Nat) : State :=
  let a := s.memberAddr S b 1023 0
  let e := s.blk (pbOfAddr a)
  let t := s.updBlock4 b (saCe a) (saBlock a) (fun x => { x with state := .spare, role := 3, width := 0 })
  let t := t.updBlock4 b (s.stripeCe S) (s.stripeBlock S) (fun x => { x with remap := sp, p0 := 0 })
  t.updBlock4 b (saCe (sp * 2 ^ 18)) (saBlock (sp * 2 ^ 18)) (fun x =>
    { x with state := e.state, width := e.width, role := e.role })

/-- Wear rotation of one member (R215). -/
def State.rotate (s : State) (S b : Nat) : State :=
  let r := s.memberResets S b
  if s.userStripe S then
    match s.heavySpare b with
    | some (sp, h) => if r + s.wearRotate < h then s.swapSpare S b sp else s
    | none => s
  else if s.meanResets b + s.wearRotate < r then
    match s.spareOf b with
    | some sp => s.swapSpare S b sp
    | none => s
  else s

/-- Moves a stripe on deck (R207, R215): remaps stand from page 0, members rotate, and their resets are issued in the
scraper class. A spike stripe's records are dropped at its reset (18 R506). -/
def State.putOnDeck (s : State) (S : Nat) : State :=
  let ms := s.liveBurners
  let t := ms.foldl (fun u b =>
    (u.updBlock4 b (u.stripeCe S) (u.stripeBlock S) (fun x => if x.remap = 0xFFFFF then x else { x with p0 := 0 })).rotate
      S b) s
  let t := { t with med := { t.med with resetting := t.med.resetting.put S ms } }
  let t := ms.foldl (fun u b => u.request .reset (u.memberAddr S b 0 0) .scraper .scraper (.relocate S)) t
  if S = 4 ∨ S = 5 then
    let half := fun (k : Nat) => decide (k / 131072 = S - 4)
    let gone := t.spk.ring.filter (fun e => half e.1)
    let oldest := (t.spk.ring.filter (fun e => !half e.1)).foldl (fun (m : Option (BitVec 32)) e => match m with
      | none => some e.2.serial
      | some x => if (e.2.serial - t.spk.next).toNat < (x - t.spk.next).toNat then some e.2.serial else m) none
    if gone.isEmpty then t
    else ({ t with spk := { t.spk with
      ring := t.spk.ring.filter (fun e => !half e.1)
      oldest := oldest.getD ((t.spk.staged.head?.map (fun (r : SpikeRec) => r.serial)).getD t.spk.next) } }).raise .spk 3
  else t

/-- ON_DECK (R207): the next FREE stripe of a stream's area moves on deck; each burner's list of user blocks is kept at
8. -/
def execOnDeck (q : Stream) (s : State) : Host.Outcome State Fault Refusal :=
  if s.unclocked then .next s else
  match ringArea q with
  | some (f, n) => match s.nextRing q with
    | none => .next s
    | some S =>
      let t := { s with med := { s.med with ringNext := s.med.ringNext.set 0 (1000 + f) ((S - f + 1) % n) } }
      .next (t.putOnDeck S)
  | none =>
    let user := countIf s.userStripe s.med.onDeck + countIf (fun e => s.userStripe e.1) s.med.resetting
    if 8 ≤ user then .next s
    else match s.nextFree with
      | none => .next s
      | some S => .next ((s.putOnDeck S).judgeCapacity)

/-! ### The scraper (R209, R210, R212) -/

/-- Whether every member of a user stripe is VERIFIED and none is marked unknown (R209, 13 R390). -/
def State.greedyStripe (s : State) (S : Nat) : Bool :=
  s.userStripe S && decide (s.stripeState S = .verified) && s.reclaimable S &&
    (s.memberPbs S).all (fun x => (decide ((s.blk x).state = .verified) || decide ((s.blk x).width = 0) ||
      decide ((s.blk x).state = .retired)) && !s.mec.unknown.contains x)

/-- Most and fewest RESETS of the blocks in service: an unlisted block has none. -/
def State.resetRange (s : State) : Nat × Nat :=
  let dies := (s.liveBurners.map (fun b => ((List.range s.dieCount).filter (fun ce => !(s.die b ce).retired)).map (fun ce => b * 10 + ce))).flatten
  let xs := s.med.table.filter (fun e => dies.contains (e.1 / 8192))
  let rs := (xs.filter (fun e => decide (e.2.state ≠ .retired))).map (fun e => e.2.resets)
  (rs.foldl max 0, if xs.length < dies.length * 8192 then 0 else match rs with
    | [] => 0
    | r :: rs => rs.foldl min r)

/-- Valid pages of a stripe (R209). -/
def State.validPages (s : State) (S : Nat) : Nat := (s.validOf S + 63) / 64

/-- The greedy choice (R209): fewest valid pages, then least worn, then lowest; every sixteenth choice may level wear
instead. -/
def State.greedyVictim (s : State) : Option Nat × State :=
  let c := s.listedStripes.filter s.greedyStripe
  let r := s.resetRange
  if c = [] then (none, s)
  else if s.wearSpread < r.1 - r.2 ∧ 15 ≤ s.upk.sinceWear then
    (leastStripe s.sumResets c, { s with upk := { s.upk with sinceWear := 0 } })
  else
    (leastStripe (fun S => s.validPages S * 2 ^ 40 + s.sumResets S) c,
      { s with upk := { s.upk with sinceWear := s.upk.sinceWear + 1 } })

/-- Starts to empty a victim (R210). -/
def State.startVictim (s : State) (S prec : Nat) : State :=
  let t := { s with upk := { s.upk with
    victim := some S, victimPrec := prec, victimRead := s.victimReads S
    lastV := if prec = 0 then s.validPages S else s.upk.lastV
    lastPages := if prec = 0 then max 1 (4096 * (s.widthOf S - 2)) else s.upk.lastPages } }
  let t := t.updStripe S (fun b => { b with state := .victim })
  (State.scrape 16 t).freeEmptied

/-- Whether the scraper may take a forced victim: a rebuild waits while F is at the keep (R227). -/
def State.mayForce (s : State) (f : Forced) : Bool := decide (f.prec ≠ 1) || !s.atKeep

/-- VICTIM_CHOICE (R209, R212): the scraper takes the first forced victim, else, at or below START, the greedy one; it
pauses in lid down (12 R368) and in Simmer. -/
def execVictimChoice (s : State) : Host.Outcome State Fault Refusal :=
  if s.prot.lid || s.upk.victim.isSome || decide (s.pwrState = .simmer) then .next s
  else
    let t := s.judgeRebuild
    match takeFirst t.mayForce t.upk.forced with
    | some (f, rest) => .next (({ t with upk := { t.upk with forced := rest } }).startVictim f.stripe f.prec)
    | none =>
      if t.liveFld .upk 0x44 15 0 < t.freeStripes then .next t
      else
        let g := t.greedyVictim
        match g.1 with
        | none => .next g.2
        | some S => .next (g.2.startVictim S 0)

/-! ### The governor and the drift clock (R214, R216) -/

/-- GOVERNOR_WINDOW (R214): a new window of 1 s begins and its budget is whole. -/
def execGovernorWindow (s : State) : Host.Outcome State Fault Refusal :=
  if s.unclocked then .next s else
  let t := s.reach (s.upk.govWindow + Config.sec)
  .next { t with upk := { t.upk with
    govWindow := t.now, govSpent := 0, governedLast := t.upk.governed, governed := false } }

/-- log2 of the tick rate in a band: 7 is treated as 6 (R232). -/
def State.accel (s : State) (band : Nat) : Nat := min 6 (s.liveFld .upk 0x70 (3 * band + 2) (3 * band))

/-- Whether a stripe's oldest programmed anchor has reached 2^31 ticks (R216). -/
def State.tooOld (s : State) (S : Nat) : Bool :=
  (s.memberPbs S).any (fun x => ((s.blk x).anchors.filter (fun a => decide (a ≠ 0xFFFFFFFF))).any
    (fun a => decide (2 ^ 31 ≤ (s.upk.driftClk - BitVec.ofNat 32 a).toNat)))

/-- DRIFT_CLOCK_TICK (R216): 4 s of operating time have passed; the clock advances by 2^A for the band of the mean media
temperature, and stands still in Cold; stripes whose anchors are too old are queued at precedence 6. -/
def execDriftClockTick (s : State) : Host.Outcome State Fault Refusal :=
  if s.pwrState = .cold ∨ s.pwrState = .ramping then .next s else
  let t := s.reach (s.upk.driftAt + 4 * Config.sec)
  let t := { t with upk := { t.upk with
    driftAt := t.now, driftClk := t.upk.driftClk + BitVec.ofNat 32 (2 ^ t.accel (min 4 t.thm.meanBand)) } }
  .next ((t.listedStripes.filter (fun S => t.userStripe S && decide (t.stripeState S ≠ .free) &&
    decide (t.stripeState S ≠ .onDeck) && t.tooOld S)).foldl (fun u S => u.queueForced 6 S) t)

/-! ### The taster (R220, 05 R170) -/

/-- The codewords of a stripe's pages, numbered in the patrol's order. -/
def State.patrolAddr (s : State) (S k : Nat) : Option Nat :=
  let ms := s.spans S
  if ms = [] then none
  else
    let p := k / (16 * ms.length)
    if p < 1024 ∧ s.rowSealed S p = true then
      some (s.memberAddr S (ms.getD (k / 16 % ms.length) 0) p (k / 4 % 4) + k % 4 * 16)
    else none

/-- The stripes that are patrolled: user, spike, checkpoint and journal stripes with a sealed row (R220). -/
def State.patrolled (s : State) (S : Nat) : Bool :=
  decide (4 ≤ S) && decide (S < ringFirst s.dieCount - spareStripes s.dieCount) && (s.patrolAddr S 0).isSome

/-- The patrol period in seconds (R232). -/
def State.patrolPeriod (s : State) : Nat := max 1 (min 30 (s.liveFld .upk 0x60 4 0)) * 86400

/-- PATROL_T of a stripe: the oldest of its plane blocks'. -/
def State.patrolTime (s : State) (S : Nat) : Nat :=
  match (s.memberPbs S).filterMap (fun x => if (s.blk x).width = 0 then none else some (s.blk x).patrolT) with
  | [] => 0
  | t :: ts => ts.foldl min t

/-- Stripes whose last patrol is more than a period old (R222). -/
def State.overdue (s : State) : List Nat :=
  s.listedStripes.filter (fun S => s.patrolled S && decide (s.patrolTime S + s.patrolPeriod < s.opsec))

/-- The stripe the patrol goes on to: in catch-up the one longest unread, else the next in number; at the end of a pass a
new one begins. -/
def State.nextPatrol (s : State) : State :=
  let t := { s with upk := { s.upk with patrolPos := 0 } }
  match (if s.upk.catchup then leastStripe t.patrolTime (t.overdue.filter (fun S => decide (S ≠ s.upk.patrolStripe)))
      else none) with
  | some S => { t with upk := { t.upk with patrolStripe := S } }
  | none =>
    let t := { t with upk := { t.upk with catchup := false } }
    let later := t.listedStripes.filter (fun S => decide (s.upk.patrolStripe < S) && t.patrolled S)
    match leastStripe (fun S => S) later with
    | some S => { t with upk := { t.upk with patrolStripe := S } }
    | none => { t with upk := { t.upk with
        patrolStripe := (leastStripe (fun S => S) (t.listedStripes.filter t.patrolled)).getD 0
        patrolFast := false, patrolStarted := t.now, patrolDone := t.now, warnCounts := [] } }

/-- Whether the taster runs: not in Simmer (R220) or lid down (12 R368). -/
def State.tasterRuns (s : State) : Bool := !s.prot.lid && decide (s.pwrState ≠ .simmer)

/-- A new patrol pass begins from stripe 0, at four times the pace (R232). -/
def State.restartPatrol (s : State) : State :=
  { s with upk := { s.upk with
    patrolStripe := 0, patrolPos := 0, patrolFast := true, patrolStarted := s.now, patrolRestart := false, catchup := false } }

/-- PATROL_READ (R220): the taster issues its next patrol read; a restart asked for while it did not run begins first. -/
def execPatrolRead (s : State) : Host.Outcome State Fault Refusal :=
  if s.unclocked then .next s else
  if !s.tasterRuns then .next s
  else
    let s := if s.upk.patrolRestart then s.restartPatrol else s
    let t := match s.patrolAddr s.upk.patrolStripe s.upk.patrolPos with
      | some _ => s
      | none => s.nextPatrol
    match t.patrolAddr t.upk.patrolStripe t.upk.patrolPos with
    | none => .next t
    | some a => .next ((({ t with upk := { t.upk with patrolPos := t.upk.patrolPos + 1 } }).request .read a .taster
        .taster (.patrol t.upk.patrolStripe)).tally (.plain 0x032) 1)

/-- PATROL_RESTART (R232): a write of UPK_CTRL.PATROL_RESTART starts a new pass; while the taster does not run, in lid down, it waits. -/
def execPatrolRestart (path : Path) (s : State) : Host.Outcome State Fault Refusal :=
  if s.unclocked then .next s else
  .next (s.portWrite path 0x22000C 1 (fun s =>
    if !s.mayWrite path .upk then s
    else if s.tasterRuns then s.restartPatrol
    else { s with upk := { s.upk with patrolRestart := true } }))

/-- SEAL_SCAN (05 R170): the taster reads the next codeword of the oldest plane block that waits for its seal scan, at the
levels of bucket 0. -/
def execSealScan (s : State) : Host.Outcome State Fault Refusal :=
  if s.unclocked then .next s else
  if !s.tasterRuns then .next s
  else match s.upk.sealQueue with
    | [] => .next s
    | (x, _) :: rest =>
      let k := s.upk.seals.getD x 0
      let done := { s with upk := { s.upk with sealQueue := rest } }
      if 4 * (s.blk x).cursor ≤ k then .next (done.settleSeals x)
      else
        let a := saOf (x / 81920) (x / 8192 % 10) (x / 4 % 2048) (k / 4) (x % 4) (k % 4 * 16)
        let t := if 4 * (s.blk x).cursor = k + 1 then done else s
        .next ((({ t with upk := { t.upk with seals := t.upk.seals.put x (k + 1) } }).request .read a .taster .taster
          (.seal x)).tally (.plain 0x032) 1)

/-! ### Mailbox commands (R228 to R230) -/

/-- The burner with the fewest spares, and how many. -/
def State.fewestSpares (s : State) : Nat × Nat :=
  s.liveBurners.foldl (fun m b => if s.spareCount b < m.2 then (b, s.spareCount b) else m)
    (s.liveBurners.headD 0, s.spareCount (s.liveBurners.headD 0))

/-- Write amplification × 100 over the last 60 s (R213): the slices programmed in the host and upkeep streams, pads and folded copies
with them, over the slices of hosts and whisks among them. -/
def State.writeAmp (s : State) : Nat :=
  let xs := s.upk.wa.filter (fun e => decide (s.now < e.1 + 60 * Config.sec))
  let host := (xs.map (fun e => e.2.2)).sum
  if host = 0 then 100 else (xs.map (fun e => e.2.1)).sum * 100 / host

/-- Patrol progress in percent. -/
def State.patrolPct (s : State) : Nat := min 100 (s.upk.patrolStripe * 100 / max 1 (ringFirst s.dieCount))

/-- A flag as the bit `i` of a number. -/
def flag (b : Bool) (i : Nat) : Nat := if b then 2 ^ i else 0

/-- UPKEEP_STATUS (R228): C060h. -/
def execUpkeepStatus (p : Path) (s : State) : Host.Outcome State Fault Refusal :=
  .next (s.command p 0xC060 ownerOnly (fun s =>
    let f := s.freeStripes
    let sp := s.fewestSpares
    let r := s.resetRange
    let bits := flag s.upk.victim.isSome 0 + flag (decide (f ≤ s.liveFld .upk 0x44 31 16)) 1 + flag s.upk.capAlert 2 +
      flag s.upk.pantry 3 + flag s.upk.governedLast 4 + flag (decide (s.upk.rebuildState ≠ 0)) 5 + flag s.upk.catchup 6 +
      flag s.upk.spareLow 7
    s.reply p 0xC060 rcOk (leBytes 4 f ++ leBytes 4 (floorOf s.dieCount) ++ leBytes 1 bits ++ leBytes 1 sp.1 ++
      leBytes 2 sp.2 ++ leBytes 2 (sat 16 s.writeAmp) ++ leBytes 2 s.patrolPct ++ leBytes 4 r.1 ++ leBytes 4 r.2 ++
      leBytes 4 s.upk.driftClk.toNat ++ leBytes 4 s.upk.withdrawn)))

/-- REBUILD_STATUS (R229): C062h. -/
def execRebuildStatus (p : Path) (s : State) : Host.Outcome State Fault Refusal :=
  .next (s.command p 0xC062 ownerOnly (fun s =>
    s.reply p 0xC062 rcOk (leBytes 1 s.upk.rebuildState ++ leBytes 1 (bitsSet 32 s.upk.retiredMask.toNat).length ++
      leBytes 1 s.upk.lastRetired ++ leBytes 1 0 ++ leBytes 4 s.upk.rebuildLeft ++ leBytes 8 s.upk.rebuildBytes)))

/-- RETIRE_BURNER (R229): C061h retires a burner or refuses it, by the first of the refusals 3, 1, 2, 4; a started one
completes when its forced checkpoint is durable. A burner beyond 31 is no burner. -/
def execRetireBurner (p : Path) (b : Byte) (s : State) : Host.Outcome State Fault Refusal :=
  .next (s.command p 0xC061 ownerOnly (fun s =>
    let b := b.toNat
    if 32 ≤ b then s.fail p 0xC061 rcInvalid
    else if bitOf s.upk.retiredMask b then s.outcome p 0xC061 3
    else if 2 ≤ (bitsSet 32 s.upk.retiredMask.toNat).length then s.outcome p 0xC061 1
    else if s.upk.rebuildState ≠ 0 then s.outcome p 0xC061 2
    else if s.tooManyLost (fun _ x => decide (x = b)) then s.outcome p 0xC061 4
    else
      let t := s.startRun p 0xC061 [s.siv.ckptNum + 1] []
      (t.retireBurner b).noteRetire ⟨0, 2, b⟩ 1))

/-- RETIRE_DIE (R230): C063h retires a die or refuses it, by the first of the refusals 4, 2, 1, 3. -/
def execRetireDie (p : Path) (b ce : Byte) (s : State) : Host.Outcome State Fault Refusal :=
  .next (s.command p 0xC063 ownerOnly (fun s =>
    let b := b.toNat
    let ce := ce.toNat
    if 32 ≤ b then s.fail p 0xC063 rcInvalid
    else if s.dieCount ≤ ce then s.outcome p 0xC063 4
    else if bitOf s.upk.retiredMask b then s.outcome p 0xC063 2
    else if (s.die b ce).retired || (s.die b ce).failed then s.outcome p 0xC063 1
    else if s.tooManyLost (fun S x => decide (x = b) && decide (s.stripeCe S = ce)) then s.outcome p 0xC063 3
    else
      let t := s.startRun p 0xC063 [s.siv.ckptNum + 1] []
      let t := (t.retireDie b ce).noteRetire ⟨0, 1, dieId b ce⟩ 1
      if max 1 (t.liveFld .flt 0x44 11 8) ≤ t.retiredDies b then t.decideBurner ⟨0, 1, dieId b ce⟩ b else t))

end Sys2Proof.Machine
end

