-- ==== Sys2Proof/Machine/Observe.lean ====
section
/-!
DEFINITION. The commands of the tallies, the histograms and the spike (18_observability.md R497, R498, R501, R510, R511,
R515).
-/

namespace Sys2Proof.Machine

/-! ### Tallies and histograms -/

/-- Clears a counter: its value and its flags (R496, R497). -/
def State.clearCounter (s : State) (n : Nat) : State :=
  { s with tly := { s.tly with counters := s.tly.counters.del n } }

/-- Clears a histogram unit: its bins and HIST_MAX (R497, R500). -/
def State.clearUnit (s : State) (u : Nat) : State :=
  { s with tly := { s.tly with
    bins := s.tly.bins.filter (fun e => !decide (e.1 / 32 = u)), hmax := s.tly.hmax.del u } }

/-- A write of TLY_CLEAR: its fields are stored, and with GO the range is cleared at once (R497, R513). -/
def State.tallyClear (s : State) (v : W32) : State :=
  let t := s.setLive .tly 0x40 (v &&& 0x1FFFFF)
  let first := fld v 9 0
  let last := fld v 19 10
  let range := (List.range (last + 1)).filter (fun k => decide (first ≤ k))
  if !bitOf v 31 then t
  else if bitOf v 20 then (range.filter (fun k => decide (k < 32))).foldl State.clearUnit t
  else (range.filter (fun k => decide (k < 768))).foldl State.clearCounter t

/-- TALLY_CLEAR (R497): a write of TLY_CLEAR. -/
def execTallyClear (path : Path) (v : BitVec 32) (s : State) : Host.Outcome State Fault Refusal :=
  .next (s.portWrite path 0x520040 v (fun s =>
    if s.mayWrite path .tly then (s.tallyClear v) else s))

/-- Copies every counter and bin into the snapshot bank (R497). -/
def State.tallySnapshot (s : State) : State :=
  { s with tly := { s.tly with
    snap := s.tly.counters, sbins := s.tly.bins, snapSerial := (s.tly.snapSerial + 1) % 65536 } }

/-- SNAPSHOT (R497, R498): a write of 1 to TLY CTRL.SNAPSHOT, a tenant's too. -/
def execSnapshot (path : Path) (s : State) : Host.Outcome State Fault Refusal :=
  .next (s.portWrite path 0x52000C 1 (fun s =>
    if !s.heard path then s else match s.view path .tly with
    | .full | .tenant => s.tallySnapshot
    | _ => s))

/-- Whether filter `f` shows what it counts to a link (R498). -/
def State.filterShows (s : State) (f n : Nat) : Bool :=
  let c := s.getLive .tly (0x2000 + f * 0x20)
  bitOf c 13 && decide (fld c 18 14 = n)

/-- Whether a path sees what a filter counts (R498). -/
def State.tallySees (s : State) (p : Path) (f : Nat) : Bool :=
  match p with
  | .mctp => true
  | .link n => decide (n.val = s.foLink) || s.filterShows f n.val

/-- Whether a path sees counter `n`. -/
def State.seesCounter (s : State) (p : Path) (n : Nat) : Bool := s.tallySees p (fld (s.sel n) 15 10)

/-- Whether a path sees histogram unit `u`. -/
def State.seesUnit (s : State) (p : Path) (u : Nat) : Bool :=
  s.tallySees p (s.liveFld .tly (0x3000 + u * 0x10) 8 3)

/-- Eight bytes of a counter or a bin (R501). -/
def Counter.item (c : Counter) (seen : Bool) : List Byte :=
  if seen then leBytes 6 c.val ++ [byteOf (c.sat.toNat + 2 * c.invalid.toNat + 4 * c.incomplete.toNat), 0]
  else [0, 0, 0, 0, 0, 0, 8, 0]

/-- The items of a range of snapshot counters (R501). -/
def State.snapItems (s : State) (p : Path) (first count : Nat) : List Byte :=
  ((List.range count).map (fun k => (s.tly.snap.getD (first + k) .zero).item (s.seesCounter p (first + k)))).flatten

/-- The items of every snapshot bin (R501). -/
def State.binItems (s : State) (p : Path) : List Byte :=
  ((List.range 1024).map (fun k => (s.tly.sbins.getD k .zero).item (s.seesUnit p (k / 32)))).flatten

/-- TALLY_SNAPSHOT (R501). -/
def execTallySnapshot (p : Path) (first count : BitVec 16) (units : Bool) (s : State) :
    Host.Outcome State Fault Refusal :=
  .next (s.command p 0xC040 anyone (fun s =>
    if 768 < first.toNat + count.toNat then s.fail p 0xC040 rcInvalid
    else
      let t := s.tallySnapshot
      t.reply p 0xC040 rcOk (leBytes 8 t.tly.snapSerial ++ t.snapItems p first.toNat count.toNat ++
        (if units then t.binItems p else []))))

/-! ### The spike -/

/-- The records of Read Spike from a serial on, nearest first, EMPTY ones skipped (R510). -/
def State.recsFrom (s : State) (start : BitVec 32) (older : Bool) : List SpikeRec :=
  let all := s.heldRecs.filter (fun (r : SpikeRec) => decide (r.code ≠ 0))
  let age := fun (x : BitVec 32) => (s.spk.next - x).toNat
  if older then (all.filter (fun (r : SpikeRec) => decide (age start ≤ age r.serial))).reverse
  else all.filter (fun (r : SpikeRec) => decide (age r.serial ≤ age start))

/-- The output of Read Spike (R510). -/
def State.spikeOutput (s : State) (start : BitVec 32) (count : Nat) (older : Bool) : List Byte :=
  let x := if start = 0xFFFFFFFF then s.newestSerial else start
  let held := (s.recOf x).isSome
  let from' := if held then x else ((s.nearestRec x).map (fun (r : SpikeRec) => r.serial)).getD x
  let rs := (s.recsFrom from' older).take count
  leBytes 4 s.spk.oldest.toNat ++ leBytes 4 s.newestSerial.toNat ++ leBytes 2 rs.length ++
    [if held then 0 else 1, 0] ++ leBytes 4 s.spk.lost ++ (rs.map SpikeRec.bytes).flatten

/-- READ_SPIKE (R510). -/
def execReadSpike (p : Path) (start : BitVec 32) (count : BitVec 16) (older : Bool) (s : State) :
    Host.Outcome State Fault Refusal :=
  .next (s.command p 0xC030 ownerOnly (fun s =>
    if count.toNat = 0 ∨ 1023 < count.toNat then s.fail p 0xC030 rcInvalid
    else s.reply p 0xC030 rcOk (s.spikeOutput start count.toNat older)))

/-- Drops every record of the spike and resets both stripes; SERIAL goes on (R511). -/
def State.clearSpike (s : State) : State :=
  let t := s.padSpike
  let t := { t with
    spk := { t.spk with staged := [], ring := [], oldest := t.spk.next, lostPending := 0, writing := 0 }
    med := { t.med with
      openStripes := t.med.openStripes.filter (fun o => decide (o.stream ≠ .spike))
      onDeck := t.med.onDeck.filter (fun S => decide (S ≠ 4) && decide (S ≠ 5)) } }
  [4, 5].foldl (fun u S => if (u.med.resetting.find S).isSome then u else u.putOnDeck S) t

/-- CLEAR_SPIKE (R511): under authorisation, refused in lid down; the first record staged after it is SPIKE_CLEARED. -/
def execClearSpike (p : Path) (blk : List Byte) (s : State) : Host.Outcome State Fault Refusal :=
  .next (s.command p 0xC031 ownerOnly (fun s =>
    s.authorised p 0xC031 [0, 0, 0, 0] blk (fun s =>
      if s.prot.lid then s.outcome p 0xC031 1
      else
        let n := s.heldRecs.length
        let e := evOf 3 n (pathNum p) s.spk.oldest.toNat s.newestSerial.toNat
        ((s.clearSpike.stageRec e 0).raise .spk 2).outcome p 0xC031 0)))

/-- A write of SPK_READ_CTRL.GO loads the record of SPK_READ_SERIAL (R515). -/
def State.spikeLoad (s : State) : State :=
  let r := s.recOf (s.getLive .spk 0x54)
  { s with spk := { s.spk with readSerial := r, missing := r.isNone } }

/-- SPIKE_READ_GO (R515). -/
def execSpikeReadGo (path : Path) (s : State) : Host.Outcome State Fault Refusal :=
  .next (s.portWrite path 0x560058 1 (fun s =>
    if s.mayWrite path .spk then s.spikeLoad else s))

end Sys2Proof.Machine
end

