-- ==== Sys2Proof/Machine/LadleCommands.lean ====
section
/-!
DEFINITION. The register commands of a ladle (08_read_path_and_pass.md R240, R243, R244).
-/

namespace Sys2Proof.Machine

/-- LADLE_ENABLE (R240): a write of 1 to CTRL.ENABLE takes effect while CLEAN is 1, else ENABLE_REFUSED is set. -/
def execLadleEnable (path : Path) (p : Fin 8) (s : State) : Host.Outcome State Fault Refusal :=
  .next (s.portWrite path (RPage.base (.ldl p.val) + 0x0C) 1 (fun s =>
    if s.mayWrite path (.ldl p.val) then
      (s.updLadle p.val (fun l => if l.clean then { l with enabled := true, refused := false }
        else { l with refused := true }))
    else s))

/-- LADLE_DISABLE (R240): a write of 0 to CTRL.ENABLE disables the ladle, clears CLEAN and voids every fill entry. -/
def execLadleDisable (path : Path) (p : Fin 8) (s : State) : Host.Outcome State Fault Refusal :=
  .next (s.portWrite path (RPage.base (.ldl p.val) + 0x0C) 0 (fun s =>
    if s.mayWrite path (.ldl p.val) then
      (s.updLadle p.val (fun l => { l with
        enabled := false, clean := false, fills := l.fills.mapVal (fun _ (f : FillE) => { f with void := true }) }))
    else s))

/-- Starts an invalidation of a ladle: its effect is taken whole at the ordering point, the GO write (R243). -/
def State.startInvalidation (s : State) (p base size : Nat) : State :=
  (s.ladleRange p base size).updLadle p (fun l => { l with invBusy := true, invFull := decide (size = 0) && !l.enabled })

/-- RANGE_INVALIDATION (R243): a write of 1 to LDL_INV_CTRL.GO; ignored while a walk runs. -/
def execRangeInvalidation (path : Path) (p : Fin 8) (s : State) : Host.Outcome State Fault Refusal :=
  .next (s.portWrite path (RPage.base (.ldl p.val) + 0x48) 1 (fun s =>
    if s.mayWrite path (.ldl p.val) && !(s.ladle p.val).invBusy then
      (s.startInvalidation p.val (s.liveFld (.ldl p.val) 0x40 28 0) (s.liveFld (.ldl p.val) 0x44 29 0))
    else s))

/-- Ends a walk: a full one of a disabled ladle leaves it CLEAN (R240). -/
def State.endInvalidation (s : State) (p : Nat) : State :=
  (s.updLadle p (fun l => { l with
    invBusy := false, invFull := false, clean := l.clean || (l.invFull && !l.enabled) })).raise (.ldl p) 0

/-- Whether a zero-a-line operation is refused (R244). -/
def State.zeroRefused (s : State) (first lines : Nat) : Bool :=
  decide (lines = 0) || decide (4096 < lines) || decide (s.capacity < (first + lines) * 64) ||
    (List.range lines).any (fun k => s.isCoherent (first + k))

/-- ZERO_A_LINE (R244): a write of LDL_ZERO_CTRL with GO starts a run of zero lines, or is refused with ERR and ZERO_ERR;
ignored while one runs. -/
def execZeroALine (path : Path) (p : Fin 8) (lines : Fin 8192) (keyslot : Fin 1024) (s : State) :
    Host.Outcome State Fault Refusal :=
  .next (s.portWrite path (RPage.base (.ldl p.val) + 0x64) (at32 lines.val 0 ||| at32 keyslot.val 13 ||| bit32 true 31) (fun s =>
    if !s.mayWrite path (.ldl p.val) || (s.ladle p.val).zeroBusy then s
    else
      let t := s.setLive (.ldl p.val) 0x64 (at32 lines.val 0 ||| at32 keyslot.val 13)
      let first := (t.getLive (.ldl p.val) 0x5C).toNat / 64 + t.liveFld (.ldl p.val) 0x60 12 0 * 2 ^ 26
      if t.zeroRefused first lines.val then
        ((t.updLadle p.val (fun l => { l with zeroErr := true })).raise (.ldl p.val) 2)
      else (t.updLadle p.val (fun l => { l with
        zeroErr := false, zeroBusy := true, zeroNext := first, zeroLeft := lines.val, zeroKey := keyslot.val }))))

end Sys2Proof.Machine
end

