-- ==== Sys2Proof/Machine/Whisk.lean ====
section
/-!
DEFINITION. The whisk engines (11_whisk_engines.md): translation, descriptors, chunks, completion, and the register commands
of a channel. A channel runs one chunk at a time; its reads go through the stockpot, the sieve and media.
-/

namespace Sys2Proof.Machine

/-! ### Reads of tables and descriptors (R332, R334) -/

/-- What a read of a table or ring line comes to: what was read, a failure, or that the line has not returned yet. -/
inductive Fetch (ε α : Type) where
  | got (x : α)
  | failed (e : ε)
  | waits
deriving DecidableEq, Repr

/-- What the line that a context reads aside has come to: 3 integrity, 4 poison (R332, R342). -/
def Ctx.asideDone (c : Ctx) (line slot : Nat) : Option (Fetch Nat Line) :=
  if c.aside ≠ some (line, slot) then none
  else if c.need.contains line then some .waits
  else if c.bad ≠ 0 then some (.failed c.bad)
  else (c.got.find line).map Fetch.got

/-- Issues the read of a table or ring line under a key slot, as any whisk read (R332, R346): the stockpot, then the sieve and
media at the context's deadline; a coherent line waits for its snoops. -/
def State.issueAside (s : State) (i line slot : Nat) : State :=
  let t := s.updCtx i (fun c => { c with
    aside := some (line, slot), need := [line], got := [], bad := 0, slots := [(line, slot)], masked := [], reads := [] })
  if t.isCoherent line && !(t.ctx i).granted.contains line then
    t.submit ⟨.rdI, 64 + i / 4, 0, line, slot % 64, i⟩
  else t.lookLine i line slot

/-- Lets the coherent lines that a context waits for and that are granted be read. -/
def State.readGranted (s : State) (i : Nat) : State :=
  ((s.ctx i).need.filter (fun l => (s.ctx i).granted.contains l)).foldl (fun u l =>
    (u.updCtx i (fun c => { c with granted := c.granted.filter (fun x => x != l) })).lookLine i l ((u.ctx i).readSlot l)) s

/-- Reads one line under a key slot for a context: it is asked for, and once it has returned it is used up. -/
def State.readAside (s : State) (i line slot : Nat) : Fetch Nat Line × State :=
  let t := s.readGranted i
  let t := if ((t.ctx i).asideDone line slot).isSome then t else t.issueAside i line slot
  match (t.ctx i).asideDone line slot with
  | some (.got d) => (.got d, t.updCtx i (fun c => { c with aside := none, got := [], bad := 0 }))
  | some (.failed k) => (.failed k, t.updCtx i (fun c => { c with aside := none, got := [], bad := 0 }))
  | _ => (.waits, t)

/-! ### Translation (R330, R331, R333) -/

/-- A fault of a context: its kind, the CWA, and whether a table read failed. -/
structure WFault where
  kind : Nat
  cwa : Nat
  table : Bool
deriving DecidableEq, Repr

/-- The cached translation of a page of a context's window; a use makes it the youngest. -/
def Chan.cached (c : Chan) (slot page : Nat) : Option (BitVec 64) :=
  (c.tlb.find? (fun e => decide (e.1 = slot) && decide (e.2.1 = page))).map (fun e => e.2.2)

/-- Caches a translation as the youngest of 64. -/
def Chan.cache (c : Chan) (slot page : Nat) (e : BitVec 64) : Chan :=
  let rest := c.tlb.filter (fun x => !(decide (x.1 = slot) && decide (x.2.1 = page)))
  { c with tlb := rest.drop (rest.length - 63) ++ [(slot, page, e)] }

/-- Reads the table entry of a page: the cache, else the line of the table under TT_KEY (R332). -/
def State.tableEntry (s : State) (i page : Nat) : Fetch Nat (BitVec 64) × State :=
  match (s.chan (i / 4)).cached (i % 4) page with
  | some e => (.got e, s.updChan (i / 4) (fun c => c.cache (i % 4) page e))
  | none =>
    let base := (s.wreg i 0x10).toNat + fld (s.wreg i 0x14) 12 0 * 2 ^ 32
    let r := s.readAside i ((base + page * 8) / 64) (fld (s.wreg i 0x1C) 9 0)
    match r.1 with
    | .failed k => (.failed k, r.2)
    | .waits => (.waits, r.2)
    | .got l => (.got (l.extractLsb' (page % 8 * 64) 64), r.2)

/-- Translates a page for reads or writes, in the order of R331; answers the loaf and the key slot. -/
def State.transPage (s : State) (i cwa : Nat) (rd wr : Bool) : Fetch WFault (Nat × Nat) × State :=
  let page := cwa / 65536
  let fault := fun (k : Nat) => (Fetch.failed (⟨k, cwa, false⟩ : WFault) : Fetch WFault (Nat × Nat))
  if fld (s.wreg i 0x18) 20 0 ≤ page then (fault 1, s)
  else
    let t := s.tableEntry i page
    match t.1 with
    | .failed k => (.failed ⟨k, cwa, true⟩, t.2)
    | .waits => (.waits, t.2)
    | .got e =>
      let keyId := fld e 8 3
      let loaf := fld e 44 16
      if !bitOf e 0 || decide (fld e 15 9 ≠ 0) || decide (fld e 63 45 ≠ 0) then (fault 1, t.2)
      else
        let u := t.2.updChan (i / 4) (fun c => c.cache (i % 4) page e)
        let kmask := if keyId < 32 then bitOf (u.wreg i 0x8) keyId else bitOf (u.wreg i 0xC) (keyId - 32)
        let unit := loaf / 4096
        let base := fld (u.wreg i 0x20) 16 0
        let inBound := decide (base ≤ unit) && decide (unit < base + fld (u.wreg i 0x24) 17 0) &&
          decide ((loaf + 1) * 65536 ≤ u.capacity)
        if (rd && !bitOf e 1) || (wr && !bitOf e 2) || !kmask || !inBound then (fault 2, u)
        else (.got (loaf, fld (u.wreg i 0x0) 7 4 * 64 + keyId), u)

/-- The CWAs at which the pages of a range are first touched. -/
def pageStarts (a n : Nat) : List Nat :=
  if n = 0 then []
  else (List.range ((a + n - 1) / 65536 - a / 65536 + 1)).map (fun k => if k = 0 then a else (a / 65536 + k) * 65536)

/-- Translates the pages of a list of accesses (first touched CWA, read, write) into the chunk's page map. -/
def State.transAll (i : Nat) : List (Nat × Bool × Bool) → State → Fetch WFault (SMap (Nat × Nat)) × State
  | [], s => (.got [], s)
  | (a, rd, wr) :: as, s =>
    let r := s.transPage i a rd wr
    match r.1 with
    | .failed f => (.failed f, r.2)
    | .waits => (.waits, r.2)
    | .got x =>
      let m := State.transAll i as r.2
      match m.1 with
      | .failed f => (.failed f, m.2)
      | .waits => (.waits, m.2)
      | .got ps => (.got (ps.put (a / 65536) x), m.2)

/-- A context faults (R342): its state, the CWA, the RING and TABLE bits; poison halts the channel too (R343). -/
def State.whiskFault (s : State) (i : Nat) (f : WFault) (ring : Bool) : State :=
  let t := (s.updCtx i (fun c => { c with
    faultCwa := f.cwa, ringErr := ring, tableErr := f.table, progress := if f.kind = 5 then 0 else c.progress })).faultCtx
      i f.kind
  if f.kind = 4 then t.haltChannel (i / 4) else t

/-! ### Descriptors (R335, R336) -/

/-- The fields of a descriptor. -/
def descOf (b : List Byte) : WDesc :=
  { op := field b 0 1 % 16, irq := (field b 0 1).testBit 4, width := field b 1 1 % 4, pred := field b 1 1 / 4 % 8
    fieldOff := field b 2 2, src := field b 8 8, dst := field b 16 8, length := field b 24 8
    value := BitVec.ofNat 64 (field b 32 8), mask := BitVec.ofNat 64 (field b 40 8), stride := field b 48 4
    listMax := field b 52 4 }

/-- Whether a descriptor keeps every rule of R335 and R336: reserved bits and unused fields zero, operands within 2^36. -/
def descOk (b : List Byte) : Bool :=
  let d := descOf b
  let scan := decide (d.op = 6)
  let usesSrc := decide (d.op = 1) || decide (d.op = 4) || decide (d.op = 5) || scan
  let usesDst := decide (1 ≤ d.op) && decide (d.op ≤ 4) || scan
  let usesVal := decide (d.op = 2) || decide (d.op = 5) || scan
  let top := 2 ^ 36
  decide (d.op ≤ 6) && decide (field b 0 1 < 32) && decide (field b 1 1 < 32) && decide (field b 56 8 = 0) &&
    decide (d.src < top) && decide (d.dst < top) && decide (d.length ≤ top) &&
    (usesSrc || decide (d.src = 0)) && (usesDst || decide (d.dst = 0)) && (decide (d.op ≠ 0) || decide (d.length = 0)) &&
    (usesVal || decide (d.value = 0)) && (!usesSrc || decide (d.src + d.length ≤ top)) &&
    (!usesDst || scan || decide (d.dst + d.length ≤ top)) &&
    (if scan then decide (d.pred ≤ 5) && decide (1 ≤ d.stride) && decide (d.stride ≤ 2 ^ 20) && decide (1 ≤ d.listMax) &&
        decide (d.fieldOff + 2 ^ d.width ≤ d.stride) && decide (d.dst + 8 * d.listMax ≤ top)
      else decide (field b 1 3 = 0) && decide (d.mask = 0) && decide (d.stride = 0) && decide (d.listMax = 0))

/-! ### Which context runs (R327, R343) -/

/-- PRIO of a context. -/
def State.prio (s : State) (i : Nat) : Nat := fld (s.wreg i 0) 3 1

/-- The READY context a channel runs next: the highest priority, and among equals the next slot in turn. The turn counts from
the last-run slot, a pre-empting one included (DESIGN CHOICE, log entry 109). -/
def State.nextCtx (s : State) (ch : Nat) : Option Nat :=
  let last := (s.chan ch).slot
  let order := (List.range 4).map (fun k => ch * 4 + (last + 1 + k) % 4)
  (order.filter (fun i => decide ((s.ctx i).state = 2))).foldl (fun m i => match m with
    | none => some i
    | some j => if s.prio j < s.prio i then some i else m) none

/-- Whether a context stands at a chunk boundary. -/
def Ctx.boundary (c : Ctx) : Bool := !c.issued && decide (c.writes = []) && c.done.isNone

/-- Whether a READY context may run now: its channel runs, it is the channel's choice, and a running one gives way. -/
def State.mayRun (s : State) (i : Nat) : Bool :=
  let ch := i / 4
  !(s.chan ch).halted && !(s.chan ch).held && decide (s.nextCtx ch = some i) &&
    (List.range 4).all (fun k =>
      let j := ch * 4 + k
      decide ((s.ctx j).state ≠ 3) || ((s.ctx j).boundary && decide (s.prio j < s.prio i)))

/-- A context runs: one it pre-empts returns to READY (R327). -/
def State.takeChannel (s : State) (i : Nat) : State :=
  let ch := i / 4
  let t := (List.range 4).foldl (fun u k => u.updCtx (ch * 4 + k) (fun c => if c.state = 3 then { c with state := 2 } else c)) s
  (t.updCtx i (fun c => { c with state := 3 })).updChan ch (fun c => { c with slot := i % 4 })

/-- Fetches the descriptor at HEAD under the ring page's translation (R334): its bytes, or the fault. -/
def State.fetchDesc (s : State) (i : Nat) : Fetch WFault (List Byte) × State :=
  let cwa := s.ringBase i + (s.ctx i).head.toNat % s.ringSize i * 64
  let r := s.transPage i cwa true false
  match r.1 with
  | .failed f => (.failed f, r.2)
  | .waits => (.waits, r.2)
  | .got (loaf, slot) =>
    let l := r.2.readAside i (loaf * 1024 + cwa % 65536 / 64) slot
    match l.1 with
    | .failed k => (.failed ⟨k, cwa, false⟩, l.2)
    | .waits => (.waits, l.2)
    | .got d => (.got (lineBytes d), l.2)

/-- The outcome of a descriptor that has nothing to do (R336): NOP, and any with LENGTH 0. -/
def WDesc.atOnce (d : WDesc) : Option (Nat × Nat) :=
  if d.op = 0 then some (1, 0)
  else if d.length ≠ 0 then none
  else some (1, if d.op = 5 then (d.value.toNat % 2 ^ 32) else 0)

/-- Takes up the descriptor at HEAD of a context, whose operation is `op`, as far as its fetch has come (R335, R342): one that
breaks a rule faults the context, one of another operation is left to its own command, and while a line of the fetch is on its
way the context holds the channel and waits. -/
def State.fetchStep (s : State) (i op : Nat) : State :=
  let r := s.fetchDesc i
  let over' := fun (u : State) => u.updCtx i (fun x => { x with starting := none })
  match r.1 with
  | .waits => (r.2.takeChannel i).updCtx i (fun x => { x with starting := some op })
  | .failed f => over' ((r.2.takeChannel i).whiskFault i f true)
  | .got b =>
    if !descOk b then over' ((r.2.takeChannel i).whiskFault i ⟨5, (s.ctx i).faultCwa, false⟩ false)
    else if field b 0 1 % 16 ≠ op then
      r.2.updCtx i (fun x => { x with starting := none, state := if x.state = 3 then 2 else x.state })
    else
      let d := descOf b
      (r.2.takeChannel i).updCtx i (fun x => { x with
        desc := some d, progress := 0, began := 0, found := 0, crc := d.value.setWidth 32, done := d.atOnce
        posted := false, marks := [], starting := none, fetched := s.now })

/-- Begins the descriptor at HEAD of a context that may run (R327, R334). -/
def State.begin (s : State) (i op : Nat) : State :=
  if s.unclocked then s
  else
    let s := s.settleBells
    let c := s.ctx i
    if decide (c.head = c.tail) || c.desc.isSome || c.done.isSome || !s.mayRun i then s else s.fetchStep i op

/-- NOP (R336): the descriptor completes with result 0. -/
def execNop (i : Fin 256) (s : State) : Host.Outcome State Fault Refusal := .next (s.begin i.val 0)
/-- COPY (R336): SRC is copied to DST, chunk by chunk. -/
def execCopy (i : Fin 256) (s : State) : Host.Outcome State Fault Refusal := .next (s.begin i.val 1)
/-- FILL (R336): byte k of DST becomes byte k mod 8 of VALUE. -/
def execFill (i : Fin 256) (s : State) : Host.Outcome State Fault Refusal := .next (s.begin i.val 2)
/-- ZERO (R336): DST becomes zeros. -/
def execZero (i : Fin 256) (s : State) : Host.Outcome State Fault Refusal := .next (s.begin i.val 3)
/-- COMPARE (R336): SRC and DST are compared. -/
def execCompare (i : Fin 256) (s : State) : Host.Outcome State Fault Refusal := .next (s.begin i.val 4)
/-- CRC_32C (R338): the register runs over SRC. -/
def execCrc32c (i : Fin 256) (s : State) : Host.Outcome State Fault Refusal := .next (s.begin i.val 5)
/-- SCAN (R339): the matching records of SRC are listed at DST. -/
def execScan (i : Fin 256) (s : State) : Host.Outcome State Fault Refusal := .next (s.begin i.val 6)

/-! ### Chunks (R340, R341) -/

/-- The chunk of a descriptor at a progress: its start and length; it ends at a 4 KiB boundary of the operand that counts
(R340). -/
def WDesc.chunk (d : WDesc) (p : Nat) : Nat :=
  let base := if d.op = 1 ∨ d.op = 2 ∨ d.op = 3 then d.dst else d.src
  min (d.length - p) (4096 - (base + p) % 4096)

/-- Width in bytes of a scan's field. -/
def WDesc.bytes (d : WDesc) : Nat := 2 ^ d.width

/-- The records that a chunk [p, p + n) examines: those whose field's last byte lies in it (R340), with R339's limit. -/
def WDesc.records (d : WDesc) (p n : Nat) : List Nat :=
  let e := d.fieldOff + d.bytes - 1
  let first := (p - e + (d.stride - 1)) / d.stride
  ((List.range (n / d.stride + 2)).map (fun k => first + k)).filter (fun i =>
    decide (p ≤ e + i * d.stride) && decide (e + i * d.stride < p + n))

/-- The ranges a chunk reads, as (CWA, bytes): a scan's fields may begin before the chunk. -/
def WDesc.reads (d : WDesc) (p n : Nat) : List (Nat × Nat) :=
  match d.op with
  | 1 | 5 => [(d.src + p, n)]
  | 4 => [(d.src + p, n), (d.dst + p, n)]
  | 6 =>
    let back := min p (d.bytes - 1)
    [(d.src + p - back, n + back)]
  | _ => []

/-- The ranges a chunk may write: of a scan, the entries its records could fill. -/
def WDesc.dests (d : WDesc) (p n found : Nat) : List (Nat × Nat) :=
  match d.op with
  | 1 | 2 | 3 => [(d.dst + p, n)]
  | 6 =>
    let k := min (d.records p n).length (d.listMax - found)
    [(d.dst + 8 * found, 8 * k)]
  | _ => []

/-- The CWAs of the lines a range touches. -/
def lineStarts (a n : Nat) : List Nat :=
  if n = 0 then [] else (List.range ((a + n - 1) / 64 - a / 64 + 1)).map (fun k => (a / 64 + k) * 64)

/-- The DPA line and key slot of a CWA under a chunk's page map. -/
def Ctx.place (c : Ctx) (cwa : Nat) : Nat × Nat :=
  let x := c.pages.getD (cwa / 65536) (0, 0)
  (x.1 * 1024 + cwa % 65536 / 64, x.2)

/-- The coherent request of a channel for a line (10 R306, 11 R346). -/
def State.askLine (s : State) (i line slot : Nat) (kind : RKind) : State :=
  if s.isCoherent line then s.submit ⟨kind, 64 + i / 4, 0, line, slot % 64, i⟩ else s

/-- Issues the reads of a chunk (R340 step 2): a coherent line waits for its snoops. -/
def State.issueReads (s : State) (i : Nat) (ls : List (Nat × Nat)) : State :=
  let t := s.updCtx i (fun c => { c with
    issued := true, need := (ls.map (fun e => e.1)).eraseDups, got := [], bad := 0
    slots := ls.foldl (fun m e => m.put e.1 e.2) [], masked := [], reads := [] })
  (t.ctx i).need.foldl (fun u l =>
    let slot := (u.ctx i).readSlot l
    if u.isCoherent l then u.askLine i l slot .rdI else u.lookLine i l slot) t

/-- A byte of the chunk's data at a CWA. -/
def Ctx.byteAt (c : Ctx) (cwa : Nat) : Byte := lineByte (c.got.getD (c.place cwa).1 0) (cwa % 64)

/-- A line from its bytes. -/
def lineOf (f : Nat → Byte) : Line :=
  (List.range 64).foldl (fun l k => l ||| ((f k).setWidth 512 <<< (8 * k))) 0

/-- The writes of a range of bytes, a line at a time. -/
def Ctx.writesOf (c : Ctx) (a n : Nat) (f : Nat → Byte) : List WWrite :=
  (lineStarts a n).map (fun x =>
    let inside := fun (k : Nat) => decide (a ≤ x + k) && decide (x + k < a + n)
    let mask := (List.range 64).foldl (fun (m : Mask) k => if inside k then m ||| ((1 : Mask) <<< k) else m) (0 : Mask)
    ⟨(c.place x).1, lineOf (fun k => if inside k then f (x + k) else 0), mask, (c.place x).2⟩)

/-- Queues the writes of a chunk; a coherent line's write is an unowned write of no link (10 R306). -/
def State.queueWrites (s : State) (i : Nat) (ws : List WWrite) : State :=
  ws.foldl (fun u w => u.askLine i w.line w.keyslot .write) (s.updCtx i (fun c => { c with writes := c.writes ++ ws }))

/-- Whether a scan's predicate holds (R339). -/
def WDesc.holds (d : WDesc) (field : Nat) : Bool :=
  let m := 2 ^ (8 * d.bytes)
  let x := field &&& (d.mask.toNat % m)
  let y := (d.value.toNat % m) &&& (d.mask.toNat % m)
  match d.pred with
  | 0 => decide (x = y)
  | 1 => decide (x ≠ y)
  | 2 => decide (x < y)
  | 3 => decide (x ≤ y)
  | 4 => decide (y < x)
  | _ => decide (y ≤ x)

/-- What a chunk's data come to (R336 to R339): its writes, the running state, and, where the descriptor ends in it, the
status and result. -/
structure ChunkOut where
  writes : List WWrite
  crc : BitVec 32
  found : Nat
  done : Option (Nat × Nat)
deriving DecidableEq, Repr

/-- Runs a chunk on its data. -/
def Ctx.run (c : Ctx) (d : WDesc) (p n : Nat) : ChunkOut :=
  let last := decide (p + n = d.length)
  let fin := fun (r : Nat) => if last then some (1, r) else none
  match d.op with
  | 1 => ⟨c.writesOf (d.dst + p) n (fun x => c.byteAt (x - d.dst + d.src)), c.crc, c.found, fin d.length⟩
  | 2 => ⟨c.writesOf (d.dst + p) n (fun x => byteOf (d.value.toNat / 2 ^ (8 * ((x - d.dst) % 8)))), c.crc, c.found,
      fin d.length⟩
  | 3 => ⟨c.writesOf (d.dst + p) n (fun _ => 0), c.crc, c.found, fin d.length⟩
  | 4 =>
    match (List.range n).find? (fun k => decide (c.byteAt (d.src + p + k) ≠ c.byteAt (d.dst + p + k))) with
    | some k => ⟨[], c.crc, c.found, some (2, p + k)⟩
    | none => ⟨[], c.crc, c.found, fin d.length⟩
  | 5 =>
    let r := crcRun c.crc ((List.range n).map (fun k => c.byteAt (d.src + p + k)))
    ⟨[], r, c.found, fin r.toNat⟩
  | _ =>
    let hits := ((d.records p n).filter (fun i => d.holds (leNat ((List.range d.bytes).map (fun k =>
      c.byteAt (d.src + i * d.stride + d.fieldOff + k)))))).take (d.listMax - c.found)
    let a := d.dst + 8 * c.found
    let bytes := (hits.map (fun i => leBytes 8 (i * d.stride))).flatten
    let m := c.found + hits.length
    ⟨c.writesOf a (8 * hits.length) (fun x => bytes.getD (x - a) 0), c.crc, m,
      if m = d.listMax then some (3, m) else fin m⟩

/-- The first CWA of a chunk's reads whose line did not return. -/
def Ctx.badCwa (c : Ctx) (d : WDesc) (p n : Nat) : Nat :=
  (((d.reads p n).map (fun r => (lineStarts r.1 r.2).map (fun x => max x r.1))).flatten.find? (fun x =>
    (c.got.find (c.place x).1).isNone)).getD (d.src + p)

/-- Ends a chunk (R340 step 3, R341): a read that failed faults the context; else the writes are queued and the running
state taken. -/
def State.endChunk (s : State) (i : Nat) (d : WDesc) (p n : Nat) : State :=
  let c := s.ctx i
  if c.bad ≠ 0 then s.whiskFault i ⟨c.bad, c.badCwa d p n, false⟩ false
  else
    let o := c.run d p n
    (s.updCtx i (fun x => { x with
      issued := false, got := [], slots := [], masked := [], reads := [], tlbInv := false, crc := o.crc, found := o.found, done := o.done
      began := p + n, progress := if o.writes = [] then p + n else x.progress })).queueWrites i o.writes

/-- Starts a chunk (R340 steps 1 and 2): its pages are translated in operand order, then its reads issued. -/
def State.startChunk (s : State) (i : Nat) (d : WDesc) (p n : Nat) : State :=
  let c := s.ctx i
  let rd := ((d.reads p n).map (fun r => (pageStarts r.1 r.2).map (fun a => (a, true, false)))).flatten
  let wr := ((d.dests p n c.found).map (fun r => (pageStarts r.1 r.2).map (fun a => (a, false, true)))).flatten
  let r := State.transAll i (rd ++ wr) s
  match r.1 with
  | .failed f => r.2.whiskFault i f false
  | .waits => r.2
  | .got ps =>
    let t := r.2.updCtx i (fun x => { x with pages := ps })
    t.issueReads i (((d.reads p n).map (fun r => (lineStarts r.1 r.2).map (fun a => (t.ctx i).place a))).flatten)

/-- Whether a channel's chunks wait for a commit that quiesces the port of its granted link (16 R473). -/
def State.channelWaits (s : State) (c : Nat) : Bool :=
  let g := s.getLive (.wsk c) 0x40
  bitOf g 5 && s.cmt.ports.contains (fld g 4 0 / 4)

/-- A pre-empted or resumed context whose turn it is runs on from its saved state (R327, R344). -/
def State.retake (s : State) (i : Nat) : State :=
  if (s.ctx i).state = 2 ∧ (s.ctx i).desc.isSome ∧ s.mayRun i = true then s.takeChannel i else s

/-- The work of a running context at its chunk: reads that have all returned are consumed and the writes queued; at a chunk
boundary it pauses, gives way to a higher priority, waits for a commit, or starts the next chunk (R327, R340, R344). -/
def State.chunkStep (s : State) (i : Nat) (d : WDesc) : State :=
  let c := s.ctx i
  let n := d.chunk c.began
  if c.issued then
    let t := s.readGranted i
    if (t.ctx i).need = [] then t.endChunk i d c.began n else t
  else if c.writes ≠ [] then s
  else if c.pausing then s.updCtx i (fun x => { x with state := 4, pausing := false })
  else if (List.range 4).any (fun k => decide ((s.ctx (i / 4 * 4 + k)).state = 2) &&
      decide (s.prio i < s.prio (i / 4 * 4 + k))) then s.updCtx i (fun x => { x with state := 2 })
  else if s.channelWaits (i / 4) then s
  else s.startChunk i d c.began n

/-- Lets the running context of a slot go on, where its channel runs and its descriptor is not done. -/
def State.whiskChunk (s : State) (i : Nat) : State :=
  let c := s.ctx i
  if (s.chan (i / 4)).halted || (s.chan (i / 4)).held || decide (c.state ≠ 3) then s
  else match c.desc, c.done with
    | some d, none => s.chunkStep i d
    | _, _ => s

/-- WHISK_CHUNK (R340): the context at its chunk boundary pauses, gives way, or starts its next chunk; a chunk whose reads
have all returned is consumed and its writes queued. While the stockpot is frozen its writes wait at acceptance (R349). -/
def execWhiskChunk (i : Fin 256) (s : State) : Host.Outcome State Fault Refusal :=
  if s.unclocked then .next s else
  .next ((s.settleBells.retake i.val).whiskChunk i.val)

/-! ### Completion (R347) -/

/-- Whether every ladle has applied what a context's writes posted. -/
def State.marksApplied (s : State) (c : Ctx) : Bool :=
  c.marks.zipIdx.all (fun e => decide (e.1 ≤ s.ports.applied.getD e.2 0))

/-- Writes the completion word of the descriptor at HEAD: 8 bytes in its ring entry. -/
def State.postWord (s : State) (i status result : Nat) : State :=
  let cwa := s.ringBase i + (s.ctx i).head.toNat % s.ringSize i * 64
  let r := s.transPage i cwa false true
  match r.1 with
  | .failed f => (r.2.updCtx i (fun c => { c with done := none })).whiskFault i f true
  | .waits => r.2
  | .got (loaf, slot) =>
    let word := leBytes 8 (status % 16 + result % 2 ^ 60 * 16)
    let w : WWrite := ⟨loaf * 1024 + cwa % 65536 / 64, lineOf (fun k => if k < 56 then 0 else word.getD (k - 56) 0),
      0xFF00000000000000, slot⟩
    (r.2.updCtx i (fun c => { c with posted := true })).queueWrites i [w]

/-- A descriptor that has completed is counted, and its latency from its fetch sampled (18 R492 code 0x050, R499 source 4). -/
def State.noteDesc (s : State) (i : Nat) : State :=
  (s.tally (s.chanEv 0x050 (i / 4) none) 1).sample 4 (s.chanEv 0 (i / 4) none) (s.now - (s.ctx i).fetched)

/-- HEAD passes the descriptor and DONE is raised if it asked for it (R347 step 3). -/
def State.passDesc (s : State) (i : Nat) : State :=
  let c := s.ctx i
  let head := c.head + 1
  let irq := match c.desc with
    | some d => d.irq
    | none => false
  let t := (s.noteDesc i).updCtx i (fun x => { x with
    head := head, desc := none, done := none, posted := false, progress := 0, began := 0, marks := [], pausing := false
    kind := 0, ringErr := false, tableErr := false, saveErr := false, stopCause := 0, tlbInv := false
    aside := none, starting := none
    state := if x.pausing then 4 else if head = x.tail then 1 else 2 })
  if irq then t.raise (.wsk (i / 4)) (i % 4) else t

/-- The completion of a context's descriptor goes on (R347). -/
def State.completeStep (s : State) (i : Nat) : State :=
  let c := s.ctx i
  match c.done with
  | none => s
  | some (st, res) =>
    if decide (c.writes ≠ []) || !s.marksApplied c || (decide (c.state ≠ 3) && decide (st ≠ 4)) || (s.chan (i / 4)).held then s
    else if c.posted then s.passDesc i
    else s.postWord i st res

/-- DESCRIPTOR_COMPLETE (R347): once every write of the descriptor is accepted and every ladle has applied what they
posted, the completion word is written; once the same holds of the word, HEAD advances. -/
def execDescriptorComplete (i : Fin 256) (s : State) : Host.Outcome State Fault Refusal :=
  if s.unclocked then .next s else .next (s.completeStep i.val)

/-- A context whose table or ring line has returned goes on with what it read it for: a descriptor fetch, a completion word, a
chunk (R332, R334). -/
def State.afterAside (s : State) (i : Nat) : State :=
  let c := s.ctx i
  if c.aside.isNone || (decide (c.need ≠ []) && !c.need.any c.granted.contains) then s
  else match c.starting with
    | some op => if c.state = 3 ∧ ¬ (s.chan (i / 4)).halted ∧ ¬ (s.chan (i / 4)).held then s.fetchStep i op
      else if c.state = 2 then s.begin i op
      else s
    | none => if c.done.isSome then s.completeStep i else s.whiskChunk i

/-- Lets every context go on whose line has returned. -/
def State.settleFetches (s : State) : State := s.ctxs.foldl (fun t e => t.afterAside e.1) s

/-! ### Register commands (R343, R344, R352) -/

/-- A write to a channel's page that a tenant may make (R352), on a path that sees the page. -/
def State.wskWrite (s : State) (path : Path) (c off : Nat) (data : W32) (body : State → State) : State :=
  s.portWrite path (RPage.base (.wsk c) + off) data (fun t => if t.reaches path (.wsk c) then body t else t)

/-- Offset of a register of a context in its channel's page. -/
def ctxOff (i o : Nat) : Nat := 0x100 + i % 4 * 0x100 + o

/-- CTX_TAIL (R334, R337): new descriptors are submitted, once the link's committed writes are accepted. -/
def execCtxTail (path : Path) (i : Fin 256) (v : BitVec 32) (s : State) : Host.Outcome State Fault Refusal :=
  .next (s.wskWrite path (i.val / 4) (ctxOff i.val 0x30) v (fun t => t.addBell path i.val 0 v))

/-- A write of CTX_CTRL.PAUSE takes effect: READY pauses at once, RUNNING at its next chunk boundary. -/
def State.pauseCtx (s : State) (i : Nat) : State :=
  s.updCtx i (fun c =>
    if c.state = 2 ∨ (c.state = 3 ∧ c.boundary = true) then { c with state := 4 }
    else if c.state = 3 then { c with pausing := true } else c)

/-- CTX_PAUSE (R344). -/
def execCtxPause (path : Path) (i : Fin 256) (s : State) : Host.Outcome State Fault Refusal :=
  .next (s.wskWrite path (i.val / 4) (ctxOff i.val 0x38) 1 (fun t => t.pauseCtx i.val))

/-- CTX_RESUME (R337, R344): after the link-scope wait, the descriptor at HEAD is run again from its saved state. -/
def execCtxResume (path : Path) (i : Fin 256) (s : State) : Host.Outcome State Fault Refusal :=
  .next (s.wskWrite path (i.val / 4) (ctxOff i.val 0x38) 2 (fun t => t.addBell path i.val 1 0))

/-- A write of CTX_CTRL.ABORT takes effect: the descriptor at HEAD is to complete as ABORTED with its progress. -/
def State.abortCtx (s : State) (i : Nat) : State :=
  s.updCtx i (fun c =>
    if c.state = 4 ∨ c.state = 5 ∨ c.state = 6 then
      if c.head = c.tail then { c with state := 1 }
      else { c with done := some (4, c.progress), posted := false, issued := false, need := [], got := [] }
    else c)

/-- CTX_ABORT (R344): DESCRIPTOR_COMPLETE then writes the completion word. -/
def execCtxAbort (path : Path) (i : Fin 256) (s : State) : Host.Outcome State Fault Refusal :=
  .next (s.wskWrite path (i.val / 4) (ctxOff i.val 0x38) 4 (fun t => t.abortCtx i.val))

/-- TLB_INV (R333, R337): after the link-scope wait, the context's cached translations go. -/
def execTlbInv (path : Path) (i : Fin 256) (s : State) : Host.Outcome State Fault Refusal :=
  .next (s.wskWrite path (i.val / 4) (ctxOff i.val 0x38) 8 (fun t => t.addBell path i.val 2 0))

/-- CHANNEL_RESTART (R343): a write of 1 to CTRL.RESTART returns a halted channel to running. -/
def execChannelRestart (path : Path) (c : Fin 64) (s : State) : Host.Outcome State Fault Refusal :=
  .next (s.wskWrite path c.val 0x0C 1 (fun t => t.updChan c.val (fun x => { x with halted := false })))

end Sys2Proof.Machine
end

