-- ==== Sys2Proof/Machine/Reads.lean ====
section
/-!
DEFINITION. What a read of each register returns (19_register_architecture.md R517 to R531 and the field tables of the
chapters): the header, the status registers of every page, the tenant's view.
-/

namespace Sys2Proof.Machine

/-! ### Fields -/

/-- A field of width `w` at bit `lo`. -/
def put (x w lo : Nat) : Nat := x % 2 ^ w * 2 ^ lo

/-- A number as a signed 16-bit field. -/
def signed16 (x : Int) : Nat := (BitVec.ofInt 16 x).toNat

/-- A signed trim of `w` bits. -/
def signedOf (w : Nat) (x : Int) : Nat := (BitVec.ofInt w x).toNat

/-- A register whose listing shows a page offset as row `k` of rows `stride` apart: its index and the offset in the row. -/
def rowOf (first stride o : Nat) : Nat × Nat := ((o - first) / stride, (o - first) % stride)

/-! ### The global and boot pages -/

/-- Whether some page of a list has a bit set in IRQ_STAT AND IRQ_EN (R528). -/
def State.anyPending (s : State) (ps : List RPage) : Bool := ps.any s.irqPending

/-- The bits of a list of pages with a pending interrupt. -/
def State.pendingBits (s : State) (f : Nat → RPage) (n : Nat) : Nat :=
  ((List.range n).map (fun i => flag (s.irqPending (f i)) i)).sum

/-- GLB_IRQ_SUM (R528, R529). -/
def State.irqSum (s : State) : Nat :=
  s.pendingBits .port 8 + s.pendingBits .ldl 8 * 2 ^ 8 + flag (s.irqPending .stk) 16 + flag (s.irqPending .siv) 17 +
    flag (s.irqPending .upk) 18 + flag (s.irqPending .pas) 19 + flag (s.irqPending .spr) 20 +
    flag (s.irqPending .key) 21 + flag (s.irqPending .mec) 22 +
    flag (s.anyPending ((List.range 64).map .wsk)) 23 + flag (s.anyPending ((List.range 32).map .brn)) 24 +
    flag (s.irqPending .pwr) 25 + flag (s.irqPending .thm) 26 + flag (s.irqPending .tly) 27 +
    flag (s.irqPending .spk) 28 + flag (s.irqPending .flt) 29 + flag (s.irqPending .stw) 30 +
    flag (s.irqPending .glb || s.irqPending .boot) 31

/-- GLB_COMMIT as read (16 R475). -/
def State.commitWord (s : State) : Nat :=
  put s.cmt.result 4 0 + flag s.cmt.span 4 + put s.cmt.quiesce 8 16 + put s.cmt.serial.toNat 8 24

/-- A register of the global page (R527, R529). -/
def State.glbRead (s : State) (o : Nat) : Nat :=
  match o with
  | 0x40 => s.commitWord
  | 0x44 => s.fuses.serial.toNat % 2 ^ 32
  | 0x48 => s.fuses.serial.toNat / 2 ^ 32
  | 0x4C => s.opsec % 2 ^ 32
  | 0x50 => s.opsec / 2 ^ 32 % 2 ^ 8 + put s.clk.cycles 24 8
  | 0x54 => s.irqSum
  | 0x58 => s.pendingBits .brn 32
  | 0x5C => s.pendingBits .wsk 32
  | 0x60 => s.pendingBits (fun i => .wsk (i + 32)) 32
  | 0x64 => s.boot.accessErr.toNat
  | _ => 0

/-- A register of the boot page (16 R475). -/
def State.bootRead (s : State) (o : Nat) : Nat :=
  match o with
  | 0x40 => put s.boot.step 4 0 + flag s.boot.warm 4
  | 0x44 => s.boot.ms
  | 0x48 => put s.boot.running 2 0 + put s.boot.state.activeFw 2 2 + put s.boot.state.pendingFw 2 4 +
      put s.boot.state.tries 2 6 + flag s.boot.confirmed 8
  | 0x4C => put s.boot.result 3 0 + put s.boot.copy 2 3 + put (sat 8 s.boot.skipped) 8 8 + put s.boot.applied 16 16
  | 0x50 => put s.fuses.fwMin 7 0 + put s.fuses.recipeMin 7 8
  | 0x5C => put s.nor.sizeLog2 8 0 + put s.nor.mode 2 8
  | _ => 0

/-! ### Port pages (02 R78 to R80) -/

/-- PORT_ROLE (02 R79). The recipe names the ports. -/
def State.roleWord (s : State) (p : Nat) : Nat :=
  flag (decide (p = s.ports.foPort)) 0 + flag (decide (p = s.rolePort 1)) 1 +
    flag (decide (p = s.rolePort 2)) 2 + put (fld (s.getLive (.port p) 0x44) 4 3) 2 3

/-- How CXL encodes interleave ways and granularity: powers of two from 1 and from 256. -/
def logField (x base : Nat) : Nat := Nat.log2 (max 1 (x / base))

/-- PORT_WIN_n_STATUS (02 R81): the committed decoders of the links shown, lowest link first, and the refusals of the last
commit. -/
def State.winStatus (s : State) (p k : Nat) (links : List Nat) : Nat :=
  let ds := links.filterMap (fun n => match (s.link n).decoders.find k with
    | some d => if d.committed then some d else none
    | none => none)
  fld (s.getLive (.port p) (0x110 + k * 0x20)) 10 8 * 2 ^ 8 + (match ds with
    | [] => 0
    | d :: _ => 1 + put (logField d.ways 1) 3 1 + put (logField d.gran 256) 4 4)

/-- A register of a port page as a set of links sees it. -/
def State.portRead (s : State) (p o : Nat) (links : List Nat) : Nat :=
  if o = 0x44 then s.roleWord p
  else if 0x50 ≤ o ∧ o < 0x60 then
    let n := p * 4 + (o - 0x50) / 4
    if links.contains n then (s.linkStatus n).toNat else 0
  else if 0x100 ≤ o ∧ o < 0x300 ∧ (o - 0x100) % 0x20 = 0x10 then
    let k := (o - 0x100) / 0x20
    let all := decide (links.length = 4)
    if all || links.any (fun n => bitOf (s.winReg p k 0xC) (n % 4)) then s.winStatus p k links else 0
  else 0

/-- The readable words of a port page's apertures, as its links see them: FENCE_LAST and HOOK_PEEK (09 R272, R284). Fence
and acquire reads are commands of their own. Another port's aperture reads 0 to the fabric-owner link too, and ignores its
writes (DESIGN CHOICE, log entry 109). -/
def State.apertureRead (s : State) (path : Path) (q o : Nat) : Nat :=
  match path with
  | .mctp => 0
  | .link n =>
    if n.val / 4 ≠ q then 0
    else if o = 0x100C then
      (s.link n.val).fenceLast.toNat + flag (decide ((s.link n.val).fences ≠ [])) 2
    else if 0x8000 ≤ o ∧ o < 0x10000 ∧ o % 8 = 4 then (s.hookPeek (s.hook ((o - 0x8000) / 8))).toNat
    else 0

/-! ### Stockpot, sieve, upkeep, pass -/

/-- A register of the stockpot page (03 R117). -/
def State.stkRead (s : State) (o : Nat) : Nat :=
  match o with
  | 0x10 => flag s.isFrozen 0 + flag (s.freeIn hostRegion).isNone 1 +
      flag s.urgent 2 + flag s.stk.replay 3 +
      flag (decide (8192 ≤ s.maskOcc)) 4 + flag (decide (128 ≤ s.rowSlots) || decide (1024 ≤ s.stk.blockSlots.length)) 5
  | 0x40 => put (s.used hostRegion) 19 0 + put s.hostPct 7 24
  | 0x44 => put (s.used upkeepRegion) 16 0 + put (s.used rebuildRegion) 16 16
  | 0x48 => put (s.used landingRegion) 14 0 + put (s.used metaRegion) 14 16
  | 0x4C => put s.rowSlots 8 0 + put s.stk.blockSlots.length 11 16
  | 0x50 => put (min 8192 s.maskOcc) 14 0
  | _ =>
    if 0x100 ≤ o ∧ o < 0x180 then
      let n := (o - 0x100) / 4
      let l := s.link n
      put l.iwq.length 9 0 + flag (s.present n) 9 + flag l.stalled 10 + put l.lastAck.toNat 16 16
    else 0

/-- Whether the map switch of a programmed page waits for a slice block (04 R128). -/
def State.switchWaits (s : State) : Bool :=
  decide (s.freeBlocks = 0) && s.stk.pages.any (fun e => decide (e.2.stage = .passed) && e.2.quad.isNone &&
    e.2.items.any (fun i => match i with
      | .sector _ (some f) => !metaRegion.has f && decide ((s.loaf ((s.frame f).slice / 256)).fmt ≠ 2) &&
          !s.lockedUnit (s.frame f).slice
      | _ => false))

/-- A register of the sieve page (04 R148). -/
def State.sivRead (s : State) (o : Nat) : Nat :=
  match o with
  | 0x10 => flag s.siv.ready 0 + flag s.siv.ckptActive 1 +
      flag (s.stk.pages.any (fun e => decide (e.2.stage = .sliceWait)) || s.switchWaits) 2 + flag s.siv.recovering 3 +
      put s.siv.startCase 3 4
  | 0x40 => put s.siv.blocksUsed.length 23 0 + put s.sliceOcc 7 24
  | 0x4C => sat 16 (s.siv.journalBytes / 2 ^ 20) + put (sat 8 ((s.now - s.siv.markDone) / Config.ms)) 8 16 +
      put (sat 8 (s.siv.staging.length / 1024)) 8 24
  | 0x50 => put s.siv.ckptProgress 7 0 + put (sat 16 ((s.now - s.siv.ckptDoneStart) / Config.sec)) 16 16
  | 0x54 => s.siv.seq.toNat % 2 ^ 32
  | 0x58 => s.siv.seq.toNat / 2 ^ 32
  | 0x5C => sat 16 s.siv.recMs + put (sat 16 s.siv.scanned) 16 16
  | 0x60 => put s.siv.demote.length 22 0
  | _ => 0

/-- UPK_RLT_DATA: the base-table entry that UPK_RLT_IDX names (07 R232). -/
def State.rltWord (s : State) : Nat :=
  let k := s.liveFld .upk 0x80 3 0
  let t := min 4 (s.liveFld .upk 0x80 6 4)
  ((List.range 3).map (fun i => put (signedOf 8 (s.rltOf k t i)) 8 (8 * i))).sum

/-- UPK_TRIM_DATA: the trims that UPK_TRIM_IDX names (07 R232). -/
def State.trimWord (s : State) : Nat :=
  let k := s.liveFld .upk 0x88 3 0
  let d := s.liveFld .upk 0x88 12 4
  ((List.range 3).map (fun i => put (signedOf 6 (s.trimOf d k i)) 6 (8 * i))).sum

/-- The valid fraction of the current greedy victim × 1,000; 0 while no greedy victim is emptied (07 R232). -/
def State.greedyShare (s : State) : Nat :=
  if s.upk.victim.isSome ∧ s.upk.victimPrec = 0 then s.upk.lastV * 1000 / s.upk.lastPages else 0

/-- A register of the upkeep page (07 R232). -/
def State.upkRead (s : State) (o : Nat) : Nat :=
  match o with
  | 0x0C => flag s.upk.patrolRestart 0
  | 0x10 => flag s.upk.victim.isSome 0 + flag (decide (s.freeStripes ≤ s.liveFld .upk 0x44 31 16)) 1 +
      flag s.upk.capAlert 2 + flag s.upk.pantry 3 + flag s.upk.governedLast 4 + flag (decide (s.upk.rebuildState ≠ 0)) 5 +
      flag s.upk.catchup 6 + flag s.upk.spareLow 7
  | 0x40 => sat 16 s.freeStripes + put (floorOf s.dieCount) 16 16
  | 0x54 => sat 16 s.writeAmp + put s.greedyShare 16 16
  | 0x58 => put s.resetRange.1 24 0
  | 0x5C => put s.resetRange.2 24 0
  | 0x64 => put s.patrolPct 7 0 + put (sat 16 ((s.now - s.upk.patrolDone) / (3600 * Config.sec))) 16 16
  | 0x74 => s.upk.driftClk.toNat
  | 0x7C => put s.upk.rebuildState 2 0 + put (bitsSet 32 s.upk.retiredMask.toNat).length 2 2 +
      put s.upk.lastRetired 5 4 + put (sat 16 s.upk.rebuildLeft) 16 16
  | 0x84 => s.rltWord
  | 0x8C => s.trimWord
  | _ =>
    if 0x100 ≤ o ∧ o < 0x140 then
      let n := (o - 0x100) / 4
      put (s.spareCount (2 * n)) 16 0 + put (s.spareCount (2 * n + 1)) 16 16
    else 0

/-- Whether a request is past its deadline (08 R249). -/
def State.late (s : State) (q : MReq) : Bool := nearer q.stamp s.fc32

/-- Whether a request of a class waits past its deadline in some lane. -/
def State.lateClass (s : State) (c : DlClass) : Bool :=
  s.pass.lanes.any (fun e => e.2.any (fun q => decide (q.cls = c) && s.late q))

/-- The class that PAS_AGE_SEL selects (08 R265). -/
def ageClass : Nat → DlClass
  | 1 => .drain
  | 2 => .scraper
  | 3 => .taster
  | 4 => .whisk
  | _ => .hostRead

/-- PAS_AGE (08 R265). -/
def State.ageWord (s : State) : Nat :=
  let qs := (s.lane (s.liveFld .pas 0x64 4 0)).filter (fun q => decide (q.cls = ageClass (s.liveFld .pas 0x64 7 5)))
  match qs with
  | [] => 0
  | q :: rest => sat 32 ((s.now - rest.foldl (fun m x => min m x.entered) q.entered) * 10 / Config.us)

/-- A register of the pass page (08 R265). -/
def State.pasRead (s : State) (o : Nat) : Nat :=
  let overdue := flag (s.lateClass .hostRead) 0 + flag (s.lateClass .drain) 1 + flag (s.lateClass .scraper) 2 +
    flag (s.lateClass .taster) 3 + flag (s.lateClass .whisk) 4
  match o with
  | 0x10 => if overdue = 0 then 0 else 1
  | 0x50 => s.pass.maskBrn.toNat
  | 0x54 => s.pass.maskLink.toNat
  | 0x58 => s.pass.maskWsk.toNat % 2 ^ 32
  | 0x5C => s.pass.maskWsk.toNat / 2 ^ 32
  | 0x60 => overdue
  | 0x68 => s.ageWord
  | _ => 0

/-! ### Ladles, spice rack, protection -/

/-- Locked ways of a ladle in a state (08 R247). -/
def State.lockedWays (s : State) (p : Nat) (st : WState) : Nat :=
  countIf (fun e => decide (e.1 % 16 < 16) && (s.lockWays p).testBit (e.1 % 16) && decide (e.2.state = st)) (s.ladle p).ways

/-- A register of a ladle page (08 R247). -/
def State.ldlRead (s : State) (p o : Nat) : Nat :=
  let l := s.ladle p
  match o with
  | 0x0C => flag l.enabled 0
  | 0x10 => flag l.enabled 0 + flag l.clean 1 + flag l.invBusy 2 + flag l.zeroBusy 3 + flag l.refused 4
  | 0x48 => flag l.invBusy 0
  | 0x58 => put (s.lockedWays p .valid) 16 0 + put (s.lockedWays p .held) 16 16
  | 0x64 => flag l.zeroErr 30 + flag l.zeroBusy 31
  | 0x68 => put l.victims.length 6 0
  | _ => 0

/-- The link with the most unowned writes waiting, and how many (10 R325). -/
def State.mostUnowned (s : State) : Nat × Nat :=
  s.ports.links.foldl (fun m e => if m.2 < e.2.unowned.length then (e.1, e.2.unowned.length) else m) (0, 0)

/-- Hooks in the broken state: also every hook that none has touched since the start (09 R290, R293). -/
def State.brokenHooks (s : State) : Nat := 4096 - countIf (fun e => decide (e.2.state ≠ 2)) s.hooks

/-- A register of the spice-rack page (09 R293, 10 R325). -/
def State.sprRead (s : State) (o : Nat) : Nat :=
  match o with
  | 0x10 => flag s.forwardMode 0 + flag s.spr.flushing 1 + flag s.spr.ssetFull 2 + flag s.spr.unownedHi 3 +
      flag s.spr.cqFull 4
  | 0x40 => put s.spr.dir.length 23 0 + put (s.spr.dir.length * 100 / 4194304) 7 24
  | 0x44 => sat 16 s.spr.trackers.length + put (min 12 s.spr.setMax) 4 16
  | 0x48 => put s.spr.queue.length 18 0
  | 0x50 => put s.spr.snoops.length 11 0
  | 0x54 => put s.mostUnowned.2 9 0 + put s.mostUnowned.1 5 9
  | 0x60 => flag s.spr.flushing 0
  | 0x904 => put (countIf (fun e => decide (e.2.state = 1) || decide (e.2.state = 3)) s.hooks) 13 0 +
      put s.brokenHooks 13 16
  | _ =>
    if 0x100 ≤ o ∧ o < 0x300 then
      match s.spr.ssets[(o - 0x100) / 0x10]? with
      | none => 0
      | some x => match (o - 0x100) % 0x10 with
        | 0 => put x.base 17 0
        | 4 => put x.size 18 0
        | 8 => (x.links.map (fun n => 2 ^ n)).sum
        | 0xC => 1 + put x.windows 8 1
        | _ => 0
    else 0

/-- A register of the protection page (12 R376). -/
def State.keyRead (s : State) (o : Nat) : Nat :=
  match o with
  | 0x10 => flag s.prot.lid 0 + flag s.prot.secret.isSome 1 + flag s.prot.keysReady 2 +
      put (if s.prot.lid then s.prot.cause else 0) 3 3 + flag s.prot.lockedUntil.isSome 6
  | 0x44 =>
    let k := s.slot (s.liveFld .key 0x40 9 0)
    put k.state 2 0 + flag k.pending 2 + put k.gen.toNat 16 16
  | 0x48 => sat 16 s.prot.integrity + put (sat 16 s.prot.other) 16 16
  | 0x4C => min 8 (countIf (fun t => decide (s.now ≤ t + 1000 * Config.ms)) s.prot.counted)
  | 0x50 => flag s.prot.vaultA 0 + flag s.prot.vaultB 1 + flag s.prot.vaultNewB 2 + flag (!s.prot.jobs.isEmpty) 3 +
      put s.prot.vaultSeq 16 16
  | 0x54 => sat 32 s.prot.rawBlocked
  | _ => 0

/-! ### Memory integrity, whisk, burners -/

/-- A register of the memory-integrity page (13 R396). -/
def State.mecRead (s : State) (o : Nat) : Nat :=
  let c := s.mecCount (s.liveFld .mec 0x40 3 0) s.selInst
  let b := s.mec.scrub
  let e := b.list[s.liveFld .mec 0xE0 5 0]?
  match o with
  | 0x10 => flag b.busy 0 + flag (!s.mec.locked.isEmpty) 1 + flag s.rawOk 2
  | 0x44 => put c.ce 31 0 + flag (decide (2 ^ 31 - 1 ≤ c.ce)) 31
  | 0x48 => put c.ue 31 0 + flag (decide (2 ^ 31 - 1 ≤ c.ue)) 31
  | 0x4C => put c.level 8 0 + put c.overflows 16 8
  | 0x50 => c.lastOff % 2 ^ 32
  | 0x54 => put (c.lastOff / 2 ^ 32) 3 0 + put c.pos0 7 3 + put c.pos1 7 10
  | 0xB4 => flag s.mec.refused 3 + put s.mec.result 2 4 + put s.mec.pos0 7 8 + put s.mec.pos1 7 16
  | 0xC0 => flag b.busy 31
  | 0xD4 => flag b.full 0 + flag b.aborted 1 + flag b.refused 2 + put b.list.length 7 8
  | 0xD8 => sat 32 b.corrected
  | 0xDC => sat 32 b.bad
  | 0xE4 => (e.map (fun x => x.1 % 2 ^ 32)).getD 0
  | 0xE8 => (e.map (fun x => put (x.1 / 2 ^ 32) 3 0 + put x.2 4 8)).getD 0
  | _ => 0

/-- A register of a context (11 R353, R354). -/
def State.ctxRead (s : State) (i o : Nat) : Nat :=
  let c := s.ctx i
  match o with
  | 0x30 => c.tail.toNat
  | 0x34 => c.head.toNat
  | 0x38 => flag (c.tlbInv || c.bells.any (fun b => decide (b.kind = 2))) 3
  | 0x3C => put c.state 3 0 + put c.kind 4 3 + flag c.ringErr 7 + flag c.tableErr 8 + flag c.saveErr 9 +
      put c.stopCause 2 10 + flag c.tailErr 12
  | 0x40 => c.faultCwa % 2 ^ 32
  | 0x44 => c.faultCwa / 2 ^ 32 % 16
  | 0x48 => c.progress % 2 ^ 32
  | 0x4C => c.progress / 2 ^ 32 % 32
  | _ => 0

/-- A register of a whisk channel's page (11 R354). -/
def State.wskRead (s : State) (c o : Nat) : Nat :=
  let h := s.chan c
  if o = 0x10 then
    (if h.held then 2 else if h.halted then 1 else 0) +
      flag ((List.range 4).any (fun k => decide ((s.ctx (c * 4 + k)).state = 3))) 2 + put h.slot 2 3
  else if 0x100 ≤ o ∧ o < 0x500 then s.ctxRead (c * 4 + (o - 0x100) / 0x100) ((o - 0x100) % 0x100)
  else 0

/-- BRN_DIE_c (06 R204). -/
def State.dieWord (s : State) (b c : Nat) : Nat :=
  let d := s.die b c
  d.temp.toNat + flag d.present 16 + flag d.failed 17 + flag d.alert 18 + flag d.dbi 19 + put d.owner.code 4 20

/-- A register of a burner page (06 R204). -/
def State.brnRead (s : State) (b o : Nat) : Nat :=
  let x := s.burner b
  match o with
  | 0x10 => flag x.ready 0 + flag x.retired 1 + flag x.training 2 + flag ((List.range 10).any (fun c => (s.die b c).suspended)) 3
  | 0x40 => ((List.range 10).map (fun c => flag (s.die b c).present c + flag (s.die b c).failed (10 + c))).sum +
      put s.dieCount 4 20
  | 0x44 => flag x.quickBusy 0 + flag x.fullBusy 1 + put x.trainState 2 4 + put x.failMask.toNat 10 6 +
      put (sat 8 x.quickCount) 8 16
  | 0x54 =>
    let i := s.liveFld (.brn b) 0x50 11 0
    if i < 2916 then (Config.hmat i).toNat else 0
  | _ =>
    if 0x80 ≤ o ∧ o < 0xA8 then s.dieWord b ((o - 0x80) / 4)
    else if 0xC0 ≤ o ∧ o < 0x110 then
      let u := (s.die b ((o - 0xC0) / 8)).uid.toNat
      if (o - 0xC0) % 8 = 0 then u % 2 ^ 32 else u / 2 ^ 32
    else if 0x120 ≤ o ∧ o < 0x148 then
      let d := s.die b ((o - 0x120) / 4)
      d.rdDly.toNat + d.wrDly.toNat * 2 ^ 8 + d.vref.toNat * 2 ^ 16 + d.margin.toNat * 2 ^ 24
    else 0

/-! ### Power and thermal -/

/-- A register of the power page (15 R450). -/
def State.pwrRead (s : State) (o : Nat) : Nat :=
  let p := s.pwr
  match o with
  | 0x0C => flag p.testReq 0
  | 0x10 => s.pwrState.code + flag p.supplyOk 3 + flag p.armed 4 + flag p.writeHold 5 + flag p.weak 6 + flag p.fault 7 +
      put p.test 2 8
  | 0x4C => sat 16 p.supply
  | 0x50 => sat 16 p.kettle + put (sat 16 p.hold) 16 16
  | 0x54 => sat 16 p.cap + put (if p.cap = 0 then 0 else sat 16 ((s.now - p.capAt) / (3600 * Config.sec))) 16 16
  | 0x58 => put p.lastCause 4 0 + flag p.lastClean 4 + flag p.lastSimmer 5 + put (sat 16 p.lastDuration) 16 16
  | 0x5C => put p.code 4 0 + put p.rail 3 4 + put p.pmbStatus.toNat 16 8
  | 0x60 => put p.yvAddr 4 0 + flag (decide (p.yvAddr = 0)) 4
  | 0x68 => put p.respStatus 8 0 + put p.respResult 2 8
  | _ =>
    if 0x100 ≤ o ∧ o < 0x140 ∧ o % 8 = 4 then
      let r := p.rails.getD ((o - 0x100) / 8) .off
      sat 16 r.vout + put (sat 16 r.iout) 16 16
    else if 0x208 ≤ o ∧ o < 0x280 then
      let v := p.slaves.getD ((o - 0x200) / 8) .none
      if o % 8 = 0 then leNat (v.status.take 4)
      else field v.status 4 2 + flag v.present 16 + flag v.lost 17
    else 0

/-- The sensor that THM_SEL names (17 R490). -/
def State.selSensor (s : State) : Nat :=
  let g := s.liveFld .thm 0x40 1 0
  (if g = 3 then 0 else g) * 1024 + s.liveFld .thm 0x40 10 2

/-- The highest band of a group's sensors that a test names. -/
def State.bandOf (s : State) (p : Nat → Bool) : Nat :=
  s.thm.sensors.foldl (fun m e => if p e.1 then max m e.2.band else m) 0

/-- Broken sensors of a group. -/
def State.brokenIn (s : State) (g : Nat) : Nat :=
  countIf (fun e => decide (e.1 / 1024 = g) && e.2.broken) s.thm.sensors

/-- A register of the thermal page (17 R490): a sensor in TEMP shows its own reading until it is broken. -/
def State.thmRead (s : State) (o : Nat) : Nat :=
  let t := s.thm
  match o with
  | 0x10 => flag t.throttle 0 + flag t.overRated 1 + flag t.groupDegraded 2 + flag (decide (t.trips = 1)) 3
  | 0x44 => match t.sensors.find s.selSensor with
    | none => 0
    | some x => signed16 (if x.broken then x.val else x.raw) + 2 ^ 16 + flag x.broken 17 + put x.band 3 18 +
        put (min 3 x.streak) 2 21
  | 0x48 => signed16 t.hot + put t.hotGroup 2 16 + put t.hotIndex 9 18
  | 0x4C => put t.devBand 3 0 + put (s.bandOf (fun k => decide (k < 1024))) 3 3 +
      put (s.bandOf (fun k => decide (1024 ≤ k) && decide (k < 1032))) 3 6 +
      put (s.bandOf (fun k => decide (1032 ≤ k) && decide (k < 2048))) 3 9 +
      put (s.bandOf (fun k => decide (2048 ≤ k))) 3 12 + put t.meanBand 3 15
  | 0x50 => put (s.brokenIn 0) 7 0 + put (s.brokenIn 1) 5 7 + put (s.brokenIn 2) 9 12
  | 0x58 => put t.rounds 24 0 + put (sat 8 t.overruns) 8 24
  | 0x5C => put t.calLast 8 0 + put t.calBurner 5 8
  | 0x60 => put t.test 8 0 + put t.target 8 8 + put t.testState 2 16 + put t.testResult 2 18
  | _ => 0

/-! ### Tallies, spike, ledger, stewards -/

/-- The _HI word of a counter or bin (18 R513). -/
def Counter.hiWord (c : Counter) : Nat :=
  c.val / 2 ^ 32 % 2 ^ 16 + flag c.sat 16 + flag c.invalid 17 + flag c.incomplete 18

/-- The counter or bin shown at an offset of the tally page, where the path sees it. -/
def State.tallyAt (s : State) (path : Path) (o : Nat) : Option Counter :=
  let seenC := fun (n : Nat) (m : SMap Counter) => if s.seesCounter path n then some (m.getD n .zero) else none
  let seenB := fun (k : Nat) (m : SMap Counter) => if s.seesUnit path (k / 32) then some (m.getD k .zero) else none
  if 0x4000 ≤ o ∧ o < 0x5800 then seenC ((o - 0x4000) / 8) s.tly.counters
  else if 0x6000 ≤ o ∧ o < 0x7800 then seenC ((o - 0x6000) / 8) s.tly.snap
  else if 0x8000 ≤ o ∧ o < 0xA000 then seenB ((o - 0x8000) / 8) s.tly.bins
  else if 0xA000 ≤ o ∧ o < 0xC000 then seenB ((o - 0xA000) / 8) s.tly.sbins
  else none

/-- A register of the tally page (18 R513): of a pair, the low word here; the high word is what its low word's read
latched. -/
def State.tlyRead (s : State) (path : Path) (o : Nat) : Nat :=
  let full := s.isFo path
  let all := s.tly.counters ++ s.tly.bins
  if o = 0x10 then if full then flag (all.any (fun e => e.2.sat)) 0 + flag (all.any (fun e => e.2.invalid)) 1 else 0
  else if o = 0x44 then put s.tly.snapSerial 16 0
  else if o = 0x48 then if full then
      put (countIf (fun e => e.2.sat) s.tly.counters) 10 0 + put (countIf (fun e => e.2.invalid) s.tly.counters) 10 10 +
        put (countIf (fun e => e.2.incomplete) s.tly.counters) 10 20
    else 0
  else if 0x3000 ≤ o ∧ o < 0x3200 ∧ o % 0x10 = 4 then
    let u := (o - 0x3000) / 0x10
    if s.seesUnit path u then sat 32 (s.tly.hmax.getD u 0) else 0
  else match s.tallyAt path o with
    | some c => if o % 8 = 0 then c.val % 2 ^ 32 else c.hiWord
    | none => 0

/-- A register of the spike page (18 R515). -/
def State.spkRead (s : State) (o : Nat) : Nat :=
  match o with
  | 0x10 => flag s.spk.ringOk 0 + flag (decide (0 < s.spk.writing)) 1 + flag s.spk.clearing 2 +
      flag (decide (4096 ≤ s.spk.staged.length)) 3
  | 0x40 => s.newestSerial.toNat
  | 0x44 => s.spk.oldest.toNat
  | 0x48 => put s.spk.ring.length 19 0 + put s.spk.staged.length 13 19
  | 0x4C => s.spk.lost
  | 0x58 => flag s.spk.missing 1
  | _ =>
    if 0x80 ≤ o ∧ o < 0xC0 then
      match s.spk.readSerial with
      | none => 0
      | some r => field r.bytes (o - 0x80) 4
    else 0

/-- A register of the ledger page (14 R414). -/
def State.fltRead (s : State) (o : Nat) : Nat :=
  let d := s.liveFld .flt 0x5C 3 0
  let i := s.liveFld .flt 0x5C 6 4
  let used := countIf (fun u => decide (u % 16 = d) && decide (u / 16 % 8 = i)) s.flt.lines
  match o with
  | 0x10 => flag s.flt.degraded 0 + flag (!s.flt.inPlace.isEmpty) 1 + flag s.flt.exhausted 2 + flag s.flt.writing.isSome 3
  | 0x4C => put (countIf (fun e => e.2.retired) s.dies) 9 0 + put (bitsSet 32 s.upk.retiredMask.toNat).length 2 10 +
      put (sat 8 s.flt.lanes.length) 8 12 + put (bitsSet 12 s.flt.stwRetired.toNat).length 4 20 +
      put (sat 8 s.flt.inPlace.length) 8 24
  | 0x50 => put s.flt.blocks 24 0
  | 0x54 => s.flt.stwRetired.toNat + put (sat 16 s.flt.stwRestarts) 16 16
  | 0x58 => put (s.rowsLeft 0) 16 0 + put (s.rowsLeft 1) 16 16
  | 0x60 => put (s.linesLeft d i) 16 0 + put used 16 16
  | 0x68 => (s.flt.epochs.getD (s.liveFld .flt 0x64 7 0) 0).toNat
  | 0x6C => sat 32 (s.flt.unavail + (match s.flt.outageAt with
      | some t => (s.now - t) / Config.ms
      | none => 0))
  | _ => 0

/-- The steward core that STW_CORE_SEL names (19 R530). -/
def State.selCore (s : State) : Nat :=
  let c := s.liveFld .stw 0x40 3 0
  if c < 12 then c else 0

/-- The progress of a background command, which the spec leaves open: a free value up to 100 percent (02 R63). -/
def State.progress (s : State) : Nat := (Config.freeWord s.free).toNat % 101

/-- A register of the steward page (19 R530). -/
def State.stwRead (s : State) (o : Nat) : Nat :=
  match o with
  | 0x10 => ((List.range 12).map (fun c => flag (decide (s.stw.state.getD c 0 = 0)) c)).sum
  | 0x44 =>
    let c := s.selCore
    put (s.stw.state.getD c 0) 2 0 + put (sat 8 (s.stw.restarts.getD c 0)) 8 8 +
      put (s.flt.epochs.getD (96 + c) 0).toNat 16 16
  | 0x48 => ((List.range 32).map (fun n => flag (s.mbx.runs.any (fun r => decide (pathNum r.path = n) && !r.bg)) n)).sum
  | 0x4C => match s.mbx.runs.find? (fun r => r.bg) with
    | some r => r.opcode + put s.progress 7 16
    | none => 0
  | _ => 0

/-! ### One register -/

/-- CAPS of a page (R519, R529). -/
def State.capsWord (s : State) (p : RPage) : Nat :=
  match p with
  | .glb => (match s.fuses.grade with
      | .g30 => 0
      | .g24 => 1) + put s.dieCount 4 2
  | _ => put p.count 8 0 + put p.spanLog2 5 8

/-- Whether a shadow of a page differs from its live value (R519). -/
def State.dirty (s : State) (p : RPage) : Bool :=
  let mine := fun (o : Nat) => match locate o with
    | some (q, _) => decide (q = p)
    | none => false
  (s.regs.shadow ++ s.regs.live).any (fun e => mine e.1 && (match p.row (e.1 - p.base) with
    | some r => r.staged && decide (s.getShadow p (e.1 - p.base) ≠ s.getLive p (e.1 - p.base))
    | none => false))

/-- The bits of a register that hold no written value: status, counts, busy flags. -/
def State.pageRead (s : State) (path : Path) (p : RPage) (o : Nat) : Nat :=
  match p with
  | .glb => if o = 0x10 then flag s.boot.ready 0 + flag (s.isFo path) 1 + put s.foLink 5 2 + flag s.cmt.pending 7
      else s.glbRead o
  | .boot => if o = 0x10 then flag s.boot.ready 0 + flag s.recovery 1 + flag s.boot.slow 2 else s.bootRead o
  | .port q => s.apertureRead path q o + s.portRead q o (match path with
      | .mctp => (List.range 4).map (fun k => q * 4 + k)
      | .link n => if s.isFo path then (List.range 4).map (fun k => q * 4 + k) else [n.val])
  | .stk => s.stkRead o
  | .siv => s.sivRead o
  | .upk => s.upkRead o
  | .pas => s.pasRead o
  | .ldl q => s.ldlRead q o
  | .spr => s.sprRead o
  | .key => s.keyRead o
  | .mec => s.mecRead o
  | .wsk c => s.wskRead c o
  | .brn b => s.brnRead b o
  | .pwr => s.pwrRead o
  | .thm => s.thmRead o
  | .tly => s.tlyRead path o
  | .spk => s.spkRead o
  | .flt => s.fltRead o
  | .stw => s.stwRead o

/-- The header of a page (R518, R519). -/
def State.header (s : State) (path : Path) (p : RPage) (o : Nat) : Option W32 :=
  match o with
  | 0x00 => some (at32 p.typ 0 ||| at32 p.inst 8 ||| at32 0x9032 16)
  | 0x04 => some (at32 1 8 ||| at32 s.fuses.step.toNat 16)
  | 0x08 => some (BitVec.ofNat 32 (s.capsWord p))
  | 0x14 => some (s.irqStat p)
  | 0x18 => some (s.irqEn p)
  | 0x1C => some 0
  | 0x20 | 0x24 | 0x28 | 0x2C => some (s.getLive p o)
  | 0x30 => some (s.getLive p 0x30 ||| bit32 (s.dirty p) 0)
  | 0x10 => some (BitVec.ofNat 32 (s.pageRead path p 0x10))
  | _ => none

/-- The _LO registers that latch their _HI register (04 R148, 18 R513, 19 R529). -/
def RPage.latches (p : RPage) (o : Nat) : Bool :=
  match p with
  | .siv => decide (o = 0x54)
  | .glb => decide (o = 0x44) || decide (o = 0x4C)
  | .tly => decide (0x4000 ≤ o) && decide (o < 0xC000) && decide (o % 8 = 0)
  | _ => false

/-- The value of a register on a path that sees it whole: a staged register reads as its shadow (R526), a _HI register as
its last latch (R521). -/
def State.regValue (s : State) (path : Path) (p : RPage) (o : Nat) : W32 :=
  match s.header path p o with
  | some w => w
  | none =>
    if 4 ≤ o ∧ p.latches (o - 4) then s.regs.hi.getD (p.base + o) (if p = .glb ∧ o = 0x48 then BitVec.ofNat 32 (s.glbRead o) else 0)
    else
      let held := match p.row o with
        | some r => if r.staged then s.getShadow p o else s.getLive p o
        | none => 0
      (if p = .stk ∨ p = .spr ∨ o ≠ 0x0C then held else 0) ||| BitVec.ofNat 32 (s.pageRead path p o)

/-- What a tenant reads of a page it sees (02 R54, R78, R525, R529, 11 R352, 18 R498). -/
def State.tenantValue (s : State) (n : Nat) (path : Path) (p : RPage) (o : Nat) : W32 :=
  match p with
  | .glb => if ([0x54, 0x58, 0x5C, 0x60, 0x64] : List Nat).contains o then 0 else s.regValue path p o
  | .port _ =>
    if o = 0x14 ∨ o = 0x18 ∨ o = 0x30 then 0
    else if 0x20 ≤ o ∧ o < 0x30 ∧ fld (s.getLive p 0x28) 4 0 ≠ n then 0
    else s.regValue path p o
  | .tly =>
    let sel := decide (0x1000 ≤ o) && decide (o < 0x1C00) && !s.seesCounter path ((o - 0x1000) / 4)
    let flt := decide (0x2000 ≤ o) && decide (o < 0x2800) && !s.filterShows ((o - 0x2000) / 0x20) n
    let cfg := decide (0x3000 ≤ o) && decide (o < 0x3200) && !s.seesUnit path ((o - 0x3000) / 0x10)
    if o = 0x14 ∨ o = 0x18 ∨ o = 0x30 ∨ o = 0x40 ∨ sel ∨ flt ∨ cfg then 0 else s.regValue path p o
  | _ => s.regValue path p o

/-- What a path reads at an offset of a page in the view it has of the page (R517, R524, R525). -/
def State.viewed (s : State) (v : View) (path : Path) (p : RPage) (o : Nat) : W32 :=
  match v with
  | .hidden => 0
  | .full => s.regValue path p o
  | .readOnly | .tenant => match path with
    | .mctp => s.regValue path p o
    | .link n => if s.isFo path then s.regValue path p o else s.tenantValue n.val path p o

/-- Whether a page's registers lie in the housekeeping domain (01 R16), which alone is clocked in Simmer (01 R20). -/
def RPage.housekeeping : RPage → Bool
  | .glb | .boot | .pwr | .thm => true
  | _ => false

/-- Whether a register is read live in Simmer: those of the housekeeping domain, and PORT_LINK_STATUS of the Simmer link (02
R75). -/
def State.liveInSimmer (s : State) (p : RPage) (o : Nat) : Bool :=
  p.housekeeping || decide (p = .port (s.ports.simmerLink / 4) ∧ o = 0x50 + s.ports.simmerLink % 4 * 4)

/-- What a read of a control-window offset returns on a path (R517, R524, R525); in Simmer the registers of the domains that are
stopped return what they held at its entry (02 R75). -/
def State.regRead (s : State) (path : Path) (off : Nat) : W32 :=
  match locate off with
  | none => 0
  | some (p, o) =>
    let v := s.view path p
    if s.unclocked && !s.liveInSimmer p o then
      (if v = .hidden then 0 else s.regs.entry.getD 0 (pathNum path * 2 ^ 26 + off))
    else s.viewed v path p o

/-- The values that the registers hold for a path, as an entry into Simmer keeps them (02 R75). -/
def State.entryValues (s : State) (path : Path) : SMap W32 :=
  (List.range 0x164000).filterMap (fun k => match locate (4 * k) with
    | none => none
    | some (p, o) =>
      let w := s.viewed (s.roleView path p) path p o
      if p.housekeeping ∨ w = 0 then none else some (pathNum path * 2 ^ 26 + 4 * k, w))

/-- The side effect of a read: a _LO register latches its _HI; SPR_TRK_OCC clears SET_MAX (R521, R525, 10 R325). -/
def State.readSide (s : State) (path : Path) (off : Nat) : State :=
  match locate off with
  | none => s
  | some (p, o) =>
    if s.view path p = .hidden ∨ (s.unclocked ∧ ¬ p.housekeeping) then s
    else if p.latches o then
      let hi := BitVec.ofNat 32 (s.pageRead path p (o + 4))
      { s with regs := { s.regs with hi := s.regs.hi.set 0 (p.base + o + 4) hi } }
    else if p = .spr ∧ o = 0x44 then { s with spr := { s.spr with setMax := 0 } }
    else s

/-- TRK_OCC_READ (10 R325): a read of SPR_TRK_OCC, which clears SET_MAX. -/
def execTrkOccRead (path : Path) (s : State) : Host.Outcome State Fault Refusal :=
  if !s.heard path then .next s else .next ((s.emit (.regRead path [s.regRead path 0x250044])).readSide path 0x250044)

end Sys2Proof.Machine
end

