-- ==== Sys2Proof/Machine/Commit.lean ====
section
/-!
DEFINITION. Staged registers and their commit (16_bring_up.md R471 to R473, 19_register_architecture.md R519, R526): the
rules each block checks its staged set by, what applying a set does, and the quiesce of ports.
-/

namespace Sys2Proof.Machine

/-! ### Staged writes -/

/-- Whether a host has committed a decoder of window `k` of port `p` (02 R81). -/
def State.hostCommitted (s : State) (p k : Nat) : Bool :=
  (List.range 4).any (fun i => match (s.link (p * 4 + i)).decoders.find k with
    | some d => d.committed
    | none => false)

/-- Whether a write to a staged register is ignored: a field of a window that a host has committed, but for a write that
clears its ENABLE (02 R52). -/
def State.windowLocked (s : State) (p : RPage) (o : Nat) (v : W32) : Bool :=
  match p with
  | .port q => decide (0x100 ≤ o) && decide (o < 0x300) && decide ((o - 0x100) % 0x20 < 0x10) &&
      s.hostCommitted q ((o - 0x100) / 0x20) && !(decide ((o - 0x100) % 0x20 = 8) && !bitOf v 31)
  | _ => false

/-- The value a write leaves in a register whose writable bits a mask names. -/
def maskedWrite (old v : W32) (m : Nat) : W32 := (old &&& ~~~ (BitVec.ofNat 32 m)) ||| (v &&& BitVec.ofNat 32 m)

/-- A write of a staged register goes to its shadow (R471, 19 R526). -/
def State.stageWrite (s : State) (p : RPage) (o : Nat) (v : W32) : State :=
  match p.row o with
  | none => s
  | some r => if s.windowLocked p o v then s else s.setShadow p o (maskedWrite (s.getShadow p o) v r.mask)

/-- The registers whose shadow differs from the live value, by control-window offset, with their shadows. -/
def State.changes (s : State) : SMap W32 :=
  let keys := s.regs.shadow.map (fun (e : Nat × W32) => e.1) ++ s.regs.live.map (fun (e : Nat × W32) => e.1)
  keys.foldl (fun m k => match locate k with
    | none => m
    | some (p, o) => match p.row o with
      | none => m
      | some r => if r.staged && decide (s.getShadow p o ≠ s.getLive p o) then m.put k (s.getShadow p o) else m) []

/-- The pages that a set of changes lies in. -/
def pagesOf (cs : SMap W32) : List RPage :=
  (cs.filterMap (fun e => (locate e.1).map (fun (x : RPage × Nat) => x.1))).eraseDups

/-- The live values once a set of changes is applied. -/
def State.withChanges (s : State) (cs : SMap W32) : State :=
  cs.foldl (fun t e => match locate e.1 with
    | none => t
    | some (p, o) => t.setLive p o e.2) s

/-! ### The rules of the blocks -/

/-- A window (02 R81): whether it is enabled, its range, its type and keys, its link mask. -/
structure Win where
  on : Bool
  port : Nat
  k : Nat
  base : Nat
  size : Nat
  ty : Nat
  keyed : Bool
  grp : Nat
  mask : Nat
deriving DecidableEq, Repr

/-- The windows of a port. -/
def State.winsOf (s : State) (p : Nat) : List Win :=
  (List.range 16).map (fun k =>
    let c := s.winReg p k 8
    Win.mk (bitOf c 31) p k (s.winBase p k) (s.winSize p k) (fld c 1 0) (bitOf c 2) (fld c 6 3) (fld (s.winReg p k 0xC) 3 0))

/-- The links of a window. -/
def Win.links (w : Win) : List Nat := (bitsSet 4 w.mask).map (fun i => w.port * 4 + i)

/-- Whether two windows overlap: both are enabled and some unit lies in both. -/
def Win.overlaps (a b : Win) : Bool :=
  a.on && b.on && decide (max a.base b.base < min (a.base + a.size) (b.base + b.size))

/-- Whether two windows that overlap may (02 R49): shared windows of one type with the same range and keys; private windows
of the two links of one failover group. -/
def State.mayOverlap (s : State) (a b : Win) : Bool :=
  let same := decide (a.ty = b.ty) && decide (a.base = b.base) && decide (a.size = b.size) && decide (a.keyed = b.keyed) &&
    decide (a.grp = b.grp)
  same && (decide (a.ty ≠ 0) || (decide (a.port ≠ b.port) && (match a.links, b.links with
    | [m], [n] => decide (s.partner m = some n)
    | _, _ => false)))

/-- The overlap rule broken (R49). -/
def State.overlapErr (s : State) (all : List Win) (w : Win) : Bool :=
  all.any (fun x => decide (¬ (x.port = w.port ∧ x.k = w.k)) && w.overlaps x && !s.mayOverlap w x)

/-- The range rule broken (R81), in an enabled window or not: base plus size past the user capacity. -/
def State.rangeErr (s : State) (w : Win) : Bool :=
  decide (131072 < w.size) || decide (s.capacity < (w.base + w.size) * 2 ^ 28)

/-- The link-mask rule broken (R46, R49, R81) in an enabled window: a private window names one link, another window at least one;
an absent sub-link. -/
def State.maskErr (s : State) (w : Win) : Bool :=
  w.on && (decide (w.mask = 0) || (decide (w.ty = 0) && decide (w.links.length ≠ 1)) || w.links.any (fun n => !s.present n))

/-- The type rule broken (R41, R81): the reserved type in any window, a coherent one in an enabled window (log entry 97). -/
def State.typeErr (s : State) (w : Win) : Bool :=
  decide (w.ty = 3) || (w.on && decide (w.ty = 2) && w.links.any (fun n => (s.link n).up && !(s.link n).flit256))

/-- The STATUS error bits of a window (R81). -/
def State.winErrs (s : State) (all : List Win) (w : Win) : Nat :=
  flag (s.overlapErr all w) 8 + flag (s.rangeErr w || s.maskErr w) 9 + flag (s.typeErr w) 10

/-- The first register of a window that breaks a rule. -/
def State.winField (s : State) (all : List Win) (w : Win) : Option Nat :=
  let o := 0x100 + w.k * 0x20
  if s.overlapErr all w then some o
  else if s.rangeErr w then some (o + 4)
  else if s.typeErr w then some (o + 8)
  else if s.maskErr w then some (o + 0xC)
  else none

/-- Every enabled window. -/
def State.allWins (s : State) : List Win := (((List.range 8).map s.winsOf).flatten).filter (·.on)

/-- The distinct coherent ranges, as slots of the sharing-set table (10 R298). -/
def State.coherentSets (s : State) : List SSet :=
  (s.allWins.filter (fun w => decide (w.ty = 2) && decide (w.size ≠ 0))).foldl (fun l w =>
    let here := fun (x : SSet) => decide (x.base = w.base) && decide (x.size = w.size)
    if l.any here then
      l.map (fun x => if here x then { x with links := (x.links ++ w.links).eraseDups, windows := x.windows + 1 } else x)
    else l ++ [SSet.mk w.base w.size w.links 1]) []

/-- Event codes of the tallies (18 R492). -/
def tallyCodes : List Nat :=
  [0x000, 0x001, 0x002, 0x003, 0x004, 0x005, 0x006, 0x007, 0x008, 0x010, 0x011, 0x012, 0x013, 0x014, 0x020, 0x021, 0x022,
    0x030, 0x031, 0x032, 0x040, 0x041, 0x042, 0x043, 0x050, 0x051, 0x060, 0x061, 0x062, 0x070, 0x071, 0x072, 0x080, 0x081]

/-- A counter's selection breaks a rule: a reserved code (R492), or a parent that is none (R494). -/
def selErr (n : Nat) (v : W32) : Bool :=
  let p := fld v 25 16
  !tallyCodes.contains (fld v 9 0) || (decide (p ≠ 0x3FF) && (decide (p < 512) || decide (768 ≤ p) || decide (p ≤ n)))

/-- A filter breaks a rule (R498, R513). -/
def State.filterErr (s : State) (f : Nat) : Bool :=
  let c := s.getLive .tly (0x2000 + f * 0x20)
  decide (fld c 1 0 = 3) || decide (5 ≤ fld c 4 2) || (bitOf c 13 && !(decide (fld c 4 2 = 1) &&
    decide ((s.getLive .tly (0x2004 + f * 0x20)).toNat = 2 ^ fld c 18 14) &&
    decide (s.getLive .tly (0x2008 + f * 0x20) = 0)))

/-- The first register of the tally page that breaks a rule. -/
def State.tallyBreach (s : State) : Option Nat :=
  let sels := s.regs.live.filter (fun (e : Nat × W32) => decide (0x521000 ≤ e.1) && decide (e.1 < 0x521C00) &&
    selErr ((e.1 - 0x521000) / 4) e.2)
  match sels with
  | e :: _ => some (e.1 - 0x520000)
  | [] => ((List.range 64).find? s.filterErr).map (fun f => 0x2000 + f * 0x20)

/-- Whether a change of a whisk page may be made in the states its contexts have (11 R353). -/
def State.wskChangeOk (s : State) (c o : Nat) (v : W32) : Bool :=
  if o = 0x40 then (List.range 4).all (fun k => decide ((s.ctx (c * 4 + k)).state = 0))
  else
    let i := c * 4 + (o - 0x100) / 0x100
    let r := (o - 0x100) % 0x100
    let free := r = 4 ∨ (r = 0 ∧ (v ^^^ s.getLive (.wsk c) o) &&& 0xF1 = 0)
    decide free || ([0, 1, 4, 5] : List Nat).contains (s.ctx i).state

/-- The first register of a whisk page whose change is refused. -/
def State.wskBreach (s : State) (cs : SMap W32) (c : Nat) : Option Nat :=
  (cs.find? (fun e => match locate e.1 with
    | some (.wsk d, o) => decide (d = c) && !s.wskChangeOk c o e.2
    | _ => false)).map (fun e => (e.1 - 0x280000) % 0x1000)

/-- The first register of a page whose staged value breaks its block's rules, where `t` is `s` with the changes applied
(R471 and the field tables of the chapters). -/
def State.breach (s t : State) (cs : SMap W32) (p : RPage) : Option Nat :=
  match p with
  | .port q => (t.winsOf q).findSome? (t.winField t.allWins)
  | .stk => if t.liveFld .stk 0x54 14 8 ≤ t.liveFld .stk 0x54 6 0 ∨ 95 < t.liveFld .stk 0x54 14 8 then some 0x54 else none
  | .siv =>
    if t.openPct ≤ t.demoteLo ∧ t.demoteLo < t.demoteHi ∧ t.demoteHi ≤ 99 then none else some 0x44
  | .upk =>
    if floorOf t.dieCount < t.liveFld .upk 0x44 31 16 ∧ t.liveFld .upk 0x44 31 16 < t.liveFld .upk 0x44 15 0 then none
    else some 0x44
  | .ldl q => if 14 < (bitsSet 16 (t.lockWays q)).length then some 0x4C else none
  | .pwr => if t.liveFld .pwr 0x40 15 8 ≤ t.liveFld .pwr 0x40 7 0 then some 0x40 else none
  | .tly => t.tallyBreach
  | .wsk c => s.wskBreach cs c
  | _ => none

/-! ### Judging a set (R471, 19 R519) -/

/-- Writes a page's STAGE_STATUS after a commit judged its set. -/
def State.judged (s : State) (p : RPage) (bad : Option Nat) (serial : BitVec 8) : State :=
  s.setLive p 0x30 ((s.getLive p 0x30 &&& 4) ||| bit32 bad.isSome 1 ||| at32 (bad.getD 0 / 4) 4 ||| at32 serial.toNat 24)

/-- The changes of window registers among a set. -/
def windowChanges (cs : SMap W32) : Bool :=
  cs.any (fun e => match locate e.1 with
    | some (.port _, o) => decide (0x100 ≤ o) && decide (o < 0x300)
    | _ => false)

/-- Writes the error bits of the windows of the judged port pages. -/
def State.markWindows (s t : State) (ps : List RPage) : State :=
  ps.foldl (fun u p => match p with
    | .port q => (List.range 16).foldl (fun x k =>
        let e := match (t.winsOf q).find? (fun w => decide (w.k = k)) with
          | none => 0
          | some w => t.winErrs t.allWins w
        x.setLive p (0x110 + k * 0x20) (BitVec.ofNat 32 e)) u
    | _ => u) s

/-- Judges every staged set; the answer says whether all of them stand. -/
def State.judgeStaged (s : State) (cs : SMap W32) (serial : BitVec 8) : Bool × State :=
  let t := s.withChanges cs
  let ps := pagesOf cs
  let win := windowChanges cs
  let full := win && decide (32 < t.coherentSets.length)
  let u := (s.markWindows t ps)
  let u := ps.foldl (fun x p => x.judged p (s.breach t cs p) serial) u
  let u := if win then
      { (if full then u.judged .spr (some 0) serial else if ps.contains .spr then u else u.judged .spr none serial) with
        spr := { u.spr with ssetFull := full } }
    else u
  (!full && ps.all (fun p => (s.breach t cs p).isNone), u)

/-! ### Applying a set -/

/-- The ports whose bifurcation a set changes. -/
def bifurPorts (cs : SMap W32) : List Nat :=
  cs.filterMap (fun e => match locate e.1 with
    | some (.port q, 0x40) => some q
    | _ => none)

/-- Rebuilds the sharing-set table and flushes from the directory what a removed link may hold (10 R298, R299). -/
def State.rebuildSets (s : State) : State :=
  let old := s.spr.ssets
  let t := s.updSpr (fun x => { x with ssets := s.coherentSets })
  let gone := fun (e : DirE) => match old.find? (fun (x : SSet) => decide (x.base ≤ e.line / 2 ^ 22) &&
      decide (e.line / 2 ^ 22 < x.base + x.size)) with
    | none => []
    | some x => ((x.links.map s.group).eraseDups.filter (fun g => !(t.sharingSet e.line).contains g)).map (fun g => (e.line, some g))
  let todo := (t.spr.dir.map (fun (x : Nat × DirE) => gone x.2)).flatten
  if todo.isEmpty then t
  else (t.updSpr (fun x => { x with flushing := true, flushTodo := x.flushTodo ++ todo })).spice

/-- A context's CFG.ENABLE changes: a disabled context is DISABLED; an enabled one has work where its ring is not empty
(11 R345). -/
def State.enableCtx (s : State) (i : Nat) (on : Bool) : State :=
  s.updCtx i (fun c => { c with state := if !on then 0 else if c.state ≠ 0 then c.state else if c.head = c.tail then 1 else 2 })

/-- What follows from one changed register, the live values being applied: `old` is the value before. -/
def State.afterChange (s : State) (key : Nat) (old new : W32) : State :=
  match locate key with
  | some (.tly, o) => if 0x1000 ≤ o ∧ o < 0x1C00 then s.clearCounter ((o - 0x1000) / 4) else s
  | some (.wsk c, o) =>
    if 0x100 ≤ o ∧ (o - 0x100) % 0x100 = 0 ∧ bitOf old 0 ≠ bitOf new 0 then
      s.enableCtx (c * 4 + (o - 0x100) / 0x100) (bitOf new 0)
    else s
  | some (.siv, 0x44) => s.queueDemotions
  | _ => s

/-- Applies a set of changes in one fabric cycle (R472, R473): the links of a port whose bifurcation changes go down and
train again (02 R46), lock registers release their ways (08 R242), windows rebuild the sharing sets. -/
def State.applyChanges (s : State) (cs : SMap W32) : State :=
  let ports := bifurPorts cs
  let t := ports.foldl (fun u p => (List.range 4).foldl (fun x k => x.holdLink (p * 4 + k) 4) u) s
  let u := t.withChanges cs
  let locked := (List.range 8).filter (fun q => cs.any (fun e => match locate e.1 with
    | some (.ldl r, o) => decide (r = q) && decide (0x4C ≤ o) && decide (o ≤ 0x54)
    | _ => false))
  let u := locked.foldl (fun x q => x.ladleRelock q (t.lockWays q)) u
  let u := cs.foldl (fun x e => match locate e.1 with
    | some (p, o) => x.afterChange e.1 (t.getLive p o) e.2
    | none => x) u
  let u := if windowChanges cs then u.rebuildSets else u
  if ports.isEmpty then u else u.releaseLinks

/-! ### The commit -/

/-- The ports a set quiesces (R473). -/
def affectedPorts (ps : List RPage) : List Nat :=
  if ps.all (fun p => match p with
    | .port _ | .ldl _ => true
    | _ => false) then (ps.filterMap (fun p => match p with
    | .port q | .ldl q => some q
    | _ => none)).eraseDups
  else List.range 8

/-- Starts a commit (R471): nothing staged, refused, at the next epoch boundary, or after a quiesce. -/
def State.startCommit (s : State) (path : Path) : State :=
  let serial := s.cmt.serial + 1
  let cs := s.changes
  if cs.isEmpty then { s with cmt := { s.cmt with serial := serial, result := 1, span := false, quiesce := 0 } }
  else
    let j := s.judgeStaged cs serial
    let t := { j.2 with cmt := { s.cmt with serial := serial, span := false, quiesce := 0 } }
    if !j.1 then { t with cmt := { t.cmt with result := 4 } }
    else
      let ps := pagesOf cs
      let one := decide (ps.length = 1) || (List.range 32).all (fun n => !(s.link n).memActive)
      { t with cmt := { t.cmt with
        pending := true, by_ := some path, result := 2, since := s.now, changes := cs
        ports := if one then [] else affectedPorts ps } }

/-- Whether a path's write to GLB_COMMIT is taken (R471, 19 R525). -/
def State.takesKey (s : State) (path : Path) : Bool := s.mayWrite path .glb && !s.cmt.pending

/-- COMMIT (R471): a write of 0x0000_C0DE to GLB_COMMIT. -/
def execCommit (path : Path) (s : State) : Host.Outcome State Fault Refusal :=
  .next (s.portWrite path 0x40 0xC0DE (fun s =>
    if s.takesKey path then (s.startCommit path) else s))

/-- Reloads every shadow from its live value (R471). -/
def State.discardShadows (s : State) : State :=
  { s with regs := { s.regs with shadow := s.regs.live.filter (fun e => match locate e.1 with
    | none => false
    | some (p, o) => match p.row o with
      | none => false
      | some r => r.staged) } }

/-- DISCARD (R471): a write of 0x0000_D15C to GLB_COMMIT. -/
def execDiscard (path : Path) (s : State) : Host.Outcome State Fault Refusal :=
  .next (s.portWrite path 0x40 0xD15C (fun s =>
    if s.takesKey path then s.discardShadows else s))

/-- Ends a pending commit: the ports resume, the staged writes that waited land in the shadows, and the requests held in
receive buffers are decoded (R471, R473). -/
def State.endCommit (s : State) (result quiesce : Nat) (span : Bool) : State :=
  let t := { s with cmt := { s.cmt with
    pending := false, by_ := none, result := result, span := span, quiesce := quiesce, ports := [], changes := []
    waiting := [], requests := [] } }
  let t := s.cmt.waiting.foldl (fun (u : State) (w : Bar0Write) => match locate w.off with
    | some (p, o) => u.stageWrite p o w.data
    | none => u) t
  s.cmt.requests.foldl State.arrive t

/-- COMMIT_APPLY (R472): a commit that needs no quiesce applies at the next 1 µs epoch boundary. -/
def execCommitApply (s : State) : Host.Outcome State Fault Refusal :=
  if s.cmt.pending && s.cmt.ports.isEmpty then
    let t := s.reach ((s.cmt.since / Config.us + 1) * Config.us)
    .next ((t.applyChanges s.cmt.changes).endCommit 1 0 false)
  else .next s

/-- Whether a whisk channel stands at a chunk boundary. -/
def State.channelQuiet (s : State) (c : Nat) : Bool :=
  (List.range 4).all (fun k => !(s.ctx (c * 4 + k)).issued && (s.ctx (c * 4 + k)).writes.isEmpty)

/-- Whether the quiesce of a pending commit is reached (R473). -/
def State.quiescent (s : State) : Bool :=
  let mine := fun (n : Nat) => s.cmt.ports.contains (n / 4)
  s.loads.all (fun (e : Nat × Load) => !mine e.2.link) && s.spr.queue.all (fun (r : CReq) => !(decide (r.link < 32) && mine r.link)) &&
    s.spr.trackers.all (fun (k : Tracker) => match k.act with
      | .serve r | .retry r => !(decide (r.link < 32) && mine r.link)
      | _ => true) &&
    (List.range 32).all (fun n => !mine n || ((s.link n).iwq.isEmpty && (s.link n).unowned.isEmpty)) &&
    (List.range 64).all (fun c => !s.channelWaits c || s.channelQuiet c)

/-- Samples the quiesce time (18 R499). -/
def State.sampleQuiesce (s : State) : State := s.sample 6 (TEv.plain 0) (s.now - s.cmt.since)

/-- QUIESCE_REACHED (R473): the affected ports are quiet within 20 µs; the values apply and the ports resume. -/
def execQuiesceReached (s : State) : Host.Outcome State Fault Refusal :=
  if s.cmt.pending && !s.cmt.ports.isEmpty && s.quiescent && decide (s.now ≤ s.cmt.since + 20 * Config.us) then
    let t := s.sampleQuiesce
    .next ((t.applyChanges s.cmt.changes).endCommit 1 ((s.now - s.cmt.since) * 10 / Config.us) true)
  else .next s

/-- QUIESCE_TIMEOUT (R473): quiescence is not reached within 20 µs; nothing is applied, and the shadows keep their
values. -/
def execQuiesceTimeout (s : State) : Host.Outcome State Fault Refusal :=
  if s.cmt.pending && !s.cmt.ports.isEmpty && !s.quiescent then
    let t := s.reach (s.cmt.since + 20 * Config.us)
    .next (t.sampleQuiesce.endCommit 3 200 true)
  else .next s

end Sys2Proof.Machine
end

