-- ==== Sys2Proof/Machine/Discard.lean ====
section
/-!
DEFINITION. Discard (04_translation.md R144 to R146, 02_host_ports.md R58, R67): the one operation that Discard Range, the zero
operation, extent release, Secure Erase and Sanitize share.
-/

namespace Sys2Proof.Machine

/-- The stockpot's part (R145): a frame in STATE 1 is freed; one on its way to media is marked: it keeps its program and loses its map switch, unless REDIRTY is set. -/
def State.discardFrames (s : State) (first n : Nat) : State :=
  let kept := s.stk.frames.filter (fun e => !(inSpan first n e.2.slice && decide (e.2.state = .resident)))
  State.landAll (s.used landingRegion) { s with stk := { s.stk with
    frames := kept.map (fun e => (e.1, if inSpan first n e.2.slice then { e.2 with discarded := true } else e.2)) } }

/-- The ladles' part: no line of the range stays in a ladle, so that every line reads as zeros (R146). -/
def State.discardLadles (s : State) (first n : Nat) : State :=
  (List.range 8).foldl (fun t p =>
    (t.updLadle p (fun l => l.clearRange (t.lockWays p) (fun line => inSpan first n (line / 4)))).heldIrq
      (t.ladle p).heldCount p) s

/-- Stages the DISCARD record of a run of slices (R137, R144). -/
def State.stageDiscard (s : State) (first n : Nat) : State :=
  if n = 0 then s else s.stage ⟨.discard, first, n, s.siv.seq⟩

/-- Discards a run of slices within one loaf, which is promoted first where it is loaf-mapped; none where no slice block is
free (R144), or no room for the record (R134). -/
def State.discardPart (s : State) (first n : Nat) : Option State :=
  let l := first / 256
  if n = 0 then some s
  else if !s.stagingRoom 1 then none
  else if (s.loaf l).fmt = 0 then some (s.stageDiscard first n)
  else (s.toSlices l).map (fun t => ((List.range n).foldl (fun u k => u.discardSlice (first + k)) t).stageDiscard first n)

/-- The loaves wholly inside a range: the first and how many. -/
def wholeLoaves (first n : Nat) : Nat × Nat :=
  let a := (first + 255) / 256
  let b := (first + n) / 256
  (a, b - a)

/-- The runs of a range that cover part of a loaf: at its start and at its end. -/
def partRuns (first n : Nat) : List (Nat × Nat) :=
  let w := wholeLoaves first n
  if n = 0 then []
  else if w.2 = 0 then
    (if first / 256 = (first + n - 1) / 256 then [(first, n)]
      else [(first, w.1 * 256 - first), (w.1 * 256, first + n - w.1 * 256)])
  else [(first, w.1 * 256 - first), ((w.1 + w.2) * 256, first + n - (w.1 + w.2) * 256)].filter (fun r => decide (0 < r.2))

/-- Discards the loaves wholly inside a range: one record for the run (R144). -/
def State.discardWhole (s : State) (first n : Nat) : State :=
  let w := wholeLoaves first n
  let t := (s.siv.loafs.filter (fun e => inSpan w.1 w.2 e.1)).foldl (fun u e => u.discardLoaf e.1) s
  let t := t.stageDiscard (w.1 * 256) (w.2 * 256)
  { t with siv := { t.siv with demote := t.siv.demote.filter (fun l => !inSpan w.1 w.2 l) } }

/-- The runs of a range: the one of whole loaves, then those of parts of a loaf. -/
def discardRuns (first n : Nat) : List (Nat × Nat) :=
  let w := wholeLoaves first n
  (if w.2 = 0 then [] else [(w.1 * 256, w.2 * 256)]) ++ partRuns first n

/-- Discards one run in the map; none where it must wait (R134, R144). -/
def State.discardRun (s : State) (first n : Nat) : Option State :=
  if first % 256 = 0 ∧ n % 256 = 0 then (if s.stagingRoom 1 then some (s.discardWhole first n) else none)
  else s.discardPart first n

/-- Discards as many of some runs as slice blocks and journal staging allow; answers those that wait (R134, R144). -/
def State.discardParts : List (Nat × Nat) → State → List (Nat × Nat) × State
  | [], s => ([], s)
  | r :: rs, s =>
    match s.discardRun r.1 r.2 with
    | some t => State.discardParts rs t
    | none =>
      let x := State.discardParts rs s
      (r :: x.1, x.2)

/-- Discards a range of slices from its ordering point (R144 to R146): the frames, the ladles, the map. Answers the runs that
wait for a slice block, or for room in journal staging. -/
def State.discardRange (s : State) (first n : Nat) : List (Nat × Nat) × State :=
  let t := (s.discardFrames first n).discardLadles first n
  let x := State.discardParts (discardRuns first n) t
  (x.1, (if x.1.isEmpty then x.2 else x.2.queueDemotions).freeEmptied.judgeCapacity)

/-- A range of runs as the arguments of a command that waits. -/
def runArgs (rs : List (Nat × Nat)) : List Nat := (rs.map (fun r => [r.1, r.2])).flatten

/-- The output of a discard command: Discard Range gives the bytes discarded (R67). -/
def MbxRun.discardOut (r : MbxRun) : List Byte := if r.opcode = 0xC001 then leBytes 8 (r.args.headD 0) else []

/-- Whether a directory flush has lines of a range of slices still to evict or under way (10 R320). -/
def State.inFlush (s : State) (first n : Nat) : Bool :=
  s.spr.flushTodo.any (fun x => inSpan first n (x.1 / 4)) ||
    s.spr.trackers.any (fun k => k.act.isFlush && inSpan first n (k.line / 4))

/-- Starts a directory flush of the entries that some ranges of slices hold: a discard of a coherent range has its ordering
point only after that flush (10 R320). -/
def State.flushRanges (s : State) (ranges : List (Nat × Nat)) : State :=
  let ls := (s.spr.dir.filter (fun e => ranges.any (fun r => inSpan r.1 r.2 (e.2.line / 4)))).map
    (fun e => (e.2.line, (none : Option Nat)))
  if ls.isEmpty then s else (s.updSpr (fun x => { x with flushTodo := x.flushTodo ++ ls })).spice

/-- Discards some ranges of slices from their ordering point; answers the runs that wait for a slice block. -/
def State.discardRanges (s : State) (ranges : List (Nat × Nat)) : List (Nat × Nat) × State :=
  ranges.foldl (fun (acc : List (Nat × Nat) × State) r =>
    let y := acc.2.discardRange r.1 r.2
    (acc.1 ++ y.1, y.2)) ([], s)

/-- Whether a link has writes to some ranges of slices that were decoded and not accepted yet: the discard of a released extent
comes after them (02 R58). -/
def State.writesWait (s : State) (own : Option Nat) (ranges : List (Nat × Nat)) : Bool :=
  match own with
  | none => false
  | some n =>
    let here := fun (line : Nat) => ranges.any (fun r => inSpan r.1 r.2 (line / 4))
    (s.link n).iwq.any (fun e => here e.line) || (s.link n).unowned.any (fun e => here e.line)

/-- Goes on with one discard: one that waits for its flush or its link's writes (`rest` is 1, and the link plus 1) starts once
they are over (02 R58, 10 R320), one that waits for slice blocks takes what is free (R144); one that is done answers. -/
def State.pumpDiscard (s : State) (r : MbxRun) : State :=
  let runs := argRuns (r.args.drop 1)
  let waits := !r.rest.isEmpty
  let own := if (r.rest.getD 1 0).toNat = 0 then none else some ((r.rest.getD 1 0).toNat - 1)
  if waits && (runs.any (fun x => s.inFlush x.1 x.2) || s.writesWait own runs) then s
  else
    let x := if waits then s.discardRanges runs else State.discardParts runs s
    let r' := { r with args := r.args.take 1 ++ runArgs x.1, rest := [] }
    let u := { x.2 with mbx := { x.2.mbx with runs := x.2.mbx.runs.map (fun y => if y = r then r' else y) } }
    if x.1.isEmpty then u.endRun r' rcOk r'.discardOut else u

/-- Goes on with the discards that wait (R144, 10 R320). -/
def State.pumpDiscards (s : State) : State :=
  (s.mbx.runs.filter MbxRun.isDiscard).foldl State.pumpDiscard s

/-- Runs a discard for a command over some ranges of slices: it answers at once where nothing waits, waits for the flush of
what the directory holds of the ranges (10 R320), and goes on in the background where it is long (R67). `own` is the link whose
extents are released: its writes come first (02 R58), and the length of what it gives up sends no command to the background. -/
def State.discardFor (s : State) (p : Path) (opcode bytes : Nat) (ranges : List (Nat × Nat)) (own : Option Nat) : State :=
  let y := s.flushRanges ranges
  let wait := ranges.any (fun r => y.inFlush r.1 r.2) || y.writesWait own ranges
  let x := if wait then (ranges, y) else y.discardRanges ranges
  let t := x.2.startRun p opcode (bytes :: runArgs x.1) (if wait then [1, byteOf ((own.map (· + 1)).getD 0)] else [])
  match t.mbx.runs.getLast? with
  | none => t
  | some r =>
    if own.isNone && decide (64 * 2 ^ 20 < bytes) then t.toBackground r
    else if x.1.isEmpty then t.endRun r rcOk r.discardOut
    else t

end Sys2Proof.Machine
end

