-- ==== Sys2Proof/Machine/Format.lean ====
section
/-!
DEFINITION. Format (06_burner_channel.md R199, 07_upkeep.md R223, 12_protection.md R369): blank media, the spare pool, the
reserved blocks.
-/

namespace Sys2Proof.Machine

/-- Merges two tables in key order; where both list a key, the first one's value stands. -/
def mergeMaps {α : Type} : Nat → SMap α → SMap α → SMap α
  | 0, a, b => a ++ b
  | _, [], b => b
  | _, a, [] => a
  | n + 1, (i, x) :: a, (j, y) :: b =>
    if i < j then (i, x) :: mergeMaps n a ((j, y) :: b)
    else if i = j then (i, x) :: mergeMaps n a b
    else (j, y) :: mergeMaps n ((i, x) :: a) b

/-- The block table of new media: the members of the spare stripes are SPARE, the blocks of the flush areas and of the
inner-parity ring RESERVED, and every other block FREE, which is not listed (07 R205, R223). -/
def freshTable (n : Nat) : SMap Block :=
  let kind := fun (ce k : Nat) =>
    let S := k * n + ce
    if 2040 ≤ k ∨ S < 4 then some BState.reserved
    else if ringFirst n - spareStripes n ≤ S then some BState.spare
    else none
  let blocks := List.range 4 ++ (List.range 64).map (fun i => i + 1984)
  ((List.range 32).map (fun b => ((List.range n).map (fun ce => ((blocks.filterMap (fun k =>
    (kind ce k).map (fun st => (List.range 4).map (fun pl =>
      (pbOf b ce k pl, { Block.blank with state := st })))))).flatten)).flatten)).flatten

/-- What a block keeps through a format: its retirement and its count of resets. -/
def Block.reformat (b new : Block) : Block :=
  { new with state := if b.state = .retired then .retired else new.state, resets := b.resets }

/-- The block table after a format. -/
def State.formatTable (s : State) : SMap Block :=
  let fresh := freshTable s.dieCount
  let old := s.med.table.map (fun e => (e.1, e.2.reformat (fresh.getD e.1 .blank)))
  (mergeMaps (old.length + fresh.length + 1) old fresh).filter (fun e => decide (e.2 ≠ .blank))

/-- Formats the media as blank (R199, R223): the map and the journal are empty, every stripe FREE, the spare pool formed;
every owner record is to be written again. Retired blocks and the counts of resets stay. -/
def State.formatMedia (s : State) : State :=
  { s with
    siv := { s.siv with
      loafs := [], slices := [], blocksUsed := [], staging := [], lostStaging := false, markPending := false
      journalBytes := 0, journal := [], pendingRecs := [], mark := none, ckptActive := false, ckptImage := none
      ckptDone := none, ckptPending := false, demote := [], journalSector := 0, recordsSinceMark := 0 }
    rails := { s.rails with journal := .empty }
    med := { s.med with
      formatted := false, formatSeq := s.siv.seq, table := s.formatTable, openStripes := [], onDeck := [], resetting := []
      mirrorDue := [], ringNext := [], ringReset := [], moved := [], rebuilds := [], unsealed := [] }
    dies := s.dies.mapVal (fun _ (d : Die) => { d with ownerRec := [] })
    stk := { s.stk with frames := [], pages := [], blockSlots := [], blockPar := [], blockLost := [] }
    upk := { s.upk with
      forced := [], victim := none, victimRead := [], withdrawing := [], rebuilt := [], sealQueue := [], seals := []
      sealFails := [], repairs := [], refreshQueued := [], rebuildLeft := 0, rebuildState := 0, wiping := [] } }

end Sys2Proof.Machine
end

