-- ==== Sys2Proof/Machine/Vault.lean ====
section
/-!
DEFINITION. The key vault (12_protection.md R358, R359, R367 to R372): changes wait in the order of their commands, each is
written as a complete copy to the older region, and takes effect when the copy is durable. The ledger region (14 R405) and the
boot state (16 R457) are written in the same way.
-/

namespace Sys2Proof.Machine

/-! ### The start of a change -/

/-- The commands that wait for ladle walks: Erase Key, Secure Erase, Sanitize. Their arguments are the slot, 1 once the vault
copy is durable, and the ladles whose walks run. -/
def MbxRun.walks (r : MbxRun) : Bool := [0xC012, 0x4400, 0x4401].contains r.opcode

/-- Starts a full invalidation of all eight ladles (08 R243, 12 R372). -/
def State.walkLadles (s : State) : State := (List.range 8).foldl (fun t p => t.startInvalidation p 0 0) s

/-- The running command of a walk now waits for the walks of all eight ladles. -/
def armedArgs (slot : Nat) : List Nat := [slot, 0, 0, 1, 2, 3, 4, 5, 6, 7]

/-- Changes the arguments of the running commands a test names. -/
def State.updRuns (s : State) (p : MbxRun → Bool) (f : List Nat → List Nat) : State :=
  { s with mbx := { s.mbx with runs := s.mbx.runs.map (fun (r : MbxRun) => if p r then { r with args := f r.args } else r) } }

/-- Ends the oldest running command of a path and opcode that a test of its arguments names, with an outcome byte. -/
def State.answerRun (s : State) (p : Path) (opcode : Nat) (test : List Nat → Bool) (k : Nat) : State :=
  match s.mbx.runs.find? (fun r => decide (r.path = p) && decide (r.opcode = opcode) && test r.args) with
  | some r => s.endRun r rcOk (leBytes 4 k)
  | none => s

/-- The oldest command of a change waits for the ladles from here on. -/
def State.armWalks (s : State) (j : VaultJob) (slot : Nat) : State :=
  match s.mbx.runs.find? (fun r => r.walks && decide (some r.path = j.path) && decide (r.opcode = j.opcode) &&
      decide (r.args = [slot, 0])) with
  | some r => s.updRuns (fun x => decide (x = r)) (fun _ => armedArgs slot)
  | none => s

/-- Answers the command of a vault change with an outcome byte. -/
def State.answerJob (s : State) (j : VaultJob) (k : Nat) : State :=
  match j.path with
  | some p => s.answerRun p j.opcode (fun _ => true) k
  | none => s

/-- The ordering point of an erasure (R372): the slot is EMPTY; its frames in STATE 1 are freed, the others once they return
to it. -/
def State.eraseSlot (s : State) (n : Nat) : State :=
  let t := s.updSlot n (fun k => { k with state := 0, keyId := 0 })
  let its := fun (e : Nat × Frame) => decide (e.2.keyslot = n) && !metaRegion.has e.1
  let kept := t.stk.frames.filter (fun e => !(its e && decide (e.2.state = .resident)))
  State.landAll (s.used landingRegion) { t with stk := { t.stk with
    frames := kept.map (fun e => (e.1, if its e then { e.2 with erased := true } else e.2)) } }

/-- Slots that hold or have lost a key. -/
def State.usedSlots (s : State) : List Nat :=
  (s.slots.filter (fun e => decide (e.2.state = 1) || decide (e.2.state = 2))).map (·.1)

/-- Slots that are EMPTY. -/
def State.emptySlots (s : State) : List Nat := (List.range 1024).filter (fun n => decide ((s.slot n).state = 0))

/-- Marks a slot as changed by a vault write under way. -/
def State.pendSlot (s : State) (n : Nat) (v : Bool) : State := s.updSlot n (fun k => { k with pending := v })

/-- The front change starts: a command whose slot is not in the state it needs answers 1 and the next starts (R371, R372);
regeneration erases every slot in use first. -/
def State.startJobs : Nat → State → State
  | 0, s => s
  | fuel + 1, s =>
    match s.prot.jobs with
    | [] => s
    | j :: rest =>
      let next := fun (t : State) => State.startJobs fuel { t with prot := { t.prot with jobs := rest } }
      match j.work with
      | .generate n _ => if (s.slot n).state ≠ 0 then next (s.answerJob j 1) else s.pendSlot n true
      | .erase n => if (s.slot n).state = 0 then next (s.answerJob j 1)
        else (((s.eraseSlot n).pendSlot n true).walkLadles).armWalks j n
      | .regenerate => (s.usedSlots.foldl (fun t n => (t.eraseSlot n).pendSlot n true) s)
      | .generateAll => s.emptySlots.foldl (fun t n => t.pendSlot n true) s
      | .secret _ | .latch _ | .clear _ | .rewrite => s

/-- Queues a change; it starts at once where none is under way. -/
def State.addJob (s : State) (j : VaultJob) : State :=
  let t := s.vaultJob j
  if s.prot.jobs.isEmpty then State.startJobs 1 t else t

/-! ### A copy is durable -/


/-- A slot receives a new key: LOADED, its generation one higher (R371). -/
def State.loadSlot (s : State) (n keyId : Nat) : State :=
  s.updSlot n (fun k => { state := 1, gen := if k.gen = 0xFFFF then k.gen else k.gen + 1, keyId := keyId, pending := false })

/-- Loads slots with new keys from the device's entropy source: an identity of its own for each. -/
def State.loadSlots (s : State) (ns : List Nat) : State :=
  ns.foldl (fun t n => let d := t.draw; d.2.loadSlot n (d.1 + 1)) s

/-- What a change leaves in the block once its copy is durable. -/
def State.doWork (s : State) (w : KeyWork) : State :=
  match w with
  | .generate n _ => s.loadSlots [n]
  | .erase n => s.pendSlot n false
  | .secret b => { s with prot := { s.prot with secret := some b } }
  | .regenerate => s.loadSlots ((s.slots.filter (fun e => e.2.pending)).map (·.1))
  | .generateAll => s.loadSlots s.emptySlots
  | .clear a => if a = 1 ∧ ¬ s.vaultUsable then s.loadSlots s.emptySlots else s
  | .latch _ | .rewrite => s

/-- The latch a copy carries: clear in the copy of a Clear Alarm. -/
def State.latchFor (s : State) (w : KeyWork) : Nat :=
  match w with
  | .clear _ => 0
  | _ => if s.prot.lid then s.prot.cause else 0

/-- A complete copy stands in the older region, with a sequence number one higher. -/
def State.storeVault (s : State) (latch : Nat) : State :=
  let seq := s.prot.vaultSeq + 1
  let v : Vault := ⟨s.slots.mapVal (fun _ (k : KeySlot) => { k with pending := false }), latch, s.prot.secret⟩
  if s.olderIsB then
    { s with
      nor := { s.nor with vaultB := some (seq, v), vaultBadB := false }
      prot := { s.prot with vaultSeq := seq, vaultB := true, vaultNewB := true } }
  else
    { s with
      nor := { s.nor with vaultA := some (seq, v), vaultBadA := false }
      prot := { s.prot with vaultSeq := seq, vaultA := true, vaultNewB := false } }

/-- Ends the alarm (R369): lid down and its counts are cleared, the record made, ALARM deasserted, a stopped start goes on,
the links train. -/
def State.clearLid (s : State) (action requester : Nat) : State :=
  let t := { s with
    prot := { s.prot with lid := false, cause := 0, counted := [], lastSlices := [] }
    boot := { s.boot with blocked := false } }
  (((t.record 0x6003 action requester 0 0).emit (.pin "ALARM" false))).releaseLinks

/-- Clear Alarm's end (R369): reformat makes the media blank and empties the ladles. -/
def State.finishClear (s : State) (j : VaultJob) (action : Nat) : State :=
  let t := s.clearLid action ((j.path.map pathNum).getD 0x20)
  let t := if action = 1 then
      let u := t.formatMedia
      { u with ladles := u.ladles.mapVal (fun _ (l : Ladle) => l.clear) }
    else t
  t.answerJob j 0

/-- The user stripes a Sanitize has still to reset. -/
def State.wipeList (s : State) : List Nat :=
  s.listedStripes.filter (fun S => s.userStripe S && !s.upk.withdrawing.contains S)

/-- Whether a page is on its way to a stripe. -/
def State.pageOn (s : State) (S : Nat) : Bool :=
  s.stk.pages.any (fun e => match e.2.addr with
    | some a => decide (s.stripeAt a = S)
    | none => false)

/-- Issues the resets of a Sanitize: a stripe with no page on its way leaves service as an open stripe, and its members are
reset (R372). -/
def State.pumpWipe (s : State) : State :=
  s.upk.wiping.foldl (fun t S =>
    if (t.med.resetting.find S).isSome || t.pageOn S then t
    else
      let u := { t with med := { t.med with
        openStripes := t.med.openStripes.filter (fun o => decide (o.stripe ≠ S))
        onDeck := t.med.onDeck.filter (fun x => x != S) } }
      u.putOnDeck S) s

/-- Ends the commands whose vault copy is durable and whose ladle walks are over; a Sanitize goes on to reset the user stripes,
and ends with the last of them (R372). -/
def State.settleWalks (s : State) : State :=
  (s.mbx.runs.filter (fun r => r.walks && decide (r.args.drop 1 = [1]))).foldl (fun t r =>
    if r.opcode = 0x4400 then
      let u := { t with upk := { t.upk with wiping := t.wipeList } }
      (u.updRuns (fun x => decide (x = r)) (fun _ => [0, 2])).pumpWipe
    else t.endRun r rcOk (if r.opcode = 0xC012 then leBytes 4 0 else [])) s

/-- The walk of a ladle has ended for the commands that wait for it. -/
def State.walkEnded (s : State) (p : Nat) : State :=
  (s.updRuns (fun r => r.walks && decide (r.args.length ≠ 2)) (fun a => a.take 2 ++ (a.drop 2).filter (fun x => x != p))).settleWalks

/-- A Sanitize ends once no user stripe is left to reset (R372); a stripe withdrawn meanwhile is left out. -/
def State.settleWipe (s : State) : State :=
  let t := ({ s with upk := { s.upk with
    wiping := s.upk.wiping.filter (fun S => !s.upk.withdrawing.contains S) } }).pumpWipe
  if t.upk.wiping.isEmpty then
    t.endRuns (fun r => decide (r.opcode = 0x4400) && decide (r.args = [0, 2])) rcOk []
  else t

/-- Marks the oldest waiting command of a change as durable. -/
def State.markDurable (s : State) (j : VaultJob) (slot : Nat) : State :=
  match s.mbx.runs.find? (fun r => r.walks && decide (some r.path = j.path) && decide (r.opcode = j.opcode) &&
      decide (r.args.take 2 = [slot, 0])) with
  | some r => (s.updRuns (fun x => decide (x = r)) (fun a => slot :: 1 :: a.drop 2)).settleWalks
  | none => s

/-- The whole space is discarded (R372). -/
def State.discardAll (s : State) : State := (s.discardRange 0 (s.capacity / 256)).2

/-- The answer to a change whose copy is durable. -/
def State.afterWork (s : State) (j : VaultJob) : State :=
  match j.work with
  | .generate _ _ | .secret _ => s.answerJob j 0
  | .erase n => s.markDurable j n
  | .regenerate => ((s.discardAll.walkLadles).armWalks j 0).markDurable j 0
  | .clear a => if s.prot.lid then s.finishClear j a else s.answerJob j 1
  | .latch _ | .rewrite | .generateAll => s

/-- A write or its read-back fails (R371, R376): VAULT_ERR; the region holds no valid copy, and whether it still shows the
signature is open. Generate and Erase answer 2 and leave their slot EMPTY; every other change is written again. -/
def State.vaultFailed (s : State) (j : VaultJob) (rest : List VaultJob) : State :=
  let t := s.spoilVault
  let t := (t.record 0x6004 (if s.olderIsB then 1 else 0) 0 0 0).raise .key 6
  let drop := fun (u : State) => State.startJobs (rest.length + 1) { u with prot := { u.prot with jobs := rest } }
  match j.work with
  | .generate n _ | .erase n => drop ((t.pendSlot n false).answerJob j 2)
  | _ => t

/-- The copy under way is written, or has failed (R358). -/
def State.vaultWritten (s : State) (ok : Bool) : State :=
  match s.prot.jobs with
  | [] => s
  | j :: rest =>
    if ok then
      let t := (s.doWork j.work).storeVault (s.latchFor j.work)
      State.startJobs (rest.length + 1) (({ t with prot := { t.prot with jobs := rest } }).afterWork j)
    else s.vaultFailed j rest

/-- The copy of the ledger region under way is written to the older region, or has failed (14 R405). -/
def State.ledgerWritten (s : State) (ok : Bool) : State :=
  let left := s.nor.writes.erase 1
  let seq := s.flt.regionSeq.toNat - countIf (fun k => decide (k = 1)) left
  let t := { s with
    flt := { s.flt with writing := if left.contains 1 then s.flt.writing else none }
    nor := { s.nor with writes := left } }
  if !ok then (t.record 0x7005 0 0 0 0).raise .flt 4
  else if olderB s.nor.ledgerA s.nor.ledgerB then { t with nor := { t.nor with ledgerB := some (seq, s.flt.entries) } }
  else { t with nor := { t.nor with ledgerA := some (seq, s.flt.entries) } }

/-- The copy of the boot state under way is written to the older region, or has failed (16 R457). -/
def State.bootWritten (s : State) (ok : Bool) : State :=
  let seq := max ((s.nor.bootA.map (·.1)).getD 0) ((s.nor.bootB.map (·.1)).getD 0) + 1
  let t := { s with nor := { s.nor with writes := s.nor.writes.erase 2 } }
  if !ok then t
  else if olderB s.nor.bootA s.nor.bootB then { t with nor := { t.nor with bootB := some (seq, s.boot.state) } }
  else { t with nor := { t.nor with bootA := some (seq, s.boot.state) } }

/-- RANGE_INVALIDATION_END (08 R243): the walk of a ladle ends and INV_DONE is raised; the commands that waited for it go on
(R372). -/
def execRangeInvalidationEnd (p : Fin 8) (s : State) : Host.Outcome State Fault Refusal :=
  if s.unclocked then .next s else
  if (s.ladle p.val).invBusy then .next ((s.endInvalidation p.val).walkEnded p.val) else .next s

/-- VAULT_COPY_WRITTEN (R358, 14 R405, 16 R457): a copy under way finishes: 0 of the key vault, 1 of the ledger region, 2 of the
boot state; `ok` tells whether it read back valid. -/
def execVaultCopyWritten (kind : Fin 3) (ok : Bool) (s : State) : Host.Outcome State Fault Refusal :=
  match kind.val with
  | 0 => .next (s.vaultWritten ok)
  | 1 => if s.nor.writes.contains 1 then .next (s.ledgerWritten ok) else .next s
  | _ => if s.nor.writes.contains 2 then .next (s.bootWritten ok) else .next s

end Sys2Proof.Machine
end

