-- ==== Sys2Proof/Machine/Keys.lean ====
section
/-!
DEFINITION. Protection commands (12_protection.md R369 to R374): the key commands, Clear Alarm, Secure Erase and Sanitize, raw
accesses, SPDM and IDE key management.
-/

namespace Sys2Proof.Machine

/-! ### Key commands (R371, R372) -/

/-- The key groups of a path (R371): a tenant's are those of the enabled windows whose link mask admits it. -/
def State.ownsGroup (s : State) (p : Path) (g : Nat) : Bool :=
  s.isFo p || (match p with
    | .mctp => true
    | .link n => (List.range 16).any (fun k => s.winAdmits n.val k && decide (fld (s.winReg (n.val / 4) k 8) 6 3 = g)))

/-- GET_KEY_INFO (R371): the state and generation of the 64 slots of a group. -/
def execGetKeyInfo (p : Path) (group : Byte) (s : State) : Host.Outcome State Fault Refusal :=
  .next (s.command p 0xC010 anyone (fun s =>
    if 16 ≤ group.toNat ∨ ¬ s.ownsGroup p group.toNat then s.fail p 0xC010 rcInvalid
    else s.reply p 0xC010 rcOk (((List.range 64).map (fun k =>
      let x := s.slot (group.toNat * 64 + k)
      leBytes 4 (x.state + x.gen.toNat * 2 ^ 16))).flatten)))

/-- A command on one key slot of a path's own groups. -/
def State.slotCommand (s : State) (p : Path) (opcode slot : Nat) (w : KeyWork) (args : List Nat) : State :=
  s.command p opcode anyone (fun s =>
    if 1024 ≤ slot ∨ ¬ s.ownsGroup p (slot / 64) then s.fail p opcode rcInvalid
    else (s.startRun p opcode args []).addJob ⟨w, some p, opcode⟩)

/-- GENERATE_KEY (R371): an EMPTY slot receives a key; the command ends when the vault copy is durable. -/
def execGenerateKey (p : Path) (slot : BitVec 16) (s : State) : Host.Outcome State Fault Refusal :=
  .next (s.slotCommand p 0xC011 slot.toNat (.generate slot.toNat 0) [slot.toNat])

/-- ERASE_KEY (R372): the slot is EMPTY from the moment the command starts; it ends when the ladle walks have ended and the
vault copy is durable. -/
def execEraseKey (p : Path) (slot : BitVec 16) (s : State) : Host.Outcome State Fault Refusal :=
  .next (s.slotCommand p 0xC012 slot.toNat (.erase slot.toNat) [slot.toNat, 0])

/-- Whether a path is a link with a secure PCIe IDE stream. -/
def State.ideSecurePath (s : State) : Path → Bool
  | .mctp => false
  | .link n => (s.link n.val).ideIo

/-- SET_OWNER_SECRET (R371): bytes 0 to 31 are the new secret, bytes 32 to 63 the authorisation block. -/
def execSetOwnerSecret (p : Path) (input : List Byte) (s : State) : Host.Outcome State Fault Refusal :=
  .next (s.command p 0xC014 ownerOnly (fun s =>
    s.authorised p 0xC014 (input.take 32) (input.drop 32) (fun s =>
      if s.ideSecurePath p then
        (s.startRun p 0xC014 [] []).addJob ⟨.secret (input.take 32), some p, 0xC014⟩
      else s.outcome p 0xC014 4)))

/-! ### Clear Alarm (R369) -/

/-- Clear Alarm with an action: its outcomes 2, 3 and 1, in that order; else the latch is cleared in the vault, or, with no
valid copy and action 0, the alarm ends at once and the command when its record is durable. -/
def State.clearAlarm (s : State) (p : Path) (action : Nat) (blk : List Byte) : State :=
  s.command p 0xC020 ownerOnly (fun s =>
    s.authorised p 0xC020 (leBytes 4 action) blk (fun s =>
      if 2 ≤ action then s.outcome p 0xC020 3
      else if !s.prot.lid then s.outcome p 0xC020 1
      else if action = 0 ∧ ¬ s.vaultUsable then
        (s.startRun p 0xC020 [action, s.spk.next.toNat] []).clearLid 0 (pathNum p)
      else (s.startRun p 0xC020 [action] []).addJob ⟨.clear action, some p, 0xC020⟩))

/-- CLEAR_ALARM_RESUME (R369): Clear Alarm with action 0. -/
def execClearAlarmResume (p : Path) (blk : List Byte) (s : State) : Host.Outcome State Fault Refusal :=
  .next (s.clearAlarm p 0 blk)

/-- CLEAR_ALARM_REFORMAT (R369): Clear Alarm with action 1, or with a reserved action. -/
def execClearAlarmReformat (p : Path) (action : Byte) (blk : List Byte) (s : State) :
    Host.Outcome State Fault Refusal :=
  .next (s.clearAlarm p action.toNat blk)

/-- Ends a Clear Alarm that waits for its record: the ring holds a cleared record staged since (R369). -/
def State.settleClear (s : State) : State :=
  s.endRuns (fun r => decide (r.opcode = 0xC020) && (match r.args with
    | [_, since] => s.spk.ring.any (fun e => decide (e.2.code = 0x6003) &&
        decide ((e.2.serial - BitVec.ofNat 32 since).toNat < 2 ^ 31))
    | _ => false)) rcOk (leBytes 4 0)

/-! ### Secure Erase and Sanitize (R372) -/

/-- SECURE_ERASE (R372): every slot in use is regenerated, the whole space discarded, the ladles invalidated. -/
def execSecureErase (p : Path) (s : State) : Host.Outcome State Fault Refusal :=
  .next (s.command p 0x4401 ownerOnly (fun s =>
    (s.startRun p 0x4401 [0, 0] []).addJob ⟨.regenerate, some p, 0x4401⟩))

/-- SANITIZE (R372): as Secure Erase, and then every user stripe is reset, as a background command. -/
def execSanitize (p : Path) (s : State) : Host.Outcome State Fault Refusal :=
  .next (s.command p 0x4400 ownerOnly (fun s =>
    let t := (s.startRun p 0x4400 [0, 0] []).addJob ⟨.regenerate, some p, 0x4400⟩
    match t.mbx.runs.find? (fun r => decide (r.path = p) && decide (r.opcode = 0x4400) && !r.bg) with
    | some r => t.toBackground r
    | none => t))

/-! ### Raw accesses (R373) -/

/-- Whether a DPA line lies in a keyed range: that of an enabled keyed window on any port. -/
def State.keyedLine (s : State) (line : Nat) : Bool :=
  (List.range 128).any (fun i =>
    let c := s.winReg (i / 16) (i % 16) 8
    bitOf c 31 && bitOf c 2 && decide (s.winBase (i / 16) (i % 16) ≤ line / 2 ^ 22) &&
      decide (line / 2 ^ 22 < s.winBase (i / 16) (i % 16) + s.winSize (i / 16) (i % 16)))

/-- A blocked access is counted and raises a RAW alarm (R366, R373, R376). -/
def State.rawBlock (s : State) (debug : Bool) (recorded slice saddr : Nat) : State :=
  let t := { s with prot := { s.prot with rawBlocked := sat 32 (s.prot.rawBlocked + 1) } }
  t.alarm 5 ⟨0x3FF, recorded, if debug then 37 else 36, slice, saddr⟩

/-- The key slot recorded for a slice: that of its frame, else of its sector. -/
def State.recordedSlot (s : State) (slice : Nat) : Option Nat :=
  match s.resident slice with
  | some f => some (s.frame f).keyslot
  | none => (s.addrOf slice).bind (fun a => (s.sector a).map (fun (x : Sector) => x.keyslot))

/-- The media line of a DPA as a raw read sees it: its data and poison. -/
def State.mediaLine (s : State) (line : Nat) : (Line × Bool) × State :=
  match s.lookup (line / 4) (line % 4) with
  | .zeros => ((0, false), s)
  | .poison | .corrupt => ((0, true), s)
  | .sector a =>
    match s.sector a with
    | none => ((0, true), s)
    | some x =>
      let p := s.plain x
      ((p.1.get (line % 4), x.poison.getLsbD (line % 4)), p.2)

/-- A raw read of a line that is not blocked: the stockpot's bytes over the media's. -/
def State.rawLine (s : State) (line : Nat) : (Line × Bool) × State :=
  match s.resident (line / 4) with
  | none => s.mediaLine line
  | some f =>
    let x := s.frame f
    let n := line % 4
    if x.valid.getLsbD n then ((x.data.get n, x.poison.getLsbD n), s)
    else
      let m := s.mediaLine line
      ((mergeLine m.1.1 (x.data.get n) (x.maskOf n), m.1.2 || x.poison.getLsbD n), m.2)

/-- A raw read of a sector (R373): its ciphertext, its spare, and the code parity of its codeword; of a KIND 1, 2 or 7 sector the user
bytes are zero and the access is blocked. A reset page reads as all ones, and so does its code parity. -/
def State.rawSector (s : State) (debug : Bool) (a : Nat) : State :=
  if !s.programmed a then s.emit (.raw debug (List.replicate 256 0xFF) (List.replicate 608 0xFF) false)
  else
    let x := ((s.pageDomAt a).drop (a % 64 * 288)).take 288
    let spare := x.drop 256 ++ Config.codeParity (s.cwBytes a)
    match s.sector a with
    | some y =>
      if y.isData then (s.rawBlock debug y.keyslot y.unit a).emit (.raw debug (List.replicate 256 0) spare false)
      else s.emit (.raw debug (x.take 256) spare false)
    | none => s.emit (.raw debug (x.take 256) spare false)

/-- A raw write of a line that is not blocked is accepted under the slot recorded for its slice; where none is, which slot it
is under is open. -/
def State.rawWrite (s : State) (line : Nat) (data : Line) : State :=
  let d := s.draw
  let slot := (s.recordedSlot (line / 4)).getD ((Config.freeWord d.1).toNat % 1024)
  let w : WriteIn := {
    line := line, data := data, mask := fullMask, keyslot := slot, poison := false, link := s.foLink
    port := none, landing := false, master := some (3, 0), fo := true, coherent := s.isCoherent line }
  ((if (s.recordedSlot (line / 4)).isSome then s else d.2).accept w).getD s

/-- RAW_ACCESS (R373): a raw access of the debug port or of a steward. A blocked read of a line gives zeros with poison, a
blocked write is discarded; each is a RAW alarm. -/
def execRawAccess (debug : Bool) (op : RawOp) (s : State) : Host.Outcome State Fault Refusal :=
  match op with
  | .readDpa line =>
    let l := line.toNat
    if s.keyedLine l then
      .next ((s.rawBlock debug ((s.recordedSlot (l / 4)).getD 0) (l / 4) 0).emit (.raw debug (lineBytes 0) [] true))
    else
      let x := s.rawLine l
      .next (x.2.emit (.raw debug (if x.1.2 then lineBytes 0 else lineBytes x.1.1) [] x.1.2))
  | .writeDpa line data =>
    let l := line.toNat
    if s.keyedLine l then .next (s.rawBlock debug ((s.recordedSlot (l / 4)).getD 0) (l / 4) 0)
    else .next (s.rawWrite l data)
  | .readMedia addr => .next (s.rawSector debug addr.toNat)

/-! ### SPDM (R374) -/

/-- Answers a DOE request of a link that is up with a response code and the bytes that the SPDM standard lays out. -/
def State.doeReply (s : State) (n code : Nat) : State :=
  let d := s.draw
  d.2.emit (.doe n code (Config.freeBytes d.1))

/-- Sets the stage of a link's SPDM session. -/
def State.setDoe (s : State) (n st : Nat) : State :=
  { s with prot := { s.prot with doe := s.prot.doe.set 0 n st } }

/-- An SPDM request of a link: answered with its response where the session stands between two stages, with ERROR (0x7F)
elsewhere; it leaves the session at a stage of its own or where it was. -/
def State.spdm (s : State) (n : Fin 32) (low high code : Nat) (stage : Option Nat) : State :=
  if !(s.link n.val).up then s
  else
    let st := s.prot.doe.getD n.val 0
    if low ≤ st ∧ st ≤ high then
      (match stage with
        | some k => s.setDoe n.val k
        | none => s).doeReply n.val code
    else s.doeReply n.val 0x7F

/-- GET_VERSION (R374): begins a negotiation. -/
def execGetVersion (n : Fin 32) (s : State) : Host.Outcome State Fault Refusal := .next (s.spdm n 0 5 0x04 (some 1))

/-- GET_CAPABILITIES (R374). -/
def execGetCapabilities (n : Fin 32) (s : State) : Host.Outcome State Fault Refusal := .next (s.spdm n 1 2 0x61 (some 2))

/-- NEGOTIATE_ALGORITHMS (R374). -/
def execNegotiateAlgorithms (n : Fin 32) (s : State) : Host.Outcome State Fault Refusal :=
  .next (s.spdm n 2 3 0x63 (some 3))

/-- GET_DIGESTS (R374). -/
def execGetDigests (n : Fin 32) (s : State) : Host.Outcome State Fault Refusal := .next (s.spdm n 3 5 0x01 none)

/-- GET_CERTIFICATE (R374): of the chain in slot 0. -/
def execGetCertificate (n : Fin 32) (s : State) : Host.Outcome State Fault Refusal := .next (s.spdm n 3 5 0x02 none)

/-- CHALLENGE (R374). -/
def execChallenge (n : Fin 32) (s : State) : Host.Outcome State Fault Refusal := .next (s.spdm n 3 5 0x03 none)

/-- GET_MEASUREMENTS (R374). -/
def execGetMeasurements (n : Fin 32) (s : State) : Host.Outcome State Fault Refusal := .next (s.spdm n 3 5 0x60 none)

/-- KEY_EXCHANGE (R374): starts a session's handshake. -/
def execKeyExchange (n : Fin 32) (s : State) : Host.Outcome State Fault Refusal := .next (s.spdm n 3 5 0x64 (some 4))

/-- FINISH (R374): ends the handshake; `ok` tells whether the requester's proof verifies. -/
def execFinish (n : Fin 32) (ok : Bool) (s : State) : Host.Outcome State Fault Refusal :=
  .next (if ok then s.spdm n 4 4 0x65 (some 5) else s.spdm n 4 4 0x7F (some 3))

/-- HEARTBEAT (R374). -/
def execHeartbeat (n : Fin 32) (s : State) : Host.Outcome State Fault Refusal := .next (s.spdm n 5 5 0x68 none)

/-- END_SESSION (R374): the session ends; the keys programmed in it stay. -/
def execEndSession (n : Fin 32) (s : State) : Host.Outcome State Fault Refusal := .next (s.spdm n 5 5 0x6C (some 3))

/-! ### IDE key management (R62, R374) -/

/-- The number a key is listed under: its stream, key set and direction. -/
def ideCode (stream set : Nat) (tx : Bool) : Nat := stream * 8 + set * 4 + (if tx then 2 else 0)

/-- Runs an IDE key-management request inside a link's secure session; outside one it is answered with ERROR. -/
def State.ideKm (s : State) (n : Fin 32) (code : Nat) (body : State → State) : State :=
  if !(s.link n.val).up then s
  else if s.prot.doe.getD n.val 0 = 5 then (body s).doeReply n.val code
  else s.doeReply n.val 0x7F

/-- QUERY (R374): answered with the port's streams (QUERY_RESP, object 1, code 0x101). -/
def execQuery (n : Fin 32) (s : State) : Host.Outcome State Fault Refusal := .next (s.ideKm n 0x101 (fun s => s))

/-- KEY_PROG (R374): programs a key of a stream's key set in one direction (answered with KP_ACK, code 0x103); the set is not in
use until K_SET_GO. -/
def execKeyProg (n : Fin 32) (stream : Fin 6) (set : Fin 2) (tx : Bool) (s : State) :
    Host.Outcome State Fault Refusal :=
  .next (s.ideKm n 0x103 (fun s =>
    let c := ideCode stream.val set.val tx
    s.setIdeKeys n.val ((s.prot.ideKeys.getD n.val []).filter (fun k => decide (k / 2 ≠ c / 2)) ++ [c])))

/-- K_SET_GO (R374): a programmed key set comes into use in one direction in place of the other set (K_GOSTOP_ACK, code 0x106);
with both directions in use the stream is secure, and Insecure no more (R62). -/
def execKSetGo (n : Fin 32) (stream : Fin 6) (set : Fin 2) (tx : Bool) (s : State) :
    Host.Outcome State Fault Refusal :=
  .next (s.ideKm n 0x106 (fun s =>
    let c := ideCode stream.val set.val tx
    let o := ideCode stream.val (1 - set.val) tx
    let ks := s.prot.ideKeys.getD n.val []
    if ks.any (fun k => decide (k / 2 = c / 2)) then
      let ks := ks.map (fun k => if k / 2 = c / 2 then c + 1 else if k / 2 = o / 2 then o else k)
      let t := if ideSecure ks stream.val then s.setLink n.val (fun l => { l with
          insecure := l.insecure.filter (fun x => x != stream.val) }) else s
      t.setIdeKeys n.val ks
    else s))

/-- K_SET_STOP (R374): a key set goes out of use in one direction (K_GOSTOP_ACK, code 0x106). -/
def execKSetStop (n : Fin 32) (stream : Fin 6) (set : Fin 2) (tx : Bool) (s : State) :
    Host.Outcome State Fault Refusal :=
  .next (s.ideKm n 0x106 (fun s =>
    let c := ideCode stream.val set.val tx
    s.setIdeKeys n.val ((s.prot.ideKeys.getD n.val []).map (fun k => if k / 2 = c / 2 then c else k))))

end Sys2Proof.Machine
end

