-- ==== Sys2Proof/Machine/FlushPages.lean ====
section
/-!
DEFINITION. The flush image on media (03_stockpot.md R113, 05_media_layout.md R154, R172 to R174, 15_power.md R433): its pages and
their order, where each is placed and mirrored, and what of it a start can read.
-/

namespace Sys2Proof.Machine

/-! ### The pages of an image -/

/-- HOME as the tag codes it (03 R93). -/
def Home.code : Home → Nat
  | .unknown => 0
  | .noCopy => 1
  | .copy => 2

/-- A frame as a KIND 7 sector: its data under its slot's key, its tag in UNIT, KEYSLOT, POISON and FRAME (05 R154). -/
def State.frameSector (s : State) (f : Frame) : Sector :=
  { data := f.data, unit := f.slice, seq := 0, keyslot := f.keyslot, poison := f.poison, kind := 7
    frame := BitVec.ofNat 9 (f.valid.toNat + f.home.code * 2 ^ 4 + f.quota * 2 ^ 6 + (if f.masked then 2 ^ 8 else 0))
    keyId := f.key.getD (s.slot f.keyslot).keyId, tagOk := true, tweak := f.tweak }

/-- The frames of a region that are not free, in order. -/
def framesIn (fs : SMap Frame) (r : Region) : List (Nat × Frame) := fs.filter (fun e => r.has e.1)

/-- Pages of frames: 64 to a page, the last one filled up with pad sectors. -/
def framePages (fs : SMap Frame) (rs : List Region) : List (List (Nat × Frame)) :=
  let xs := (rs.map (framesIn fs)).flatten
  chunksOf 64 (xs.length / 64 + 1) xs

/-- Metadata sectors that step 3 writes after the host share: those of the metadata frames, the byte-mask entries, and the records
placed at Flush (03 R113, 04 R139; log entry 94). -/
def State.metaSectors (s : State) : Nat :=
  (framesIn s.stk.frames metaRegion).length + (s.maskOcc + 15) / 16 + (s.siv.staging.length + 15) / 16

/-- Metadata sectors of steps 4 and 5 and of the spike's staging buffer: 576 to a row slot, 72 to a block slot, 512 of the control area
(03 R92, R107, R108, R113, 15 R432 step 5). -/
def State.controlSectors (s : State) : Nat :=
  576 * s.rowSlots + 72 * s.stk.blockSlots.length + 512 + (s.spk.staged.length + 3) / 4

/-- The pages of the image before its marker, in the order of 03 R113. -/
def State.imagePages (s : State) : List ImagePage :=
  (framePages s.stk.frames [hostRegion, landingRegion]).map .frames ++
    List.replicate ((s.metaSectors + 63) / 64) .metadata ++
    (framePages s.stk.frames [upkeepRegion, rebuildRegion]).map .frames ++
    List.replicate ((s.controlSectors + 63) / 64) .metadata

/-- The sectors of page `i` of the image with its sequence number; `free` numbers the open contents of KIND 8 sectors. -/
def State.imageSectors (s : State) (i : Nat) (seq : BitVec 48) (free : Nat) : ImagePage → List Sector
  | .frames fs => (fs.map (fun e => { s.frameSector e.2 with seq := seq })) ++
      List.replicate (64 - fs.length) { padSector with seq := seq }
  | .metadata => (List.range 64).map (fun k =>
      let l := fun (n : Nat) => Config.freeLine (free + (i * 64 + k) * 4 + n)
      { metaSector 8 (i * 64 + k) ⟨l 0, l 1, l 2, l 3⟩ with seq := seq })

/-! ### Placement (05 R173) -/

/-- The burners a flush image is written over: those not retired in the newest durable checkpoint. -/
def State.flushBurnersOf (s : State) : List Nat :=
  let m := (s.siv.ckptDone.map (fun c => c.retiredMask)).getD 0
  (List.range 32).filter (fun b => !bitOf m b)

/-- The pages among the first `i + 1` of an image over `l` burners that fall to the burner at position `p`, as a count before page
`i`. -/
def pagesBefore (l p i : Nat) : Nat :=
  countIf (fun j => decide (j % l = p) || decide ((j + l / 2) % l = p)) (List.range i)

/-- Where page `i` goes on the burner at position `p`: quads in order, on the area's first chip enable for even quads and its second for
odd ones. -/
def State.flushAddr (s : State) (area p i : Nat) : Nat :=
  let live := s.flushBurnersOf
  let j := pagesBefore (max 1 live.length) p i
  let S := 2 * area + j / 4 % 2
  saOf (live.getD p 0) (s.stripeCe S) (s.stripeBlock S) (j / 8) (j % 4) 0

/-- The two places of page `i` of an image. -/
def State.flushPlaces (s : State) (area i : Nat) : List Nat :=
  let l := max 1 s.flushBurnersOf.length
  [s.flushAddr area (i % l) i, s.flushAddr area ((i + l / 2) % l) i]

/-- Writes page `i` of an image at both its places; a burner retired since the checkpoint issues no commands, and Flush skips it
(05 R173, 06 R197). -/
def State.putFlushPage (s : State) (area i : Nat) (xs : List Sector) : State :=
  ((s.flushPlaces area i).filter (fun a => !(s.burner (saBurner a)).retired)).foldl (fun t a =>
    { t with med := { t.med with sectors := xs.zipIdx.foldl (fun (m : SMap Sector) e => m.put (a + e.2) e.1) t.med.sectors } }) s

/-- The sectors of the marker page (15 R433): the marker in sector 0, zeros in the others, all KIND 9. -/
def markerSectors (b : List Byte) (seq : BitVec 48) : List Sector :=
  let line := fun (n : Nat) => BitVec.ofNat 512 (leNat ((b.drop (64 * n)).take 64))
  { metaSector 9 0 ⟨line 0, line 1, line 2, line 3⟩ with seq := seq } ::
    List.replicate 63 { metaSector 9 0 .zero with seq := seq }

/-! ### Reading an image back (05 R174) -/

/-- Whether the page at an address cannot be read at a start: nothing stands there, or one of its codewords fails classes A and B
(log entry 87). -/
def State.pageGone (s : State) (d a : Nat) : Bool :=
  !s.programmed a || (List.range 4).any (fun k => Config.startReadLost (d + a / 16 + k))

/-- Whether page `i` of an image fails on both its mirrors. -/
def State.flushPageLost (s : State) (d area i : Nat) : Bool := (s.flushPlaces area i).all (s.pageGone d)

end Sys2Proof.Machine
end

