-- ==== Sys2Proof/Machine/MapLoad.lean ====
section
/-!
DEFINITION. Map load (04_translation.md R141, R142), the replay of the flush image (03_stockpot.md R114, 05 R174), the stripes
found open (05 R175, 07 R211), and the clocks (18 R503, 07 R216).
-/

namespace Sys2Proof.Machine

/-! ### Journal replay (R137, R141) -/

/-- A change of the map that is not journalled: it comes from the journal or from the tags. -/
def State.quiet (s : State) (f : State → State) : State :=
  let t := f s
  { t with
    siv := { t.siv with
      staging := s.siv.staging, recTotal := s.siv.recTotal, recordsSinceMark := s.siv.recordsSinceMark }
    rails := { t.rails with journal := s.rails.journal }
    med := { t.med with moved := s.med.moved } }

/-- A promotion to a given slice block. -/
def State.promoteTo (s : State) (l b : Nat) : State :=
  let e := s.loaf l
  if e.fmt = 2 then s
  else
    let t := { s with siv := { s.siv with blocksUsed := insertNat b s.siv.blocksUsed } }
    let t := if e.fmt = 1 then
        (List.range 256).foldl (fun u k => u.setSliceE b k ⟨1, e.loc * 256 + k, 0⟩) t
      else t
    t.setLoaf l { e with fmt := 2, loc := b }

/-- A promotion with no occupancy limit (R142). -/
def State.promoteScan (s : State) (l : Nat) : State := s.promoteTo l (gapOf 0 s.siv.blocksUsed)

/-- A discard record: the loaves wholly inside its range, and the slices of slice-mapped loaves at its ends. -/
def State.replayDiscard (s : State) (first n : Nat) : State :=
  let t := s.discardWhole first n
  (partRuns first n).foldl (fun u r => if (u.loaf (r.1 / 256)).fmt = 2 then
      (List.range r.2).foldl (fun v k => v.discardSlice (r.1 + k)) u
    else u) t

/-- Applies one journal record to the map; HEAT stays that of the checkpoint (04 R131). -/
def State.replayRec (s : State) (r : JRec) : State :=
  match r.kind with
  | .sliceMap => if (s.loaf (r.unit / 256)).fmt = 2 then s.mapSlice r.unit r.loc r.seq else s
  | .loafMap => s.mapLoaf (r.unit / 256) (r.loc / 256) r.seq true
  | .promote => s.promoteTo (r.unit / 256) r.loc
  | .discard => s.replayDiscard r.unit r.loc
  | .poison => if (s.loaf (r.unit / 256)).fmt = 2 then s.poisonSlice r.unit (BitVec.ofNat 4 r.loc) else s
  | .pad | .flushMark | .cursor | .onDeck | .ckptStart | .ckptEnd | .reserved _ => s

/-- The journal through its last flush mark. -/
def throughMark (js : List JRec) : List JRec :=
  (js.reverse.dropWhile (fun r => decide (r.kind ≠ .flushMark))).reverse

/-- The mark whose records end a list: H, its cursors and its on-deck blocks. -/
def markOf (js : List JRec) : Option Mark :=
  let tail := (js.reverse.takeWhile (fun r => decide (r.kind ≠ .flushMark))).reverse
  match js.reverse.find? (fun r => decide (r.kind = .flushMark)) with
  | none => none
  | some r => some ⟨r.seq, (tail.filter (fun x => decide (x.kind = .cursor))).map (·.loc),
      (tail.filter (fun x => decide (x.kind = .onDeck))).map (·.loc)⟩

/-! ### The checkpoint (R140, R141) -/

/-- Whether the media are blank: no checkpoint and no journal (R141). -/
def State.blankMedia (s : State) : Bool := s.siv.ckptDone.isNone && s.siv.journal.isEmpty && s.med.flushArea.isEmpty

/-- Loads the newest completed checkpoint into the map stacks; formatted media without one are as after the format. -/
def State.loadCkpt (s : State) : State :=
  match s.siv.ckptDone with
  | none => { s with
      siv := { s.siv with loafs := [], slices := [], blocksUsed := [] }
      med := { s.med with table := freshTable s.dieCount } }
  | some c => { s with
      siv := { s.siv with loafs := c.loafs, slices := c.slices, blocksUsed := c.blocksUsed, ckptNum := c.number }
      med := { s.med with table := c.table }
      upk := { s.upk with
        driftClk := c.driftClk, retiredMask := c.retiredMask, rebuildState := c.rebuildState
        rebuildLeft := c.rebuildLeft, trims := c.trims } }

/-- The newest sequence number that the media show (R133): the counter goes on from it. -/
def State.newestSeq (s : State) (recs : List JRec) : BitVec 48 :=
  let a := (s.siv.journal ++ recs).foldl (fun m r => seqMax m r.seq) s.med.formatSeq
  s.med.sectors.foldl (fun m e => seqMax m e.2.seq) a

/-! ### The tag scan (R142) -/

/-- Whether the scan reads a page: it lies in an open plane block from its cursor on, or in an on-deck block, and no page between is
found reset: reading stops at the first one that is. -/
def State.scans (s : State) (m : Mark) (a : Nat) : Bool :=
  let p := saPage a
  let from_ := fun (p0 : Nat) => decide (p0 ≤ p) && (List.range (p + 1)).all (fun k => decide (k < p0) ||
    s.programmed (pbAddr (pbOfAddr a) + k * 256))
  m.cursors.any (fun c => decide (pbOfAddr c = pbOfAddr a) && from_ (saPage c)) ||
    m.onDeck.any (fun d => decide (d / 2 ^ 18 = a / 2 ^ 18) && from_ 0)

/-- Whether a codeword that the scan reads fails classes A and B (log entry 87). -/
def scanFails (d a : Nat) : Bool := Config.startReadLost (d + a / 16)

/-- The newest mirror of a plane block (05 R169). -/
def State.newestMirror (s : State) (x : Nat) : Option ParPage :=
  (s.med.parity.filter (fun e => decide (e.2.pkind = 3) && decide (e.2.src = srcOf x))).foldl (fun (m : Option ParPage) e =>
    match m with
    | some y => if seqNewer e.2.seq y.seq then some e.2 else m
    | none => some e.2) none

/-- Whether the newest mirror gives back a page that fails: it covers it, and no other page it covers fails (R142). -/
def State.mirrorGives (s : State) (d a : Nat) : Bool :=
  match s.newestMirror (pbOfAddr a) with
  | none => false
  | some m => decide (saPage a ≤ m.row) && (List.range (m.row + 1)).all (fun p => decide (p = saPage a) ||
      (List.range 4).all (fun k => !scanFails d (pbAddr (pbOfAddr a) + p * 256 + k * 16)))

/-- Whether the scan gets the codeword of a sector: it decodes, or class C rebuilds it where its row is sealed, or the inner mirror
does (R142). -/
def State.scanGets (s : State) (d a : Nat) : Bool :=
  let S := s.stripeAt a
  !scanFails d a ||
    (if s.rowSealed S (saPage a) then
      decide (countIf (fun b => decide (b = saBurner a) || scanFails d (s.memberCw S b a)) (s.spans S) ≤ 2)
    else s.mirrorGives d a)

/-- The sectors found: address and sector, newer than what the mark covers; a page whose sectors still fail decoding is treated as never
written. -/
def State.scanned (s : State) (m : Mark) (d : Nat) : List (Nat × Sector) :=
  s.med.sectors.filter (fun e => seqNewer e.2.seq m.covered && s.scans m e.1 && s.scanGets d e.1)

/-- A finding of the scan: its sequence number, and the loaf with its quad or the slice with its address. -/
inductive Found where
  | loaf (seq : BitVec 48) (loaf quad : Nat)
  | slice (seq : BitVec 48) (slice addr : Nat)
deriving DecidableEq, Repr

/-- The sequence number of a finding. -/
def Found.seq : Found → BitVec 48
  | .loaf n _ _ => n
  | .slice n _ _ => n

/-- Inserts a finding in ascending sequence order. -/
def insertFound (f : Found) : List Found → List Found
  | [] => [f]
  | g :: gs => if seqNewer g.seq f.seq then f :: g :: gs else g :: insertFound f gs

/-- Whether a quad has all its 256 sectors among those found, each marked as a loaf quad's. -/
def wholeQuad (xs : List (Nat × Sector)) (quad : Nat) : Bool :=
  decide ((xs.filter (fun e => decide (e.1 / 256 = quad) && decide (e.2.kind = 2))).length = 256)

/-- The findings of the scan in sequence order: whole loaf quads, and every other data sector as a slice; metadata and pad
sectors are skipped. -/
def findings (xs : List (Nat × Sector)) : List Found :=
  let quads := ((xs.filter (fun e => decide (e.2.kind = 2))).map (fun e => e.1 / 256)).eraseDups.filter (wholeQuad xs)
  let loaves := quads.filterMap (fun q =>
    let mine := xs.filter (fun e => decide (e.1 / 256 = q))
    mine.head?.map (fun e => Found.loaf (mine.foldl (fun m x => seqMax m x.2.seq) e.2.seq) (e.2.unit / 256) q))
  let slices := (xs.filter (fun e => (decide (e.2.kind = 1) || decide (e.2.kind = 2)) && !quads.contains (e.1 / 256))).map
    (fun e => Found.slice e.2.seq e.2.unit e.1)
  (loaves ++ slices).foldl (fun acc f => insertFound f acc) []

/-- Applies a finding; HEAT stays that of the checkpoint (04 R131). -/
def State.applyFound (s : State) (f : Found) : State :=
  match f with
  | .loaf n l q => s.mapLoaf l q n true
  | .slice n x a => (s.promoteScan (x / 256)).mapSlice x a n

/-- The tag scan from the last durable mark; SIV_RECOVERY.SCANNED counts its pages in units of 1,024. -/
def State.tagScan (s : State) (m : Option Mark) : State :=
  match m with
  | none => s
  | some k =>
    let d := s.draw
    let xs := d.2.scanned k (d.1 * 2 ^ 40)
    let t := d.2.quiet (fun u => (findings xs).foldl State.applyFound u)
    let pages := ((s.med.sectors.filter (fun e => s.scans k e.1)).map (fun e => e.1 / 64)).eraseDups
    { t with siv := { t.siv with scanned := pages.length / 1024 } }

/-- A checkpoint written whole (R142): the map as it stands, with its two records in the journal. -/
def State.wholeCkpt (s : State) : State :=
  let n := s.siv.ckptNum + 1
  let img : Ckpt := {
    number := n, loafs := s.siv.loafs, slices := s.siv.slices, blocksUsed := s.siv.blocksUsed, table := s.med.table
    driftClk := s.upk.driftClk, opsec := s.opsec, retiredMask := s.upk.retiredMask
    rebuildState := s.upk.rebuildState, rebuildLeft := s.upk.rebuildLeft, trims := s.upk.trims }
  let js : List JRec := [⟨.ckptStart, 0, n, s.siv.seq⟩, ⟨.ckptEnd, 0, n, s.siv.seq⟩]
  { s with siv := { s.siv with
    ckptNum := n, ckptDone := some img, ckptDoneStart := s.now, ckptStarted := s.now, journal := js
    journalBytes := 16384, mark := none } }

/-! ### Stripes at a start (05 R175, 07 R211) -/

/-- The state a stripe takes at a start: open ones are closed, a victim is VERIFIED again, and another one that holds data is
closed. No block is on deck: its reset was not in this power cycle (06 R196). -/
def State.startState (s : State) (S : Nat) : BState :=
  match s.stripeState S with
  | .open_ => .closed
  | .victim => .verified
  | .onDeck | .free => if 0 < s.validOf S then .closed else .free
  | st => st

/-- One more than the highest page of a plane block that has been programmed. -/
def State.programmedTop (s : State) (x : Nat) : Nat :=
  (s.med.sectors.map (fun e => if pbOfAddr e.1 = x then saPage e.1 + 1 else 0)).foldl max
    ((s.med.parity.map (fun e => if pbOfAddr (e.1 * 64) = x then saPage (e.1 * 64) + 1 else 0)).foldl max 0)

/-- The fields of a stripe's members that follow from its width and from what stands on media: WIDTH, ROLE, CURSOR (07 R205). -/
def State.refit (s : State) (S w : Nat) (st : BState) : State :=
  let ms := s.liveBurners
  let role := fun (i : Nat) => if i = pPos S w then 1 else if i = qPos S w then 2 else 0
  let t := s.updStripe S (fun b => { b with state := st })
  ms.zipIdx.foldl (fun t e => (List.range 4).foldl (fun u pl =>
    u.updBlk (pbOfAddr (u.memberAddr S e.1 1023 pl)) (fun b => { b with
      width := if b.width = 0 then w else b.width
      role := if b.width = 0 ∨ b.role = 3 then role e.2 else b.role
      cursor := max b.cursor (s.programmedTop (pbOfAddr (u.memberAddr S e.1 1023 pl))) })) t) t

/-- Every stripe takes its state at a start (05 R175, 07 R211). -/
def State.settleStripes (s : State) : State :=
  s.listedStripes.foldl (fun u S =>
    let st := u.startState S
    if st = .closed then u.refit S u.liveBurners.length st else u.updStripe S (fun b => { b with state := st })) s

/-- An open stripe after a clean Flush (R175): its planes go on above what has been programmed, no parity of its unsealed rows counts as
issued, and no position above those rows will be programmed. -/
def State.reopen (s : State) (o : OpenStripe) : OpenStripe :=
  { o with
    next := (o.data.map (fun r => (List.range 4).map (fun pl =>
      (r * 4 + pl, s.programmedTop (pbOfAddr (s.memberAddr o.stripe r 1023 pl)))))).flatten.foldl
        (fun (m : SMap Nat) e => m.put e.1 e.2) []
    issued := o.issued.filter (fun p => (o.rows.find p).isNone) }

/-- Pads the unsealed rows of an open stripe, in order, and closes it: no page goes above them (R175, R163). -/
def State.padOut (s : State) (S : Nat) : State :=
  match s.med.openStripes.find? (fun o => decide (o.stripe = S)) with
  | none => s
  | some o =>
    let t := o.rows.foldl (fun u e => match u.med.openStripes.find? (fun x => decide (x.stripe = S)) with
      | some x => u.padRow x e.1
      | none => u) s
    let top := fun (x : OpenStripe) =>
      (x.data.map (fun r => (List.range 4).map (fun pl => r * 4 + pl))).flatten.foldl (fun (m : SMap Nat) k => m.put k 1024) x.next
    let shut := fun (x : OpenStripe) => if x.stripe = S then { x with next := top x } else x
    ({ t with med := { t.med with openStripes := t.med.openStripes.map shut } }).fillRows.sealRows

/-- Closes every stripe that was open (R175): after a clean Flush its replayed row slots let its rows be padded and sealed; else its slots
are lost, its rows stay unsealed, and the stripes that hold one are forced victims. The blocks of closed stripes wait for their seal
scan. -/
def State.closeStripes (s : State) (img : Option FlushImage) : State :=
  let opens := (img.map (·.open_)).getD s.med.openStripes
  let t := { s with med := { s.med with openStripes := [], onDeck := [], resetting := [] } }
  let t := opens.foldl (fun (u : State) o => u.refit o.stripe o.width .open_) t
  match img with
  | some i =>
    let u := { t with
      med := { t.med with openStripes := opens.map t.reopen }
      stk := { t.stk with blockSlots := i.blockSlots, blockPar := i.blockPar, blockLost := i.blockLost } }
    (opens.foldl (fun v o => v.padOut o.stripe) (u.settleStripes)).requeueSeals
  | none =>
    let u := { t.settleStripes with med := { t.settleStripes.med with
      unsealed := t.settleStripes.med.unsealed ++ (opens.map (fun (o : OpenStripe) => List.map (fun (e : Nat × Nat) => (o.stripe, e.1)) o.rows)).flatten } }
    (opens.filter (fun (o : OpenStripe) => !o.rows.isEmpty)).foldl (fun v o => v.queueForced 3 o.stripe) u.requeueSeals

/-- A rebuild goes on from the block table (07 R227): the stripes with a member on a retired burner that still hold data are
queued again. -/
def State.resumeRebuild (s : State) : State :=
  if s.upk.rebuildState = 0 then s
  else
    let gone := (List.range 32).filter (fun b => bitOf s.upk.retiredMask b)
    (s.listedStripes.filter (fun S => decide (0 < s.validOf S) && gone.any (fun b =>
      decide ((s.blk (pbOf b (s.stripeCe S) (s.stripeBlock S) 0)).width ≠ 0)))).foldl (fun t S => t.queueForced 1 S) s

/-! ### The flush image (03 R114, 05 R174) -/

/-- The image where its marker can be read from one of its copies (15 R433); `d` numbers what the start reads. -/
def State.readImage (s : State) (d : Nat) : Option (Nat × FlushImage) :=
  match s.image with
  | none => none
  | some (area, i) => if s.flushPageLost d area i.pages then none else some (area, i)

/-- Whether a metadata page of the image fails on both its mirrors (R174, 12 R366). -/
def State.imageBroken (s : State) (d area : Nat) (i : FlushImage) : Bool :=
  i.layout.zipIdx.any (fun e => decide (e.1 = .metadata) && s.flushPageLost d area e.2)

/-- The frames of the image's pages, with whether their page was lost on both mirrors. -/
def State.imageFrames (s : State) (d area : Nat) (i : FlushImage) : List (Bool × Nat × Frame) :=
  (i.layout.zipIdx.map (fun e => match e.1 with
    | .frames fs => fs.map (fun f => (s.flushPageLost d area e.2, f))
    | .metadata => [])).flatten

/-- Frames as replay leaves them: resident; a lookup whose answer had not come is made again (03 R97, R114). -/
def replayFrame (f : Frame) : Frame := { f with state := .resident, redirty := false }

/-- The pages of frames that fail on both mirrors, with the number of frames of each. -/
def State.imageLost (s : State) (d area : Nat) (i : FlushImage) : List (Nat × Nat) :=
  i.layout.zipIdx.filterMap (fun e => match e.1 with
    | .frames fs => if s.flushPageLost d area e.2 then some (e.2, fs.length) else none
    | .metadata => none)

/-- Replays the flush image into the frames (03 R114); the slices of a page that fails on both mirrors are poisoned, and the loss
recorded for each page (R174, 18 R509 FLUSH_PAGE_LOST). -/
def State.replay (s : State) (d area : Nat) (i : FlushImage) : State :=
  let xs := (s.imageFrames d area i).filter (fun e => (!e.2.2.discarded || e.2.2.redirty) && !e.2.2.erased)
  let kept := (xs.filter (fun e => !e.1)).map (fun e => (e.2.1, replayFrame e.2.2))
  let t := { s with stk := { s.stk with frames := kept } }
  let t := (xs.filter (fun e => e.1)).foldl (fun u e => u.poisonAll e.2.2.slice) t
  let t := (s.imageLost d area i).foldl (fun (u : State) e => u.record 0x2004 e.1 e.2 0 0) t
  kept.foldl (fun u e => if e.2.home = .unknown then u.translate (e.2.slice % 4) (.home e.1) 6 else u) t

/-- What the power page shows of the marker found (15 R450). -/
def State.showMarker (s : State) (m : Option (List Byte)) : State :=
  match m with
  | none => { s with pwr := { s.pwr with lastCause := 0, lastClean := false, lastSimmer := false, lastDuration := 0 } }
  | some b => { s with pwr := { s.pwr with
      lastCause := field b 32 1, lastClean := true, lastSimmer := (field b 33 1).testBit 0, lastDuration := field b 6 2 } }

/-- The counts of operating seconds and power cycles resume (18 R503), and the drift clock with them (07 R216). -/
def State.restoreClocks (s : State) (m : Option (List Byte)) (spike : List SpikeRec) : State :=
  let recs := s.spk.ring.map (fun e => e.2) ++ spike
  let newest := recs.foldl (fun (x : Option SpikeRec) (r : SpikeRec) => match x with
    | none => some r
    | some y => if (r.serial - y.serial).toNat < 2 ^ 31 then some r else x) none
  let marked := (m.map (fun b => field b 40 5)).getD 0
  let ck := (s.siv.ckptDone.map (fun c => c.opsec)).getD 0
  let base := max (max marked ((newest.map (fun (r : SpikeRec) => r.opsec)).getD 0)) ck
  let cycles := max ((m.map (fun b => field b 34 3)).getD 0) ((newest.map (fun (r : SpikeRec) => r.cycles)).getD 0)
  { s with
    clk := { s.clk with base := base, cycles := sat 24 (cycles + 1) }
    upk := { s.upk with
      driftClk := s.upk.driftClk + BitVec.ofNat 32 ((base - ck) / 4 * 2 ^ s.liveFld .upk 0x70 2 0), driftAt := s.now } }

/-! ### The whole step -/

/-- The journal records that a start applies: those of the journal area, through the last mark unless the persistence domain was empty or
written out whole, and those of the flush image (R139, R141). -/
def State.replayRecs (s : State) (warm : Bool) (img : Option FlushImage) : List JRec :=
  (if warm || img.isSome then s.siv.journal else throughMark s.siv.journal) ++ (img.map (·.recs)).getD []

/-- Whether a metadata read of a map load fails: a record of a reserved KIND (R137), a page of the checkpoint or the journal that
neither class C gives back (log entry 87), or a metadata page of the image lost on both mirrors (12 R366). -/
def State.loadFails (s : State) (d : Nat) (warm : Bool) (img : Option (Nat × FlushImage)) : Bool :=
  (s.replayRecs warm (img.map (·.2))).any (fun r => match r.kind with
    | .reserved _ => true
    | _ => false) ||
  (!s.blankMedia && Config.startReadLost (d + 2 ^ 39)) ||
  (match img with
    | some (a, i) => s.imageBroken d a i
    | none => false)

/-- Map load at a start that does not keep the map (R141): the checkpoint, the journal through the last mark, the flush image's
records or the tag scan, and the stripes. Blank media give an unmapped map. The spike finds its position (18 R506). -/
def State.mapLoad (s : State) (warm : Bool) (img : Option FlushImage) : State :=
  let clean := warm || img.isSome
  let marker := img.map (·.marker)
  let js := s.replayRecs warm img
  let t := s.loadCkpt
  let t := t.quiet (fun u => js.foldl State.replayRec u)
  let m := (markOf js).orElse (fun _ => s.siv.mark)
  let t := if clean then t else t.tagScan m
  let seq := seqMax (t.newestSeq ((img.map (·.recs)).getD [])) (BitVec.ofNat 48 ((marker.map (fun b => field b 22 6)).getD 0))
  let t := { t with siv := { t.siv with
    seq := seq, mark := m, markAt := s.now, markDone := s.now, sweepAt := s.now, journal := js } }
  let t := (if warm then t.settleStripes.requeueSeals else t.closeStripes img).resumeRebuild.queueDemotions
  let t := if clean then t else t.wholeCkpt
  { t with siv := { t.siv with startCase := if warm then 2 else if clean then 3 else 4 } }

/-- The end of a map load: READY, with its duration (R148). -/
def State.loadEnds (s : State) : State :=
  { s with
    siv := { s.siv with ready := true, recovering := false, recMs := (s.now - s.siv.recAt) / Config.ms }
    stk := { s.stk with replay := false } }

/-- The start of a map load: STATUS.RECOVERING shows it (R141). -/
def State.loadBegins (s : State) : State := { s with siv := { s.siv with recovering := true, recAt := s.now } }

/-- A metadata integrity failure in a map load (12 R366, 16 R467): the METADATA alarm and lid down, which stop the start until Clear
Alarm. -/
def State.loadFailed (s : State) : State :=
  let t := (s.alarm 2 ⟨0x3FF, 0x3FF, 33, 0, 0⟩).lidDown 2
  { t with
    siv := { t.siv with recovering := false }
    boot := { t.boot with blocked := true } }

/-- The hash of a map-stack line at an offset (12 R357): the whole output of the integrity function under the metadata integrity key, over
a block that carries the offset, then the line. -/
def State.lineHash (s : State) (off : Nat) (line : List Byte) : List Byte := tagOf s.prot.keys.mdTag (leBytes 16 off ++ line)

/-- The 64 bytes of a map-stack line (04 R136); the free list names the free blocks in ascending order (log entry 95). -/
def State.stackLine (s : State) (off : Nat) : List Byte :=
  if off < 0x100000000 then
    ((List.range 8).map (fun k => leBytes 8 (s.loaf (off / 8 + k)).word)).flatten
  else if off < 0x300000000 then
    let o := off - 0x100000000
    ((List.range 8).map (fun k => leBytes 8 (s.sliceE (o / 2048) (o / 8 % 256 + k)).word)).flatten
  else if off < 0x310000000 then
    ((List.range 8).map (fun k => leBytes 8 ((s.blk ((off - 0x300000000) / 64)).word k))).flatten
  else
    let free := (List.range sliceBlocks).filter (fun b => !s.siv.blocksUsed.contains b)
    ((List.range 16).map (fun k => leBytes 4 (free.getD ((off - 0x310000000) / 4 + k) 0))).flatten

/-- The checksum regions (04 R136): offset and length. -/
def sumRegion (k : Nat) : Nat × Nat := (k * 2 ^ 26, if k < 196 then 2 ^ 26 else 2 ^ 24)

/-- A region's checksum: the exclusive or of its lines' hashes (04 R136). -/
def State.regionSum (s : State) (k : Nat) : List Byte :=
  let r := sumRegion k
  (List.range (r.2 / 64)).foldl (fun x i => xorBytes x (s.lineHash (r.1 + 64 * i) (s.stackLine (r.1 + 64 * i))))
    (List.replicate 16 0)

/-- The region checksum page (04 R136): the 197 checksums in order, filled up with zeros. -/
def State.sumPage (s : State) : List Byte :=
  let xs := ((List.range 197).map s.regionSum).flatten
  xs ++ List.replicate (4096 - xs.length) 0

/-- The regions whose stored checksum does not verify: those with a line that is locked, whose old hash cannot be removed (13 R388).
Every other one is `regionSum` of what the stacks hold, since each write brings it up to date (log entry 95). -/
def State.badRegions (s : State) : List Nat := (s.mec.locked.map (fun x => x / 2 ^ 20)).eraseDups

/-- Whether the map of the stacks is kept at a warm start (R143): they stayed in self-refresh, the retention flops' checksum verifies, every
region verifies, and the last journal record before the reset was a flush mark. -/
def State.mapSound (s : State) : Bool := s.siv.selfRefresh && s.siv.retention && s.badRegions.isEmpty && s.siv.lastMark

end Sys2Proof.Machine
end

