-- ==== Sys2Proof/Machine/RecipeTable.lean ====
section
/-!
DEFINITION. The bits of the control window that a recipe entry may not touch (16_bring_up.md R463): the defined fields whose
reset the chapters' field tables do not give as "recipe". Generated from those tables, as RegTable.lean is.
-/

namespace Sys2Proof.Machine

/-- Registers from `off`, `n` of them `stride` apart, with the bits of their fields that no recipe sets. -/
structure FixedRow where
  off : Nat
  n : Nat
  stride : Nat
  mask : Nat
deriving DecidableEq, Repr

/-- The header registers (19 R518, R519) whose fields no recipe sets: _ID, _VER, _CAPS, _IRQ_STAT, _IRQ_FORCE, the capture
words and _STAGE_STATUS. -/
def headerFixed : List FixedRow :=
  [⟨0x00, 1, 4, 0xFFFFFFFF⟩, ⟨0x04, 1, 4, 0xFFFFFF⟩, ⟨0x08, 1, 4, 0x1FFF⟩, ⟨0x14, 1, 4, 0xFFFFFFFF⟩,
   ⟨0x1C, 1, 4, 0xFFFFFFFF⟩, ⟨0x20, 4, 4, 0xFFFFFFFF⟩, ⟨0x30, 1, 4, 0xFF003FF7⟩]

/-- Fields of the PORT page. -/
def portFixed : List FixedRow :=
  [⟨0x50, 4, 4, 0xFFFFFFFF⟩,
   ⟨0x110, 16, 32, 0xFFFFFFFF⟩,
   ⟨0x1000, 1, 4, 0xFFFFFFFF⟩,
   ⟨0x1004, 1, 4, 0xFFFFFFFF⟩,
   ⟨0x1008, 1, 4, 0xFFFFFFFF⟩,
   ⟨0x100C, 1, 4, 0xFFFFFFFF⟩,
   ⟨0x8000, 8192, 4, 0xFFFFFFFF⟩]

/-- Fields of the STK page. -/
def stkFixed : List FixedRow :=
  [⟨0xC, 1, 4, 0x1⟩,
   ⟨0x10, 1, 4, 0x3F⟩,
   ⟨0x40, 1, 4, 0x7F07FFFF⟩,
   ⟨0x44, 1, 4, 0xFFFFFFFF⟩,
   ⟨0x48, 1, 4, 0x3FFF3FFF⟩,
   ⟨0x4C, 1, 4, 0x7FF00FF⟩,
   ⟨0x50, 1, 4, 0x3FFF⟩,
   ⟨0x100, 32, 4, 0xFFFF07FF⟩]

/-- Fields of the SIV page. -/
def sivFixed : List FixedRow :=
  [⟨0xC, 1, 4, 0x1⟩,
   ⟨0x10, 1, 4, 0x7F⟩,
   ⟨0x40, 1, 4, 0x7F7FFFFF⟩,
   ⟨0x4C, 1, 4, 0xFFFFFFFF⟩,
   ⟨0x50, 1, 4, 0xFFFF007F⟩,
   ⟨0x54, 1, 4, 0xFFFFFFFF⟩,
   ⟨0x58, 1, 4, 0xFFFF⟩,
   ⟨0x5C, 1, 4, 0xFFFFFFFF⟩,
   ⟨0x60, 1, 4, 0x3FFFFF⟩]

/-- Fields of the BRN page. -/
def brnFixed : List FixedRow :=
  [⟨0x10, 1, 4, 0xF⟩,
   ⟨0x40, 1, 4, 0xFFFFFF⟩,
   ⟨0x44, 1, 4, 0xFFFFF3⟩,
   ⟨0x50, 1, 4, 0xFFF⟩,
   ⟨0x54, 1, 4, 0x1FF⟩,
   ⟨0x80, 10, 4, 0xFFFFFF⟩,
   ⟨0xC0, 10, 8, 0xFFFFFFFF⟩,
   ⟨0xC4, 10, 8, 0xFFFFFFFF⟩,
   ⟨0x120, 10, 4, 0xFFFFFFFF⟩]

/-- Fields of the UPK page. -/
def upkFixed : List FixedRow :=
  [⟨0xC, 1, 4, 0x1⟩,
   ⟨0x10, 1, 4, 0xFF⟩,
   ⟨0x40, 1, 4, 0xFFFFFFFF⟩,
   ⟨0x54, 1, 4, 0xFFFFFFFF⟩,
   ⟨0x58, 1, 4, 0xFFFFFF⟩,
   ⟨0x5C, 1, 4, 0xFFFFFF⟩,
   ⟨0x64, 1, 4, 0xFFFF007F⟩,
   ⟨0x74, 1, 4, 0xFFFFFFFF⟩,
   ⟨0x7C, 1, 4, 0xFFFF01FF⟩,
   ⟨0x80, 1, 4, 0x7F⟩,
   ⟨0x88, 1, 4, 0x1FFF⟩,
   ⟨0x8C, 1, 4, 0x3F3F3F⟩,
   ⟨0x100, 16, 4, 0xFFFFFFFF⟩]

/-- Fields of the LDL page. -/
def ldlFixed : List FixedRow :=
  [⟨0xC, 1, 4, 0x1⟩,
   ⟨0x10, 1, 4, 0x1F⟩,
   ⟨0x40, 1, 4, 0x1FFFFFFF⟩,
   ⟨0x44, 1, 4, 0x3FFFFFFF⟩,
   ⟨0x48, 1, 4, 0x1⟩,
   ⟨0x58, 1, 4, 0xFFFFFFFF⟩,
   ⟨0x5C, 1, 4, 0xFFFFFFC0⟩,
   ⟨0x60, 1, 4, 0x1FFF⟩,
   ⟨0x64, 1, 4, 0xC07FFFFF⟩,
   ⟨0x68, 1, 4, 0x3F⟩]

/-- Fields of the PAS page. -/
def pasFixed : List FixedRow :=
  [⟨0x10, 1, 4, 0x1⟩,
   ⟨0x50, 1, 4, 0xFFFFFFFF⟩,
   ⟨0x54, 1, 4, 0xFFFFFFFF⟩,
   ⟨0x58, 1, 4, 0xFFFFFFFF⟩,
   ⟨0x5C, 1, 4, 0xFFFFFFFF⟩,
   ⟨0x60, 1, 4, 0x1F⟩,
   ⟨0x64, 1, 4, 0xFF⟩,
   ⟨0x68, 1, 4, 0xFFFFFFFF⟩]

/-- Fields of the SPR page. -/
def sprFixed : List FixedRow :=
  [⟨0xC, 1, 4, 0x1⟩,
   ⟨0x10, 1, 4, 0x1F⟩,
   ⟨0x40, 1, 4, 0x7F7FFFFF⟩,
   ⟨0x44, 1, 4, 0xFFFFF⟩,
   ⟨0x48, 1, 4, 0x3FFFF⟩,
   ⟨0x50, 1, 4, 0x7FF⟩,
   ⟨0x54, 1, 4, 0x3FFF⟩,
   ⟨0x58, 1, 4, 0x1FFFFFFF⟩,
   ⟨0x5C, 1, 4, 0x3FFFFFFF⟩,
   ⟨0x60, 1, 4, 0x1⟩,
   ⟨0x100, 32, 16, 0x1FFFF⟩,
   ⟨0x104, 32, 16, 0x3FFFF⟩,
   ⟨0x108, 32, 16, 0xFFFFFFFF⟩,
   ⟨0x10C, 32, 16, 0x1FF⟩,
   ⟨0x904, 1, 4, 0x1FFF1FFF⟩,
   ⟨0x908, 1, 4, 0x80000FFF⟩]

/-- Fields of the WSK page. -/
def wskFixed : List FixedRow :=
  [⟨0xC, 1, 4, 0x1⟩,
   ⟨0x10, 1, 4, 0x1F⟩,
   ⟨0x128, 4, 256, 0xFFFFFFC0⟩,
   ⟨0x12C, 4, 256, 0x1F0F⟩,
   ⟨0x130, 4, 256, 0xFFFFFFFF⟩,
   ⟨0x134, 4, 256, 0xFFFFFFFF⟩,
   ⟨0x138, 4, 256, 0xF⟩,
   ⟨0x13C, 4, 256, 0x1FFF⟩,
   ⟨0x140, 4, 256, 0xFFFFFFFF⟩,
   ⟨0x144, 4, 256, 0xF⟩,
   ⟨0x148, 4, 256, 0xFFFFFFFF⟩,
   ⟨0x14C, 4, 256, 0x1F⟩]

/-- Fields of the KEY page. -/
def keyFixed : List FixedRow :=
  [⟨0xC, 1, 4, 0x1⟩,
   ⟨0x10, 1, 4, 0x7F⟩,
   ⟨0x40, 1, 4, 0x3FF⟩,
   ⟨0x44, 1, 4, 0xFFFF0007⟩,
   ⟨0x48, 1, 4, 0xFFFFFFFF⟩,
   ⟨0x4C, 1, 4, 0xF⟩,
   ⟨0x50, 1, 4, 0xFFFF000F⟩,
   ⟨0x54, 1, 4, 0xFFFFFFFF⟩]

/-- Fields of the MEC page. -/
def mecFixed : List FixedRow :=
  [⟨0x10, 1, 4, 0x7⟩,
   ⟨0x40, 1, 4, 0x7F⟩,
   ⟨0x44, 1, 4, 0xFFFFFFFF⟩,
   ⟨0x48, 1, 4, 0xFFFFFFFF⟩,
   ⟨0x4C, 1, 4, 0xFFFFFF⟩,
   ⟨0x50, 1, 4, 0xFFFFFFFF⟩,
   ⟨0x54, 1, 4, 0x1FFFF⟩,
   ⟨0xA0, 1, 4, 0xFFFFFFF8⟩,
   ⟨0xA4, 1, 4, 0x7⟩,
   ⟨0xA8, 1, 4, 0xFFFFFFFF⟩,
   ⟨0xAC, 1, 4, 0xFFFFFFFF⟩,
   ⟨0xB0, 1, 4, 0x3FFF⟩,
   ⟨0xB4, 1, 4, 0x7F7F3F⟩,
   ⟨0xC0, 1, 4, 0x8000007F⟩,
   ⟨0xC4, 1, 4, 0xFFFFFFC0⟩,
   ⟨0xC8, 1, 4, 0x7⟩,
   ⟨0xCC, 1, 4, 0xFFFFFFC0⟩,
   ⟨0xD0, 1, 4, 0x7⟩,
   ⟨0xD4, 1, 4, 0x7F07⟩,
   ⟨0xD8, 1, 4, 0xFFFFFFFF⟩,
   ⟨0xDC, 1, 4, 0xFFFFFFFF⟩,
   ⟨0xE0, 1, 4, 0x3F⟩,
   ⟨0xE4, 1, 4, 0xFFFFFFFF⟩,
   ⟨0xE8, 1, 4, 0xF07⟩]

/-- Fields of the FLT page. -/
def fltFixed : List FixedRow :=
  [⟨0xC, 1, 4, 0x1⟩,
   ⟨0x10, 1, 4, 0xF⟩,
   ⟨0x4C, 1, 4, 0xFFFFFDFF⟩,
   ⟨0x50, 1, 4, 0xFFFFFF⟩,
   ⟨0x54, 1, 4, 0xFFFF0FFF⟩,
   ⟨0x58, 1, 4, 0xFFFFFFFF⟩,
   ⟨0x5C, 1, 4, 0x7F⟩,
   ⟨0x60, 1, 4, 0xFFFFFFFF⟩,
   ⟨0x64, 1, 4, 0xFF⟩,
   ⟨0x68, 1, 4, 0xFFFFFFFF⟩,
   ⟨0x6C, 1, 4, 0xFFFFFFFF⟩]

/-- Fields of the PWR page. -/
def pwrFixed : List FixedRow :=
  [⟨0xC, 1, 4, 0x1⟩,
   ⟨0x10, 1, 4, 0x3FF⟩,
   ⟨0x4C, 1, 4, 0xFFFF⟩,
   ⟨0x50, 1, 4, 0xFFFFFFFF⟩,
   ⟨0x54, 1, 4, 0xFFFFFFFF⟩,
   ⟨0x58, 1, 4, 0xFFFF003F⟩,
   ⟨0x5C, 1, 4, 0xFFFF7F⟩,
   ⟨0x60, 1, 4, 0x1F⟩,
   ⟨0x64, 1, 4, 0x80000FFF⟩,
   ⟨0x68, 1, 4, 0x3FF⟩,
   ⟨0x104, 8, 8, 0xFFFFFFFF⟩,
   ⟨0x208, 15, 8, 0xFFFFFFFF⟩,
   ⟨0x20C, 15, 8, 0x3FFFF⟩]

/-- Fields of the BOOT page. -/
def bootFixed : List FixedRow :=
  [⟨0x10, 1, 4, 0x7⟩,
   ⟨0x40, 1, 4, 0x1F⟩,
   ⟨0x44, 1, 4, 0xFFFFFFFF⟩,
   ⟨0x48, 1, 4, 0x1FF⟩,
   ⟨0x4C, 1, 4, 0xFFFFFF1F⟩,
   ⟨0x50, 1, 4, 0x7F7F⟩,
   ⟨0x58, 1, 4, 0xFFFFFFFF⟩,
   ⟨0x5C, 1, 4, 0x3FF⟩]

/-- Fields of the THM page. -/
def thmFixed : List FixedRow :=
  [⟨0x10, 1, 4, 0xF⟩,
   ⟨0x40, 1, 4, 0x7FF⟩,
   ⟨0x44, 1, 4, 0x7FFFFF⟩,
   ⟨0x48, 1, 4, 0x7FFFFFF⟩,
   ⟨0x4C, 1, 4, 0x3FFFF⟩,
   ⟨0x50, 1, 4, 0x1FFFFF⟩,
   ⟨0x58, 1, 4, 0xFFFFFFFF⟩,
   ⟨0x5C, 1, 4, 0x1FFF⟩,
   ⟨0x60, 1, 4, 0xFFFFF⟩]

/-- Fields of the TLY page. -/
def tlyFixed : List FixedRow :=
  [⟨0xC, 1, 4, 0x1⟩,
   ⟨0x10, 1, 4, 0x7⟩,
   ⟨0x40, 1, 4, 0x801FFFFF⟩,
   ⟨0x44, 1, 4, 0xFFFF⟩,
   ⟨0x48, 1, 4, 0x3FFFFFFF⟩,
   ⟨0x3004, 32, 16, 0xFFFFFFFF⟩,
   ⟨0x4000, 1536, 4, 0xFFFFFFFF⟩,
   ⟨0x6000, 1536, 4, 0xFFFFFFFF⟩,
   ⟨0x8000, 2048, 4, 0xFFFFFFFF⟩,
   ⟨0xA000, 2048, 4, 0xFFFFFFFF⟩]

/-- Fields of the SPK page. -/
def spkFixed : List FixedRow :=
  [⟨0x10, 1, 4, 0xF⟩,
   ⟨0x40, 1, 4, 0xFFFFFFFF⟩,
   ⟨0x44, 1, 4, 0xFFFFFFFF⟩,
   ⟨0x48, 1, 4, 0xFFFFFFFF⟩,
   ⟨0x4C, 1, 4, 0xFFFFFFFF⟩,
   ⟨0x54, 1, 4, 0xFFFFFFFF⟩,
   ⟨0x58, 1, 4, 0x3⟩,
   ⟨0x80, 16, 4, 0xFFFFFFFF⟩]

/-- Fields of the GLB page. -/
def glbFixed : List FixedRow :=
  [⟨0x10, 1, 4, 0x83⟩,
   ⟨0x40, 1, 4, 0xFFFFFFFF⟩,
   ⟨0x44, 1, 4, 0xFFFFFFFF⟩,
   ⟨0x48, 1, 4, 0xFFFFFFFF⟩,
   ⟨0x4C, 1, 4, 0xFFFFFFFF⟩,
   ⟨0x50, 1, 4, 0xFFFFFFFF⟩,
   ⟨0x54, 1, 4, 0xFFFFFFFF⟩,
   ⟨0x58, 1, 4, 0xFFFFFFFF⟩,
   ⟨0x5C, 1, 4, 0xFFFFFFFF⟩,
   ⟨0x60, 1, 4, 0xFFFFFFFF⟩,
   ⟨0x64, 1, 4, 0xFFFFFFFF⟩,
   ⟨0x68, 1, 4, 0xFFFFFFFF⟩]

/-- Fields of the STW page. -/
def stwFixed : List FixedRow :=
  [⟨0x10, 1, 4, 0xFFF⟩,
   ⟨0x40, 1, 4, 0xF⟩,
   ⟨0x44, 1, 4, 0xFFFFFF03⟩,
   ⟨0x48, 1, 4, 0xFFFFFFFF⟩,
   ⟨0x4C, 1, 4, 0x7FFFFF⟩]

/-- The fields of a page that no recipe sets. -/
def RPage.fixed : RPage → List FixedRow
  | .glb => headerFixed ++ glbFixed
  | .boot => headerFixed ++ bootFixed
  | .port _ => headerFixed ++ portFixed
  | .stk => headerFixed ++ stkFixed
  | .siv => headerFixed ++ sivFixed
  | .upk => headerFixed ++ upkFixed
  | .pas => headerFixed ++ pasFixed
  | .ldl _ => headerFixed ++ ldlFixed
  | .spr => headerFixed ++ sprFixed
  | .key => headerFixed ++ keyFixed
  | .mec => headerFixed ++ mecFixed
  | .wsk _ => headerFixed ++ wskFixed
  | .brn _ => headerFixed ++ brnFixed
  | .pwr => headerFixed ++ pwrFixed
  | .thm => headerFixed ++ thmFixed
  | .tly => headerFixed ++ tlyFixed
  | .spk => headerFixed ++ spkFixed
  | .flt => headerFixed ++ fltFixed
  | .stw => headerFixed ++ stwFixed

/-- The bits of the register at a page offset that no recipe sets. -/
def RPage.fixedBits (p : RPage) (o : Nat) : Nat :=
  ((p.fixed.filter (fun r => decide (r.off ≤ o) && decide ((o - r.off) % r.stride = 0) &&
    decide ((o - r.off) / r.stride < r.n))).map (·.mask)).foldl (· ||| ·) 0

/-- The bits of the register at a page offset that a recipe sets: the staged fields, IRQ_EN, the roles of a port, and the table
entry of UPK_RLT_DATA. -/
def RPage.recipeBits (p : RPage) (o : Nat) : Nat :=
  match p.row o with
  | some r => if r.staged ∨ o = 0x18 then r.mask else 0
  | none => match p with
    | .port _ => if o = 0x44 then 0x1F else 0
    | .glb => if o = 0x10 then 0x7C else 0
    | .upk => if o = 0x84 then 0xFFFFFF else 0
    | _ => 0

end Sys2Proof.Machine
end

