-- ==== Sys2Proof/Machine/Recipe.lean ====
section
/-!
DEFINITION. The firmware step of a start (16_bring_up.md R457 to R465): the boot state, the choice of the firmware, the judgement
of the recipe, its entries.
-/

namespace Sys2Proof.Machine

/-! ### Boot state and firmware (R457 to R459) -/

/-- The boot state that the two copies give. -/
def State.bootState (s : State) : BootState :=
  if olderB s.nor.bootA s.nor.bootB then ((s.nor.bootA).map (·.2)).getD .erased
  else ((s.nor.bootB.orElse (fun _ => s.nor.bootA)).map (·.2)).getD .erased

/-- Writes the boot state: a copy to the older region follows. -/
def State.writeBoot (s : State) (b : BootState) : State :=
  { s with boot := { s.boot with state := b }, nor := { s.nor with writes := s.nor.writes ++ [2] } }

/-- The image of a firmware slot. -/
def State.fwOf (s : State) (slot : Nat) : Option FwImage :=
  match slot with
  | 1 => s.nor.fw1
  | 2 => s.nor.fw2
  | _ => none

/-- Whether a firmware slot holds a valid image (R458): its fields and its signature stand, under the key whose hash is fused, and its
security version is at least the fused minimum. -/
def State.fwValid (s : State) (slot : Nat) : Bool :=
  match s.fwOf slot with
  | some i => i.ok && decide (i.key = s.fuses.fwKey) && decide (s.fuses.fwMin ≤ i.secver)
  | none => false

/-- Firmware fell back (R459). -/
def State.rollback (s : State) (slot next : Nat) : State := (s.record 0x9001 slot next 0 0).raise .boot 1

/-- The choice among the active firmware and the other one; 0 is recovery. -/
def State.selectActive (s : State) : Nat × State :=
  let b := s.boot.state
  if s.fwValid b.activeFw then (b.activeFw, s)
  else if s.fwValid (3 - b.activeFw) then
    (3 - b.activeFw, (s.writeBoot { b with activeFw := 3 - b.activeFw }).rollback b.activeFw (3 - b.activeFw))
  else (0, s)

/-- `select_fw` (R459). -/
def State.selectFw (s : State) : Nat × State :=
  let b := s.boot.state
  if b.pendingFw = 0 then s.selectActive
  else if b.tries < 3 ∧ s.fwValid b.pendingFw then (b.pendingFw, s.writeBoot { b with tries := b.tries + 1 })
  else ((s.writeBoot { b with pendingFw := 0, tries := 0 }).rollback b.pendingFw b.activeFw).selectActive

/-! ### The recipe's judgement (R462, R464) -/

/-- The copy of a recipe: 1 A, 2 B. -/
def State.recipeOf (s : State) (copy : Nat) : Option Recipe :=
  match copy with
  | 1 => s.nor.recipeA
  | 2 => s.nor.recipeB
  | _ => none

/-- The code of a grade (R462). -/
def Grade.code : Grade → Nat
  | .g30 => 0
  | .g24 => 1

/-- Whether a fused recipe-key slot that is not revoked holds a key's hash (R464). -/
def Fuses.recipeKeyOk (f : Fuses) (key : BitVec 384) : Bool :=
  f.recipeKeys.zipIdx.any (fun e => decide (e.1 = some key) && !bitOf f.revoked e.2)

/-- BOOT_RECIPE.RESULT of a copy: 0 valid. -/
def State.judgeRecipe (s : State) (r : Option Recipe) : Nat :=
  match r with
  | none => 1
  | some x =>
    if !x.format ∨ 64 < x.secver ∨ 65535 < x.entries.length ∨ ¬ [0, 5, 8, 10].contains x.dies then 2
    else if x.grade ≠ Grade.code s.fuses.grade ∨ (x.dies ≠ 0 ∧ x.dies ≠ s.dieCount) then 3
    else if x.secver < s.fuses.recipeMin then 4
    else if !s.fuses.recipeKeyOk x.key then 5
    else if !x.sigOk then 6
    else 0

/-! ### Its entries (R463, R465) -/

/-- Whether an entry is skipped: its kind is neither 0 nor 1, or its bits touch a field that no recipe sets. -/
def RecipeEntry.skipped (e : RecipeEntry) : Bool :=
  decide (1 < e.kind) || (match locate e.off with
    | none => false
    | some (p, o) => decide ((if e.kind = 1 then 0xFFFFFFFF else e.mask.toNat) &&& p.fixedBits o ≠ 0))

/-- The key of a level-table entry that UPK_RLT_IDX names (07 R232). -/
def rltKey (idx : Nat) : Nat := idx % 16 * 5 + idx / 16 % 8

/-- A write of UPK_RLT_DATA: the three signed levels of an entry (07 R232). -/
def State.setRlt (s : State) (key : Nat) (v : W32) : State :=
  let lv := (List.range 3).map (fun i => ((v.extractLsb' (8 * i) 8 : BitVec 8)).toInt)
  { s with upk := { s.upk with rlt := s.upk.rlt.put key lv } }

/-- Writes an entry's bits into the live register and its shadow. -/
def State.applyEntry (s : State) (e : RecipeEntry) : State :=
  match locate e.off with
  | none => s
  | some (p, o) =>
    let m := (if e.kind = 1 then 0xFFFFFFFF else e.mask.toNat) &&& p.recipeBits o
    if p = .upk ∧ o = 0x84 then
      s.setRlt (rltKey (if e.kind = 1 then e.mask.toNat else 0)) e.value
    else
      let v := maskedWrite (s.getLive p o) e.value m
      (s.setLive p o v).setShadow p o v

/-- The pages that entries write. -/
def entryPages (es : List RecipeEntry) : List RPage :=
  (es.filterMap (fun e => (locate e.off).map (fun (x : RPage × Nat) => x.1))).eraseDups

/-- The staged registers of a page, live and shadow, back at their house values. -/
def State.housePage (s : State) (p : RPage) : State :=
  let keep := fun (m : SMap W32) => m.filter (fun e => match locate e.1 with
    | some (q, o) => !(decide (q = p) && ((q.row o).map (fun r => r.staged)).getD false)
    | none => true)
  { s with regs := { s.regs with live := keep s.regs.live, shadow := keep s.regs.shadow } }

/-- Marks a page whose recipe set broke its rules (19 R519). -/
def State.refuseRecipe (s : State) (p : RPage) (o : Nat) : State :=
  { (s.housePage p).setLive p 0x30 (bit32 true 2 ||| at32 (o / 4) 4) with
    boot := { s.boot with recipeRefused := s.boot.recipeRefused ++ [p.base] } }

/-- Checks every set the recipe wrote by its block's rules, where `t` holds the recipe's values; a set that breaks them keeps its
house values. The window sets of the ports stand together with the sharing sets they need. -/
def State.checkRecipe (s t : State) (ps : List RPage) : State :=
  let cs := t.regs.live.filter (fun e => decide (s.regs.live.find e.1 ≠ some e.2))
  let bad := ps.filterMap (fun p => (s.breach t cs p).map (fun o => (p, o)))
  let u := bad.foldl (fun (x : State) (e : RPage × Nat) => x.refuseRecipe e.1 e.2) t
  if 32 < u.coherentSets.length then
    ((List.range 8).foldl (fun (x : State) q => x.refuseRecipe (.port q) 0x108) u).refuseRecipe .spr 0
  else u

/-- Applies a valid recipe: its entries in order, the checks, and the counts (R463, R465). -/
def State.applyRecipe (s : State) (r : Recipe) (copy : Nat) : State :=
  let es := r.entries.filter (fun e => !e.skipped)
  let t := es.foldl State.applyEntry s
  let u := s.checkRecipe t (entryPages es)
  let stands := es.filter (fun e => match locate e.off with
    | none => true
    | some (p, o) => !u.boot.recipeRefused.contains p.base || !((p.row o).map (fun x => x.staged)).getD false)
  let u := { u with
    boot := { u.boot with
      result := 0, copy := copy, skipped := sat 8 (r.entries.length - es.length), applied := sat 16 stands.length }
    fuses := { u.fuses with recipeMin := max u.fuses.recipeMin r.secver } }
  let en := (List.range 256).filter (fun i => bitOf (u.getLive (.wsk (i / 4)) (0x100 + i % 4 * 0x100)) 0)
  (en.foldl (fun x i => x.enableCtx i true) u).rebuildSets

/-- A recipe that is not applied: the outcome stands in BOOT_RECIPE, IRQ.RECIPE_FALLBACK is set, and the event is made (R464). -/
def State.noRecipe (s : State) (result copy : Nat) : State :=
  ({ s with boot := { s.boot with result := result, copy := copy, skipped := 0, applied := 0 } }.record 0x9002 result copy 0 0).raise .boot 0

/-- The recipe step with the active copy (R464). -/
def State.activeRecipe (s : State) : State :=
  let c := s.boot.state.activeRecipe
  let r := s.recipeOf c
  match s.judgeRecipe r with
  | 0 => match r with
    | some x => s.applyRecipe x c
    | none => s
  | k => s.noRecipe k c

/-- The recipe step (R464): the pending copy where one is set, which becomes the active one where it is valid and is cleared in
every case; else the active copy. -/
def State.recipeStep (s : State) : State :=
  let b := s.boot.state
  let c := b.pendingRecipe
  if c = 0 then s.activeRecipe
  else
    let r := s.recipeOf c
    let k := s.judgeRecipe r
    let t := s.writeBoot { b with pendingRecipe := 0, activeRecipe := if k = 0 then c else b.activeRecipe }
    match k, r with
    | 0, some x => t.applyRecipe x c
    | 6, _ => t.noRecipe 6 c
    | _, _ => if s.judgeRecipe (s.recipeOf b.activeRecipe) = 0 then (t.noRecipe k c).activeRecipe else t.noRecipe k c

end Sys2Proof.Machine
end

