-- ==== Sys2Proof/Machine/Startup.lean ====
section
/-!
DEFINITION. Starts (16_bring_up.md R451 to R470): the core reset, and the steps of a cold and of a warm start, one to an idle step
of the block (log entry 1).
-/

namespace Sys2Proof.Machine

/-! ### The core reset (R454, R466) -/

/-- A die after a core reset: what training and discovery found stays, every operation is abandoned. -/
def Die.restart (d : Die) : Die :=
  { d with levels := [], op := .none, opReqs := [], suspended := false, suspendedAt := 0, suspensions := 0, runSince := 0
           ran := 0, sensing := [], drdy := 0, blank := 0, latches := [], status := 0, retries := 0, held := false, retryAt := none }

/-- The burners after a core reset: a retired one stays retired. -/
def restartBurners (mask : BitVec 32) : SMap Burner :=
  ((List.range 32).filter (fun b => bitOf mask b)).map (fun b => (b, { Burner.fresh with retired := true }))

/-- The counts that their registers give since the last cold start go on over a warm start: the quick trims of the burners (06 R204), the
errors and overflows of each instance, its bucket empty (13 R383, R384), the alarms (12 R377), the restarts of stewards and the
unavailability (14 R413). -/
def State.keepCounts (t s : State) : State :=
  { t with
    burners := (List.range 32).foldl (fun (m : SMap Burner) b =>
      m.upd .fresh b (fun x => { x with quickCount := (s.burner b).quickCount })) t.burners
    mec := { t.mec with satSeen := s.mec.satSeen, counts := s.mec.counts.mapVal (fun _ (c : MecCount) => { MecCount.zero with
      ce := c.ce, ue := c.ue, overflows := c.overflows }) }
    prot := { t.prot with integrity := s.prot.integrity, other := s.prot.other }
    flt := { t.flt with
      stwRestarts := s.flt.stwRestarts, unavail := s.flt.unavail, outageAt := s.flt.outageAt, countedTo := s.flt.countedTo } }

/-- The boot fields after a core reset: the copies of the boot state are read again; what only media, fuses and pins hold stays. -/
def State.restartBoot (s : State) (warm : Bool) : Boot :=
  { State.reset.boot with
    seq := .start, step := if warm then 3 else 1, warm := warm, began := s.boot.began, state := s.bootState
    trapped := warm && s.boot.trapped, dirty := s.boot.dirty, flushes := s.boot.flushes, smbAddr := s.boot.smbAddr
    tap := if warm then s.boot.tap else 1 }

/-- The power block after a core reset: a warm start leaves it; a cold start begins with the kettle unmeasured and Flush not
armed. -/
def State.restartPower (s : State) (warm : Bool) : Power :=
  if warm then s.pwr
  else { s.pwr with
    cap := 0, capAt := 0, charging := false, testing := false, v0 := 0, testReq := false, test := 0, armed := false
    writeHold := false, weak := false, fault := false, fromSimmer := false, flushPhase := 0, abandoned := false, hold := 0 }

/-- Every start empties the queue of deferred tests and records each test dropped (17 R487). -/
def State.dropTests (s : State) (q : List (Nat × Nat)) : State := q.foldl (fun t e => t.record 0x8008 e.1 e.2 0 0) s

/-- What a cold start finds: everything on chip at its reset values; the media, the SPI NOR, the fuses, the standby part and the
pins as they are. -/
def State.coldCore (s : State) : State :=
  let s := s.abandonNor
  let mask := (s.siv.ckptDone.map (fun c => c.retiredMask)).getD 0
  let r := State.reset
  State.dropTests { r with
    pending := s.pending, now := s.now, free := s.free, out := s.out, fuses := s.fuses
    ports := { r.ports with perst := s.ports.perst }
    siv := { r.siv with
      ckptDone := s.siv.ckptDone, ckptNum := s.siv.ckptNum, ckptDoneStart := s.siv.ckptDoneStart, journal := s.siv.journal
      journalBytes := s.siv.journalBytes, journalSector := s.siv.journalSector, mark := s.siv.mark }
    med := { r.med with
      dies := s.med.dies, formatSeq := s.med.formatSeq, sectors := s.med.sectors, openStripes := s.med.openStripes
      parity := s.med.parity, unsealed := s.med.unsealed, ringNext := s.med.ringNext
      flushArea := s.med.flushArea, flushReset := s.med.flushReset, flushUse := s.med.flushUse }
    burners := restartBurners mask
    upk := { r.upk with retiredMask := mask }
    tly := { r.tly with since := s.now }
    spk := { r.spk with ring := s.spk.ring }
    clk := { r.clk with base := 0, running := true, since := s.now }
    pwrState := .starting
    mbx := { r.mbx with lsa := s.mbx.lsa, shutdown := s.mbx.shutdown }
    pwr := s.restartPower false, nor := s.nor, boot := s.restartBoot false } s.thm.deferred

/-- What a warm start finds: the map stacks, the retention flops, the dies and the standby part besides (R454). -/
def State.warmCore (s : State) : State :=
  let t := { s.coldCore with burners := restartBurners s.upk.retiredMask }.keepCounts s
  { t with
    siv := { s.siv with
      ready := false, recovering := false, staging := [], lostStaging := false, markPending := false, pendingRecs := []
      ckptActive := false, ckptPending := false, ckptImage := none, ckptProgress := 0, foldCount := 0, waiting := [], cache := []
      retention := true, selfRefresh := true, lastMark := true, recTotal := s.siv.markRecs }
    med := { s.med with inflight := [], resetting := [], moved := [], rebuilds := [], ringReset := [], areaReset := [] }
    dies := s.dies.mapVal (fun _ (d : Die) => d.restart)
    upk := { t.upk with
      retiredMask := s.upk.retiredMask, driftClk := s.upk.driftClk, driftAt := s.upk.driftAt, trims := s.upk.trims
      rebuildState := s.upk.rebuildState, rebuildLeft := s.upk.rebuildLeft, patrolStarted := s.upk.patrolStarted }
    mec := { t.mec with locked := s.mec.locked }
    ports := { t.ports with links := s.ports.links.mapVal (fun _ (l : Link) => { Link.down with downCount := l.downCount }) }
    clk := s.rootStart.clk, pwr := s.pwr, boot := s.restartBoot true }

/-! ### The steps -/

/-- Moves on to a step. -/
def State.toStep (s : State) (k : Nat) : State := { s with boot := { s.boot with step := k } }

/-- A failure of a step (R467): its record, with the step and the table's row. -/
def State.startFail (s : State) (row : Nat) : State := s.record 0x9003 s.boot.step row 0 0

/-- Memory is not presented (R467). -/
def State.noMemory (s : State) (row : Nat) : State :=
  if s.boot.noMemory then s else { s with boot := { s.boot with noMemory := true } }.startFail row

/-- The kettle step begins (15 R427): the charger runs. -/
def State.startKettle (s : State) : State :=
  { s with pwr := { s.pwr with charging := true, capAt := s.now } }.emit (.pin "KETTLE_CHG_EN" true)

/-- The fuses are sensed and the device keys derived from the root secret (12 R357). -/
def State.deviceKeys (s : State) : State := { s with prot := { s.prot with keys := deriveKeys Config.rootSecret } }

/-- The SFDP table of the SPI NOR is read (R455): its size, of 64 MiB at least and within four address bytes, and its fastest read mode. -/
def State.readSfdp (s : State) : State :=
  { s with nor := { s.nor with sizeLog2 := 26 + Config.norPart.1 % 7, mode := Config.norPart.2 % 3 } }

/-- The firmware step (R459, R460): the SFDP table is read, the slot is chosen and the stewards run it; with no valid firmware the device enters recovery
mode, and the links train with CXL.io only. -/
def State.firmware (s : State) : State :=
  let x := s.deviceKeys.readSfdp.selectFw
  let t := x.2
  if x.1 = 0 then
    let u := { t with recovery := true, boot := { t.boot with running := 0, seq := .idle } }
    (u.startFail 3).releaseLinks
  else { t with
    boot := { t.boot with running := x.1, confirmed := decide (t.boot.state.pendingFw ≠ x.1) }
    stw := { t.stw with state := (List.range 12).map (fun c => (c, 0)) } }

/-- Whether every burner has trained, or is retired or failed (R466 step 5). -/
def State.burnersReady (s : State) : Bool :=
  (List.range 32).all (fun b => (s.burner b).ready || (s.burner b).retired || s.flt.inPlace.contains (2 * 2 ^ 32 + b))

/-- The dies fitted to a burner. -/
def State.fitted (s : State) (b : Nat) : Nat := countIf (fun c => (s.die b c).present) (List.range 10)

/-- The population of blank media (00 R4): the number of dies on every one of the 32 burners, fitted from CE0 upward; none where the
burners differ or the device does not support the number. -/
def State.population (s : State) : Option Nat :=
  let n := s.fitted 0
  if [5, 8, 10].contains n && (List.range 32).all (fun b => decide (s.fitted b = n) &&
      (List.range n).all (fun c => (s.die b c).present)) then some n else none

/-- The population is known: from the media's owner records, else from the dies found. -/
def State.learnDies (s : State) : State :=
  if s.dieCount ≠ 0 then s else s.setDieCount (s.population.getD 0)

/-- Applies the ledger region (R466 step 4, 14 R403, R405): the valid copy with the higher sequence number. -/
def State.applyLedger (s : State) : State :=
  let pick := if olderB s.nor.ledgerA s.nor.ledgerB then s.nor.ledgerA else s.nor.ledgerB.orElse (fun _ => s.nor.ledgerA)
  match pick with
  | none => s
  | some (seq, es) =>
    let ids := fun (k : Nat) => (es.filter (fun e => decide (e.1 = k))).map (fun e => e.2.1)
    { s with flt := { s.flt with
      entries := es, regionSeq := BitVec.ofNat 32 seq, lanes := ids 3, rows := ids 4, lines := ids 5 } }

/-- Enters lid down again at a start with a latched cause (12 R368): the links stay held. -/
def State.relid (s : State) (cause : Nat) : State :=
  { s with prot := { s.prot with lid := true, cause := cause } }.emit (.pin "ALARM" true)

/-- The cause of a lid-down record that no alarm-cleared record follows (12 R368). -/
def State.lidRecord (s : State) : Option Nat :=
  let held := s.spk.ring.map (fun e => e.2) ++ ((s.image.map (fun e => e.2.spike)).getD [])
  let newer := fun (a b : SpikeRec) => decide ((a.serial - b.serial).toNat < 2 ^ 31)
  let last := (held.filter (fun (r : SpikeRec) => decide (r.code = 0x6002) || decide (r.code = 0x6003))).foldl
    (fun (m : Option SpikeRec) (r : SpikeRec) => match m with
      | none => some r
      | some x => if newer r x then some r else m) none
  match last with
  | some r => if r.code = 0x6002 then some r.p0.toNat else none
  | none => none

/-- Uses a copy of the vault: its slots, its secret, its sequence number. -/
def State.useVault (s : State) (isB : Bool) (seq : Nat) (v : Vault) : State :=
  let t := { s with
    slots := v.slots
    prot := { s.prot with
      secret := v.secret, keysReady := true, vaultA := s.nor.vaultA.isSome, vaultB := s.nor.vaultB.isSome
      vaultNewB := isB, vaultSeq := seq } }
  let bad := fun (u : State) (k : Nat) => ((u.record 0x6004 k 0 0 0).raise .key 6).addJob ⟨.rewrite, none, 0⟩
  let t := if s.nor.vaultBadA then bad t 0 else t
  if s.nor.vaultBadB then bad t 1 else t

/-- Restores the key slots (12 R359, R366): the valid copy with the higher sequence number; an empty vault where both regions are
erased; a metadata integrity failure where a copy bears the signature and none is valid, which stops the start. -/
def State.restoreKeys (s : State) : State :=
  match s.nor.vaultA, s.nor.vaultB with
  | some a, some b => if a.1 < b.1 then s.useVault true b.1 b.2 else s.useVault false a.1 a.2
  | some a, none => s.useVault false a.1 a.2
  | none, some b => s.useVault true b.1 b.2
  | none, none =>
    if s.nor.vaultBadA || s.nor.vaultBadB then
      let t := (s.alarm 2 ⟨0x3FF, 0x3FF, 33, 0, 0⟩).lidDown 2
      { t with boot := { t.boot with blocked := true } }
    else { s with prot := { s.prot with keysReady := true } }

/-- Enters lid down again where the vault's latch or the spike says so (12 R368). -/
def State.recallLid (s : State) : State :=
  if s.prot.lid then s
  else
    let latch := ((if s.prot.vaultNewB then s.nor.vaultB else s.nor.vaultA).map (fun e => e.2.latch)).getD 0
    if latch ≠ 0 ∧ s.vaultUsable then s.relid latch
    else match s.lidRecord with
      | some c => s.relid c
      | none => s

/-- The key step: the slots, and lid down where it is latched (R466 step 6). -/
def State.keyStep (s : State) : State := if s.prot.keysReady then s else s.restoreKeys.recallLid

/-! ### What a measured bank allows (15 R427, R428) -/

/-- Integer square root by bits from `k` down. -/
def isqrtFrom : Nat → Nat → Nat → Nat
  | 0, r, _ => r
  | k + 1, r, n => let t := r + 2 ^ k; isqrtFrom k (if t * t ≤ n then t else r) n

/-- Integer square root, rounded to the nearest. -/
def isqrtNear (n : Nat) : Nat := (isqrtFrom 32 0 (4 * n) + 1) / 2

/-- NEED, mJ (R450). -/
def State.kettleNeed (s : State) : Nat := max 1 (s.liveFld .pwr 0x48 15 0)
/-- MARGIN (R450). -/
def State.kettleMargin (s : State) : Nat := max 1 (s.liveFld .pwr 0x48 19 16)
/-- READY, in 0.25 V (R450). -/
def State.kettleReady (s : State) : Nat := s.liveFld .pwr 0x44 7 0

/-- `v_hold` in 10 mV for a capacitance in µF (R428). -/
def State.vHold (s : State) (uf : Nat) : Nat :=
  if uf = 0 then 0 else isqrtNear (1960000 + 2 * s.kettleMargin * s.kettleNeed * 10000000 / uf)

/-- C in µF from the discharge time in µs: t / (100 Ω × ln(10/9)), to the nearest (R427). -/
def kettleC (t : Nat) : Nat := (t * 100000 + 526802) / 1053605

/-- Whether a bank is too small: ½ C (READY² − 14²) < MARGIN × NEED (R428). -/
def State.kettleShort (s : State) (uf : Nat) : Bool :=
  decide (uf * (s.kettleReady * s.kettleReady - 3136) < 32000 * s.kettleMargin * s.kettleNeed)

/-- The recipe's NEED and MARGIN apply from the recipe load on (15 R428): v_hold is derived again from the bank measured, and the bank is
judged by them. -/
def State.rejudgeKettle (s : State) : State :=
  if s.pwr.cap = 0 then s
  else
    let bad := decide (s.pwr.test = 3) || s.kettleShort s.pwr.cap
    let t := { s with pwr := { s.pwr with hold := s.vHold s.pwr.cap, fault := bad } }
    if bad && !s.pwr.fault then (t.record 0x8004 2 t.pwr.cap t.pwr.hold 0).startFail 2 else t

/-- The recipe step (R464): a signature failure enters lid down, which stops the start until Clear Alarm; the slots are restored
first, so that the latch can be written. -/
def State.recipePart (s : State) : State :=
  let t := s.learnDies.recipeStep.rejudgeKettle
  let t := { t with ports := { t.ports with foPort := t.rolePort 0 } }
  if t.boot.result = 6 then
    let u := t.keyStep.lidDown 3
    { u with boot := { u.boot with blocked := true } }
  else t

/-- The blocks of the factory defect lists are retired (06 R198). -/
def State.markDefects (s : State) : State :=
  s.dies.foldl (fun t e => e.2.defects.foldl (fun u k =>
    u.updBlock4 (e.1 / 10) (e.1 % 10) k (fun x => { x with state := .retired })) t) s

/-- What the block table shows of earlier retirements (14 R401, R404, R414): the blocks retired in service, those of the factory defect
lists apart, and the dies whose every block is retired. -/
def State.recountRetired (s : State) : State :=
  let out := s.med.table.filter (fun (e : Nat × Block) => decide (e.1 % 4 = 0) && decide (e.2.state = .retired) &&
    !(s.die (e.1 / 81920) (e.1 / 8192 % 10)).defects.contains (e.1 / 4 % 2048))
  let per := out.foldl (fun (m : SMap Nat) e => m.upd 0 (dieId (e.1 / 81920) (e.1 / 8192 % 10)) (· + 1)) []
  { s with
    flt := { s.flt with blocks := out.length, dieBlocks := per }
    dies := s.dies.mapVal (fun k (d : Die) => { d with
      retired := d.retired || decide (2048 ≤ per.getD (dieId (k / 10) (k % 10)) 0 + d.defects.length) }) }

/-- The dies of formatted media that failed, by burner and chip enable (06 R199). -/
def State.failedDies (s : State) : List (Nat × Nat) :=
  (s.liveBurners.map (fun b => ((List.range s.dieCount).filter (fun c =>
    !(s.die b c).present || decide ((s.die b c).owner ≠ .ok) || (s.die b c).failed)).map (fun c => (b, c)))).flatten

/-- Media classified (06 R199): failed dies are reported; where a stripe would have more than two lost members, no memory is
presented. -/
def State.classifyMedia (s : State) : State :=
  let bad := s.failedDies
  let out := 32 - s.liveBurners.length
  let t := bad.foldl (fun u e => u.report 5 1 (dieId e.1 e.2)) s
  if (List.range s.dieCount).any (fun c => decide (2 < out + countIf (fun e => decide (e.2 = c)) bad)) then
    bad.foldl (fun u e => u.mediaConfig e.1 e.2) (t.noMemory 6)
  else t

/-- The burners whose population differs from burner 0's, or is none that the device supports, report a configuration fault
(00 R4, 06 R178). -/
def State.populationFault (s : State) : State :=
  let n := s.fitted 0
  (List.range 32).foldl (fun t b =>
    if !(([5, 8, 10] : List Nat).contains (s.fitted b)) || decide (s.fitted b ≠ n) ||
        !(List.range (s.fitted b)).all (fun c => (s.die b c).present) then t.configFault b 0 else t) s

/-- Blank media are formatted (06 R199, 07 R223, 12 R359): the owner records follow, every EMPTY key slot is generated; burners
that differ in population present no memory (00 R4). -/
def State.formatStart (s : State) : State :=
  match s.population with
  | none => { s with siv := { s.siv with startCase := 0 } }.populationFault.noMemory 6
  | some n =>
    let t := { s with med := { s.med with dies := n } }.formatMedia
    let t := { t with
      siv := { t.siv with startCase := 0, markAt := t.now, markDone := t.now, sweepAt := t.now }
      boot := { t.boot with flushes := 0 } }
    if t.emptySlots.isEmpty then t else t.addJob ⟨.generateAll, none, 0⟩

/-- What a cold start takes from the marker it finds (R435, 15 R450, 18 R503). -/
def State.takeMarker (s : State) (img : Option FlushImage) : State :=
  let t := s.showMarker (img.map (·.marker))
  { t with boot := { t.boot with
    unclean := img.isNone, dirty := if img.isNone then t.boot.dirty + 1 else t.boot.dirty } }

/-- The map-load step of a cold start once it has begun (R466 step 7): the map, the stripes and the clocks; blank media are formatted. A
metadata failure stops the start (12 R366). `d` numbers what the start reads (log entry 87). -/
def State.coldMap (s : State) (d : Nat) : State :=
  let img : Option (Nat × FlushImage) := s.readImage d
  let spike := (img.map (·.2.spike)).getD []
  if s.loadFails d false img then s.loadFailed
  else
    let t := s.takeMarker (img.map (·.2))
    let t := if t.blankMedia then t.formatStart
      else ((({ t with med := { t.med with formatted := true } }).mapLoad false (img.map (fun (x : Nat × FlushImage) => x.2))).markDefects.recountRetired).classifyMedia
    let t := (t.restoreClocks (img.map (fun x => x.2.marker)) spike).findRing spike
    match img with
    | some _ => { t with stk := { t.stk with replay := true }, boot := { t.boot with readKey := d } }
    | none => t.loadEnds

/-- The stockpot replay of a cold start (03 R114): STK_STATUS.REPLAY shows it. -/
def State.coldReplay (s : State) : State :=
  let t := match s.image with
    | some (area, i) => s.replay s.boot.readKey area i
    | none => s
  t.loadEnds

/-- The map-load step of a cold start, in three ticks: it begins, the map is loaded, the image is replayed. -/
def State.coldLoad (s : State) : State :=
  if s.stk.replay then s.coldReplay
  else if s.siv.recovering then
    let d := s.draw
    d.2.coldMap (d.1 * 2 ^ 40)
  else s.loadBegins

/-- The map step of a warm start (R143, R469 step 5): the map is kept where it is sound, else loaded again. -/
def State.warmLoad (s : State) : State :=
  if s.mapSound then
    let u := (s.med.table.filter (fun (e : Nat × Block) => decide (e.2.state = .victim))).foldl
      (fun (x : State) e => x.updBlk e.1 (fun b => { b with state := .verified })) s
    let t := { u with
      siv := { u.siv with startCase := 1, ready := true, mark := s.siv.mark, markAt := s.now }
      boot := { u.boot with mapKept := true } }.requeueSeals.resumeRebuild.queueDemotions.recountRetired
    t.findRing []
  else if s.siv.recovering then
    let d := s.draw
    let t := { d.2 with mec := { s.mec with locked := [] } }
    if t.loadFails (d.1 * 2 ^ 40) true none then t.loadFailed
    else ((t.mapLoad true none).recountRetired.findRing []).loadEnds
  else s.loadBegins

/-- The catch-up probe's median bucket (07 R222): what the reads find, one of the computed bucket and the three after it, is open
(log entry 2). -/
def State.probe (s : State) : State :=
  let ages := (s.liveBurners.map (fun b =>
    (((s.med.table.filter (fun e => decide (e.1 / 81920 = b) && decide (e.2.state = .verified))).map
      (fun e => s.ageTicks e.1 0)).foldl (fun (m : Option Nat) a => some (min a (m.getD a))) none).toList)).flatten
  let sorted := ages.foldl (fun acc a => acc.takeWhile (· < a) ++ [a] ++ acc.dropWhile (· < a)) []
  match sorted[sorted.length / 2]? with
  | none => s
  | some age =>
    let k := bucketOf age
    let d := s.draw
    let j := min 15 (k + (Config.freeWord d.1).toNat % 4)
    if k < j then { d.2 with upk := { d.2.upk with driftClk := d.2.upk.driftClk + BitVec.ofNat 32 (4 ^ (j - 1) - age) } }
    else d.2

/-- The blocks of a flush area that hold an image page (05 R172), as sector addresses; those that hold the marker come last (15
R433). -/
def State.areaBlocks (s : State) (area : Nat) : List Nat :=
  let last := (s.med.sectors.filter (fun e => decide (e.2.kind = 9))).map (fun e => e.1 / 2 ^ 18)
  let xs := (s.flushBurnersOf.map (fun b => (List.range 2).map (fun k =>
    saOf b (s.stripeCe (2 * area + k)) (s.stripeBlock (2 * area + k)) 0 0 0))).flatten
  xs.filter (fun a => !last.contains (a / 2 ^ 18)) ++ xs.filter (fun a => last.contains (a / 2 ^ 18))

/-- After the probe, stripes whose last patrol is more than a period old are to be patrolled first, the oldest first (07 R222). -/
def State.scheduleCatchup (s : State) : State :=
  match leastStripe s.patrolTime s.overdue with
  | some S => { s with upk := { s.upk with catchup := true, patrolStripe := S, patrolPos := 0 } }
  | none => s

/-- The replayed flush area is reset, with its marker (05 R174). -/
def State.resetAreas (s : State) : State :=
  match s.image with
  | some (area, _) => ({ s with med := { s.med with areaReset := s.areaBlocks area } }).pumpArea
  | none => s

/-- The bound of a start in ms (R466, R469): of a warm one 800, the 1,200 of R141 steps 1 to 3 where the map is loaded, and 40 for each full
training. -/
def State.startBound (s : State) : Nat :=
  if s.boot.warm then (if s.boot.mapKept then 800 else 2000) + 40 * s.boot.trains else if s.siv.startCase = 4 then 11000 else 9000

/-- The last step (R466 step 8): the probe at a cold start, the flush area, the stockpot unfrozen, the ladles of BOOT_LADLE_EN
empty and enabled, the whisk channels out of reset (08 R252), MEM_ACTIVE, and BOIL. -/
def State.readyStep (s : State) : State :=
  let t := if s.boot.warm then s else s.probe.scheduleCatchup.resetAreas
  let en := t.liveFld .boot 0x54 7 0
  let t := (bitsSet 8 en).foldl (fun u p => u.updLadle p (fun l => { l.clear with enabled := true, clean := true })) t
  let t := (List.range 64).foldl (fun u c => if (u.chan c).held then u else u.setMask (.whisk c) false) t
  let ms := (t.now - t.boot.began) / Config.ms
  let slow := decide (t.startBound < ms)
  let t := { t with
    stk := { t.stk with frozen := false, replay := false }
    pwrState := .boil
    boot := { t.boot with seq := .idle, ready := true, ms := ms, slow := slow, boilAt := t.now, step := 8 } }
  let t := if slow then (t.record 0x9004 ms 0 0 0).raise .boot 2 else t
  let case := if t.boot.warm then 2 else if t.boot.unclean then 1 else 0
  (t.record 0x0004 case t.boot.running t.boot.result t.pwr.lastCause).issueReady.afterPrograms.presentMemory

/-- One step of a cold start, where what it waits for has come: the kettle's test, the burners, the owner records at format. -/
def State.coldTick (s : State) : State :=
  match s.boot.step with
  | 0 | 1 => (s.toStep 2).startKettle
  | 2 => (s.toStep 3).firmware
  | 3 => if s.dieCount ≠ 0 ∨ s.burnersReady then (s.toStep 4).recipePart else s
  | 4 => if s.pwr.armed then (s.toStep 5).applyLedger else s
  | 5 => if s.burnersReady then s.toStep 6 else s
  | 6 => (s.toStep 7).keyStep.releaseLinks
  | 7 => if !s.siv.ready then s.coldLoad else if s.med.formatted || s.boot.noMemory then s.toStep 8 else s
  | _ => s.readyStep

/-- The burners' check of their stored settings at a warm start (06 R201): whether a die of a burner fails it is open (log entry 112);
a burner that passes is ready, and one that does not trains in full. -/
def State.checkBurners (s : State) : State :=
  let d := s.draw
  (s.liveBurners.filter (fun b => !(s.burner b).ready && decide ((s.burner b).trainState = 0))).foldl (fun (t : State) b =>
    if (Config.freeWord d.1).getLsbD b then
      let u := (t.updBurner b (fun x => { x with training := true, fullBusy := true, trainState := 1 })).maskLane b true
      { u with boot := { u.boot with trains := u.boot.trains + 1 } }
    else (t.updBurner b (fun x => { x with ready := true })).maskLane b false) d.2

/-- One step of a warm start (R469). -/
def State.warmTick (s : State) : State :=
  match s.boot.step with
  | 3 => (s.toStep 4).firmware
  | 4 => ((s.toStep 5).recipePart).applyLedger.releaseLinks
  | 5 => if s.siv.ready then s.toStep 6 else s.keyStep.warmLoad
  | 6 => if s.burnersReady then s.toStep 7 else s.checkBurners
  | 7 => s.toStep 8
  | _ => s.readyStep

/-- One step of a start; an alarm stops it until Clear Alarm (12 R369). What it leaves unavailable is counted (14 R411). -/
def State.startTick (s : State) : State :=
  if s.boot.blocked then s else (if s.boot.warm then s.warmTick else s.coldTick).account

/-! ### Readiness toward hosts (R470) -/

/-- Media Status of a link's CXL Memory Device Status register (R470). -/
inductive MediaStatus where
  | notReady
  | ready
  | error
deriving DecidableEq, Repr

/-- Mailbox Interface Ready (R470): set once firmware runs, and in recovery mode. -/
def State.mailboxReady (s : State) : Bool := s.recovery || decide (s.boot.running ≠ 0)

/-- Media Status (R470): an error in recovery mode and where no memory is presented; not ready before step 8. -/
def State.mediaStatus (s : State) : MediaStatus :=
  if s.recovery then .error
  else if !s.boot.ready then .notReady
  else if s.boot.noMemory || s.pwr.fault then .error
  else .ready

/-- Memory_Active_Timeout of the DVSEC, in seconds (R470). -/
def memoryActiveTimeout : Nat := 16

/-! ### The pre-reset phase of a warm reset (R453) -/

/-- Whether the persistence domain is empty and a flush mark that covers it is durable: no ingress entry, frame, page, staged record, open
row or spike record is left. -/
def State.domainEmpty (s : State) : Bool :=
  s.ports.links.all (fun e => e.2.iwq.isEmpty) && s.stk.frames.isEmpty && s.stk.pages.isEmpty && s.siv.staging.isEmpty &&
    s.med.openStripes.all (fun o => o.rows.isEmpty) && s.spk.staged.isEmpty && decide (s.siv.markRecs = s.siv.recTotal)

/-- Asks for what still has to become durable: a page of the spike filled up (18 R505), then a flush mark. -/
def State.drainMore (s : State) : State :=
  if !s.spk.staged.isEmpty ∧ s.spk.staged.length % 256 ≠ 0 then s.padSpike
  else if s.stk.frames.isEmpty && s.stk.pages.isEmpty && s.siv.staging.isEmpty && !s.siv.markPending &&
      s.med.openStripes.all (fun o => o.rows.isEmpty) then s.writeMark
  else s

/-- The pre-reset phase goes on; once it is complete the core is reset, ALIVE is low meanwhile, and the warm start begins. -/
def State.preResetTick (s : State) : State :=
  if s.domainEmpty then
    let t := (s.emit (.pin "ALIVE" false)).warmCore
    ({ t with pwrState := .starting }).emit (.pin "ALIVE" true)
  else s.drainMore

end Sys2Proof.Machine
end

