-- ==== Sys2Proof/Machine/Power.lean ====
section
/-!
DEFINITION. The rails, PMBus and the kettle (15_power.md R416 to R435): sequencing, the regulators' readings, the capacitance
test, the write hold, and the triggers of Flush.
-/

namespace Sys2Proof.Machine

/-! ### Rails (R419 to R423) -/

/-- A rail. -/
def State.rail (s : State) (i : Nat) : PRail := s.pwr.rails.getD i .off

/-- Issues a PMBus command to a rail's regulator, with PAGE before it where the rail has a page (R424). -/
def State.pmb (s : State) (i code data : Nat) : State :=
  let page := s.liveFld .pwr (0x100 + i * 8) 15 8
  let t := if page = 0xFF then s else s.emit (.pmbus i 0x00 page)
  t.emit (.pmbus i code data)

/-- Enables a rail: CLEAR_FAULTS, then PWR_EN (R419). -/
def State.raiseRail (s : State) (i : Nat) : State :=
  ((s.pmb i 0x03 0).updRail i (fun r => { r with
    enabled := true, good := false, qualified := false, dropping := false, since := s.now, goodAt := s.now, requal := 0 })).emit
    (.pin (enName i) true)

/-- Latches a fault and records it (R422, R423). -/
def State.latchFault (s : State) (code i : Nat) (status : BitVec 16) : State :=
  { s with pwr := { s.pwr with latched := true, code := code, rail := i, pmbStatus := status } }.record 0x8002 code i status.toNat 0

/-- A trigger of Flush (R431): during the rails' ramp it takes the rails straight down. -/
def State.trigger (s : State) (cause : Nat) : State :=
  if s.pwrState = .ramping then s.powerDown else s.flush cause

/-- A rail fails in the up sequence (R422): STATUS_WORD is read, the rails go down, the fault is latched. -/
def State.railFail (s : State) (code i : Nat) (status : BitVec 16) : State :=
  (((s.pmb i 0x79 0).updRail i (fun r => { r with status := status })).latchFault code i status).powerDown

/-- The core comes out of reset once rail 7 qualifies, and the start goes on (R436, 16 R466). -/
def State.enterStarting (s : State) : State :=
  { s with
    pwrState := .starting, clk := { s.clk with running := true, since := s.now }
    boot := { s.boot with seq := .start } }.emit (.pin "ALIVE" true)

/-- START_RAMPING (R440): a COLD device whose start conditions hold, the supply among them, enters RAMPING; 500 ms have passed
in COLD, and the supply has been good for 100 ms. -/
def execStartRamping (supply : BitVec 16) (s : State) : Host.Outcome State Fault Refusal :=
  let p := s.pwr
  if s.pwrState = .cold ∧ p.vaux ∧ ¬ p.flushReq ∧ ¬ p.latched ∧ ¬ p.offHeld ∧ (p.yvAddr = 0 ∨ p.powerOn) ∧
      s.liveFld .pwr 0x40 15 8 * 25 ≤ supply.toNat then
    let s := s.reach (max (p.coldAt + 500 * Config.ms) (p.supplyGoodAt + 100 * Config.ms))
    let t := s.coldCore
    .next ({ t with
      pwrState := .ramping, clk := { t.clk with running := false }
      pwr := { t.pwr with supply := supply.toNat, supplyOk := true, powerOn := false }
      boot := { t.boot with seq := .idle, began := s.now } }.raiseRail 0)
  else .next s

/-- RAIL_QUALIFIED (R419, R420, 20 R546): a rail has been good for 50 µs, within 10 ms of its enable; the next one is enabled once
every enabled rail has qualified. The SMBus address strap is sampled with VIO. -/
def execRailQualified (i : Fin 8) (strap : Fin 4) (s : State) : Host.Outcome State Fault Refusal :=
  let r := s.rail i.val
  if s.pwrState = .ramping ∧ r.enabled ∧ ¬ r.qualified ∧ max s.now (r.goodAt + 50 * Config.us) ≤ r.since + 10 * Config.ms then
    let t := (s.reach (r.goodAt + 50 * Config.us)).updRail i.val (fun x => { x with good := true, qualified := true })
    let t := if i.val = 4 then { t with boot := { t.boot with smbAddr := 0x64 + strap.val } } else t
    let all := (List.range 8).filter (fun k => (t.rail k).enabled)
    if all.all (fun k => (t.rail k).qualified) then
      if all.length = 8 then .next t.enterStarting else .next (t.raiseRail all.length)
    else .next t
  else .next s

/-- RAIL_RAMP_TIMEOUT (R419, R422): a rail has not qualified 10 ms after its enable; the word is what its regulator's
STATUS_WORD reads. -/
def execRailRampTimeout (i : Fin 8) (status : BitVec 16) (s : State) : Host.Outcome State Fault Refusal :=
  let r := s.rail i.val
  if s.pwrState = .ramping ∧ r.enabled ∧ ¬ r.qualified then
    .next ((s.reach (r.since + 10 * Config.ms)).railFail 1 i.val status)
  else .next s

/-- POWER_GOOD_LOSS (R420): an enabled rail loses its good condition; in the up sequence its 50 µs start again and it re-qualifies, three
times at most. -/
def execPowerGoodLoss (i : Fin 8) (status : BitVec 16) (s : State) : Host.Outcome State Fault Refusal :=
  let r := s.rail i.val
  if ¬ r.enabled then .next s
  else if s.pwrState = .ramping then
    if r.requal = 3 then .next (s.railFail 2 i.val status)
    else .next ((s.updRail i.val (fun x => { x with good := false, qualified := false, goodAt := s.now, requal := x.requal + 1 })).raise .pwr 5)
  else .next (s.updRail i.val (fun x => { x with good := false }))

/-- The down sequence has ended: COLD, or FAULT with a fault latched; operating seconds stand still (R421, R436). -/
def State.allOff (s : State) : State :=
  { s with
    pwrState := if s.pwr.latched then .fault else .cold
    pwr := { s.pwr with coldAt := s.now, frameAt := s.now }
    clk := { s.clk with base := s.opsec, running := false, since := s.now } }

/-- RAIL_OFF (R421): the sense of a rail falls below its off threshold, and the next lower one is disabled. -/
def execRailOff (i : Fin 8) (s : State) : Host.Outcome State Fault Refusal :=
  if s.pwrState = .shutdown ∧ (s.rail i.val).dropping then
    let t := s.updRail i.val (fun r => { r with dropping := false, good := false, qualified := false })
    match t.enabledRails with
    | k :: _ => if (List.range 8).any (fun j => (t.rail j).dropping) then .next t else .next (t.lowerRail k)
    | [] => if (List.range 8).any (fun j => (t.rail j).dropping) then .next t else .next t.allOff
  else .next s

/-- DISCHARGE_TIMEOUT (R421): a rail is not off 10 ms after its disable; every rail is disabled at once, and code 5 is latched. -/
def execDischargeTimeout (i : Fin 8) (s : State) : Host.Outcome State Fault Refusal :=
  let r := s.rail i.val
  if s.pwrState = .shutdown ∧ r.dropping then
    let t := s.reach (r.since + 10 * Config.ms)
    .next ((t.enabledRails.foldl (fun u k => u.lowerRail k) t).latchFault 5 i.val r.status)
  else .next s

/-- UNDERVOLTAGE (R423, R435): a rail stays not good for 20 µs after the up sequence; Flush starts with cause 7 where it is
armed, the rails go down, and code 3 is latched. A rail lost while Flush runs ends it. -/
def execUndervoltage (i : Fin 8) (s : State) : Host.Outcome State Fault Refusal :=
  if s.pwrState.flushable then .next ((s.latchFault 3 i.val (s.rail i.val).status).flush 7)
  else if s.pwrState = .flush then .next (s.latchFault 3 i.val (s.rail i.val).status).powerDown
  else .next s

/-- OVERVOLTAGE (R423, R434): a rail is above 110 % of its nominal for 2 µs; every rail is taken down at once, with no Flush, and
code 4 is latched. -/
def execOvervoltage (i : Fin 8) (s : State) : Host.Outcome State Fault Refusal :=
  if s.enabledRails.isEmpty then .next s else .next (s.latchFault 4 i.val (s.rail i.val).status).cutRails

/-! ### PMBus (R424) -/

/-- Whether the PMBus is in use (R439): rails are up or on their way. -/
def State.pmbLive (s : State) : Bool := decide (s.pwrState ≠ .cold) && decide (s.pwrState ≠ .fault) && s.pwr.vaux

/-- A PMBus transaction: sent, and its answer taken; one that fails its check twice is recorded, and the readings stay. -/
def State.pmbRow {α : Type} (s : State) (i : Fin 8) (code : Nat) (answer : Option α) (take : α → PRail → PRail) : State :=
  if !s.pmbLive then s
  else
    let t := s.pmb i.val code 0
    match answer with
    | some v => t.updRail i.val (take v)
    | none => (t.pmb i.val code 0).record 0x8003 i.val code 0 0

/-- A signed field of a register. -/
def signedFld (w x : Nat) : Int := (BitVec.ofNat w x).toInt

/-- Scales a number by a power of two and a factor. -/
def scale2 (m factor : Nat) (e : Int) : Nat :=
  if e < 0 then m * factor / 2 ^ (-e).toNat else m * factor * 2 ^ e.toNat

/-- LINEAR16 in mV: the exponent is VOUT_MODE[4:0]. -/
def linear16 (mode : Byte) (v : BitVec 16) : Nat := scale2 v.toNat 1000 (signedFld 5 (mode.toNat % 32))

/-- LINEAR11 in 0.1 units; a negative value reads 0. -/
def linear11 (v : BitVec 16) : Nat := scale2 (signedFld 11 (fld v 10 0)).toNat 10 (signedFld 5 (fld v 15 11))

/-- PMB_ALERT (R424): PMB_ALERT_N falls; STATUS_WORD is read from every rail. -/
def execPmbAlert (s : State) : Host.Outcome State Fault Refusal :=
  if s.pmbLive then .next ((List.range 8).foldl (fun t i => t.pmb i 0x79 0) (s.raise .pwr 4)) else .next s

/-- PAGE (R424): sent to a regulator whose rail has a page. -/
def execPage (i : Fin 8) (s : State) : Host.Outcome State Fault Refusal :=
  let page := s.liveFld .pwr (0x100 + i.val * 8) 15 8
  if s.pmbLive ∧ page ≠ 0xFF then .next (s.emit (.pmbus i.val 0x00 page)) else .next s

/-- CLEAR_FAULTS (R424): the regulator's status clears. -/
def execClearFaults (i : Fin 8) (ok : Bool) (s : State) : Host.Outcome State Fault Refusal :=
  .next (s.pmbRow i 0x03 (if ok then some () else none) (fun _ r => { r with status := 0, sub := [] }))

/-- VOUT_MODE (R424): the exponent of a rail's output voltage, read once per rail after qualification. -/
def execVoutMode (i : Fin 8) (v : Option Byte) (s : State) : Host.Outcome State Fault Refusal :=
  .next (s.pmbRow i 0x20 v (fun x r => { r with mode := x }))

/-- STATUS_WORD (R424). -/
def execStatusWord (i : Fin 8) (v : Option (BitVec 16)) (s : State) : Host.Outcome State Fault Refusal :=
  .next (s.pmbRow i 0x79 v (fun x r => { r with status := x }))

/-- A status byte, read after STATUS_WORD shows its class. -/
def State.subStatus (s : State) (i : Fin 8) (code bit : Nat) (v : Option Byte) : State :=
  if bitOf (s.rail i.val).status bit then s.pmbRow i code v (fun x r => { r with sub := r.sub.put code x }) else s

/-- STATUS_VOUT (R424). -/
def execStatusVout (i : Fin 8) (v : Option Byte) (s : State) : Host.Outcome State Fault Refusal := .next (s.subStatus i 0x7A 15 v)

/-- STATUS_IOUT (R424). -/
def execStatusIout (i : Fin 8) (v : Option Byte) (s : State) : Host.Outcome State Fault Refusal := .next (s.subStatus i 0x7B 14 v)

/-- STATUS_INPUT (R424). -/
def execStatusInput (i : Fin 8) (v : Option Byte) (s : State) : Host.Outcome State Fault Refusal := .next (s.subStatus i 0x7C 13 v)

/-- STATUS_TEMPERATURE (R424). -/
def execStatusTemperature (i : Fin 8) (v : Option Byte) (s : State) : Host.Outcome State Fault Refusal :=
  .next (s.subStatus i 0x7D 2 v)

/-- READ_VIN (R424). -/
def execReadVin (i : Fin 8) (v : Option (BitVec 16)) (s : State) : Host.Outcome State Fault Refusal :=
  .next (s.pmbRow i 0x88 v (fun x r => { r with vin := x }))

/-- READ_VOUT (R424, R450): in mV. -/
def execReadVout (i : Fin 8) (v : Option (BitVec 16)) (s : State) : Host.Outcome State Fault Refusal :=
  .next (s.pmbRow i 0x8B v (fun x r => { r with vout := linear16 r.mode x }))

/-- READ_IOUT (R424, R450): in 0.1 A. -/
def execReadIout (i : Fin 8) (v : Option (BitVec 16)) (s : State) : Host.Outcome State Fault Refusal :=
  .next (s.pmbRow i 0x8C v (fun x r => { r with iout := linear11 x }))

/-- READ_TEMPERATURE_1 (R424). -/
def execReadTemperature1 (i : Fin 8) (v : Option (BitVec 16)) (s : State) : Host.Outcome State Fault Refusal :=
  .next (s.pmbRow i 0x8D v (fun x r => { r with temp := x }))

/-- PMBUS_REVISION (R424): a value below 33h is a configuration event. -/
def execPmbusRevision (i : Fin 8) (v : Option Byte) (s : State) : Host.Outcome State Fault Refusal :=
  let t := s.pmbRow i 0x98 v (fun x r => { r with rev := x })
  match v with
  | some x => if s.pmbLive ∧ x.toNat < 0x33 then .next (t.record 0x8003 i.val 0x98 0 0) else .next t
  | none => .next t

/-! ### The kettle (R426 to R430) -/

/-- WEAK, in µF (R450). -/
def State.kettleWeakAt (s : State) : Nat := s.liveFld .pwr 0x48 27 20 * 100

/-- A test of the register page ends with a result: 0 pass, 1 fail, 2 none (17 R490). -/
def State.testEnds (s : State) (test result : Nat) : State :=
  if s.thm.test = test ∧ s.thm.testState = 1 then
    { s with thm := { s.thm with testState := 0, testResult := result } }.raise .thm 4
  else s

/-- The capacitance test ends (R427, R428, R430): the bank is judged, Flush is armed at a start, and memory may be presented
again where a fault has cleared. -/
def State.kettleDone (s : State) (uf : Option Nat) : State :=
  let bad := match uf with
    | none => true
    | some c => s.kettleShort c
  let c := uf.getD s.pwr.cap
  let hold := s.vHold c
  let weak := uf.isSome && decide (c < s.kettleWeakAt)
  let start := decide (s.pwrState = .starting) && !s.pwr.armed
  let t := { s with pwr := { s.pwr with
    testing := false, charging := true, testReq := false, test := if uf.isNone then 3 else 0, cap := c, capAt := s.now
    hold := hold, weak := weak, fault := bad, armed := s.pwr.armed || start } }
  let t := (t.emit (.pin "KETTLE_TEST_EN" false)).emit (.pin "KETTLE_CHG_EN" true)
  let t := (t.raise .pwr 3).record 0x8004 0 c hold 0
  let t := if weak then (t.raise .pwr 2).record 0x8004 1 c hold 0 else t
  let t := if bad then t.record 0x8004 2 c hold 0 else t
  let t := if bad && start then t.startFail 2 else t
  (t.testEnds 0x10 (if bad then 1 else 0)).presentMemory

/-- KETTLE_READY (R427): KETTLE_SENSE reaches READY while a test is due; V0 is recorded and the test load connected. -/
def execKettleReady (v0 : BitVec 16) (s : State) : Host.Outcome State Fault Refusal :=
  let due := (decide (s.pwrState = .starting) && !s.pwr.armed) || s.pwr.testReq
  if s.pwr.charging ∧ ¬ s.pwr.testing ∧ due ∧ s.kettleReady * 25 ≤ v0.toNat then
    .next (({ s with pwr := { s.pwr with
      kettle := v0.toNat, charging := false, testing := true, v0 := v0.toNat, testAt := s.now, test := 1 } }.emit
      (.pin "KETTLE_CHG_EN" false)).emit (.pin "KETTLE_TEST_EN" true))
  else .next s

/-- KETTLE_TEST_DISCHARGE (R427, R428): the bus has fallen to 0.9 × V0 after a time in µs, of 400 ms at most. -/
def execKettleTestDischarge (us : BitVec 32) (s : State) : Host.Outcome State Fault Refusal :=
  if s.pwr.testing ∧ us.toNat ≤ 400000 then
    let t := s.reach (s.pwr.testAt + us.toNat * Config.us)
    .next ({ t with pwr := { t.pwr with kettle := s.pwr.v0 * 9 / 10 } }.kettleDone (some (kettleC us.toNat)))
  else .next s

/-- KETTLE_TEST_TIMEOUT (R427): the bank does not reach READY within 1.5 s, or does not discharge within 400 ms. -/
def execKettleTestTimeout (s : State) : Host.Outcome State Fault Refusal :=
  let due := (decide (s.pwrState = .starting) && !s.pwr.armed) || s.pwr.testReq
  if s.pwr.testing then .next ((s.reach (s.pwr.testAt + 400 * Config.ms)).kettleDone none)
  else if s.pwr.charging ∧ due then .next ((s.reach (s.pwr.capAt + 1500 * Config.ms)).kettleDone none)
  else .next s

/-- Whether the shelf supply is at or above FAIL, as it was last sampled (R429). -/
def State.supplyHolds (s : State) : Bool := decide (s.liveFld .pwr 0x40 7 0 * 25 ≤ s.pwr.supply)

/-- WRITE_HOLD (R429): with Flush armed and the supply at or above FAIL, the bus falls below v_hold; writes are held. -/
def execWriteHold (v : BitVec 16) (s : State) : Host.Outcome State Fault Refusal :=
  if s.pwr.armed ∧ s.pwrState.flushable ∧ ¬ s.pwr.writeHold ∧ s.supplyHolds ∧ v.toNat < s.pwr.hold then
    .next ({ s with pwr := { s.pwr with writeHold := true, kettle := v.toNat } }.raise .pwr 1)
  else .next s

/-- WRITE_HOLD_END (R429): the bus reaches v_hold + 0.5 V; the credits held back return. -/
def execWriteHoldEnd (v : BitVec 16) (s : State) : Host.Outcome State Fault Refusal :=
  if s.pwr.writeHold ∧ s.pwr.hold + 50 ≤ v.toNat then
    .next { s with
      pwr := { s.pwr with writeHold := false, kettle := v.toNat }
      ports := { s.ports with links := s.ports.links.mapVal (fun _ (l : Link) =>
        { l with credits := l.credits + l.owed, owed := 0 }) } }
  else .next s

/-! ### The triggers of Flush (R429, R431, R434) -/

/-- SUPPLY_FAIL (R431): SUPPLY_SENSE has been below FAIL for 2 ms. -/
def execSupplyFail (s : State) : Host.Outcome State Fault Refusal :=
  .next ({ s with pwr := { s.pwr with supplyOk := false } }.trigger 1)

/-- BROWNOUT (R431): a dip of some µs that ends before 2 ms have passed is ignored and recorded. -/
def execBrownout (us : Fin 2000) (s : State) : Host.Outcome State Fault Refusal :=
  if s.pwrState.flushable then .next ((s.raise .pwr 0).record 0x8001 us.val 0 0 0) else .next s

/-- KETTLE_FLOOR (R429, R431): with Flush armed, KETTLE_SENSE is below FLOOR. -/
def execKettleFloor (s : State) : Host.Outcome State Fault Refusal :=
  if s.pwr.armed then .next (s.trigger 2) else .next s

/-- FLUSH_REQ (R431, R440): the pin has been high for 10 µs, which starts Flush, or is low again. -/
def execFlushReq (high : Bool) (s : State) : Host.Outcome State Fault Refusal :=
  let t := { s with pwr := { s.pwr with flushReq := high } }
  if high then .next (t.trigger 3) else .next t

/-- REFERENCE_CLOCK_ABSENT (R431): the reference clock has no edge for 1 µs. -/
def execReferenceClockAbsent (s : State) : Host.Outcome State Fault Refusal := .next (s.trigger 5)

/-- FLUSH_ABANDON (R434): the kettle bus falls below 14.0 V while Flush runs, which is abandoned. -/
def execFlushAbandon (s : State) : Host.Outcome State Fault Refusal :=
  if s.pwrState = .flush then .next { s with pwr := { s.pwr with abandoned := true } }.powerDown else .next s

/-! ### Flush (R432, R433) -/

/-- Whether every program in flight has ended (03 R113 step 2). -/
def State.programsEnded (s : State) : Bool :=
  s.dies.all (fun e => decide (e.2.op ≠ .program) && e.2.latches.isEmpty) &&
    s.burners.all (fun e => e.2.granted.all (fun q => !q.isProgram)) &&
    s.rails.mediaRes.all (fun e => e.2.waiting.all (fun r => match r with
      | .program _ _ | .lost _ => false
      | _ => true))

/-- The flush-complete marker's user data (R433); the pages it counts are those of the image with the marker's own (log entry 94). -/
def State.markerBytes (s : State) (first last : BitVec 48) (pages us : Nat) (h : BitVec 48) : List Byte :=
  let b := leBytes 4 0x4B524D46 ++ leBytes 2 1 ++ leBytes 2 (min 0xFFFF us) ++ leBytes 8 (s.boot.flushes + 1) ++
    leBytes 6 first.toNat ++ leBytes 6 last.toNat ++ leBytes 4 pages ++ leBytes 1 s.pwr.cause ++
    leBytes 1 (if s.pwr.fromSimmer then 1 else 0) ++ leBytes 3 s.clk.cycles ++ leBytes 3 0 ++ leBytes 5 s.opsec ++ leBytes 3 0 ++
    leBytes 6 h.toNat ++ leBytes 2 0
  b ++ leBytes 4 (crc32c b).toNat ++ leBytes 196 0

/-- Writes the image and the marker to the flush area whose turn it is (05 R173, R174): the frames that are not free, the parity slots in use,
the control area, the final mark with the records staged before it, the staged spike records; each page at its two places, the marker
last. -/
def State.writeImage (s : State) : State :=
  let t := (s.settle).writeMark
  let layout := t.imagePages
  let n := layout.length
  let first := t.siv.seq + 1
  let area := (s.med.flushUse + 1) % 2
  let img : FlushImage := {
    frames := t.stk.frames, spike := t.spk.staged, recs := t.siv.staging
    acks := t.ports.links.mapVal (fun _ (l : Link) => l.lastAck)
    marker := t.markerBytes first (first + BitVec.ofNat 48 n - 1) (n + 1) ((t.now - t.pwr.flushAt) / Config.us) t.coveredSeq
    open_ := t.med.openStripes, blockSlots := t.stk.blockSlots, blockPar := t.stk.blockPar, blockLost := t.stk.blockLost
    pages := n, layout := layout }
  let u := layout.zipIdx.foldl (fun (u : State) e =>
    u.putFlushPage area e.2 (t.imageSectors e.2 (first + BitVec.ofNat 48 e.2) t.free e.1)) t
  let u := u.putFlushPage area n (markerSectors img.marker (first + BitVec.ofNat 48 n))
  { u with
    free := t.free + n * 256
    siv := { u.siv with seq := first + BitVec.ofNat 48 n }
    med := { u.med with
      flushArea := u.med.flushArea.put area img, flushUse := area
      flushReset := u.med.flushReset &&& ~~~ (BitVec.ofNat 2 (2 ^ area)) }
    boot := { u.boot with flushes := u.boot.flushes + 1 } }

/-- Flush goes on (R432): GPF answers that waited go out; once the programs in flight have ended, the image and the marker are
written, unless the area replayed at this start has not been reset yet (R433); ALIVE falls and the rails go down. -/
def State.flushTick (s : State) : State :=
  let t := s.ports.gpfWaiting.foldl (fun u n => u.emit (.gpf n 2)) s
  let t := { t with ports := { t.ports with gpfWaiting := [] } }
  if !t.programsEnded then t
  else if t.med.flushArea.isEmpty then t.writeImage.powerDown
  else t.powerDown

end Sys2Proof.Machine
end

