-- ==== Sys2Proof/Machine/Yulvoga.lean ====
section
/-!
DEFINITION. VAUX and the Yulvoga shelf bus (15_power.md R417, R422, R441 to R448): frames, what a slave answers, what the master
sends.
-/

namespace Sys2Proof.Machine

/-! ### Frames (R442, R443) -/

/-- One bit of CRC-8 with polynomial 0x07. -/
def crc8Bit (c : Byte) : Byte := if c.getLsbD 7 then (c <<< 1) ^^^ 0x07 else c <<< 1

/-- One byte of CRC-8. -/
def crc8Step (c b : Byte) : Byte := (List.range 8).foldl (fun x _ => crc8Bit x) (c ^^^ b)

/-- CRC-8 of a frame's bytes (R443): initial value 0, no reflection, no final XOR. -/
def crc8 (xs : List Byte) : Byte := xs.foldl crc8Step 0

/-- A command frame: the address byte, the command byte, the CRC (R442). -/
def yvFrame (addr cmd : Nat) : List Byte :=
  let x := [byteOf (addr * 16), byteOf cmd]
  x ++ [crc8 x]

/-- What a slave sends in a read frame: status, length, payload, CRC; the CRC covers the address byte too (R442, R443). -/
def yvAnswer (addr status : Nat) (payload : List Byte) : List Byte :=
  let x := [byteOf status, byteOf payload.length] ++ payload
  x ++ [crc8 (byteOf (addr * 16 + 1) :: x)]

/-- A slave answers a transaction that was addressed to it; a broadcast has no read frame (R442). -/
def State.yvReply (s : State) (broadcast : Bool) (status : Nat) (payload : List Byte) : State :=
  let t := { s with pwr := { s.pwr with yvStatus := status } }
  if broadcast then t else t.emit (.yulvoga (yvAnswer s.pwr.yvAddr status payload))

/-- Whether the device takes frames as a slave: VAUX is good and its address is not 0 (R441, R444). -/
def State.isSlave (s : State) : Bool := s.pwr.vaux && decide (s.pwr.yvAddr ≠ 0)

/-- A slave receives a valid frame (R448): its command's effect. -/
def State.yvCommand (s : State) (body : State → State) : State :=
  if s.isSlave then body { s with pwr := { s.pwr with frameAt := s.now } } else s

/-! ### The slave's commands (R444, R445) -/

/-- Hours since the last capacitance test (R444, R450). -/
def State.kettleHours (s : State) : Nat :=
  if s.pwr.cap = 0 then 0 else sat 16 ((s.now - s.pwr.capAt) / (3600 * Config.sec))

/-- The power drawn by the eight rails, in 0.1 W (R445). -/
def State.railPower (s : State) : Nat :=
  sat 16 (((List.range 8).map (fun i => (s.rail i).vout * (s.rail i).iout)).sum / 1000)

/-- Whether the kettle bus is at READY (R445). -/
def State.kettleAtReady (s : State) : Bool := decide (s.kettleReady * 25 ≤ s.pwr.kettle)

/-- The STATUS payload (R445). -/
def State.yvPayload (s : State) : List Byte :=
  let p := s.pwr
  let flags := s.kettleAtReady.toNat + 2 * p.offHeld.toNat + 4 * p.latched.toNat + 8 * p.weak.toNat +
    16 * p.fault.toNat + 32 * p.writeHold.toNat + 64 * s.prot.lid.toNat + 128 * p.supplyOk.toNat
  [byteOf s.pwrState.code, byteOf flags, byteOf (if p.latched then p.code else 0), byteOf p.lastCause] ++
    leBytes 2 (sat 16 p.kettle) ++ leBytes 2 s.railPower ++
    [BitVec.ofInt 8 (s.thm.hot / 16), byteOf (if p.latched then p.rail else 0xFF), 0, 0]

/-- YV_IDENTIFY (R444): serial, grade, dies per burner. -/
def execYvIdentify (s : State) : Host.Outcome State Fault Refusal :=
  .next (s.yvCommand (fun s => s.yvReply false 0
    (leBytes 8 s.fuses.serial.toNat ++ [byteOf (Grade.code s.fuses.grade), byteOf s.dieCount, 0, 0])))

/-- YV_STATUS (R445). -/
def execYvStatus (s : State) : Host.Outcome State Fault Refusal :=
  .next (s.yvCommand (fun s => s.yvReply false 0 s.yvPayload))

/-- KETTLE_INFO (R444). -/
def execKettleInfo (s : State) : Host.Outcome State Fault Refusal :=
  .next (s.yvCommand (fun s => s.yvReply false 0
    (leBytes 2 (sat 16 s.pwr.cap) ++ leBytes 2 (sat 16 s.pwr.hold) ++ leBytes 2 (sat 16 s.pwr.kettle) ++ leBytes 2 s.kettleHours)))

/-- POWER_ON (R444): in COLD, OFF_HELD clears and the slave may start; refused while a fault is latched. -/
def execPowerOn (s : State) : Host.Outcome State Fault Refusal :=
  .next (s.yvCommand (fun s =>
    if s.pwr.latched then s.yvReply false 4 []
    else
      let t := if s.pwrState = .cold then { s with pwr := { s.pwr with offHeld := false, powerOn := true } } else s
      t.yvReply false 0 []))

/-- POWER_OFF (R444): OFF_HELD is set, and Flush starts with cause 4. -/
def execPowerOff (broadcast : Bool) (s : State) : Host.Outcome State Fault Refusal :=
  .next (s.yvCommand (fun s =>
    ({ s with pwr := { s.pwr with offHeld := true, powerOn := false } }.yvReply broadcast 0 []).trigger 4))

/-- CLEAR_FAULT (R444, R424): in FAULT the latch clears, the device enters COLD, and the regulators' faults are cleared; refused in other
states. -/
def execClearFault (broadcast : Bool) (s : State) : Host.Outcome State Fault Refusal :=
  .next (s.yvCommand (fun s =>
    if s.pwrState = .fault then
      (List.range 8).foldl (fun t i => t.pmb i 0x03 0)
        ({ s with pwrState := .cold, pwr := { s.pwr with latched := false, coldAt := s.now } }.yvReply broadcast 0 [])
    else s.yvReply broadcast 4 []))

/-- YULVOGA_BAD_FRAME (R443): a frame whose CRC is bad is acknowledged and not acted on, and the read reports status 3; a valid
frame with an unknown command reports status 2. -/
def execYulvogaBadFrame (unknown : Bool) (s : State) : Host.Outcome State Fault Refusal :=
  if unknown then .next (s.yvCommand (fun s => s.yvReply false 2 []))
  else if s.isSlave then .next (s.yvReply false 3 [])
  else .next s

/-- YULVOGA_FALLBACK (R448): a COLD slave without a valid frame for 5 s starts after its address × 200 ms. -/
def execYulvogaFallback (s : State) : Host.Outcome State Fault Refusal :=
  if s.isSlave ∧ s.pwrState = .cold ∧ ¬ s.pwr.offHeld then
    let t := s.reach (s.pwr.frameAt + 5 * Config.sec + s.pwr.yvAddr * (200 * Config.ms))
    .next { t with pwr := { t.pwr with powerOn := true } }
  else .next s

/-! ### The master (R443, R446, R450) -/

/-- Sends a command frame. -/
def State.yvSend (s : State) (addr cmd : Nat) : State := s.emit (.yulvoga (yvFrame addr cmd))

/-- Changes what the master knows of a slave. -/
def State.updSlave (s : State) (a : Nat) (f : YvSlave → YvSlave) : State :=
  { s with pwr := { s.pwr with slaves := s.pwr.slaves.upd .none a f } }

/-- A slave has answered STATUS: a lost one is present again (R446). -/
def State.slaveAnswers (s : State) (a : Nat) (payload : List Byte) : State :=
  s.updSlave a (fun v => { v with status := payload.take 12, present := true, lost := false, misses := 0 })

/-- What the master learns from a transaction that completed. -/
def State.yvLearn (s : State) (a cmd status : Nat) (payload : List Byte) : State :=
  if a = 0 ∨ status ≠ 0 then s
  else match cmd with
    | 0x01 => s.updSlave a (fun v => { v with present := true })
    | 0x02 => s.slaveAnswers a payload
    | 0x10 => { s with pwr := { s.pwr with yvLastOn := s.now, yvLastAddr := a } }
    | _ => s

/-- YV_CMD_GO (R443, R450): a write of PWR_YV_CMD with GO sends a transaction; `again` counts repeats of one that completed; one
that does not complete has been tried 10 times. Slaves ignore GO. -/
def execYvCmdGo (path : Path) (addr : Fin 16) (cmd : Byte) (again : Fin 10) (result : Fin 4) (status : Byte)
    (payload : List Byte) (s : State) : Host.Outcome State Fault Refusal :=
  .next (s.portWrite path 0x500064 (at32 addr.val 0 ||| at32 cmd.toNat 4 ||| bit32 true 31) (fun s =>
    if !s.mayWrite path .pwr then s
    else
      let t := s.setLive .pwr 0x64 (at32 addr.val 0 ||| at32 cmd.toNat 4)
      if s.pwr.yvAddr ≠ 0 then t
      else
        let n := if result.val = 0 then again.val + 1 else 10
        let t := (List.range n).foldl (fun u _ => u.yvSend addr.val cmd.toNat) t
        let st := if addr.val = 0 then 0 else status.toNat
        let t := { t with pwr := { t.pwr with respStatus := st, respResult := result.val } }
        if result.val = 0 then (t.yvLearn addr.val cmd.toNat st payload) else (t.raise .pwr 7)))

/-! ### VAUX (R417, R422, R446) -/

/-- VAUX_GOOD (R417, R446): the address straps are sampled, COLD (or FAULT, where the latch stands) begins, and the master
identifies the slaves; the mask names those that answer. -/
def execVauxGood (addr : Fin 16) (answers : BitVec 16) (s : State) : Host.Outcome State Fault Refusal :=
  if s.pwr.vaux then .next s
  else
    let p := s.pwr
    let known : SMap YvSlave := if addr.val = 0 then
        ((List.range 16).filter (fun a => decide (1 ≤ a) && bitOf answers a)).map
          (fun a => (a, { YvSlave.none with present := true }))
      else []
    let t := { s with
      pwrState := if p.latched then .fault else .cold
      pwr := { p with
        vaux := true, yvAddr := addr.val, coldAt := s.now, frameAt := s.now, slaves := known, yvLastOn := 0, yvLastAddr := 0
        code := if p.latched then p.code else 0, rail := if p.latched then p.rail else 0
        pmbStatus := if p.latched then p.pmbStatus else 0 } }
    if addr.val = 0 then .next ((List.range 15).foldl (fun u k => u.yvSend (k + 1) 0x01) t) else .next t

/-- VAUX_LOSS (R417, R422): VAUX falls, and every enable with it; below 1.0 V for a second, the standby part loses the latch and
OFF_HELD. -/
def execVauxLoss (second : Bool) (s : State) : Host.Outcome State Fault Refusal :=
  let t := { s.abandonNor.darken with pwrState := .shutdown }.allOff
  .next { t with
    pwrState := .cold
    pwr := { t.pwr with
      vaux := false, vauxLost := s.now, rails := [], armed := false, charging := false, testing := false, powerOn := false
      latched := s.pwr.latched && !second, offHeld := s.pwr.offHeld && !second }
    boot := { t.boot with seq := .idle, ready := false } }

end Sys2Proof.Machine
end

