-- ==== Sys2Proof/Machine/Thermal.lean ====
section
/-!
DEFINITION. The housekeeping round, the temperature bands and the tests (17_thermal_and_round.md, 06_burner_channel.md R200 to
R202, 07_upkeep.md R222, 15_power.md R430, R446, R447).
-/

namespace Sys2Proof.Machine

/-! ### Sensors (R476, R479, R480) -/

/-- The neighbours of a sensor, by key (R476). -/
def neighbours (k : Nat) : List Nat :=
  let g := k / 1024
  let i := k % 1024
  let line := fun (n : Nat) => (if i % n = 0 then [] else [k - 1]) ++ (if i % n = n - 1 then [] else [k + 1])
  match g with
  | 0 => (if i < 8 then [] else [k - 8]) ++ (if 56 ≤ i then [] else [k + 8]) ++ line 8
  | 1 => line 8
  | _ => line 10

/-- The readings of a sensor's valid neighbours: those that had a reading and were not broken at the end of the round before
(R479). -/
def neighbourReads (old now : SMap Sensor) (k : Nat) : List Int :=
  (neighbours k).filterMap (fun j => match old.find j, now.find j with
    | some o, some x => if o.broken then none else some x.raw
    | _, _ => none)

/-- The sum of a list of readings. -/
def sumInt (xs : List Int) : Int := xs.foldl (fun a x => a + x) 0

/-- Whether a reading differs from the mean of a list by more than a number of sixteenths of a degree. -/
def differs (x : Int) (xs : List Int) (d : Int) : Bool :=
  let n : Int := xs.length
  decide (n * d < n * x - sumInt xs) || decide (n * d < sumInt xs - n * x)

/-- The mean of a list of readings, in 1/16 °C; which way an inexact one is rounded is open (log entry 2). -/
def State.meanOf (s : State) (xs : List Int) : Int × State :=
  let n : Int := xs.length
  if xs.isEmpty then (0, s)
  else if sumInt xs % n = 0 then (sumInt xs / n, s)
  else
    let d := s.draw
    (sumInt xs / n + (if (Config.freeWord d.1).getLsbD 0 then 1 else 0), d.2)

/-- The band lower bounds, in 1/16 °C (R481). -/
def bandBound : Nat → Int
  | 0 => -32768
  | 1 => 640
  | 2 => 960
  | 3 => 1280
  | _ => 1520

/-- The band of a value `v / n` after a band (R481): it rises at a lower bound and falls 2 °C below it. -/
def bandNext (band : Nat) (v n : Int) : Nat :=
  let up := (List.range 5).foldl (fun m k => if bandBound k * n ≤ v then k else m) 0
  if band ≤ up then up
  else (List.range (band + 1)).foldl (fun m k => if (bandBound k - 32) * n ≤ v then max m k else m) up

/-- The sensors of a group. -/
def inGroup (g : Nat) (m : SMap Sensor) : SMap Sensor := m.filter (fun e => decide (e.1 / 1024 = g))

/-- Whether a sensor disagrees with its valid neighbours; none where it has no valid neighbour (R479). -/
def disagrees (old now : SMap Sensor) (k : Nat) (x : Int) : Option Bool :=
  let ns := neighbourReads old now k
  if ns.isEmpty then none else some (differs x ns 128)

/-- The hottest valid reading of a group (R480). -/
def hottestOf (g : Nat) (old now : SMap Sensor) : Option Int :=
  (inGroup g now).foldl (fun m e =>
    if e.2.broken || ((old.find e.1).map (fun o => o.broken)).getD false then m
    else some (max e.2.raw (m.getD e.2.raw))) none

/-- Marks a sensor broken: the flag and the record (R479). -/
def State.sensorBroken (s : State) (k : Nat) : State := (s.raise .thm 0).record 0x8006 (k / 1024) (k % 1024) 0 0

/-- Judges a sensor in a round: its streak, whether it is broken, its value and its band (R479 to R481); `once` marks it broken at
the first disagreement (R486, test 0x01). -/
def State.judgeSensor (s : State) (old now : SMap Sensor) (once : Bool) (k : Nat) : State :=
  match now.find k with
  | none => s
  | some x =>
    let dis := disagrees old now k x.raw
    let streak := match dis with
      | none => x.streak
      | some false => if x.broken then x.streak else 0
      | some true => min 3 (x.streak + 1)
    let breaks := !x.broken && decide (dis = some true) && (once || decide (streak = 3))
    let ns := neighbourReads old now k
    let standIn := x.broken || decide (dis = some true)
    let r : Int × State :=
      if standIn then
        if ns.isEmpty then ((hottestOf (k / 1024) old now).getD x.val, s) else s.meanOf ns
      else (x.raw, s)
    let y : Sensor := { x with val := r.1, band := bandNext x.band r.1 1, streak := streak, broken := x.broken || breaks }
    let t := { r.2 with thm := { r.2.thm with sensors := r.2.thm.sensors.put k y } }
    let t := if k / 1024 = 2 ∧ y.band ≠ x.band then
        { t with thm := { t.thm with trimQueue := insertNew t.thm.trimQueue (k % 1024) } }
      else t
    if breaks then t.sensorBroken k else t

/-- Holds the bands of a group whose sensors are all broken at TB3 (R480). -/
def holdBroken (m : SMap Sensor) : SMap Sensor :=
  m.mapVal (fun k (x : Sensor) =>
    if (inGroup (k / 1024) m).all (fun e => e.2.broken) then { x with band := 3 } else x)

/-! ### The round's results (R480 to R484) -/

/-- The hottest value: its key and value; the lower key among equals. -/
def hottest (m : SMap Sensor) : Nat × Int :=
  match m with
  | [] => (0, 0)
  | e :: es => es.foldl (fun b x => if b.2 < x.2.val then (x.1, x.2.val) else b) (e.1, e.2.val)

/-- The band of the mean of all media readings, which drives the drift clock (R482); TB3 where every media sensor is broken. -/
def meanBandOf (band : Nat) (m : SMap Sensor) : Nat :=
  let ms := inGroup 2 m
  if ms.isEmpty then band
  else if ms.all (fun e => e.2.broken) then 3
  else bandNext band (sumInt (ms.map (fun e => e.2.val))) ms.length

/-- Applies the bands of a round: the device band and what it drives, the hottest reading, the flags (R480 to R483). -/
def State.applyBands (s : State) : State :=
  let m := holdBroken s.thm.sensors
  let band : Nat := m.foldl (fun b e => max b e.2.band) 0
  let h := hottest m
  let degraded := (List.range 3).any (fun g =>
    decide ((inGroup g m).length < 4 * countIf (fun e => e.2.broken) (inGroup g m)))
  let th := s.thm
  let t := { s with thm := { th with
    sensors := m, devBand := band, meanBand := meanBandOf th.meanBand m, hot := h.2, hotGroup := h.1 / 1024
    hotIndex := h.1 % 1024, throttle := decide (band = 4), overRated := m.any (fun e => decide (1680 < e.2.val))
    groupDegraded := degraded } }
  let t := if th.devBand < 3 ∧ 3 ≤ band then t.raise .thm 2 else t
  if band = 4 ∧ ¬ th.throttle then (t.raise .thm 1).record 0x8007 1 band 0 0
  else if band ≠ 4 ∧ th.throttle then t.record 0x8007 0 band 0 0
  else t

/-- Whether a reading counts toward a trip (R484). -/
def counts (old now : SMap Sensor) (k : Nat) (x : Sensor) : Bool :=
  decide (1760 ≤ x.raw) && !((old.find k).map (fun o => o.broken)).getD false && !x.broken &&
    !(disagrees old now k x.raw).getD false

/-- A trip (R484): fault code 6 is latched and Flush starts with cause 6; the rail and status of the latch are open (log entry
2). -/
def State.trip (s : State) : State :=
  let d := s.draw
  let w := (Config.freeWord d.1).toNat
  let t := { d.2 with thm := { d.2.thm with trips := 0 } }
  (t.latchFault 6 (w % 8) (BitVec.ofNat 16 (w / 8))).trigger 6

/-- A trip counted over rounds (R484). -/
def State.countTrip (s : State) (hit : Bool) : State :=
  if !hit then { s with thm := { s.thm with trips := 0 } }
  else if s.thm.trips = 0 then { s with thm := { s.thm with trips := 1 } }
  else s.trip

/-! ### The round (R477, R478) -/

/-- The time within which every row of a map stack is refreshed, in ms: halved while its hottest sensor is in TB3 or above (R482). -/
def State.refreshMs (s : State) (stack : Nat) : Nat :=
  if 3 ≤ s.bandOf (fun k => decide (k / 1024 = 1) && decide (k % 1024 / 8 = stack)) then 16 else 32

/-- A reading taken: the sensor's own value; a new sensor starts in its band. -/
def takeReading (m : SMap Sensor) (k : Nat) (raw : Int) : SMap Sensor :=
  m.put k (match m.find k with
    | some x => { x with raw := raw }
    | none => { raw := raw, val := raw, band := bandNext 0 raw 1, streak := 0, broken := false })

/-- The media sensors kept: of dies that still have a reading (R476). -/
def State.keptSensors (s : State) : SMap Sensor :=
  s.thm.sensors.filter (fun e => decide (e.1 < 2048) || s.dieLive ((e.1 - 2048) / 10) ((e.1 - 2048) % 10))

/-- Steps 1 to 3 of a round: the controller and map-stack readings; one that is not given keeps its value. -/
def takeList (g : Nat) (xs : List (Option (BitVec 16))) (n : Nat) (m : SMap Sensor) : SMap Sensor :=
  (List.range n).foldl (fun a i => match xs.getD i none with
    | some w => takeReading a (g * 1024 + i) w.toInt
    | none => a) m

/-- Step 4 of a round, skipped in Simmer: the temperature of every present die, with its offset; a die that does not answer keeps
its reading and is reported as a die timeout (R477, R478). -/
def State.readMedia (s : State) (xs : List (Option (BitVec 16))) : State :=
  if s.pwrState = .simmer then s
  else (List.range 320).foldl (fun t i =>
    if !t.dieLive (i / 10) (i % 10) then t
    else match xs.getD i none with
      | some w =>
        let t := (t.frameTo (i / 10) (i % 10) 0x71 0 []).takeTemp (i / 10) (i % 10) w
        { t with thm := { t.thm with
          sensors := takeReading t.thm.sensors (2048 + i) ((t.die (i / 10) (i % 10)).temp).toInt } }
      | none => t.dieFault (i / 10) (i % 10) 1) s

/-- The supply and kettle means of a round (R477 step 5). -/
def State.takeMeans (s : State) (supply kettle : Nat) : State :=
  let good := decide (s.liveFld .pwr 0x40 15 8 * 25 ≤ supply)
  { s with pwr := { s.pwr with
    supply := supply, kettle := kettle, supplyOk := good
    supplyGoodAt := if good && !s.pwr.supplyOk then s.now else s.pwr.supplyGoodAt } }

/-- Whether the device is the master of the shelf. -/
def State.isMaster (s : State) : Bool := s.pwr.vaux && decide (s.pwr.yvAddr = 0)

/-- A slave does not answer a poll; the third in a row marks it lost (15 R446). -/
def State.slaveMisses (s : State) (a : Nat) : State :=
  let v := s.pwr.slaves.getD a .none
  let t := s.updSlave a (fun x => { x with misses := min 3 (x.misses + 1), lost := x.lost || decide (2 ≤ x.misses) })
  if v.misses = 2 ∧ ¬ v.lost then (t.raise .pwr 6).record 0x8005 a 0 0 0 else t

/-- The master polls its slaves (15 R446). -/
def State.pollSlaves (s : State) (answers : List (Option (List Byte))) : State :=
  if !s.isMaster then s
  else (List.range 16).foldl (fun t a =>
    if !(t.pwr.slaves.getD a .none).present then t
    else
      let u := t.yvSend a 0x02
      match answers.getD a none with
      | some p => u.slaveAnswers a p
      | none => u.slaveMisses a) s

/-- Whether a slave waits to be powered: present, in COLD, neither held off nor latched (15 R447). -/
def YvSlave.waits (v : YvSlave) : Bool :=
  v.present && !v.lost && decide (v.status.length = 12) && decide (field v.status 0 1 = 0) &&
    !(field v.status 1 1).testBit 1 && !(field v.status 1 1).testBit 2

/-- Whether the slave powered last still holds up the next (15 R447). -/
def State.stillStarting (s : State) : Bool :=
  let v := s.pwr.slaves.getD s.pwr.yvLastAddr .none
  let f := field v.status 1 1
  decide (s.pwr.yvLastAddr ≠ 0) && !v.lost && !f.testBit 0 && !f.testBit 4 && decide (field v.status 0 1 ≠ 7) &&
    decide (s.now < s.pwr.yvLastOn + 3 * Config.sec)

/-- The master powers the next slave whose turn has come (15 R447). -/
def State.powerSlaves (s : State) : State :=
  let stagger := max 1 (s.liveFld .pwr 0x60 15 8)
  let auto := bitOf (s.getLive .pwr 0x60) 16
  let loaded := decide (s.pwrState ≠ .starting) || decide (4 ≤ s.boot.step)
  let ws := (s.pwr.slaves.filter (fun e => e.2.waits)).map (·.1)
  let next := ((ws.filter (fun a => decide (s.pwr.yvLastAddr < a))) ++ ws).head?
  if s.isMaster && auto && loaded && !s.stillStarting &&
      (decide (s.pwr.yvLastAddr = 0) || decide (s.pwr.yvLastOn + stagger * Config.ms ≤ s.now)) then
    match next with
    | some a => { s.yvSend a 0x10 with pwr := { s.pwr with yvLastOn := s.now, yvLastAddr := a } }
    | none => s
  else s

/-- Rolls the 100 ms window of the time cap (R485). -/
def State.rollCal (s : State) : State :=
  let w := s.now / (100 * Config.ms)
  if w = s.thm.calWindow then s
  else
    let top := s.thm.calUse.foldl (fun (b : Nat × Nat) e => if b.2 < e.2 then e else b) (0, 0)
    let seen := decide (w = s.thm.calWindow + 1)
    { s with thm := { s.thm with
      calWindow := w, calUse := [], calLast := if seen then (top.2 + 99) / 100 else 0, calBurner := if seen then top.1 else 0 } }

/-- HOUSEKEEPING_ROUND (R477): a 10 ms tick; the readings of the controller, the map stacks and the media, the means of the
supply and the kettle in 10 mV, the answers of the slaves; `late` where the round before had not reached step 7. The regulators'
readings of step 5 are commands of their own (15 R424). -/
def execHousekeepingRound (ctl stack media : List (Option (BitVec 16))) (supply kettle : BitVec 16)
    (answers : List (Option (List Byte))) (late : Bool) (s : State) : Host.Outcome State Fault Refusal :=
  if s.pwrState ≠ .starting ∧ s.pwrState ≠ .boil ∧ s.pwrState ≠ .simmer then .next s
  else
    let t := (s.reach (s.thm.roundAt + 10 * Config.ms)).rollCal
    let old := t.thm.sensors
    let t := { t with thm := { t.thm with
      rounds := (t.thm.rounds + 1) % 2 ^ 24, roundAt := t.now
      sensors := takeList 1 stack 16 (takeList 0 ctl 64 t.keptSensors) } }
    let t := if late then ({ t with thm := { t.thm with overruns := sat 8 (t.thm.overruns + 1) } }).raise .thm 3 else t
    let t := (t.readMedia media).takeMeans supply.toNat kettle.toNat
    let now := t.thm.sensors
    let judged := now.filter (fun e => decide (e.1 < 2048) || decide (s.pwrState ≠ .simmer))
    let hit := judged.any (fun e => counts old now e.1 e.2)
    let t := (judged.foldl (fun (u : State) e => u.judgeSensor old now false e.1) t).applyBands
    .next ((t.pollSlaves answers).powerSlaves.countTrip hit)

/-! ### Run Test and the deferred queue (R486, R487) -/

/-- Answers Run Test (R486): the outcome, the test, the length of the deferred queue. -/
def State.testReply (s : State) (p : Path) (outcome test : Nat) : State :=
  s.reply p 0xC080 rcOk ([byteOf outcome, byteOf test] ++ leBytes 2 s.thm.deferred.length)

/-- The outcome of a request goes to whoever made it: a register shows it in its page. -/
def State.tell (s : State) (src : TestSrc) (outcome test : Nat) : State :=
  match src with
  | .runTest p _ _ => s.testReply p outcome test
  | _ => s

/-- Notes the test that runs. -/
def State.testBegins (s : State) (test target : Nat) : State :=
  { s with thm := { s.thm with test := test, target := target, testState := 1, testResult := 0 } }

/-- Begins the full training of a burner (06 R200, 08 R252): its lane is masked meanwhile. -/
def State.beginTraining (s : State) (b : Nat) : State :=
  (s.updBurner b (fun x => { x with training := true, fullBusy := true, trainState := 1, ready := false })).maskLane b true

/-- The burners a target names: one, or every one in service. -/
def State.targetBurners (s : State) (target : Nat) : List Nat :=
  if target = 0xFF then s.liveBurners else s.liveBurners.filter (fun b => decide (b = target))

/-- A disruptive test begins (R486). -/
def State.startTest (s : State) (test target : Nat) : State :=
  let t := s.testBegins test target
  match test with
  | 0x10 => { t with pwr := { t.pwr with testReq := true, test := 1 } }
  | 0x11 => (t.targetBurners target).foldl State.beginTraining t
  | _ => t

/-- Shows that a test is deferred. -/
def State.showDeferred (s : State) (test target : Nat) : State :=
  match test with
  | 0x10 => { s with pwr := { s.pwr with test := 2, testReq := false } }
  | 0x11 => (s.targetBurners target).foldl (fun t b => t.updBurner b (fun x => { x with trainState := 2 })) s
  | _ => s

/-- Requests a disruptive test (R487): at once while no link has MEM_ACTIVE, else deferred to the next Simmer, merged with one of
the same target, refused where the queue of 16 is full; one that finds a test running joins the queue too. Answers the outcome. -/
def State.requestTest (s : State) (test target : Nat) : Nat × State :=
  let quiet := !s.ports.links.any (fun e => e.2.memActive)
  if quiet && decide (s.thm.testState ≠ 1) then (0, s.startTest test target)
  else if s.thm.deferred.contains (test, target) then (1, s)
  else if 16 ≤ s.thm.deferred.length then (2, s)
  else
    let t := { s with thm := { s.thm with
      deferred := s.thm.deferred ++ [(test, target)]
      test := if s.thm.testState = 1 then s.thm.test else test, target := if s.thm.testState = 1 then s.thm.target else target
      testState := if s.thm.testState = 1 then 1 else 2 } }
    (1, t.showDeferred test target)

/-- The body of Run Test (R486): the argument is 0 but for test 0x03, which keeps its bits [7:4] at 0; the target must exist. -/
def State.runTest (s : State) (p : Path) (test : Nat) (arg : Byte) (known : Bool) (body : State → State) : State :=
  s.command p 0xC080 ownerOnly (fun s =>
    if (if test = 3 then 16 ≤ arg.toNat else decide (arg ≠ 0)) then s.fail p 0xC080 rcInvalid
    else if !known then s.testReply p 3 test
    else body s)

/-- The body of a test that is not disruptive: it runs at once, and is refused while another test runs, whose outcome THM_TEST still
has to hold (DESIGN CHOICE, log entry 117). -/
def State.runNow (s : State) (p : Path) (test : Nat) (arg : Byte) (known : Bool) (body : State → State) : State :=
  s.runTest p test arg known (fun s => if s.thm.testState = 1 then s.testReply p 2 test else body s)

/-- A request for a disruptive test from a register or from Run Test. -/
def State.askTest (s : State) (src : TestSrc) (test target : Nat) (page : RPage) (off : Nat) (known : Byte → Bool) : State :=
  match src with
  | .internal => s
  | .register path => s.portWrite path (page.base + off) (if off = 0x44 then 2 else 1) (fun s =>
      if s.mayWrite path page then (s.requestTest test target).2 else s)
  | .runTest p tg arg => s.runTest p test arg (known tg) (fun s =>
      let r := s.requestTest test tg.toNat
      r.2.testReply p r.1 test)

/-- The next deferred test runs (R487). -/
def State.nextTest (s : State) : State :=
  match s.thm.deferred with
  | [] => s
  | (test, target) :: rest =>
    if s.thm.testState = 1 then s else { s with thm := { s.thm with deferred := rest } }.startTest test target

/-- KETTLE_CAPACITANCE_TEST (15 R430, R486): test 0x10, or a write of PWR_CTRL.KETTLE_TEST. -/
def execKettleCapacitanceTest (src : TestSrc) (s : State) : Host.Outcome State Fault Refusal :=
  .next (s.askTest src 0x10 0xFF .pwr 0x0C (fun t => decide (t = 0xFF)))

/-! ### Training (06 R200 to R202) -/

/-- Takes what training found for a die: its settings, or its failure (06 R200, 14 R398). -/
def State.trainDie (s : State) (b ce : Nat) (r : TrainRes) : State :=
  if r.ok then s.updDie b ce (fun d => { d with rdDly := r.rd, wrDly := r.wr, vref := r.vref, margin := r.margin })
  else
    (((s.updDie b ce (fun d => { d with failed := true })).updBurner b (fun x => { x with
      failMask := x.failMask ||| BitVec.ofNat 10 (2 ^ ce) })).report 4 1 (dieId b ce)).raise (.brn b) 0

/-- Ends the test of the register page with a result once no burner trains for it (R488). -/
def State.trainingEnds (s : State) : State :=
  if s.burners.any (fun e => e.2.fullBusy) then s else s.testEnds 0x11 s.thm.testResult

/-- Full training of a burner ends (06 R200): the settings of each present die; a burner all of whose dies fail has failed
itself. -/
def State.trained (s : State) (b : Nat) (res : List TrainRes) : State :=
  let ces := (List.range 10).filter (fun c => s.dieLive b c)
  let t := s.updBurner b (fun x => { x with failMask := 0 })
  let got := fun (c : Nat) => res.getD c ⟨0, 0, 0, 0, false⟩
  let t := ces.foldl (fun u c => u.trainDie b c (got c)) t
  let bad := ces.any (fun c => !(got c).ok)
  let t := if bad then { t with thm := { t.thm with testResult := if t.thm.test = 0x11 ∧ t.thm.testState = 1 then 1 else t.thm.testResult } } else t
  let t := t.updBurner b (fun x => { x with training := false, fullBusy := false, trainState := if bad then 3 else 0 })
  if ces.all (fun c => !(got c).ok) then (t.report 6 2 b).trainingEnds
  else ((t.updBurner b (fun x => { x with ready := true })).maskLane b false).trainingEnds

/-- FULL_TRAINING (06 R200, R202, R486): `internal` is the training that a burner runs at a start, or that a request began, with
what it found for each chip enable; else a request, of BRN_TRAIN.FULL or of test 0x11. -/
def execFullTraining (src : TestSrc) (b : Fin 32) (res : List TrainRes) (s : State) : Host.Outcome State Fault Refusal :=
  match src with
  | .internal =>
    if s.burnersStopped then .next s else
    let x := s.burner b.val
    if x.retired then .next s
    else if x.fullBusy || (decide (s.pwrState = .starting) && !x.ready) then .next (s.trained b.val res)
    else .next s
  | src => .next (s.askTest src 0x11 b.val (.brn b.val) 0x44
      (fun t => decide (t = 0xFF) || !(s.targetBurners t.toNat).isEmpty))

/-- Charges time of a burner against the cap of 2 ms in each window (R485): what would pass it waits for the next window. -/
def State.chargeCal (s : State) (b us : Nat) : State :=
  let t := s.rollCal
  if t.thm.calUse.getD b 0 + us ≤ 2000 then { t with thm := { t.thm with calUse := t.thm.calUse.upd 0 b (· + us) } }
  else
    let u := (t.reach ((t.thm.calWindow + 1) * (100 * Config.ms))).rollCal
    { u with thm := { u.thm with calUse := u.thm.calUse.upd 0 b (· + us) } }

/-- A tap setting moved towards a new centre by 8 taps at most (06 R202). -/
def recentre (old new : Byte) : Byte := byteOf (max (old.toNat - 8) (min (old.toNat + 8) new.toNat))

/-- Queues quick trims of the dies of burners. -/
def State.queueTrims (s : State) (bs : List Nat) : State :=
  let ds := (bs.map (fun b => ((List.range 10).filter (fun c => s.dieLive b c)).map (fun c => b * 10 + c))).flatten
  { s with thm := { s.thm with trimQueue := ds.foldl insertNew s.thm.trimQueue } }

/-- Ends what waits for the quick trims of a burner (06 R204, R486). -/
def State.trimsEnd (s : State) (b : Nat) : State :=
  let left := fun (c : Nat) => s.thm.trimQueue.any (fun d => decide (d / 10 = c))
  let t := if left b then s else s.updBurner b (fun x => { x with quickBusy := false, training := x.fullBusy })
  if s.thm.test = 2 ∧ (s.targetBurners s.thm.target).all (fun c => !left c) then t.testEnds 2 s.thm.testResult else t

/-- One quick trim (06 R202): 20 µs of the die and its bus. -/
def State.quickTrim (s : State) (b ce : Nat) (r : TrainRes) : State :=
  let t := s.chargeCal b 20
  let t := { t with thm := { t.thm with trimQueue := t.thm.trimQueue.filter (fun d => decide (d ≠ b * 10 + ce)) } }
  let d := t.die b ce
  let t := t.updBurner b (fun x => { x with quickCount := sat 8 (x.quickCount + 1) })
  let t := t.trainDie b ce { r with rd := recentre d.rdDly r.rd, wr := recentre d.wrDly r.wr }
  (if r.ok then t else { t with thm := { t.thm with testResult := if t.thm.test = 2 ∧ t.thm.testState = 1 then 1 else t.thm.testResult } }).trimsEnd b

/-- A write of BRN_TRAIN.QUICK: every die of the burner is queued for a quick trim (06 R202, R203). -/
def State.quickRequest (s : State) (b : Nat) : State :=
  ((s.updBurner b (fun x => { x with quickBusy := true, training := true })).queueTrims [b]).trimsEnd b

/-- QUICK_TRIM (06 R202, R486): `internal` is the trim of a die that waits for one, with what it found; else a request for every
die of burners, of BRN_TRAIN.QUICK or of test 0x02. -/
def execQuickTrim (src : TestSrc) (b : Fin 32) (ce : Fin 10) (r : TrainRes) (s : State) : Host.Outcome State Fault Refusal :=
  match src with
  | .internal =>
    if s.unclocked then .next s else
    if !s.thm.trimQueue.contains (b.val * 10 + ce.val) then .next s
    else if !s.dieLive b.val ce.val then
      .next ({ s with thm := { s.thm with trimQueue := s.thm.trimQueue.filter (fun d => decide (d ≠ b.val * 10 + ce.val)) } }.trimsEnd b.val)
    else .next (s.quickTrim b.val ce.val r)
  | .register path =>
    .next (s.portWrite path (RPage.base (.brn b.val) + 0x44) 1 (fun s =>
      if s.mayWrite path (.brn b.val) then s.quickRequest b.val else s))
  | .runTest p tg arg =>
    .next (s.runNow p 2 arg (decide (tg = 0xFF) || !(s.targetBurners tg.toNat).isEmpty) (fun s =>
      let t := ((s.testBegins 2 tg.toNat).queueTrims (s.targetBurners tg.toNat))
      (if t.thm.trimQueue.isEmpty then t.testEnds 2 0 else t).testReply p 0 2))

/-! ### Other tests (07 R222, R486, R488) -/

/-- Adds a calibration's offsets to a trim entry (07 R222): 0 to 6 stand for −6 to +6; trims saturate at ±31. -/
def State.addTrim (s : State) (die bucket : Nat) (best : List (Fin 7)) : State :=
  let old := s.upk.trims.getD (die * 16 + bucket) [0, 0, 0]
  let new := (List.range 3).map (fun i =>
    let o : Int := ((best.getD i 3).val : Int) * 2 - 6
    max (-31) (min 31 (old.getD i 0 + o)))
  { s with upk := { s.upk with
    trims := s.upk.trims.set [0, 0, 0] (die * 16 + bucket) new, warnCounts := s.upk.warnCounts.del (die * 16 + bucket) } }

/-- The codewords that a calibration of a die and bucket reads (07 R222): 16 from VERIFIED blocks in that bucket. -/
def State.calCodewords (s : State) (die bucket : Nat) : List Nat :=
  let blocks := (s.med.table.filter (fun e => decide (e.1 / 8192 = die) && decide (e.2.state = .verified))).map (fun e => (e.1, e.2.cursor))
  let parts := (blocks.map (fun e => ((List.range 4).filter (fun q => decide (256 * q < e.2) &&
    decide (bucketOf (s.ageTicks e.1 (256 * q)) = bucket))).map (fun q => (e.1, 256 * q, min 4 (e.2 - 256 * q))))).flatten
  let pages := (parts.map (fun e => (List.range e.2.2).map (fun p => pbAddr e.1 + (e.2.1 + p) * 256))).flatten
  ((pages.map (fun a => (List.range 4).map (fun k => a + 16 * k))).flatten).take 16

/-- The 304 codeword reads of a calibration, in the taster class (07 R222, 01 R36). -/
def State.calReads (s : State) (die bucket : Nat) : State :=
  (s.calCodewords die bucket).foldl (fun t a => (List.range 19).foldl (fun u k =>
    u.request .read a .taster .taster (.calibrate die bucket k)) t) s

/-- READ_LEVEL_CALIBRATION (07 R222, R486): a die and bucket that has collected UPK_REFRESH.CAL reads at or above WARN, or test
0x03 for every bucket of a die. The operands give, for each bucket calibrated, the best offset of each level, and what one
calibration takes of the burner, in µs. -/
def execReadLevelCalibration (src : TestSrc) (die : Fin 320) (bucket : Fin 16) (best : List (List (Fin 7))) (us : Fin 2001)
    (s : State) : Host.Outcome State Fault Refusal :=
  match src with
  | .internal =>
    if s.unclocked then .next s else
    let n := s.upk.warnCounts.getD (die.val * 16 + bucket.val) 0
    if s.tasterRuns && decide (0 < n) && decide (s.liveFld .upk 0x68 31 24 ≤ n) && s.dieLive (die.val / 10) (die.val % 10) then
      .next (((s.chargeCal (die.val / 10) us.val).calReads die.val bucket.val).addTrim die.val bucket.val (best.getD 0 []))
    else .next s
  | .register _ => .next s
  | .runTest p tg arg =>
    let d := tg.toNat * 10 + arg.toNat % 16
    .next (s.runNow p 3 arg (decide (tg.toNat < 32) && decide (arg.toNat < 10) && s.dieLive tg.toNat arg.toNat) (fun s =>
      let t := (List.range 16).foldl (fun (u : State) k => ((u.chargeCal tg.toNat us.val).calReads d k).addTrim d k (best.getD k [])) (s.testBegins 3 tg.toNat)
      (t.testEnds 3 0).testReply p 0 3))

/-- SENSOR_SELF_CHECK (R486): test 0x01 compares every sensor at once; one that disagrees is broken. -/
def execSensorSelfCheck (src : TestSrc) (s : State) : Host.Outcome State Fault Refusal :=
  match src with
  | .runTest p tg arg =>
    .next (s.runNow p 1 arg (decide (tg = 0xFF)) (fun s =>
      let m := s.thm.sensors
      let t := (m.foldl (fun (u : State) e => u.judgeSensor m m true e.1) (s.testBegins 1 0xFF)).applyBands
      let bad := t.thm.sensors.any (fun e => e.2.broken && !((m.find e.1).map (fun x => x.broken)).getD false)
      (t.testEnds 1 (if bad then 1 else 0)).testReply p 0 1))
  | _ => .next s

/-- CODEC_SELF_TEST (R486): test 0x04; the mask names the burners whose codec fails, and the time is what it takes of each. -/
def execCodecSelfTest (src : TestSrc) (fails : BitVec 32) (us : Fin 2001) (s : State) : Host.Outcome State Fault Refusal :=
  match src with
  | .runTest p tg arg =>
    let bs := s.targetBurners tg.toNat
    .next (s.runNow p 4 arg (decide (tg = 0xFF) || !bs.isEmpty) (fun s =>
      let t := bs.foldl (fun u b => u.chargeCal b us.val) (s.testBegins 4 tg.toNat)
      (t.testEnds 4 (if bs.any (fun b => bitOf fails b) then 1 else 0)).testReply p 0 4))
  | _ => .next s

/-- The map is loaded again where a region checksum fails after a training (R488): the lines that were locked hold their entries
again, words planted in the stacks are gone, and the lookups that waited go on; the map loaded is the one that stands. -/
def State.reloadMap (s : State) : State :=
  if s.badRegions.isEmpty then s
  else State.wakeLookups { s with mec := { s.mec with
    locked := [], words := s.mec.words.filter (fun (e : Nat × BitVec 78) => decide (e.1 / 2 ^ 44 ≠ 8) || (e.1 / 2 ^ 40).testBit 0) } }

/-- MAP_STACK_TRAINING (R486, R488, 16 R467): `internal` is the training of a start, or the one that test 0x12 began, with its
outcome: a failure at a start leaves memory unpresented. -/
def execMapStackTraining (src : TestSrc) (ok : Bool) (s : State) : Host.Outcome State Fault Refusal :=
  match src with
  | .internal =>
    if s.thm.test = 0x12 ∧ s.thm.testState = 1 then .next (s.reloadMap.testEnds 0x12 (if ok then 0 else 1))
    else if s.pwrState = .starting ∧ ¬ ok then .next (s.noMemory 5)
    else .next s
  | src => .next (s.askTest src 0x12 0xFF .thm 0 (fun t => decide (t = 0xFF) || decide (t.toNat < 2)))

end Sys2Proof.Machine
end

