-- ==== Sys2Proof/Machine/Simmer.lean ====
section
/-!
DEFINITION. Simmer, warm resets, the confirmation of firmware, boundary scan (02_host_ports.md R68, R74, R75, 15_power.md R437,
R438, 16_bring_up.md R451, R453, R459, 20_package_and_electrical.md R550, R551).
-/

namespace Sys2Proof.Machine

/-! ### Simmer entry (02 R68, 15 R437) -/

/-- Who may set the power state: the fabric owner; during Simmer the Simmer link (02 R68). -/
def State.powerAccess (s : State) : Access' := ⟨decide (s.pwrState = PState.simmer), true, false⟩

/-- The state reached, as Set Power State answers it: 0 Boil, 1 Simmer. -/
def State.powerAnswer (s : State) (p : Path) (k : Nat) : State := s.reply p 0xC002 rcOk (leBytes 4 k)

/-- The recipe's default Simmer link (02 R74, R79). -/
def State.simmerDefault (s : State) : Nat :=
  let q := s.rolePort 2
  q * 4 + s.liveFld (.port q) 0x44 4 3

/-- Whether Simmer entry is refused with Busy: an ingress write queue holds entries, or a whisk channel is active (02 R68). -/
def State.simmerBusy (s : State) : Bool :=
  s.ports.links.any (fun e => !e.2.iwq.isEmpty || !e.2.unowned.isEmpty) || s.ctxs.any (fun e => e.2.active)

/-- Starts Simmer entry: CXL.mem off on every link, every link but the Simmer link down and held (R437 step 1). -/
def State.enterSimmer (s : State) (p : Path) (n : Nat) : State :=
  let t := s.startRun p 0xC002 [1] []
  let t := { t with ports := { t.ports with simmerLink := n }, boot := { t.boot with seq := .simmer p, simmerAt := s.now } }
  let t := (List.range 32).foldl (fun u k => if k = n then u else u.holdLink k 5) t
  t.setLink n (fun l => { l with memActive := false })

/-- SIMMER_ENTRY (02 R68, R74, R75): Set Power State with target 1; byte 1 names the Simmer link, 0xFF the recipe's. -/
def execSimmerEntry (p : Path) (link : Byte) (s : State) : Host.Outcome State Fault Refusal :=
  .next (s.command p 0xC002 s.powerAccess (fun s =>
    if s.pwrState = .simmer then s.powerAnswer p 1
    else
      let n := if link = 0xFF then s.simmerDefault else link.toNat
      if 32 ≤ n ∨ ¬ (s.link n).up then s.fail p 0xC002 rcInvalid
      else if s.pwrState ≠ .boil ∨ s.boot.seq ≠ .idle ∨ s.simmerBusy then s.fail p 0xC002 rcBusy
      else s.enterSimmer p n))

/-- Whether every stockpot region has drained but for frames held in pantry bare, and a flush mark is durable (R437 step 2). -/
def State.simmerDrained (s : State) : Bool :=
  s.stk.frames.all (fun e => e.2.held) && s.stk.pages.isEmpty && s.siv.staging.isEmpty

/-- Ends the commands of Set Power State that wait, with the state reached. -/
def State.powerReached (s : State) (k : Nat) : State := s.endRuns (fun r => decide (r.opcode = 0xC002)) rcOk (leBytes 4 k)

/-- Simmer is entered (R437 steps 3 to 5): a scrub is aborted, the number of words it had read being open (log entry 2); the
Simmer link stands at 2.5 GT/s x1, and the command completes. -/
def State.simmerEntered (s : State) : State :=
  let d := s.draw
  let t := if s.mec.scrub.busy then
      d.2.endScrub ((Config.freeWord d.1).toNat % (s.mec.scrub.len / 8 + 1)) true
    else s
  let e := t.entryValues (.link (Fin.ofNat 32 t.ports.simmerLink)) ++ t.entryValues .mctp
  let t := { t.rootStop with
    pwrState := .simmer, regs := { t.regs with entry := e }, boot := { t.boot with seq := .idle }
    siv := { t.siv with selfRefresh := true } }
  (t.setLink t.ports.simmerLink (fun l => { l with width := 1, rate := 1, degraded := false })).powerReached 1

/-- Simmer entry goes on. -/
def State.simmerEntryTick (s : State) : State :=
  if !s.simmerDrained then s
  else if s.siv.markRecs = s.siv.recTotal then s.simmerEntered
  else if s.siv.markPending then s
  else s.writeMark

/-! ### The wake (15 R438) -/

/-- The device wakes: burners that fail their check train, with their lanes masked; the Simmer link is at its bifurcated width and
a rate; every link that is not disabled may train; MEM_ACTIVE; the command completes. -/
def State.wake (s : State) (fails : BitVec 32) (rate : Nat) : State :=
  let t := { s.rootStart with
    pwrState := .boil, regs := { s.regs with entry := [] }, boot := { s.boot with boilAt := s.now }
    siv := { s.siv with selfRefresh := false } }
  let t := (t.liveBurners.filter (fun b => bitOf fails b)).foldl State.beginTraining t
  let n := t.ports.simmerLink
  let t := t.setLink n (fun l => if l.up then { l with
    width := widthCode (s.goodLanes n).2, degraded := decide ((s.goodLanes n).2 < s.subLanes n), rate := if l.flit256 then rate else min 5 rate } else l)
  (t.releaseLinks).presentMemory.powerReached 0

/-- SIMMER_WAKE (02 R68, R75, 15 R438, 17 R487): Set Power State with target 0; the operands give the burners that fail their
check and the Simmer link's rate. While a deferred test runs, the wake waits for its end. -/
def execSimmerWake (p : Path) (fails : BitVec 32) (rate : Fin 6) (s : State) : Host.Outcome State Fault Refusal :=
  .next (s.command p 0xC002 s.powerAccess (fun s =>
    if s.pwrState = .simmer then
      let t := s.startRun p 0xC002 [0, fails.toNat, rate.val + 1] []
      if s.thm.testState = 1 then t else t.wake fails (rate.val + 1)
    else if s.pwrState = .boil ∧ s.boot.seq = .idle then s.powerAnswer p 0
    else s.fail p 0xC002 rcBusy))

/-- What the device does in Simmer on its own (17 R487): a wake that waits for the test in progress is taken when it has ended;
else the next deferred test runs, with the root PLL on until the queue is empty. -/
def State.simmerTick (s : State) : State :=
  if s.thm.testState = 1 then s
  else match s.mbx.runs.find? (fun r => decide (r.opcode = 0xC002)) with
    | some r => s.wake (BitVec.ofNat 32 (r.args.getD 1 0)) (r.args.getD 2 1)
    | none =>
      if !s.thm.deferred.isEmpty then s.rootStart.nextTest
      else if s.clk.rootOff.isNone then s.rootStop else s

/-! ### Warm resets and firmware (16 R451, R453, R459) -/

/-- WARM_RESET (R451, R453): a write of 0x0000_B007 to BOOT_RESET; ignored while a start runs or a warm reset is under way. -/
def execWarmReset (path : Path) (s : State) : Host.Outcome State Fault Refusal :=
  .next (s.portWrite path 0x10058 0xB007 (fun s =>
    let free := s.recovery || (s.boot.ready && decide (s.boot.seq ≠ .preReset))
    if (s.mayWrite path .boot || (s.recovery && decide (path = .mctp))) && free then (s.warmReset false) else s))

/-- WARM_RESET_TIMEOUT (R453): the pre-reset phase has not completed 50 ms after its trigger; Flush starts with cause 3. -/
def execWarmResetTimeout (s : State) : Host.Outcome State Fault Refusal :=
  if s.boot.seq = .preReset then .next ((s.reach (s.boot.began + 50 * Config.ms)).flush 3) else .next s

/-- FW_CONFIRMATION (R459): 60 s in BOIL after a start on the pending image; it becomes the active one, and the fused minimum
advances to its security version. -/
def execFwConfirmation (s : State) : Host.Outcome State Fault Refusal :=
  let b := s.boot.state
  let k := b.pendingFw
  if s.pwrState = .boil ∧ s.boot.ready ∧ k ≠ 0 ∧ k = s.boot.running ∧ s.boot.seq ≠ .preReset then
    let t := (s.reach (s.boot.boilAt + 60 * Config.sec)).writeBoot { b with activeFw := k, pendingFw := 0, tries := 0 }
    let ver := ((s.fwOf k).map (fun i => i.secver)).getD 0
    .next { t with
      boot := { t.boot with confirmed := true }
      fuses := { t.fuses with fwMin := max t.fuses.fwMin ver } }
  else .next s

/-! ### Boundary scan (20 R550, R551) -/

/-- Instructions of the TAP, as `boot.tap` numbers them: 0 BYPASS, 1 IDCODE, 2 SAMPLE/PRELOAD, 3 EXTEST, 4 CLAMP, 5 HIGHZ, 6
EXTEST_PULSE, 7 EXTEST_TRAIN; those from 3 on drive pins. -/
def tapDrives (k : Nat) : Bool := decide (3 ≤ k)

/-- Whether a pin-driving instruction takes effect: no link has MEM_ACTIVE set and the stockpot is empty (R551). -/
def State.tapFree (s : State) : Bool :=
  s.ports.links.all (fun e => !e.2.memActive) && s.stk.frames.isEmpty && s.stk.pages.isEmpty

/-- The identification code (R550). -/
def State.idcode (s : State) : W32 :=
  at32 (s.fuses.step.toNat % 16) 28 ||| at32 0x9032 12 ||| at32 0x2F3 1 ||| 1

/-- TAP_INSTRUCTION (R550, R551): an instruction is loaded while VIO is up; a pin-driving one that may not take effect leaves
BYPASS in the register. -/
def execTapInstruction (k : Fin 8) (s : State) : Host.Outcome State Fault Refusal :=
  if !s.pwr.vaux || !(s.rail 4).qualified then .next s
  else
    let i := if tapDrives k.val && (!s.tapFree || decide (s.pwrState = PState.flush)) then 0 else k.val
    let t := { s with boot := { s.boot with tap := i } }
    if i = 1 then .next (t.emit (.tdo s.idcode)) else .next t

end Sys2Proof.Machine
end

