-- ==== Sys2Proof/Machine/Standard.lean ====
section
/-!
DEFINITION. The standard mailbox commands and Get Device State (02_host_ports.md R61, R63 to R67, 16_bring_up.md R460, R461). The
layout of a standard command's payload is the CXL standard's (log entry 12): a field that the spec says nothing of is a free value.
-/

namespace Sys2Proof.Machine

/-! ### Return codes that the spec names without a number (log entry 12) -/

/-- FW Transfer in Progress. -/
def rcTransfer : Nat := 8
/-- FW Transfer Out of Order. -/
def rcOrder : Nat := 9
/-- FW Authentication Failed (16 R461). -/
def rcAuth : Nat := 10
/-- Invalid Slot (16 R461). -/
def rcSlot : Nat := 11
/-- Invalid Handle. -/
def rcHandle : Nat := 14
/-- Invalid Physical Address. -/
def rcAddress : Nat := 15

/-- The link whose events and windows a command of a path is about: MCTP has the fabric owner's view (02 R53). -/
def State.pathLink (s : State) : Path → Nat
  | .link n => n.val
  | .mctp => s.foLink

/-- Answers with a payload that ends in free bytes. -/
def State.replyFree (s : State) (p : Path) (opcode : Nat) (f : Nat → List Byte) : State :=
  let d := s.draw
  d.2.reply p opcode rcOk (f d.1)

/-! ### Identification (R64) -/

/-- IDENTIFY (R64, 02 R75, 16 R460): the serial number, and the mailbox's payload size of 2^16 bytes (R63). -/
def execIdentify (p : Path) (s : State) : Host.Outcome State Fault Refusal :=
  .next (s.command p 0x0001 ⟨true, true, true⟩ (fun s => s.replyFree p 0x0001 (fun k =>
    freeOf k 8 ++ leBytes 8 s.fuses.serial.toNat ++ [16] ++ (freeOf k 9).drop 8)))

/-- BACKGROUND_OPERATION_STATUS (R63): the path's background command, its progress an open value, or its result. -/
def execBackgroundOperationStatus (p : Path) (s : State) : Host.Outcome State Fault Refusal :=
  .next (s.command p 0x0002 anyone (fun s =>
    match s.mbx.runs.find? (fun r => decide (r.path = p) && r.bg) with
    | some r =>
      let d := s.draw
      d.2.reply p 0x0002 rcOk ([byteOf (1 + 2 * ((Config.freeWord d.1).toNat % 100)), 0] ++ leBytes 2 r.opcode ++ leBytes 4 0)
    | none => match s.mbx.done.find? (fun x => decide (x.path = p)) with
      | some x => s.reply p 0x0002 rcOk ([200, 0] ++ leBytes 2 x.opcode ++ leBytes 2 x.rc ++ leBytes 2 0)
      | none => s.reply p 0x0002 rcOk (leBytes 8 0)))

/-- GET_RESPONSE_MESSAGE_LIMIT (R63, R64): 2^16 bytes. -/
def execGetResponseMessageLimit (p : Path) (s : State) : Host.Outcome State Fault Refusal :=
  .next (s.command p 0x0003 anyone (fun s => s.reply p 0x0003 rcOk [16]))

/-- The capacity of the windows that admit a link, in 256 MiB units: a range that two windows cover counts once (R64). -/
def State.windowUnits (s : State) (n : Nat) : Nat :=
  let ws := ((List.range 16).filter (s.winAdmits n)).map (fun k => (s.winBase (n / 4) k, s.winSize (n / 4) k))
  (ws.eraseDups.map (fun w => w.2)).sum

/-- IDENTIFY_MEMORY_DEVICE (R64): the running revision; the capacity of the issuing link's windows, all of it persistent.
Over MCTP it is the whole user capacity, and a range that two windows of a link cover counts once (DESIGN CHOICE, log entry
109). -/
def execIdentifyMemoryDevice (p : Path) (s : State) : Host.Outcome State Fault Refusal :=
  .next (s.command p 0x4000 anyone (fun s =>
    let units := match p with
      | .link n => s.windowUnits n.val
      | .mctp => s.capacity / 2 ^ 28
    let rev := ((s.fwOf s.boot.running).map (fun i => i.revision)).getD []
    s.replyFree p 0x4000 (fun k => (rev ++ List.replicate 16 0).take 16 ++ leBytes 8 units ++ leBytes 8 0 ++ leBytes 8 units ++
      freeOf k 29)))

/-- GET_PARTITION_INFO (R64): no volatile capacity, and no change waits. -/
def execGetPartitionInfo (p : Path) (s : State) : Host.Outcome State Fault Refusal :=
  .next (s.command p 0x4100 anyone (fun s =>
    let units := match p with
      | .link n => s.windowUnits n.val
      | .mctp => s.capacity / 2 ^ 28
    s.reply p 0x4100 rcOk (leBytes 8 0 ++ leBytes 8 units ++ leBytes 16 0)))

/-- SET_PARTITION_INFO (R64): Invalid Input. -/
def execSetPartitionInfo (p : Path) (s : State) : Host.Outcome State Fault Refusal :=
  .next (s.command p 0x4101 ownerOnly (fun s => s.fail p 0x4101 rcInvalid))

/-- GET_DEVICE_STATE (R66). -/
def execGetDeviceState (p : Path) (s : State) : Host.Outcome State Fault Refusal :=
  .next (s.command p 0xC000 ⟨true, true, true⟩ (fun s =>
    let flags := s.prot.lid.toNat + 2 * s.upk.pantry.toNat + 4 * s.upk.pantry.toNat + 8 * s.upk.capAlert.toNat +
      16 * s.flt.degraded.toNat + 32 * (decide (s.upk.rebuildState ≠ 0)).toNat + 64 * s.ports.foMoved.toNat
    let ups := ((List.range 32).map (fun n => if (s.link n).up then 2 ^ n else 0)).sum
    s.reply p 0xC000 rcOk ([byteOf (if s.pwrState = .simmer then 1 else 0), byteOf flags, 0, 0] ++ leBytes 4 ups ++
      leBytes 8 s.capacity ++ leBytes 8 s.opsec ++ leBytes 4 s.clk.cycles ++ leBytes 4 0)))

/-! ### Events (R64, 18 R508) -/

/-- The records of a log of a link, oldest first. -/
def State.logOf (s : State) (n log : Nat) : List EventRec := (s.link n).events.filter (fun e => decide (e.log = log))

/-- GET_EVENT_RECORDS (R64): the issuing link's records of a log, at most what one payload holds. -/
def execGetEventRecords (p : Path) (log : Fin 5) (s : State) : Host.Outcome State Fault Refusal :=
  .next (s.command p 0x0100 anyone (fun s =>
    let es := s.logOf (s.pathLink p) log.val
    let out := es.take 511
    s.reply p 0x0100 rcOk ([if out.length < es.length then 2 else 0, 0] ++ leBytes 18 0 ++ leBytes 2 out.length ++
      leBytes 10 0 ++ (out.map (fun e => e.bytes)).flatten)))

/-- CLEAR_EVENT_RECORDS (R64): all records of a log, or those of the handles given. -/
def execClearEventRecords (p : Path) (log : Fin 5) (all : Bool) (handles : List (BitVec 16)) (s : State) :
    Host.Outcome State Fault Refusal :=
  .next (s.command p 0x0101 anyone (fun s =>
    let n := s.pathLink p
    let known := fun (h : Nat) => (s.logOf n log.val).any (fun e => decide (e.handle % 2 ^ 16 = h))
    let gone := fun (e : EventRec) => decide (e.log = log.val) && (all || handles.contains (BitVec.ofNat 16 e.handle))
    if !all && handles.any (fun h => !known h.toNat) then s.fail p 0x0101 rcHandle
    else
      let k := countIf gone (s.link n).events
      (s.setLink n (fun l => { l with events := l.events.filter (fun e => !gone e), lostEvents := l.lostEvents + k })).reply p
        0x0101 rcOk []))

/-- GET_EVENT_INTERRUPT_POLICY (R64): one byte for each log. -/
def execGetEventInterruptPolicy (p : Path) (s : State) : Host.Outcome State Fault Refusal :=
  .next (s.command p 0x0102 anyone (fun s =>
    s.reply p 0x0102 rcOk ((List.range 5).map (fun i => (s.link (s.pathLink p)).eventIrq.getD i 0))))

/-- SET_EVENT_INTERRUPT_POLICY (R64). -/
def execSetEventInterruptPolicy (p : Path) (bytes : List Byte) (s : State) : Host.Outcome State Fault Refusal :=
  .next (s.command p 0x0103 anyone (fun s =>
    (s.setLink (s.pathLink p) (fun l => { l with eventIrq := (List.range 5).map (fun i => bytes.getD i 0) })).reply p 0x0103 rcOk []))

/-! ### Firmware and recipe (16 R458, R460 to R463) -/

/-- The recipe copy that Transfer FW writes: the one that is not ACTIVE_RECIPE (16 R461). -/
def State.idleRecipe (s : State) : Nat := if s.boot.state.activeRecipe = 1 then 2 else 1

/-- Hexadecimal digits of a number in ASCII. -/
def hexDigits : Nat → Nat → List Byte
  | 0, _ => []
  | k + 1, n => hexDigits k (n / 16) ++ [byteOf (if n % 16 < 10 then 48 + n % 16 else 55 + n % 16)]

/-- The revision string of a slot: a firmware image's, or the recipe's sequence number (16 R461). -/
def State.revisionOf (s : State) (slot : Nat) : List Byte :=
  if slot = 3 then ((s.recipeOf s.boot.state.activeRecipe).map (fun r => hexDigits 16 r.seq)).getD (leBytes 16 0)
  else ((s.fwOf slot).map (fun i => (i.revision ++ List.replicate 16 0).take 16)).getD (leBytes 16 0)

/-- Who may read the firmware's state, and who may change it (R64, 16 R460). -/
def State.fwAccess (s : State) (read : Bool) : Access' := ⟨read || s.recovery, false, true⟩

/-- GET_FW_INFO (16 R461): three slots; the running firmware, PENDING_FW; no online activation. -/
def execGetFwInfo (p : Path) (s : State) : Host.Outcome State Fault Refusal :=
  .next (s.command p 0x0200 (s.fwAccess true) (fun s =>
    s.reply p 0x0200 rcOk ([3, byteOf (s.boot.running + 8 * s.boot.state.pendingFw), 0] ++ leBytes 13 0 ++
      s.revisionOf 1 ++ s.revisionOf 2 ++ s.revisionOf 3 ++ leBytes 16 0)))

/-- A firmware image as its bytes read (16 R458); the hash of the key it is signed with, and whether the signature verifies, are the
caller's. -/
def readFw (b : List Byte) (key : BitVec 384) (sigOk : Bool) : FwImage :=
  let len := field b 28 4
  { revision := (b.drop 8).take 16, secver := field b 24 4, key := key
    ok := sigOk && decide (field b 0 4 = 0x4F4C4947) && decide (field b 4 4 = 0) && decide (field b 24 4 ≤ 64) &&
      decide (1 ≤ len) && decide (len ≤ 6 * 2 ^ 20) && ((b.drop 32).take 224).all (fun x => decide (x = 0)) &&
      decide (b.length = 256 + len + 96) }

/-- An entry of a recipe as its bytes read (16 R463). -/
def readEntry (b : List Byte) : RecipeEntry :=
  { off := field b 0 4 % 2 ^ 28, kind := field b 0 4 / 2 ^ 28, mask := BitVec.ofNat 32 (field b 4 4)
    value := BitVec.ofNat 32 (field b 8 4) }

/-- A recipe as its bytes read (16 R462, R463); none where the signature field is wrong. -/
def readRecipe (b : List Byte) (key : BitVec 384) (sigOk : Bool) : Option Recipe :=
  let n := field b 20 4
  if field b 0 4 ≠ 0x45504352 then none
  else some {
    format := decide (field b 4 2 = 1) && decide (n ≤ 65535) && ((b.drop 24).take 40).all (fun x => decide (x = 0)) &&
      decide (64 + 12 * n + 192 ≤ b.length) && decide (field b 6 1 ≤ 1)
    grade := field b 6 1, dies := field b 7 1, seq := field b 8 8, secver := field b 16 4, key := key, sigOk := sigOk
    entries := (chunksOf 12 n ((b.drop 64).take (12 * n))).map readEntry }

/-- The transfer of an image has begun: the slot it goes to holds nothing valid from here on. -/
def State.openSlot (s : State) (slot : Nat) : State :=
  match slot with
  | 1 => { s with nor := { s.nor with fw1 := none } }
  | 2 => { s with nor := { s.nor with fw2 := none } }
  | _ => if s.idleRecipe = 1 then { s with nor := { s.nor with recipeA := none } }
    else { s with nor := { s.nor with recipeB := none } }

/-- The transfer has ended: the slot holds the image, which is verified (16 R461). Answers whether it passes. -/
def State.fillSlot (s : State) (slot : Nat) (b : List Byte) (key : BitVec 384) (sigOk : Bool) : Bool × State :=
  let i := some (readFw b key sigOk)
  let r := readRecipe b key sigOk
  match slot with
  | 1 => let t := { s with nor := { s.nor with fw1 := i } }; (t.fwValid 1, t)
  | 2 => let t := { s with nor := { s.nor with fw2 := i } }; (t.fwValid 2, t)
  | _ =>
    let t := if s.idleRecipe = 1 then { s with nor := { s.nor with recipeA := r } } else { s with nor := { s.nor with recipeB := r } }
    (decide (t.judgeRecipe r = 0), t)

/-- Ends a transfer: its slot, its bytes. -/
def State.endTransfer (s : State) (p : Path) (slot : Nat) (b : List Byte) (key : BitVec 384) (sigOk : Bool) : State :=
  let r := ({ s with mbx := { s.mbx with xferSlot := 0, xfer := [] } }).fillSlot slot b key sigOk
  if r.1 then r.2.reply p 0x0201 rcOk [] else r.2.fail p 0x0201 rcAuth

/-- TRANSFER_FW (16 R461): action 0 a whole image, 1 its first part, 2 a further part, 3 the last part, 4 abort; the offset is in
units of 128 bytes. The SHA-384 hash of the key that signs the image, and whether its signature verifies, are operands. -/
def execTransferFw (p : Path) (action : Fin 5) (slot : Byte) (offset : BitVec 32) (data : List Byte) (key : BitVec 384) (sigOk : Bool)
    (s : State) : Host.Outcome State Fault Refusal :=
  .next (s.command p 0x0201 (s.fwAccess false) (fun s =>
    let k := slot.toNat
    let m := s.mbx
    if action.val ≤ 1 then
      if k = 0 ∨ 3 < k ∨ k = s.boot.running then s.fail p 0x0201 rcSlot
      else if m.xferSlot ≠ 0 then s.fail p 0x0201 rcTransfer
      else if action.val = 0 then (s.openSlot k).endTransfer p k data key sigOk
      else ({ s.openSlot k with mbx := { m with xferSlot := k, xfer := data } }).reply p 0x0201 rcOk []
    else if action.val = 4 then ({ s with mbx := { m with xferSlot := 0, xfer := [] } }).reply p 0x0201 rcOk []
    else if m.xferSlot = 0 ∨ offset.toNat * 128 ≠ m.xfer.length then s.fail p 0x0201 rcOrder
    else if action.val = 2 then ({ s with mbx := { m with xfer := m.xfer ++ data } }).reply p 0x0201 rcOk []
    else s.endTransfer p m.xferSlot (m.xfer ++ data) key sigOk))

/-- ACTIVATE_FW (16 R460, R461): the offline action makes a slot's image pending; the online action is Invalid Input. In recovery
mode a warm start follows at once. -/
def execActivateFw (p : Path) (online : Bool) (slot : Byte) (s : State) : Host.Outcome State Fault Refusal :=
  .next (s.command p 0x0202 (s.fwAccess false) (fun s =>
    let b := s.boot.state
    let k := slot.toNat
    let ok := if k = 3 then decide (s.judgeRecipe (s.recipeOf s.idleRecipe) = 0) else s.fwValid k
    if online then s.fail p 0x0202 rcInvalid
    else if k = 0 ∨ 3 < k then s.fail p 0x0202 rcSlot
    else if !ok then s.fail p 0x0202 rcAuth
    else
      let t := s.writeBoot (if k = 3 then { b with pendingRecipe := s.idleRecipe } else { b with pendingFw := k, tries := 0 })
      let t := t.reply p 0x0202 rcOk []
      if s.recovery then t.warmReset false else t))

/-! ### Time, logs, labels, health (R61, R64) -/

/-- Nanoseconds of the block's clock. -/
def State.nanos (s : State) : Nat := s.now / Config.ns

/-- GET_TIMESTAMP (R64): the time set, advanced by what has passed since. -/
def execGetTimestamp (p : Path) (s : State) : Host.Outcome State Fault Refusal :=
  .next (s.command p 0x0300 anyone (fun s =>
    s.reply p 0x0300 rcOk (leBytes 8 (if s.mbx.timeSet = 0 then 0 else s.mbx.timeSet + (s.now - s.mbx.timeAt) / Config.ns))))

/-- SET_TIMESTAMP (R64). -/
def execSetTimestamp (p : Path) (ns : BitVec 64) (s : State) : Host.Outcome State Fault Refusal :=
  .next (s.command p 0x0301 ownerOnly (fun s =>
    ({ s with mbx := { s.mbx with timeSet := ns.toNat, timeAt := s.now } }).reply p 0x0301 rcOk []))

/-- GET_SUPPORTED_LOGS (R64): the Command Effects Log and the vendor logs. -/
def execGetSupportedLogs (p : Path) (s : State) : Host.Outcome State Fault Refusal :=
  .next (s.command p 0x0400 anyone (fun s => s.replyFree p 0x0400 (fun k => Config.freeBytes k)))

/-- The UUID of the Command Effects Log. -/
def celUuid : BitVec 128 := 0x0DA9C0B5BF414B788F7996B1623B3F17#128

/-- GET_LOG (R64): part of the Command Effects Log or of a vendor log. -/
def execGetLog (p : Path) (uuid : BitVec 128) (offset length : BitVec 32) (s : State) : Host.Outcome State Fault Refusal :=
  .next (s.command p 0x0401 anyone (fun s =>
    if 65536 < length.toNat ∨ ¬ (uuid = celUuid ∨ Config.hasLog uuid) then s.fail p 0x0401 rcInvalid
    else s.replyFree p 0x0401 (fun k => (freeOf k (offset.toNat + length.toNat)).drop offset.toNat)))

/-- GET_LSA (R64): a range of the label storage area. -/
def execGetLsa (p : Path) (offset length : BitVec 32) (s : State) : Host.Outcome State Fault Refusal :=
  .next (s.command p 0x4102 anyone (fun s =>
    if Config.lsaSize < offset.toNat + length.toNat ∨ 65536 < length.toNat then s.fail p 0x4102 rcInvalid
    else s.reply p 0x4102 rcOk ((List.range length.toNat).map (fun i => s.mbx.lsa.getD (offset.toNat + i) 0))))

/-- SET_LSA (R64). -/
def execSetLsa (p : Path) (offset : BitVec 32) (data : List Byte) (s : State) : Host.Outcome State Fault Refusal :=
  .next (s.command p 0x4103 ownerOnly (fun s =>
    if Config.lsaSize < offset.toNat + data.length then s.fail p 0x4103 rcInvalid
    else
      let old := s.mbx.lsa ++ List.replicate (offset.toNat + data.length - s.mbx.lsa.length) 0
      ({ s with mbx := { s.mbx with lsa := old.take offset.toNat ++ data ++ old.drop (offset.toNat + data.length) } }).reply p
        0x4103 rcOk []))

/-- GET_HEALTH_INFO (R61, 07 R226, 15 R428, 17 R482): the media status, the hold-up fault, the device temperature in °C, the Dirty
Shutdown Count. -/
def execGetHealthInfo (p : Path) (s : State) : Host.Outcome State Fault Refusal :=
  .next (s.command p 0x4200 anyone (fun s => s.replyFree p 0x4200 (fun k =>
    [Config.healthCode (if s.pwr.fault then 3 else 2), Config.healthCode (if s.upk.pantry then 1 else 0)] ++ freeOf k 2 ++
      leBytes 2 (BitVec.ofInt 16 (s.thm.hot / 16)).toNat ++ leBytes 4 (sat 32 s.boot.dirty) ++ (freeOf k 10).drop 2)))

/-- GET_ALERT_CONFIGURATION (R64). -/
def execGetAlertConfiguration (p : Path) (s : State) : Host.Outcome State Fault Refusal :=
  .next (s.command p 0x4201 anyone (fun s => s.replyFree p 0x4201 (fun k => freeOf k 4 ++ (s.mbx.alerts ++ List.replicate 12 0).take 12)))

/-- SET_ALERT_CONFIGURATION (R64). -/
def execSetAlertConfiguration (p : Path) (bytes : List Byte) (s : State) : Host.Outcome State Fault Refusal :=
  .next (s.command p 0x4202 ownerOnly (fun s => ({ s with mbx := { s.mbx with alerts := bytes } }).reply p 0x4202 rcOk []))

/-- GET_SHUTDOWN_STATE (R64). -/
def execGetShutdownState (p : Path) (s : State) : Host.Outcome State Fault Refusal :=
  .next (s.command p 0x4203 anyone (fun s => s.reply p 0x4203 rcOk [s.mbx.shutdown]))

/-- SET_SHUTDOWN_STATE (R61): recorded, with no other effect. -/
def execSetShutdownState (p : Path) (v : Byte) (s : State) : Host.Outcome State Fault Refusal :=
  .next (s.command p 0x4204 ownerOnly (fun s => ({ s with mbx := { s.mbx with shutdown := v } }).reply p 0x4204 rcOk []))

/-! ### DPA ranges (R64) -/

/-- Whether a path may operate on a range of slices: below the user capacity, and for a tenant within windows that admit its
link (R64, 04 R144). -/
def State.mayRange (s : State) (p : Path) (first n : Nat) : Bool :=
  decide ((first + n) * 256 ≤ s.capacity) && (s.isFo p || (match p with
    | .mctp => true
    | .link k => (List.range ((first + n + 2 ^ 20 - 1) / 2 ^ 20 - first / 2 ^ 20)).all (fun i =>
        (List.range 16).any (fun w => s.winAdmits k.val w && decide (s.winBase (k.val / 4) w ≤ first / 2 ^ 20 + i) &&
          decide (first / 2 ^ 20 + i < s.winBase (k.val / 4) w + s.winSize (k.val / 4) w)))))

/-- Whether a byte range is one of whole slices, with at least one (R67). -/
def sliceRange (dpa len : Nat) : Bool := decide (dpa % 256 = 0) && decide (len % 256 = 0) && decide (0 < len)

/-- DISCARD_RANGE (R67, 04 R144). -/
def execDiscardRange (p : Path) (dpa len : BitVec 64) (s : State) : Host.Outcome State Fault Refusal :=
  .next (s.command p 0xC001 anyone (fun s =>
    if sliceRange dpa.toNat len.toNat && s.mayRange p (dpa.toNat / 256) (len.toNat / 256) then
      s.discardFor p 0xC001 len.toNat [(dpa.toNat / 256, len.toNat / 256)] none
    else s.fail p 0xC001 rcInvalid))

/-- MEDIA_OPERATIONS_ZERO (R64, 04 R144): the zero operation is a discard of its ranges. -/
def execMediaOperationsZero (p : Path) (ranges : List (BitVec 64 × BitVec 64)) (s : State) : Host.Outcome State Fault Refusal :=
  .next (s.command p 0x4402 anyone (fun s =>
    if ranges.all (fun r => sliceRange r.1.toNat r.2.toNat && s.mayRange p (r.1.toNat / 256) (r.2.toNat / 256)) then
      s.discardFor p 0x4402 (ranges.map (fun r => r.2.toNat)).sum (ranges.map (fun r => (r.1.toNat / 256, r.2.toNat / 256))) none
    else s.fail p 0x4402 rcInvalid))

/-! ### Poison and media scans (R64, 07 R226) -/

/-- The poisoned lines of a slice: of its resident frame where it has one, else as the map and its sector show them. -/
def State.poisonOf (s : State) (slice : Nat) : BitVec 4 :=
  match s.resident slice with
  | some f => (s.frame f).poison
  | none => (List.range 4).foldl (fun m n => match s.lookup slice n with
      | .poison | .corrupt => m ||| BitVec.ofNat 4 (2 ^ n)
      | .zeros => m
      | .sector a => match s.sector a with
        | some x => if x.poison.getLsbD n then m ||| BitVec.ofNat 4 (2 ^ n) else m
        | none => m) 0

/-- The slices of a range that the map or the stockpot knows of, ascending. -/
def State.knownSlices (s : State) (first n : Nat) : List Nat :=
  let mapped := ((s.siv.loafs.filter (fun e => decide (first / 256 ≤ e.1) && decide (e.1 ≤ (first + n) / 256))).map
    (fun e => (List.range 256).map (fun k => e.1 * 256 + k))).flatten
  let held := (s.stk.frames.map (fun e => e.2.slice)).filter (fun x => !mapped.contains x)
  (mapped.filter (inSpan first n)) ++ held.filter (inSpan first n)

/-- The records of a media-error list: the line's DPA, its length of one line (R64). -/
def errorList (ls : List Nat) : List Byte :=
  leBytes 10 0 ++ leBytes 2 ls.length ++ leBytes 20 0 ++ (ls.map (fun l => leBytes 8 (l * 64) ++ leBytes 4 1 ++ leBytes 4 0)).flatten

/-- GET_POISON_LIST (R64, 07 R226): the poisoned lines of a range, which starts at a DPA and counts lines of 64 B. -/
def execGetPoisonList (p : Path) (dpa lines : BitVec 64) (s : State) : Host.Outcome State Fault Refusal :=
  .next (s.command p 0x4300 anyone (fun s =>
    let first := dpa.toNat / 256
    let n := (dpa.toNat / 64 + lines.toNat + 3) / 4 - first
    if dpa.toNat % 64 = 0 ∧ s.mayRange p first n then
      let ls := ((s.knownSlices first n).map (fun x => ((List.range 4).filter (fun k => (s.poisonOf x).getLsbD k)).map
        (fun k => x * 4 + k))).flatten
      s.reply p 0x4300 rcOk (errorList ((ls.filter (fun l => inSpan (dpa.toNat / 64) lines.toNat l)).take 4095))
    else s.fail p 0x4300 rcInvalid))

/-- A write of a line by a steward, under the slot recorded for its slice, or under an open one where none is (log entry 2); a
frozen stockpot accepts none (03 R115). -/
def State.stewardWrite (s : State) (line : Nat) (data : Line) (poison : Bool) : Option State :=
  let d := s.draw
  let slot := (s.recordedSlot (line / 4)).getD ((Config.freeWord d.1).toNat % 1024)
  let w : WriteIn := {
    line := line, data := data, mask := fullMask, keyslot := slot, poison := poison, link := s.foLink
    port := none, landing := false, master := some (3, 0), fo := true, coherent := s.isCoherent line }
  if s.isFrozen then none else (if (s.recordedSlot (line / 4)).isSome then s else d.2).accept w

/-- INJECT_POISON (R64): the line at a DPA is poisoned; its data is open. -/
def execInjectPoison (p : Path) (dpa : BitVec 64) (s : State) : Host.Outcome State Fault Refusal :=
  .next (s.command p 0x4301 ownerOnly (fun s =>
    if dpa.toNat % 64 ≠ 0 ∨ s.capacity ≤ dpa.toNat then s.fail p 0x4301 rcInvalid
    else
      let d := s.draw
      match d.2.stewardWrite (dpa.toNat / 64) (Config.freeLine d.1) true with
      | some t => t.reply p 0x4301 rcOk []
      | none => s.fail p 0x4301 rcBusy))

/-- CLEAR_POISON (R64): the line at a DPA takes the data given, without poison. -/
def execClearPoison (p : Path) (dpa : BitVec 64) (data : Line) (s : State) : Host.Outcome State Fault Refusal :=
  .next (s.command p 0x4302 ownerOnly (fun s =>
    if dpa.toNat % 64 ≠ 0 ∨ s.capacity ≤ dpa.toNat then s.fail p 0x4302 rcInvalid
    else match s.stewardWrite (dpa.toNat / 64) data false with
      | some t => t.reply p 0x4302 rcOk []
      | none => s.fail p 0x4302 rcBusy))

/-- GET_SCAN_MEDIA_CAPABILITIES (R64): the estimate of the time is open. -/
def execGetScanMediaCapabilities (p : Path) (dpa lines : BitVec 64) (s : State) : Host.Outcome State Fault Refusal :=
  .next (s.command p 0x4303 anyone (fun s =>
    let first := dpa.toNat / 256
    if s.mayRange p first ((dpa.toNat / 64 + lines.toNat + 3) / 4 - first) then s.replyFree p 0x4303 (fun k => freeOf k 4)
    else s.fail p 0x4303 rcInvalid))

/-- The codewords that hold the slices of a range. -/
def State.codewordsOf (s : State) (first n : Nat) : List Nat :=
  ((s.knownSlices first n).filterMap (fun x => (s.addrOf x).map (fun a => a / 16 * 16))).eraseDups

/-- SCAN_MEDIA (R64): the codewords of a range are read through the data path, in the background. -/
def execScanMedia (p : Path) (dpa lines : BitVec 64) (s : State) : Host.Outcome State Fault Refusal :=
  .next (s.command p 0x4304 anyone (fun s =>
    let first := dpa.toNat / 256
    let n := (dpa.toNat / 64 + lines.toNat + 3) / 4 - first
    if !s.mayRange p first n then s.fail p 0x4304 rcInvalid
    else if s.mbx.runs.any (fun r => decide (r.opcode = 0x4304)) then s.fail p 0x4304 rcBusy
    else
      let t := { s with mbx := { s.mbx with scan := [] } }
      let t := (s.codewordsOf first n).foldl (fun u a => u.request .read a .taster .taster (.scanMedia (pathNum p))) t
      let t := t.startRun p 0x4304 [] []
      match t.mbx.runs.getLast? with
      | some r => t.toBackground r
      | none => t))

/-- Whether a media request belongs to a scan. -/
def MReq.isScan (q : MReq) : Bool := match q.purpose with
  | .scanMedia _ => true
  | _ => false

/-- Whether some request of a scan has not ended. -/
def State.scanning (s : State) : Bool :=
  s.pass.lanes.any (fun e => e.2.any MReq.isScan) || s.burners.any (fun e => e.2.granted.any MReq.isScan) ||
    s.dies.any (fun e => e.2.sensing.any (fun x => x.2.isScan)) ||
    s.rails.mediaReq.any (fun e => e.2.waiting.any MReq.isScan) ||
    s.rails.mediaRes.any (fun e => e.2.waiting.any (fun r => match r with
      | .read q _ => q.isScan
      | _ => false))

/-- A scan whose last read has ended completes. -/
def State.settleScans (s : State) : State :=
  if s.scanning then s else s.endRuns (fun r => decide (r.opcode = 0x4304)) rcOk []

/-- GET_SCAN_MEDIA_RESULTS (R64): the lines that the last scan found in error; no user data. -/
def execGetScanMediaResults (p : Path) (s : State) : Host.Outcome State Fault Refusal :=
  .next (s.command p 0x4305 anyone (fun s =>
    let ls := (s.mbx.scan.map (fun e => (List.range e.2).map (fun k => e.1 * 4 + k))).flatten
    let mine := ls.filter (fun l => s.mayRange p (l / 4) 1)
    s.reply p 0x4305 rcOk (leBytes 16 0 ++ errorList (mine.take 4095))))

end Sys2Proof.Machine
end

