-- ==== Sys2Proof/Machine/Extents.lean ====
section
/-!
DEFINITION. Dynamic capacity (02_host_ports.md R56 to R59): the host's commands on its link's extents and the fabric manager's
commands. The payloads' layout is the CXL standard's (log entry 12); ranges are in units of 256 MiB.
-/

namespace Sys2Proof.Machine

/-- A range of a dynamic-capacity command: base and length in units of 256 MiB. -/
abbrev Units := Nat × Nat

/-- The slices of a range of units. -/
def unitSlices (r : Units) : Nat × Nat := (r.1 * 2 ^ 20, r.2 * 2 ^ 20)

/-- The bytes of a list of ranges. -/
def unitBytes (rs : List Units) : Nat := (rs.map (fun r => r.2)).sum * 2 ^ 28

/-- Whether an extent covers a range. -/
def Extent.covers (e : Extent) (r : Units) : Bool := decide (e.base ≤ r.1) && decide (r.1 + r.2 ≤ e.base + e.len)

/-- What is left of an extent without a range. -/
def Extent.without (e : Extent) (r : Units) : List Extent :=
  if r.1 + r.2 ≤ e.base ∨ e.base + e.len ≤ r.1 then [e]
  else (if e.base < r.1 then [{ e with len := r.1 - e.base }] else []) ++
    (if r.1 + r.2 < e.base + e.len then [{ e with base := r.1 + r.2, len := e.base + e.len - (r.1 + r.2) }] else [])

/-- An extent list without some ranges. -/
def withoutAll (es : List Extent) (rs : List Units) : List Extent :=
  rs.foldl (fun xs r => (xs.map (fun e => e.without r)).flatten) es

/-- A region, empty where it has not been set. -/
def State.region (s : State) (k : Nat) : DcRegion := s.ports.regions.getD k ⟨0, 0⟩

/-- The 40 bytes of a region: base, decode length, length, block size, the rest open (R56). -/
def regionBytes (r : DcRegion) (k : Nat) : List Byte :=
  leBytes 8 (r.base * 2 ^ 28) ++ leBytes 8 r.len ++ leBytes 8 (r.len * 2 ^ 28) ++ leBytes 8 (2 ^ 28) ++ freeOf k 8

/-! ### The host's commands (R57, R59, R64) -/

/-- The output that lists regions from one on. -/
def State.regionList (s : State) (first count k : Nat) : List Byte :=
  let rs := (List.range count).map (fun i => first + i)
  let rs := rs.filter (fun i => decide (i < 8))
  [8, byteOf rs.length] ++ leBytes 6 0 ++ (rs.map (fun i => regionBytes (s.region i) k)).flatten

/-- GET_DYNAMIC_CAPACITY_CONFIGURATION (R56, R64). -/
def execGetDynamicCapacityConfiguration (p : Path) (first count : Byte) (s : State) : Host.Outcome State Fault Refusal :=
  .next (s.command p 0x4800 anyone (fun s =>
    s.replyFree p 0x4800 (fun k => s.regionList first.toNat count.toNat k ++ freeOf k 16)))

/-- The output that lists extents from one on: how many, the total, a generation number that is open. -/
def extentList (es : List Extent) (first count k : Nat) : List Byte :=
  let xs := (es.drop first).take count
  leBytes 4 xs.length ++ leBytes 4 es.length ++ freeOf k 4 ++ leBytes 4 0 ++ (xs.map extentBytes).flatten

/-- GET_DYNAMIC_CAPACITY_EXTENT_LIST (R56, R64). -/
def execGetDynamicCapacityExtentList (p : Path) (first count : BitVec 32) (s : State) : Host.Outcome State Fault Refusal :=
  .next (s.command p 0x4801 anyone (fun s =>
    s.replyFree p 0x4801 (extentList (s.link (s.pathLink p)).extents first.toNat count.toNat)))

/-- ADD_DYNAMIC_CAPACITY_RESPONSE (R56, R57, R64): the host accepts ranges of the extents offered to it; what it does not accept is
offered no more. A list of more than 1,024 extents is refused. -/
def execAddDynamicCapacityResponse (p : Path) (ranges : List (Nat × Nat)) (s : State) : Host.Outcome State Fault Refusal :=
  .next (s.command p 0x4802 anyone (fun s =>
    let n := s.pathLink p
    let l := s.link n
    let new := ranges.filterMap (fun r => (l.offered.find? (fun e => e.covers r)).map (fun e =>
      { e with base := r.1, len := r.2, added := s.now }))
    if new.length < ranges.length then s.fail p 0x4802 rcAddress
    else if 1024 < l.extents.length + new.length then s.fail p 0x4802 rcInvalid
    else (s.setLink n (fun l => { l with extents := l.extents ++ new, offered := [] })).reply p 0x4802 rcOk []))

/-- Whether an extent list has room for what a release leaves of it: a range from within an extent leaves two (02 R56). -/
def fitsWithout (es : List Extent) (rs : List Units) : Bool := decide ((withoutAll es rs).length ≤ 1024)

/-- RELEASE_DYNAMIC_CAPACITY (R58, R59): the host gives up ranges of its extents; they are discarded before the release is
acknowledged. A release that would leave more than 1,024 extents is refused (log entry 98). -/
def execReleaseDynamicCapacity (p : Path) (ranges : List (Nat × Nat)) (s : State) : Host.Outcome State Fault Refusal :=
  .next (s.command p 0x4803 anyone (fun s =>
    let n := s.pathLink p
    if ranges.any (fun r => decide (r.2 = 0) || !(s.link n).extents.any (fun e => e.covers r)) then s.fail p 0x4803 rcAddress
    else if !fitsWithout (s.link n).extents ranges then s.fail p 0x4803 rcInvalid
    else
      let t := s.setLink n (fun l => { l with
        extents := withoutAll l.extents ranges, releasing := withoutAll l.releasing ranges })
      t.discardFor p 0x4803 (unitBytes ranges) (ranges.map unitSlices) (some n)))

/-! ### The fabric manager's commands (R57, R58) -/

/-- GET_DCD_INFO (R57): 8 regions; the rest is open. -/
def execGetDcdInfo (p : Path) (s : State) : Host.Outcome State Fault Refusal :=
  .next (s.command p 0x5600 ownerOnly (fun s => s.replyFree p 0x5600 (fun k => [32, 8] ++ (freeOf k 64).drop 2)))

/-- GET_HOST_DC_REGION_CONFIGURATION (R57): the regions as a link's host sees them. -/
def execGetHostDcRegionConfiguration (p : Path) (host : Fin 32) (first count : Byte) (s : State) :
    Host.Outcome State Fault Refusal :=
  .next (s.command p 0x5601 ownerOnly (fun s =>
    s.replyFree p 0x5601 (fun k => leBytes 2 host.val ++ s.regionList first.toNat count.toNat k)))

/-- SET_DC_REGION_CONFIGURATION (R56, R57): sets a region's range in units of 256 MiB, with a block size of one unit; a region with
extents added or offered stays. -/
def execSetDcRegionConfiguration (p : Path) (k : Fin 8) (base len : BitVec 32) (s : State) : Host.Outcome State Fault Refusal :=
  .next (s.command p 0x5602 ownerOnly (fun s =>
    let used := s.ports.links.any (fun e => (e.2.extents ++ e.2.offered).any (fun x => decide (x.region = k.val)))
    if used || decide (2 ^ 17 < base.toNat + len.toNat) then s.fail p 0x5602 rcInvalid
    else ({ s with ports := { s.ports with regions := s.ports.regions.set ⟨0, 0⟩ k.val ⟨base.toNat, len.toNat⟩ } }).reply p
      0x5602 rcOk []))

/-- GET_DC_REGION_EXTENT_LISTS (R57): the extents of a link. -/
def execGetDcRegionExtentLists (p : Path) (host : Fin 32) (first count : BitVec 32) (s : State) :
    Host.Outcome State Fault Refusal :=
  .next (s.command p 0x5603 ownerOnly (fun s =>
    s.replyFree p 0x5603 (fun k => leBytes 4 host.val ++ extentList (s.link host.val).extents first.toNat count.toNat k)))

/-- INITIATE_DYNAMIC_CAPACITY_ADD (R57): ranges of a region are offered to a link's host, with an event for each. -/
def execInitiateDynamicCapacityAdd (p : Path) (host : Fin 32) (k : Fin 8) (tag : BitVec 128) (ranges : List (Nat × Nat)) (s : State) :
    Host.Outcome State Fault Refusal :=
  .next (s.command p 0x5604 ownerOnly (fun s =>
    let r := s.region k.val
    let l := s.link host.val
    let new : List Extent := ranges.map (fun u => ⟨u.1, u.2, k.val, tag.toNat, 0⟩)
    if ranges.any (fun u => decide (u.2 = 0) || decide (u.1 < r.base) || decide (r.base + r.len < u.1 + u.2)) ∨
        1024 < l.extents.length + l.offered.length + new.length then s.fail p 0x5604 rcInvalid
    else
      let t := s.setLink host.val (fun l => { l with offered := l.offered ++ new })
      (new.foldl (fun u e => u.postCapacity host.val 0 e) t).reply p 0x5604 rcOk []))

/-- INITIATE_DYNAMIC_CAPACITY_RELEASE (R57, R58): a host is asked to release ranges of its extents; with the forced flag they are
removed at once and discarded before the command is acknowledged. -/
def execInitiateDynamicCapacityRelease (p : Path) (host : Fin 32) (forced : Bool) (ranges : List (Nat × Nat)) (s : State) :
    Host.Outcome State Fault Refusal :=
  .next (s.command p 0x5605 ownerOnly (fun s =>
    let n := host.val
    if ranges.any (fun r => decide (r.2 = 0) || !(s.link n).extents.any (fun e => e.covers r)) then s.fail p 0x5605 rcInvalid
    else if forced && !fitsWithout (s.link n).extents ranges then s.fail p 0x5605 rcInvalid
    else if forced then
      let t := s.setLink n (fun l => { l with
        extents := withoutAll l.extents ranges, releasing := withoutAll l.releasing ranges })
      t.discardFor p 0x5605 (unitBytes ranges) (ranges.map unitSlices) (some n)
    else
      let asked : List Extent := ranges.map (fun r =>
        let e := ((s.link n).extents.find? (fun e => e.covers r)).getD ⟨0, 0, 0, 0, 0⟩
        { e with base := r.1, len := r.2, added := s.now })
      let t := s.setLink n (fun l => { l with releasing := l.releasing ++ asked })
      (asked.foldl (fun u e => u.postCapacity n 1 e) t).reply p 0x5605 rcOk []))

end Sys2Proof.Machine
end

