-- ==== Sys2Proof/Machine/Operands.lean ====
section
/-!
DEFINITION. The operand forms of register requests (19_register_architecture.md R521, R523): the words a BAR0 write covers
with their byte enables, and the offset and count of an MCTP vendor command.
-/

namespace Sys2Proof.Machine

/-- The word-aligned offset of the first word that a request covers. -/
def wordOffset (off : Fin 0x4000000) : Nat := off.val / 4 * 4

/-- The whole words of a request with their offsets. -/
def wholeWords (off : Nat) (words : List WordIn) : List (Nat × W32) :=
  words.zipIdx.filterMap (fun (e : WordIn × Nat) => match e.1 with
    | .whole v => some (off + 4 * e.2, v)
    | _ => none)

/-- Whether the offset and the count of a vendor command are good. -/
def mctpOk (off n : Nat) : Bool :=
  decide (off % 4 = 0) && decide (1 ≤ n) && decide (n ≤ 16) && decide (off + 4 * n ≤ 0x4000000)

end Sys2Proof.Machine
end

