-- ==== Sys2Proof/Machine/Registers.lean ====
section
/-!
DEFINITION. Accesses to the control window, word by word (19_register_architecture.md R517 to R526, 09_ordering.md R277):
which command a written word stands for, BAR0 and MCTP requests, the interrupt registers, and held writes.
-/

namespace Sys2Proof.Machine

/-- The state a command leaves. -/
def State.after (s : State) (o : Host.Outcome State Fault Refusal) : State :=
  match o with
  | .next t => t
  | _ => s

/-! ### The interrupt registers (R519, R520) -/

/-- A write of IRQ_STAT clears the bits written as 1. -/
def State.irqClear (s : State) (path : Path) (p : RPage) (v : W32) : State :=
  if s.mayWrite path p then s.setIrqStat p (s.irqStat p &&& ~~~v) else s

/-- A write of IRQ_FORCE sets each bit written as 1 as its event would, and sends its message. -/
def State.irqForceWrite (s : State) (path : Path) (p : RPage) (v : W32) : State :=
  if s.mayWrite path p then (bitsSet 32 (v.toNat &&& p.irqMask)).foldl (fun (t : State) i => t.raise p i) s else s

/-! ### Registers of the tables -/

/-- A write of a register of a page's table on a path that sees it in full: a staged one goes to its shadow, or waits
for a pending commit; another changes at once (R471, R526). -/
def State.rowWrite (s : State) (path : Path) (p : RPage) (o : Nat) (v : W32) : State :=
  match p.row o with
  | none => s
  | some r =>
    if !r.staged then s.setLive p o (maskedWrite (s.getLive p o) v r.mask)
    else if s.cmt.pending then
      { s with
        ports := { s.ports with nextHeld := s.ports.nextHeld + 1 }
        cmt := { s.cmt with waiting := s.cmt.waiting ++ [Bar0Write.mk s.ports.nextHeld path (p.base + o) v] } }
    else s.stageWrite p o v

/-- The plain case: the page must be one the path may write. -/
def State.plainWrite (s : State) (path : Path) (p : RPage) (o : Nat) (v : W32) : State :=
  if s.mayWrite path p then s.rowWrite path p o v else s

/-- A ring register is writable while its context is DISABLED or IDLE, by a tenant too (11 R352, R353). -/
def State.ringWrite (s : State) (path : Path) (i o : Nat) (v : W32) : State :=
  let p := RPage.wsk (i / 4)
  if s.heard path && s.reaches path p && decide ((s.ctx i).state ≤ 1) then s.rowWrite path p (ctxOff i o) v else s

/-! ### What a written word stands for -/

/-- A word written to a link's own fence or hook aperture (09 R272, R285). -/
def State.apertureWrite (s : State) (path : Path) (q o : Nat) (v : W32) : State :=
  match path with
  | .mctp => s
  | .link n =>
    if n.val / 4 ≠ q then s
    else if o = 0x1000 then s.after (execFenceLink n false s)
    else if o = 0x1004 then s.after (execFencePort n false s)
    else if o = 0x1008 then s.after (execFenceDev n false s)
    else if 0x8000 ≤ o ∧ o % 8 = 0 then
      let h : Fin 4096 := Fin.ofNat 4096 ((o - 0x8000) / 8)
      let serial := v.extractLsb' 16 16
      if bitOf v 0 then s.after (execHookRelease n h serial s)
      else if bitOf v 1 then s.after (execHookRenew n h serial s)
      else if s.fenceAdmits n.val n.isLt false && s.hookWritable h.val n.val && !s.hookActs h.val n.val serial then
        s.record 0x4002 n.val h.val serial.toNat 0
      else s
    else s

/-- A word written to a context's registers: each bit of CTX_CTRL set acts, from the lowest (11 R344, R352). -/
def State.ctxWrite (s : State) (path : Path) (i : Fin 256) (o : Nat) (v : W32) : State :=
  if o = 0x30 then s.after (execCtxTail path i v s)
  else if o = 0x38 then
    let t := if bitOf v 0 then s.after (execCtxPause path i s) else s
    let t := if bitOf v 1 then t.after (execCtxResume path i t) else t
    let t := if bitOf v 2 then t.after (execCtxAbort path i t) else t
    if bitOf v 3 then t.after (execTlbInv path i t) else t
  else if o = 0x28 ∨ o = 0x2C then s.ringWrite path i.val o v
  else s.plainWrite path (.wsk (i.val / 4)) (ctxOff i.val o) v

/-- A write of YV_CMD with GO: what the slave answers is not in the write, so the answer is a free value (15 R443). -/
def State.yvWrite (s : State) (path : Path) (v : W32) : State :=
  let d := s.draw
  let w := Config.freeWord d.1
  d.2.after (execYvCmdGo path (Fin.ofNat 16 (fld v 3 0)) (byteOf (fld v 11 4)) (Fin.ofNat 10 (w.extractLsb' 0 8).toNat)
    (Fin.ofNat 4 (w.extractLsb' 8 2).toNat) (w.extractLsb' 16 8) ((Config.freeBytes d.1).take 6) d.2)

/-- A write of MEC_TEST_CTRL: OP names the access; with OP 0 only TEST_ROW is kept (13 R392). -/
def State.testWrite (s : State) (path : Path) (v : W32) : State :=
  let row := bitOf v 2
  match fld v 1 0 with
  | 1 => s.after (execRawWrite path row s)
  | 2 => s.after (execRawRead path row s)
  | 3 => s.after (execCheckedRead path row s)
  | _ => if s.mayWrite path .mec then s.setLive .mec 0xB4 (bit32 row 2) else s

/-- A register of a page that starts something when written; none where the page's table says it all. -/
def State.special (s : State) (path : Path) (p : RPage) (o : Nat) (v : W32) : Option State :=
  match p with
  | .glb =>
    if o = 0x40 then some (if v = 0xC0DE then s.after (execCommit path s)
      else if v = 0xD15C then s.after (execDiscard path s) else s)
    else none
  | .boot => if o = 0x58 then some (if v = 0xB007 then s.after (execWarmReset path s) else s) else none
  | .port q => if 0x1000 ≤ o then some (s.apertureWrite path q o v) else none
  | .stk => if o = 0x0C then some (s.after (execFreeze path (bitOf v 0) s)) else none
  | .siv => if o = 0x0C ∧ bitOf v 0 then some (s.after (execCkptNow path s)) else none
  | .upk =>
    if o = 0x0C ∧ bitOf v 0 then some (s.after (execPatrolRestart path s))
    else if o = 0x84 then
      some (if s.mayWrite path .upk then s.setRlt (rltKey (s.liveFld .upk 0x80 6 0)) v else s)
    else none
  | .ldl q =>
    let q8 : Fin 8 := Fin.ofNat 8 q
    if o = 0x0C then some (if bitOf v 0 then s.after (execLadleEnable path q8 s) else s.after (execLadleDisable path q8 s))
    else if o = 0x48 ∧ bitOf v 0 then some (s.after (execRangeInvalidation path q8 s))
    else if o = 0x64 ∧ bitOf v 31 then
      some (s.after (execZeroALine path q8 (Fin.ofNat 8192 (fld v 12 0)) (Fin.ofNat 1024 (fld v 22 13)) s))
    else none
  | .spr =>
    if o = 0x60 ∧ bitOf v 0 then some (s.after (execDirectoryFlush path s))
    else if o = 0x908 ∧ bitOf v 31 then some (s.after (execHookBreak path (Fin.ofNat 4096 (fld v 11 0)) s))
    else none
  | .key => if o = 0x0C ∧ bitOf v 0 then some (s.after (execForceLid path s)) else none
  | .mec =>
    if o = 0xB4 then some (s.testWrite path v)
    else if o = 0xC0 ∧ bitOf v 31 then
      some (s.after (execScrubGo path (Fin.ofNat 16 (fld v 3 0)) (Fin.ofNat 8 (fld v 6 4)) s))
    else none
  | .wsk c =>
    if o = 0x0C then some (if bitOf v 0 then s.after (execChannelRestart path (Fin.ofNat 64 c) s) else s)
    else if 0x100 ≤ o ∧ o < 0x500 then
      some (s.ctxWrite path (Fin.ofNat 256 (c * 4 + (o - 0x100) / 0x100)) ((o - 0x100) % 0x100) v)
    else none
  | .brn b =>
    if o = 0x44 then
      let b32 : Fin 32 := Fin.ofNat 32 b
      let t := if bitOf v 0 then s.after (execQuickTrim (.register path) b32 0 ⟨0, 0, 0, 0, true⟩ s) else s
      some (if bitOf v 1 then t.after (execFullTraining (.register path) b32 [] t) else t)
    else none
  | .pwr =>
    if o = 0x0C ∧ bitOf v 0 then some (s.after (execKettleCapacitanceTest (.register path) s))
    else if o = 0x64 ∧ bitOf v 31 then some (s.yvWrite path v)
    else none
  | .tly =>
    if o = 0x0C ∧ bitOf v 0 then some (s.after (execSnapshot path s))
    else if o = 0x40 then some (s.after (execTallyClear path v s))
    else none
  | .spk => if o = 0x58 ∧ bitOf v 0 then some (s.after (execSpikeReadGo path s)) else none
  | .flt => if o = 0x0C ∧ bitOf v 0 then some (s.after (execClrLanes path s)) else none
  | _ => none

/-- The effect of a word written to a control-window offset that takes effect now (R517, R522). -/
def State.writeWord (s : State) (path : Path) (off : Nat) (v : W32) : State :=
  match locate off with
  | none => s
  | some (p, o) =>
    if o = 0x14 then s.irqClear path p v
    else if o = 0x1C then s.irqForceWrite path p v
    else (s.special path p o v).getD (s.plainWrite path p o v)

/-- A word written on a path: behind its link's waiting writes it waits, to a dead target it is held, else it takes effect
(09 R277). -/
def State.accessWrite (s : State) (path : Path) (off : Nat) (v : W32) : State :=
  s.portWrite path off v (fun t => t.writeWord path off v)

/-! ### BAR0 requests (R521) -/

/-- Records a malformed access (R521, R529). -/
def State.malformed (s : State) (path : Path) (off : Nat) : State :=
  let w := match path with
    | .mctp => bit32 true 31
    | .link n => at32 n.val 26
  ({ s with boot := { s.boot with accessErr := at32 (off % 2 ^ 26) 0 ||| w } }).raise .glb 0

/-- REGISTER_WRITE (R521, R522): a memory write request of consecutive words from a word-aligned offset, with its byte
enables; its whole words take effect in ascending order. -/
def execRegisterWrite (path : Path) (off : Fin 0x4000000) (words : List WordIn) (s : State) :
    Host.Outcome State Fault Refusal :=
  let o := wordOffset off
  if !s.heard path then .next s
  else
    let t := (wholeWords o words).foldl (fun (u : State) (e : Nat × W32) => u.accessWrite path e.1 e.2) s
    if 16 < words.length ∨ words.contains .part then .next (t.malformed path o) else .next t

/-- One word of a read: a fence or an acquire read of a link's own aperture answers by itself, any other word at once with
its side effect (09 R273, R283, R521). -/
def State.readWord (s : State) (path : Path) (off : Nat) : Option W32 × State :=
  let plain := (some (s.regRead path off), s.readSide path off)
  match path, locate off with
  | .link n, some (.port q, o) =>
    if n.val / 4 ≠ q then plain
    else if o = 0x1000 then (none, s.after (execFenceLink n true s))
    else if o = 0x1004 then (none, s.after (execFencePort n true s))
    else if o = 0x1008 then (none, s.after (execFenceDev n true s))
    else if 0x8000 ≤ o ∧ o % 8 = 0 then (none, s.after (execHookAcquire n (Fin.ofNat 4096 ((o - 0x8000) / 8)) s))
    else plain
  | _, _ => plain

/-- Consecutive words of a read, in ascending order. -/
def State.readWords (s : State) (path : Path) (off n : Nat) : List W32 × State :=
  (List.range n).foldl (fun (a : List W32 × State) k =>
    let r := a.2.readWord path (off + 4 * k)
    (a.1 ++ r.1.toList, r.2)) ([], s)

/-- LO_REGISTER_READ (R521): a BAR0 read of `words` consecutive register words; a read of a _LO register latches its _HI
register. -/
def execLoRegisterRead (path : Path) (off : Fin 0x4000000) (words : Fin 1025) (s : State) :
    Host.Outcome State Fault Refusal :=
  let o := wordOffset off
  if !s.heard path then .next s
  else
    let r := s.readWords path o words.val
    let t := if r.1.isEmpty then r.2 else r.2.emit (.regRead path r.1)
    if 16 < words.val then .next (t.malformed path o) else .next t

/-- IRQ_STAT_CLEAR (R519): a write of IRQ_STAT of the page that holds a control-window offset. -/
def execIrqStatClear (path : Path) (off : Fin 0x4000000) (v : BitVec 32) (s : State) :
    Host.Outcome State Fault Refusal :=
  match locate off.val with
  | none => .next s
  | some (p, _) => .next (s.portWrite path (p.base + 0x14) v (fun t => t.irqClear path p v))

/-- IRQ_FORCE (R519, R520): a write of IRQ_FORCE of the page that holds a control-window offset. -/
def execIrqForce (path : Path) (off : Fin 0x4000000) (v : BitVec 32) (s : State) : Host.Outcome State Fault Refusal :=
  match locate off.val with
  | none => .next s
  | some (p, _) => .next (s.portWrite path (p.base + 0x1C) v (fun t => t.irqForceWrite path p v))

/-! ### MCTP vendor commands (R523) -/

/-- Answers a vendor command: busy in FLUSH and SHUTDOWN, refused for a bad offset or count, else by `body`; with the
core not running there is no answer. -/
def State.vendor (s : State) (cmd off n : Nat) (body : State → State) : State :=
  if s.pwrState = .flush ∨ s.pwrState = .shutdown then s.emit (.mctp cmd 3 [])
  else if !s.heard .mctp then s
  else if mctpOk off n then body s
  else s.emit (.mctp cmd 1 [])

/-- MCTP_READ (R523). -/
def execMctpRead (off : BitVec 32) (count : Byte) (s : State) : Host.Outcome State Fault Refusal :=
  .next (s.vendor 1 off.toNat count.toNat (fun s =>
    let r := s.readWords .mctp off.toNat count.toNat
    r.2.emit (.mctp 1 0 r.1)))

/-- Whether a written word targets a dead target as MCTP sees it (R523, 09 R277). -/
def State.deadWord (s : State) (off : Nat) : Bool :=
  match locate off with
  | none => false
  | some (p, _) => s.deadPage p && s.reaches .mctp p

/-- MCTP_WRITE (R523): its words in ascending order; those to dead targets are discarded and recorded, and the completion is
then 4. -/
def execMctpWrite (off : BitVec 32) (words : List (BitVec 32)) (s : State) : Host.Outcome State Fault Refusal :=
  .next (s.vendor 2 off.toNat words.length (fun s =>
    let r := words.zipIdx.foldl (fun (a : State × Bool) (e : W32 × Nat) =>
      let o := off.toNat + 4 * e.2
      (a.1.accessWrite .mctp o e.1, a.2 || a.1.deadWord o)) (s, false)
    r.1.emit (.mctp 2 (if r.2 then 4 else 0) [])))

/-! ### Held writes (09 R277) -/

/-- Lets the writes of a link that wait behind its hold list go on, in order, while it has room. -/
def State.settleLinkWrites (s : State) (n : Nat) : State :=
  let l := s.link n
  if l.blocked.isEmpty || decide (16 ≤ l.holds.length) then s
  else l.blocked.foldl (fun (t : State) (w : Bar0Write) => t.accessWrite w.path w.off w.data)
    (s.setLink n (fun (x : Link) => { x with blocked := [] }))

/-- Lets the waiting writes of every link go on. -/
def State.settleWrites (s : State) : State :=
  (s.ports.links.filter (fun (e : Nat × Link) => !e.2.blocked.isEmpty)).foldl
    (fun (t : State) (e : Nat × Link) => t.settleLinkWrites e.1) s

/-- Whether a held write's target has revived. -/
def State.revived (s : State) (w : Bar0Write) : Bool :=
  match locate w.off with
  | none => true
  | some (p, _) => !s.deadPage p

/-- HELD_WRITE_DELIVERY (09 R277): the oldest held write of a link whose target has revived is delivered. -/
def execHeldWriteDelivery (n : Fin 32) (s : State) : Host.Outcome State Fault Refusal :=
  if s.unclocked then .next s else
  match (s.link n.val).holds.find? s.revived with
  | none => .next s
  | some w =>
    let t := s.setLink n.val (fun (l : Link) => { l with
      holds := l.holds.filter (fun x => decide (x.id ≠ w.id)), blocked := [] })
    let u := (t.writeWord w.path w.off w.data).setLink n.val (fun (l : Link) => { l with
      blocked := if l.up then (s.link n.val).blocked ++ l.blocked else [] })
    .next (u.settleLinkWrites n.val)

end Sys2Proof.Machine
end

