-- ==== Sys2Proof/Machine/Dispatch.lean ====
section
/-!
DEFINITION. One arm per command: each is one direct call of its meaning.
-/

namespace Sys2Proof.Machine

def exec (i : Instr) (s : State) : Host.Outcome State Fault Refusal :=
  match i with
  | .memRd n tag hpa m other => Sys2Proof.Machine.execMemRd n tag hpa m other s
  | .memRdData n tag hpa noOp => Sys2Proof.Machine.execMemRdData n tag hpa noOp s
  | .memWr n tag hpa data poison m => Sys2Proof.Machine.execMemWr n tag hpa data poison m s
  | .memWrPtl n tag hpa data mask poison m => Sys2Proof.Machine.execMemWrPtl n tag hpa data mask poison m s
  | .memInv n tag hpa m => Sys2Proof.Machine.execMemInv n tag hpa m s
  | .memInvNt n tag hpa m => Sys2Proof.Machine.execMemInvNt n tag hpa m s
  | .memClnEvct n tag hpa => Sys2Proof.Machine.execMemClnEvct n tag hpa s
  | .memSpecRd _n _hpa => Sys2Proof.Machine.execMemSpecRd _n _hpa s
  | .acceptance src => Sys2Proof.Machine.execAcceptance src s
  | .ladleInvalidate p => Sys2Proof.Machine.execLadleInvalidate p s
  | .translateLookup ix => Sys2Proof.Machine.execTranslateLookup ix s
  | .mediaRequestEntry b => Sys2Proof.Machine.execMediaRequestEntry b s
  | .passGrant b => Sys2Proof.Machine.execPassGrant b s
  | .requesterMask r v => Sys2Proof.Machine.execRequesterMask r v s
  | .mediaResult b bad => Sys2Proof.Machine.execMediaResult b bad s
  | .pageAssembly q => Sys2Proof.Machine.execPageAssembly q s
  | .padFillExpiry q => Sys2Proof.Machine.execPadFillExpiry q s
  | .ageMaxExpiry => Sys2Proof.Machine.execAgeMaxExpiry s
  | .pageTargeting => Sys2Proof.Machine.execPageTargeting s
  | .alignedPageWaitExpiry => Sys2Proof.Machine.execAlignedPageWaitExpiry s
  | .sliceWaitRejudge => Sys2Proof.Machine.execSliceWaitRejudge s
  | .programResult b => Sys2Proof.Machine.execProgramResult b s
  | .rowPadExpiry => Sys2Proof.Machine.execRowPadExpiry s
  | .freeze path v => Sys2Proof.Machine.execFreeze path v s
  | .railReset r => Sys2Proof.Machine.execRailReset r s
  | .gpfPhase1 n => Sys2Proof.Machine.execGpfPhase1 n s
  | .gpfPhase2 n => Sys2Proof.Machine.execGpfPhase2 n s
  | .demotionFold => Sys2Proof.Machine.execDemotionFold s
  | .flushMark => Sys2Proof.Machine.execFlushMark s
  | .checkpointStart => Sys2Proof.Machine.execCheckpointStart s
  | .ckptNow path => Sys2Proof.Machine.execCkptNow path s
  | .sealScan => Sys2Proof.Machine.execSealScan s
  | .victimChoice => Sys2Proof.Machine.execVictimChoice s
  | .onDeck q => Sys2Proof.Machine.execOnDeck q s
  | .governorWindow => Sys2Proof.Machine.execGovernorWindow s
  | .driftClockTick => Sys2Proof.Machine.execDriftClockTick s
  | .patrolRead => Sys2Proof.Machine.execPatrolRead s
  | .readLevelCalibration src die bucket best us => Sys2Proof.Machine.execReadLevelCalibration src die bucket best us s
  | .patrolRestart path => Sys2Proof.Machine.execPatrolRestart path s
  | .upkeepStatus p => Sys2Proof.Machine.execUpkeepStatus p s
  | .retireBurner p b => Sys2Proof.Machine.execRetireBurner p b s
  | .rebuildStatus p => Sys2Proof.Machine.execRebuildStatus p s
  | .retireDie p b ce => Sys2Proof.Machine.execRetireDie p b ce s
  | .rangeInvalidation path p => Sys2Proof.Machine.execRangeInvalidation path p s
  | .rangeInvalidationEnd p => Sys2Proof.Machine.execRangeInvalidationEnd p s
  | .zeroALine path p lines keyslot => Sys2Proof.Machine.execZeroALine path p lines keyslot s
  | .ladleEnable path p => Sys2Proof.Machine.execLadleEnable path p s
  | .ladleDisable path p => Sys2Proof.Machine.execLadleDisable path p s
  | .fenceLink n read => Sys2Proof.Machine.execFenceLink n read s
  | .fencePort n read => Sys2Proof.Machine.execFencePort n read s
  | .fenceDev n read => Sys2Proof.Machine.execFenceDev n read s
  | .fenceComplete n => Sys2Proof.Machine.execFenceComplete n s
  | .fenceDiscardExpiry n h => Sys2Proof.Machine.execFenceDiscardExpiry n h s
  | .heldWriteDelivery n => Sys2Proof.Machine.execHeldWriteDelivery n s
  | .hookAcquire n h => Sys2Proof.Machine.execHookAcquire n h s
  | .hookRelease n h serial => Sys2Proof.Machine.execHookRelease n h serial s
  | .hookRenew n h serial => Sys2Proof.Machine.execHookRenew n h serial s
  | .hookReleaseFenceComplete h => Sys2Proof.Machine.execHookReleaseFenceComplete h s
  | .hookLeaseExpiry h => Sys2Proof.Machine.execHookLeaseExpiry h s
  | .hookBreak path h => Sys2Proof.Machine.execHookBreak path h s
  | .setHookLease p first count lease => Sys2Proof.Machine.execSetHookLease p first count lease s
  | .biRspI n tag => Sys2Proof.Machine.execBiRspI n tag s
  | .biRspS n tag => Sys2Proof.Machine.execBiRspS n tag s
  | .biRspE n tag => Sys2Proof.Machine.execBiRspE n tag s
  | .biConflict n tag => Sys2Proof.Machine.execBiConflict n tag s
  | .snoopTimeout n => Sys2Proof.Machine.execSnoopTimeout n s
  | .directoryFlush path => Sys2Proof.Machine.execDirectoryFlush path s
  | .directoryFlushEnd => Sys2Proof.Machine.execDirectoryFlushEnd s
  | .ctxTail path ix v => Sys2Proof.Machine.execCtxTail path ix v s
  | .nop ix => Sys2Proof.Machine.execNop ix s
  | .copy ix => Sys2Proof.Machine.execCopy ix s
  | .fill ix => Sys2Proof.Machine.execFill ix s
  | .zero ix => Sys2Proof.Machine.execZero ix s
  | .compare ix => Sys2Proof.Machine.execCompare ix s
  | .crc32c ix => Sys2Proof.Machine.execCrc32c ix s
  | .scan ix => Sys2Proof.Machine.execScan ix s
  | .whiskChunk ix => Sys2Proof.Machine.execWhiskChunk ix s
  | .descriptorComplete ix => Sys2Proof.Machine.execDescriptorComplete ix s
  | .ctxPause path ix => Sys2Proof.Machine.execCtxPause path ix s
  | .ctxResume path ix => Sys2Proof.Machine.execCtxResume path ix s
  | .ctxAbort path ix => Sys2Proof.Machine.execCtxAbort path ix s
  | .tlbInv path ix => Sys2Proof.Machine.execTlbInv path ix s
  | .channelRestart path c => Sys2Proof.Machine.execChannelRestart path c s
  | .getKeyInfo p group => Sys2Proof.Machine.execGetKeyInfo p group s
  | .generateKey p slot => Sys2Proof.Machine.execGenerateKey p slot s
  | .eraseKey p slot => Sys2Proof.Machine.execEraseKey p slot s
  | .getAuthNonce p => Sys2Proof.Machine.execGetAuthNonce p s
  | .setOwnerSecret p input => Sys2Proof.Machine.execSetOwnerSecret p input s
  | .nonceExpiry => Sys2Proof.Machine.execNonceExpiry s
  | .authLockoutEnd => Sys2Proof.Machine.execAuthLockoutEnd s
  | .clearAlarmResume p blk => Sys2Proof.Machine.execClearAlarmResume p blk s
  | .clearAlarmReformat p action blk => Sys2Proof.Machine.execClearAlarmReformat p action blk s
  | .forceLid path => Sys2Proof.Machine.execForceLid path s
  | .ideCheckFail n stream => Sys2Proof.Machine.execIdeCheckFail n stream s
  | .getVersion n => Sys2Proof.Machine.execGetVersion n s
  | .getCapabilities n => Sys2Proof.Machine.execGetCapabilities n s
  | .negotiateAlgorithms n => Sys2Proof.Machine.execNegotiateAlgorithms n s
  | .getDigests n => Sys2Proof.Machine.execGetDigests n s
  | .getCertificate n => Sys2Proof.Machine.execGetCertificate n s
  | .challenge n => Sys2Proof.Machine.execChallenge n s
  | .getMeasurements n => Sys2Proof.Machine.execGetMeasurements n s
  | .keyExchange n => Sys2Proof.Machine.execKeyExchange n s
  | .finish n ok => Sys2Proof.Machine.execFinish n ok s
  | .heartbeat n => Sys2Proof.Machine.execHeartbeat n s
  | .endSession n => Sys2Proof.Machine.execEndSession n s
  | .query n => Sys2Proof.Machine.execQuery n s
  | .keyProg n stream set tx => Sys2Proof.Machine.execKeyProg n stream set tx s
  | .kSetGo n stream set tx => Sys2Proof.Machine.execKSetGo n stream set tx s
  | .kSetStop n stream set tx => Sys2Proof.Machine.execKSetStop n stream set tx s
  | .bucketLeak d => Sys2Proof.Machine.execBucketLeak d s
  | .mapStackReconstruction => Sys2Proof.Machine.execMapStackReconstruction s
  | .rawWrite path row => Sys2Proof.Machine.execRawWrite path row s
  | .rawRead path row => Sys2Proof.Machine.execRawRead path row s
  | .checkedRead path row => Sys2Proof.Machine.execCheckedRead path row s
  | .scrubGo path domain inst => Sys2Proof.Machine.execScrubGo path domain inst s
  | .scrubRange p domain inst start len => Sys2Proof.Machine.execScrubRange p domain inst start len s
  | .scrubEnd found => Sys2Proof.Machine.execScrubEnd found s
  | .faultReport x => Sys2Proof.Machine.execFaultReport x s
  | .retryBackoffExpiry => Sys2Proof.Machine.execRetryBackoffExpiry s
  | .clrLanes path => Sys2Proof.Machine.execClrLanes path s
  | .watchdogExpiry c => Sys2Proof.Machine.execWatchdogExpiry c s
  | .linkDown n surprise => Sys2Proof.Machine.execLinkDown n surprise s
  | .linkUp n width rate flit256 msix => Sys2Proof.Machine.execLinkUp n width rate flit256 msix s
  | .foFailover => Sys2Proof.Machine.execFoFailover s
  | .perstAssert p => Sys2Proof.Machine.execPerstAssert p s
  | .perstDeassert p => Sys2Proof.Machine.execPerstDeassert p s
  | .sectorRead b => Sys2Proof.Machine.execSectorRead b s
  | .dataOut b iters corrected => Sys2Proof.Machine.execDataOut b iters corrected s
  | .programLoad b => Sys2Proof.Machine.execProgramLoad b s
  | .programConfirm b ce => Sys2Proof.Machine.execProgramConfirm b ce s
  | .blockReset b => Sys2Proof.Machine.execBlockReset b s
  | .suspend b ce => Sys2Proof.Machine.execSuspend b ce s
  | .resume b ce => Sys2Proof.Machine.execResume b ce s
  | .readLevelSet b => Sys2Proof.Machine.execReadLevelSet b s
  | .status b ce w => Sys2Proof.Machine.execStatus b ce w s
  | .temperature b ce raw => Sys2Proof.Machine.execTemperature b ce raw s
  | .parameterPage b ce bytes => Sys2Proof.Machine.execParameterPage b ce bytes s
  | .ownerRead b ce blank bytes => Sys2Proof.Machine.execOwnerRead b ce blank bytes s
  | .ownerWrite b ce => Sys2Proof.Machine.execOwnerWrite b ce s
  | .trainRead b ce => Sys2Proof.Machine.execTrainRead b ce s
  | .trainWrite b ce pattern => Sys2Proof.Machine.execTrainWrite b ce pattern s
  | .trainReadback b ce => Sys2Proof.Machine.execTrainReadback b ce s
  | .dieReset b ce => Sys2Proof.Machine.execDieReset b ce s
  | .dieTimeout b ce => Sys2Proof.Machine.execDieTimeout b ce s
  | .alertN b words temps => Sys2Proof.Machine.execAlertN b words temps s
  | .minRunExpiry b ce => Sys2Proof.Machine.execMinRunExpiry b ce s
  | .suspendWindowExpiry b ce => Sys2Proof.Machine.execSuspendWindowExpiry b ce s
  | .quickTrim src b ce r => Sys2Proof.Machine.execQuickTrim src b ce r s
  | .fullTraining src b res => Sys2Proof.Machine.execFullTraining src b res s
  | .sensorSelfCheck src => Sys2Proof.Machine.execSensorSelfCheck src s
  | .codecSelfTest src fails us => Sys2Proof.Machine.execCodecSelfTest src fails us s
  | .mapStackTraining src ok => Sys2Proof.Machine.execMapStackTraining src ok s
  | .housekeepingRound ctl stack media supply kettle answers late => Sys2Proof.Machine.execHousekeepingRound ctl stack media supply kettle answers late s
  | .vauxGood addr answers => Sys2Proof.Machine.execVauxGood addr answers s
  | .vauxLoss second => Sys2Proof.Machine.execVauxLoss second s
  | .startRamping supply => Sys2Proof.Machine.execStartRamping supply s
  | .railQualified ix strap => Sys2Proof.Machine.execRailQualified ix strap s
  | .railRampTimeout ix status => Sys2Proof.Machine.execRailRampTimeout ix status s
  | .powerGoodLoss ix status => Sys2Proof.Machine.execPowerGoodLoss ix status s
  | .railOff ix => Sys2Proof.Machine.execRailOff ix s
  | .dischargeTimeout ix => Sys2Proof.Machine.execDischargeTimeout ix s
  | .undervoltage ix => Sys2Proof.Machine.execUndervoltage ix s
  | .overvoltage ix => Sys2Proof.Machine.execOvervoltage ix s
  | .pmbAlert => Sys2Proof.Machine.execPmbAlert s
  | .page ix => Sys2Proof.Machine.execPage ix s
  | .clearFaults ix ok => Sys2Proof.Machine.execClearFaults ix ok s
  | .voutMode ix v => Sys2Proof.Machine.execVoutMode ix v s
  | .statusWord ix v => Sys2Proof.Machine.execStatusWord ix v s
  | .statusVout ix v => Sys2Proof.Machine.execStatusVout ix v s
  | .statusIout ix v => Sys2Proof.Machine.execStatusIout ix v s
  | .statusInput ix v => Sys2Proof.Machine.execStatusInput ix v s
  | .statusTemperature ix v => Sys2Proof.Machine.execStatusTemperature ix v s
  | .readVin ix v => Sys2Proof.Machine.execReadVin ix v s
  | .readVout ix v => Sys2Proof.Machine.execReadVout ix v s
  | .readIout ix v => Sys2Proof.Machine.execReadIout ix v s
  | .readTemperature1 ix v => Sys2Proof.Machine.execReadTemperature1 ix v s
  | .pmbusRevision ix v => Sys2Proof.Machine.execPmbusRevision ix v s
  | .kettleReady v0 => Sys2Proof.Machine.execKettleReady v0 s
  | .kettleTestDischarge us => Sys2Proof.Machine.execKettleTestDischarge us s
  | .kettleTestTimeout => Sys2Proof.Machine.execKettleTestTimeout s
  | .kettleCapacitanceTest src => Sys2Proof.Machine.execKettleCapacitanceTest src s
  | .writeHold v => Sys2Proof.Machine.execWriteHold v s
  | .writeHoldEnd v => Sys2Proof.Machine.execWriteHoldEnd v s
  | .supplyFail => Sys2Proof.Machine.execSupplyFail s
  | .brownout us => Sys2Proof.Machine.execBrownout us s
  | .kettleFloor => Sys2Proof.Machine.execKettleFloor s
  | .flushReq high => Sys2Proof.Machine.execFlushReq high s
  | .referenceClockAbsent => Sys2Proof.Machine.execReferenceClockAbsent s
  | .flushAbandon => Sys2Proof.Machine.execFlushAbandon s
  | .simmerEntry p link => Sys2Proof.Machine.execSimmerEntry p link s
  | .simmerWake p fails rate => Sys2Proof.Machine.execSimmerWake p fails rate s
  | .yvIdentify => Sys2Proof.Machine.execYvIdentify s
  | .yvStatus => Sys2Proof.Machine.execYvStatus s
  | .powerOn => Sys2Proof.Machine.execPowerOn s
  | .powerOff broadcast => Sys2Proof.Machine.execPowerOff broadcast s
  | .clearFault broadcast => Sys2Proof.Machine.execClearFault broadcast s
  | .kettleInfo => Sys2Proof.Machine.execKettleInfo s
  | .yulvogaFallback => Sys2Proof.Machine.execYulvogaFallback s
  | .yvCmdGo path addr cmd again result status payload => Sys2Proof.Machine.execYvCmdGo path addr cmd again result status payload s
  | .warmReset path => Sys2Proof.Machine.execWarmReset path s
  | .warmResetTimeout => Sys2Proof.Machine.execWarmResetTimeout s
  | .fwConfirmation => Sys2Proof.Machine.execFwConfirmation s
  | .commit path => Sys2Proof.Machine.execCommit path s
  | .discard path => Sys2Proof.Machine.execDiscard path s
  | .commitApply => Sys2Proof.Machine.execCommitApply s
  | .quiesceReached => Sys2Proof.Machine.execQuiesceReached s
  | .quiesceTimeout => Sys2Proof.Machine.execQuiesceTimeout s
  | .spikeEvent => Sys2Proof.Machine.execSpikeEvent s
  | .tallyClear path v => Sys2Proof.Machine.execTallyClear path v s
  | .snapshot path => Sys2Proof.Machine.execSnapshot path s
  | .tallySnapshot p first count units => Sys2Proof.Machine.execTallySnapshot p first count units s
  | .readSpike p start count older => Sys2Proof.Machine.execReadSpike p start count older s
  | .clearSpike p blk => Sys2Proof.Machine.execClearSpike p blk s
  | .spikeReadGo path => Sys2Proof.Machine.execSpikeReadGo path s
  | .registerWrite path off words => Sys2Proof.Machine.execRegisterWrite path off words s
  | .irqStatClear path off v => Sys2Proof.Machine.execIrqStatClear path off v s
  | .irqForce path off v => Sys2Proof.Machine.execIrqForce path off v s
  | .loRegisterRead path off words => Sys2Proof.Machine.execLoRegisterRead path off words s
  | .trkOccRead path => Sys2Proof.Machine.execTrkOccRead path s
  | .mctpRead off count => Sys2Proof.Machine.execMctpRead off count s
  | .mctpWrite off words => Sys2Proof.Machine.execMctpWrite off words s
  | .backgroundCommandStarted p => Sys2Proof.Machine.execBackgroundCommandStarted p s
  | .identify p => Sys2Proof.Machine.execIdentify p s
  | .backgroundOperationStatus p => Sys2Proof.Machine.execBackgroundOperationStatus p s
  | .getResponseMessageLimit p => Sys2Proof.Machine.execGetResponseMessageLimit p s
  | .getEventRecords p log => Sys2Proof.Machine.execGetEventRecords p log s
  | .clearEventRecords p log all handles => Sys2Proof.Machine.execClearEventRecords p log all handles s
  | .getEventInterruptPolicy p => Sys2Proof.Machine.execGetEventInterruptPolicy p s
  | .setEventInterruptPolicy p bytes => Sys2Proof.Machine.execSetEventInterruptPolicy p bytes s
  | .getFwInfo p => Sys2Proof.Machine.execGetFwInfo p s
  | .transferFw p action slot offset data key sigOk => Sys2Proof.Machine.execTransferFw p action slot offset data key sigOk s
  | .activateFw p online slot => Sys2Proof.Machine.execActivateFw p online slot s
  | .getTimestamp p => Sys2Proof.Machine.execGetTimestamp p s
  | .setTimestamp p ns => Sys2Proof.Machine.execSetTimestamp p ns s
  | .getSupportedLogs p => Sys2Proof.Machine.execGetSupportedLogs p s
  | .getLog p uuid offset length => Sys2Proof.Machine.execGetLog p uuid offset length s
  | .identifyMemoryDevice p => Sys2Proof.Machine.execIdentifyMemoryDevice p s
  | .getPartitionInfo p => Sys2Proof.Machine.execGetPartitionInfo p s
  | .setPartitionInfo p => Sys2Proof.Machine.execSetPartitionInfo p s
  | .getLsa p offset length => Sys2Proof.Machine.execGetLsa p offset length s
  | .setLsa p offset data => Sys2Proof.Machine.execSetLsa p offset data s
  | .getHealthInfo p => Sys2Proof.Machine.execGetHealthInfo p s
  | .getAlertConfiguration p => Sys2Proof.Machine.execGetAlertConfiguration p s
  | .setAlertConfiguration p bytes => Sys2Proof.Machine.execSetAlertConfiguration p bytes s
  | .getShutdownState p => Sys2Proof.Machine.execGetShutdownState p s
  | .setShutdownState p v => Sys2Proof.Machine.execSetShutdownState p v s
  | .getPoisonList p dpa lines => Sys2Proof.Machine.execGetPoisonList p dpa lines s
  | .injectPoison p dpa => Sys2Proof.Machine.execInjectPoison p dpa s
  | .clearPoison p dpa data => Sys2Proof.Machine.execClearPoison p dpa data s
  | .getScanMediaCapabilities p dpa lines => Sys2Proof.Machine.execGetScanMediaCapabilities p dpa lines s
  | .scanMedia p dpa lines => Sys2Proof.Machine.execScanMedia p dpa lines s
  | .getScanMediaResults p => Sys2Proof.Machine.execGetScanMediaResults p s
  | .sanitize p => Sys2Proof.Machine.execSanitize p s
  | .secureErase p => Sys2Proof.Machine.execSecureErase p s
  | .mediaOperationsZero p ranges => Sys2Proof.Machine.execMediaOperationsZero p ranges s
  | .getDynamicCapacityConfiguration p first count => Sys2Proof.Machine.execGetDynamicCapacityConfiguration p first count s
  | .getDynamicCapacityExtentList p first count => Sys2Proof.Machine.execGetDynamicCapacityExtentList p first count s
  | .addDynamicCapacityResponse p ranges => Sys2Proof.Machine.execAddDynamicCapacityResponse p ranges s
  | .releaseDynamicCapacity p ranges => Sys2Proof.Machine.execReleaseDynamicCapacity p ranges s
  | .getDcdInfo p => Sys2Proof.Machine.execGetDcdInfo p s
  | .getHostDcRegionConfiguration p host first count => Sys2Proof.Machine.execGetHostDcRegionConfiguration p host first count s
  | .setDcRegionConfiguration p k base len => Sys2Proof.Machine.execSetDcRegionConfiguration p k base len s
  | .getDcRegionExtentLists p host first count => Sys2Proof.Machine.execGetDcRegionExtentLists p host first count s
  | .initiateDynamicCapacityAdd p host k tag ranges => Sys2Proof.Machine.execInitiateDynamicCapacityAdd p host k tag ranges s
  | .initiateDynamicCapacityRelease p host forced ranges => Sys2Proof.Machine.execInitiateDynamicCapacityRelease p host forced ranges s
  | .getDeviceState p => Sys2Proof.Machine.execGetDeviceState p s
  | .discardRange p dpa len => Sys2Proof.Machine.execDiscardRange p dpa len s
  | .fabricOwnerTransfer p port blk => Sys2Proof.Machine.execFabricOwnerTransfer p port blk s
  | .linkStatus p n => Sys2Proof.Machine.execLinkStatus p n s
  | .linkDisable p n => Sys2Proof.Machine.execLinkDisable p n s
  | .linkEnable p n => Sys2Proof.Machine.execLinkEnable p n s
  | .linkRetrain p n => Sys2Proof.Machine.execLinkRetrain p n s
  | .hdmDecoderCommit n k set base size ways gran => Sys2Proof.Machine.execHdmDecoderCommit n k set base size ways gran s
  | .viralReceived n => Sys2Proof.Machine.execViralReceived n s
  | .unsupportedCommand p opcode => Sys2Proof.Machine.execUnsupportedCommand p opcode s
  | .rawAccess debug op => Sys2Proof.Machine.execRawAccess debug op s
  | .tapInstruction k => Sys2Proof.Machine.execTapInstruction k s
  | .vaultCopyWritten kind ok => Sys2Proof.Machine.execVaultCopyWritten kind ok s
  | .firmwareFault c => Sys2Proof.Machine.execFirmwareFault c s
  | .yulvogaBadFrame unknown => Sys2Proof.Machine.execYulvogaBadFrame unknown s

end Sys2Proof.Machine
end

