-- ==== Sys2Proof/Machine/Tick.lean ====
section
/-!
DEFINITION. What the device does on its own while no command waits (log entry 1): one fabric cycle passes, the sequencer of
a start, a pre-reset phase, Simmer entry or Flush takes a step, and work that waits for state goes on.
-/

namespace Sys2Proof.Machine

/-- The sequencer takes a step (15 R433 to R438, 16 R452, R453, R467, R469, 17 R487). -/
def State.bootTick (s : State) : State :=
  match s.boot.seq with
  | .start => s.startTick
  | .preReset => s.preResetTick
  | .simmer _ => s.simmerEntryTick
  | .flush => s.flushTick
  | .idle => if s.pwrState = .simmer then s.simmerTick else s

/-- Work that waits for state goes on: discards (04 R144), a format's wipe (12 R372), Clear Alarm (12 R369), scans and other
background commands (02 R63), held-up register writes (09 R277), whisk contexts whose table or ring line has come (11 R332). -/
def State.settleAll (s : State) : State :=
  if s.unclocked then s else (s.pumpDiscards).settleWipe.settleClear.settleScans.settleWrites.settleFetches

/-- Counts the time since it was last counted (18 R492): fabric cycles, those with the host share full, those with a link's acceptance
withheld, 1 ms housekeeping ticks. A wait that a command stands for is counted in the idle step after it, under the state that holds
then; none is counted in Simmer or Cold (DESIGN CHOICE, log entry 45). -/
def State.countTime (s : State) : State :=
  let fc := Config.ticksPerFc s.fuses.grade
  let k := s.now / fc - s.tly.since / fc
  let m := s.now / Config.ms - s.tly.since / Config.ms
  let t := { s with tly := { s.tly with since := s.now } }
  if s.pwrState ≠ .boil ∧ s.pwrState ≠ .starting then t
  else
    let t := (t.tally (.plain 0x080) k).tally (.plain 0x081) m
    let t := if s.used hostRegion = hostRegion.size then t.tally (.plain 0x013) k else t
    ((s.ports.links.filter (fun e => e.2.stalled)).map (·.1)).foldl (fun (u : State) n => u.tally (u.linkEv 0x014 n none none) k) t

/-- One idle step of the device. -/
def State.tick (s : State) : State :=
  ({ s with now := s.now + Config.ticksPerFc s.fuses.grade }).countTime.bootTick.settleAll

end Sys2Proof.Machine
end

