-- ==== Sys2Proof/Machine/Pins.lean ====
section
/-!
DEFINITION. The output pins, the links as a host sees them, and the power the controller may draw, as the state of the device gives
them (02_host_ports.md R76, 15_power.md R439, 20_package_and_electrical.md R542, R544, R549).
-/

namespace Sys2Proof.Machine

/-- What an output pin does: undriven or released, held at a level, at the idle levels of its bus, or driven by its bus's protocol. -/
inductive PinOut where
  | undriven
  | level (high : Bool)
  | idle
  | active
deriving DecidableEq, Repr

/-- Whether a power state has the core out of reset with every rail up (15 R436). -/
def PState.awake (p : PState) : Bool := ([.starting, .boil, .simmer] : List PState).contains p

/-- PWR_EN of a rail: high while the sequencer enables it (R439). -/
def State.pwrEnPin (s : State) (rail : Nat) : PinOut :=
  if s.pwr.vaux then .level (s.pwr.rails.getD rail .off).enabled else .undriven

/-- ALIVE: high while the core is up, and in Flush to its end (R439, 15 R432). -/
def State.alivePin (s : State) : PinOut :=
  if s.pwr.vaux then .level (s.pwrState.awake || decide (s.pwrState = .flush)) else .undriven

/-- ALARM, as lid down requires (R439, 12 R367). -/
def State.alarmPin (s : State) : PinOut := if s.pwr.vaux then .level s.prot.lid else .undriven

/-- KETTLE_CHG_EN and KETTLE_TEST_EN (R439). -/
def State.kettlePins (s : State) : PinOut × PinOut :=
  if s.pwr.vaux then
    (.level (s.pwr.charging && (s.pwrState.awake || decide (s.pwrState = .flush))), .level (s.pwr.testing && s.pwrState.awake))
  else (.undriven, .undriven)

/-- The PMBus pins (R439). -/
def State.pmbPins (s : State) : PinOut :=
  if s.pwr.vaux && decide (s.pwrState ≠ .cold) && decide (s.pwrState ≠ .fault) then .active else .undriven

/-- The Yulvoga pins (R439). -/
def State.yvPins (s : State) : PinOut := if s.pwr.vaux then .active else .undriven

/-- Whether a rail has qualified: VIO is rail 4, VCCQ rail 7 (R416). -/
def State.railUp (s : State) (rail : Nat) : Bool :=
  let r := s.pwr.rails.getD rail .off
  s.pwr.vaux && r.enabled && r.qualified

/-- A burner's chip enables: high once VCCQ has qualified, but for the transfers of its protocol (R439). -/
def State.cePins (s : State) : PinOut :=
  if !s.railUp 7 then .undriven
  else if s.pwrState = .starting ∨ s.pwrState = .boil ∨ s.pwrState = .flush then .active
  else .level true

/-- A burner's data, strobe, read and command pins (R549). -/
def State.burnerPins (s : State) : PinOut :=
  if !s.railUp 7 then .undriven
  else if s.pwrState = .starting ∨ s.pwrState = .boil ∨ s.pwrState = .flush then .active
  else .idle

/-- The pins of the SPI NOR but for its reset (R549). -/
def State.spiPins (s : State) : PinOut :=
  if !s.railUp 4 then .undriven
  else if s.pwrState.awake then .active
  else if s.pwrState = .shutdown then .undriven
  else .idle

/-- SPI_RESET_N (R549): low from the qualification of VIO to the end of RAMPING, and before VIO is disabled. -/
def State.spiResetPin (s : State) : PinOut :=
  if !s.railUp 4 then .undriven else .level (s.pwrState.awake || decide (s.pwrState = .flush))

/-- SMB_SDA and SMB_ALERT_N (R549). -/
def State.smbPins (s : State) : PinOut := if s.pwrState.awake then .active else .undriven

/-- TDO (R549). -/
def State.tdoPin (s : State) : PinOut := if s.pwrState.awake then .active else .undriven

/-- What a host sees of a link (R76): no receiver, a link that is held or training, or one in L0 with Memory_Active as given. -/
inductive LinkSight where
  | off
  | held
  | up (memActive : Bool)
deriving DecidableEq, Repr

/-- The link as its host sees it (R76). -/
def State.linkSight (s : State) (n : Nat) : LinkSight :=
  if !s.pwrState.awake && decide (s.pwrState ≠ .flush) then .off
  else if (s.link n).up then .up (s.link n).memActive
  else .held

/-- The controller's power at most in a power state, in mW, over the eight rails (R544); VAUX draws up to 400 mW besides. -/
def powerBound (g : Grade) : PState → Nat
  | .flush => match g with
    | .g30 => 110000
    | .g24 => 95000
  | .simmer => 5500
  | .cold | .fault => 0
  | _ => match g with
    | .g30 => 165000
    | .g24 => 140000

/-- Whether what the device senses of its environment is within the rated one (R542): every enabled rail good, VAUX present, every
valid reading of a controller or map-stack sensor at 105 °C or below, the kettle sound. -/
def State.rated (s : State) : Bool :=
  s.pwr.vaux && s.pwr.rails.all (fun e => !e.2.enabled || e.2.good) && !s.pwr.fault &&
    s.thm.sensors.all (fun e => e.2.broken || decide (2048 ≤ e.1) || decide (e.2.raw ≤ 1680))

end Sys2Proof.Machine
end

