-- ==== Sys2Proof/Safety.lean ====
section
/-!
DEFINITION. What counts as a safe run, in the terms statements use: a step that answers a next state, the states a run
passes through, and the promises that every step keeps.
-/

namespace Sys2Proof.Safety

open Sys2Proof.Machine

/-- A step leads from one state to the next. -/
def Steps (s t : State) : Prop := step s = .next t

/-- The states a run can pass through from a state: by steps, and by commands that a sender puts at the end of the queue. -/
inductive Reaches (s : State) : State → Prop where
  | here : Reaches s s
  | step {t u : State} : Reaches s t → Steps t u → Reaches s u
  | send {t : State} (c : Instr) : Reaches s t → Reaches s { t with pending := t.pending ++ [c] }

/-- The machine does not stop: its next step answers a next state. -/
def Runs (s : State) : Prop := ∃ t, Steps s t

/-- The fuses as the spec lets them change (00 R6, 16 R459, R464): the speed grade, the serial number and the stepping
stay, and the minimum
security versions never fall. -/
structure FusesKept (s t : State) : Prop where
  grade : t.fuses.grade = s.fuses.grade
  serial : t.fuses.serial = s.fuses.serial
  stepping : t.fuses.step = s.fuses.step
  firmware : s.fuses.fwMin ≤ t.fuses.fwMin
  recipe : s.fuses.recipeMin ≤ t.fuses.recipeMin

/-- The mailbox of a path runs a command (02 R63, R64): it answers now, and no rule turns the command away. -/
def Serves (s : State) (p : Path) (a : Access') : Prop := s.mailboxUp p = true ∧ s.turnedAway p a = none

/-- The state after one more message. -/
def sent (s : State) (o : Output) : State := { s with out := s.out ++ [o] }

/-- The state after a command of a path's mailbox is answered with a return code and a payload. -/
def answered (s : State) (p : Path) (opcode rc : Nat) (payload : List Byte) : State := sent s (.mailbox p opcode rc payload)

/-- The state after a command is answered with Success and a payload that one free value completes. -/
def answeredOpen (s : State) (p : Path) (opcode : Nat) (payload : Nat → List Byte) : State :=
  answered { s with free := s.free + 1 } p opcode 0 (payload s.free)

/-- No register write of a path waits behind another of its link (09 R277). -/
def Clear (s : State) (path : Path) : Prop := ∀ n : Fin 32, path = .link n → (s.link n.val).blocked = []

/-- A register write of a path to a page of fabric-owner registers takes effect: the path is heard and sees the page in full,
no earlier write of its link waits, and the page is no dead target (02 R76, 09 R277, 19 R524). -/
def Writes (s : State) (path : Path) (p : RPage) : Prop :=
  s.heard path = true ∧ s.view path p = .full ∧ Clear s path ∧ s.deadPage p = false

/-- A register write of a path to a channel's page takes effect: also for the tenant it is granted to (11 R352). -/
def WritesChannel (s : State) (path : Path) (c : Nat) : Prop :=
  s.heard path = true ∧ (s.view path (.wsk c) = .full ∨ s.view path (.wsk c) = .tenant) ∧ Clear s path ∧
    (s.chan c).held = false

/-- A request or an answer on a link is taken: the link is up and its CXL stream is not Insecure (02 R62, R71). -/
def Takes (s : State) (n : Nat) : Prop := (s.link n).up = true ∧ (s.link n).insecure.contains 0 = false

/-- The root PLL runs, and with it the fabric, the stewards and the burners: outside Simmer (01 R7, R20). -/
def Clocked (s : State) : Prop := s.unclocked = false

/-- A die that takes commands: present, not retired or failed, not in a reset or a backoff, on a burner in service. -/
def Live (s : State) (b ce : Nat) : Prop := s.dieLive b ce = true

/-- `t` is `s` but for what is noted: counters and histograms, interrupt status, messages sent, events on the Event rail,
fault reports. Every other part of the state, and every other register, is as it was. -/
def Noted (s t : State) : Prop :=
  ∃ (tly : Tallies) (live : SMap W32) (out : List Output) (ev : Rail Ev) (reports : List Report),
    t = { s with
      tly := tly, regs := { s.regs with live := live }, out := s.out ++ out
      rails := { s.rails with event := ev }, reports := s.reports ++ reports } ∧
    ∀ k, k % 4096 ≠ 0x14 → live.find k = s.regs.live.find k

/-- The dies change at burner `b`, chip enable `ce` alone, to `d`. -/
def DieIs (s t : State) (b ce : Nat) (d : Die) : Prop :=
  ∀ k, t.dies.getD k .absent = if k = b * 10 + ce then d else s.dies.getD k .absent

/-- The burners change at `b` alone, to `x`. -/
def BurnerIs (s t : State) (b : Nat) (x : Burner) : Prop :=
  ∀ k, t.burner k = if k = b then x else s.burner k

end Sys2Proof.Safety
end

