-- ==== Sys2Proof/Certificates/Slice0/Obligations.lean ====
section
/-!
DEFINITION. The statements for the provers, one definition each. Every docstring names the rules of spec/ that a statement
follows; where a clause is the model's own choice it says so and names the log entry.
-/

open Sys2Proof Sys2Proof.Machine Sys2Proof.Safety

/-! ### The machine -/

/-- A step with commands waiting takes the one at the front and answers what its meaning answers on the state with the
queue's rest. The queue is the model's (log entry 1). -/
def Obligations.StepRunsFront : Prop :=
  ∀ (c : Instr) (rest : List Instr) (s : State), s.pending = c :: rest → step s = exec c { s with pending := rest }

/-- With no command waiting a step idles (log entry 1): it answers a next state, the queue stays empty, and the fuses
change only as FusesKept says. -/
def Obligations.IdleStepRuns : Prop :=
  ∀ s : State, s.pending = [] → ∃ t, step s = .next t ∧ t.pending = [] ∧ FusesKept s t

/-- No command stops the device, in any state and with any operands, and no command touches the commands that wait behind
it: errors are effects on the state (a return code, a flag, a record, poison), never an end of the run. -/
def Obligations.CommandsNeverStop : Prop :=
  ∀ (c : Instr) (s : State), ∃ t, exec c s = .next t ∧ t.pending = s.pending

/-- Every step keeps what the spec says of the fuses (R6, R459, R464): the speed grade, the serial number and the stepping
never change and the minimum security versions never fall, whatever the command and whatever state `r` they are measured
from. -/
def Obligations.FusesKeptByEveryStep : Prop :=
  ∀ r s t : State, FusesKept r s → step s = .next t → FusesKept r t

/-- The same along every run: in every state that the device can reach, by steps and by commands sent to it. -/
def Obligations.FusesKeptOnEveryRun : Prop :=
  ∀ r s t : State, FusesKept r s → Reaches s t → FusesKept r t

/-- Right after reset the fuses are as they are, no command waits, the device is STARTING (R436), the stockpot is frozen
(R115), every hook is FREE_BROKEN with SERIAL 0 (R290), every directory entry is I and every tracker is free (R322), every
link is down, and no link's writes have memory to go to. That reset finds the device in STARTING, and not in COLD, is the
model's reading (log entry 15). -/
def Obligations.StateRightAfterReset : Prop :=
  FusesKept State.reset State.reset ∧ State.reset.pending = [] ∧ State.reset.pwrState = .starting ∧
    State.reset.isFrozen = true ∧
    (∀ h, (State.reset.hook h).state = 2 ∧ (State.reset.hook h).serial = 0) ∧
    State.reset.spr.dir = [] ∧ State.reset.spr.trackers = [] ∧
    (∀ n, (State.reset.link n).up = false ∧ (State.reset.link n).memActive = false)

/-! ### Tables, rails, words and codes -/

/-- Two sparse tables in canonical form over one default that read alike at every key are the same table: each memory of the
device (media sectors, map, block table, frames, registers) has one representation. The canonical form is the model's (log
entry 16). -/
def Obligations.CanonicalTablesAreEqual : Prop :=
  ∀ (α : Type) [DecidableEq α] (d : α) (m m' : SMap α), m.wfD d = true → m'.wfD d = true →
    (∀ k, m.getD k d = m'.getD k d) → m = m'

/-- R118: the six fields of a sector address, each within its range, are read back from it, and every 38-bit address is made
of its fields. -/
def Obligations.SectorAddressFields : Prop :=
  (∀ b ce k pg pl x : Nat, b < 32 → ce < 16 → k < 2048 → pg < 1024 → pl < 4 → x < 64 →
    saBurner (saOf b ce k pg pl x) = b ∧ saCe (saOf b ce k pg pl x) = ce ∧ saBlock (saOf b ce k pg pl x) = k ∧
    saPage (saOf b ce k pg pl x) = pg ∧ saPlane (saOf b ce k pg pl x) = pl ∧ saSector (saOf b ce k pg pl x) = x ∧
    saOf b ce k pg pl x < 2 ^ 38) ∧
  (∀ a : Nat, a < 2 ^ 38 → saOf (saBurner a) (saCe a) (saBlock a) (saPage a) (saPlane a) (saSector a) = a)

/-- R119: slice `s` of a loaf stored at quad `q` is at sector address (q << 8) + s, which is plane s >> 6 and sector s & 63 of
the quad's page. -/
def Obligations.LoafQuadPlaces : Prop :=
  ∀ (st : State) (slice line : Nat), (st.loaf (slice / 256)).fmt = 1 → (st.loaf (slice / 256)).loc < 2 ^ 30 →
    ∃ a, st.lookup slice line = .sector a ∧ a = (st.loaf (slice / 256)).loc * 2 ^ 8 + slice % 256 ∧
      saPlane a = slice % 256 / 64 ∧ saSector a = slice % 64 ∧ a / 2 ^ 8 = (st.loaf (slice / 256)).loc

/-- R97: a merge takes the bytes that the mask names from the new line and every other byte from the old one. -/
def Obligations.MaskedMergeTakesNamedBytes : Prop :=
  ∀ (old new : Line) (m : Mask) (k : Nat), k < 64 →
    lineByte (mergeLine old new m) k = if m.getLsbD k then lineByte new k else lineByte old k

/-- R84: what a rail gives is a committed command among its first 32 slots that is not consumed, of the highest priority
among those, and the oldest of that priority; the others wait on in their order, those whose producer is stalled (R82) behind
them, and a rail gives nothing only when none of its first 32 slots waits. -/
def Obligations.RailGivesHighestThenOldest : Prop :=
  ∀ (α : Type) (n : Nat) (r : Rail α),
    (∀ (c : α) (r' : Rail α), r.take n = some (c, r') →
      ∃ (before after : List (Slot α)) (e : Slot α), r.slots = before ++ e :: after ∧ before.length < 32 ∧
        e.used = false ∧ e.cmd = c ∧
        (∀ x ∈ r.slots.take 32, x.used = false → x.prio ≤ e.prio) ∧
        (∀ x ∈ before, x.used = false → x.prio < e.prio) ∧
        r'.waiting = ((before ++ after ++ r.stalled).filter (fun x => !x.used)).map (fun x => x.cmd)) ∧
    (r.take n = none → ∀ x ∈ r.slots.take 32, x.used = true)

/-- Numbers in messages are little-endian (R502): a number of at most `k` bytes written into a message is read back, wherever
it stands. -/
def Obligations.MessageFieldsReadBack : Prop :=
  ∀ (before after : List Byte) (k n : Nat), n < 256 ^ k →
    (leBytes k n).length = k ∧ field (before ++ leBytes k n ++ after) before.length k = n

/-- R378, R379: a stored word that the encoder made is valid, and an error of one or of two bits in any of its 78 positions
is corrected at those positions, whatever the data. -/
def Obligations.WordCodeCorrectsTwoBits : Prop :=
  ∀ d : BitVec 64,
    bchDecode (bchEncode d) = .clean ∧
    (∀ p < 78, bchDecode (bchEncode d ^^^ BitVec.ofNat 78 (2 ^ p)) = .corrected p none) ∧
    (∀ p q, p < q → q < 78 →
      bchDecode (bchEncode d ^^^ BitVec.ofNat 78 (2 ^ p) ^^^ BitVec.ofNat 78 (2 ^ q)) = .corrected p (some q))

/-- R340: the chunk of a descriptor that has bytes left is not empty, ends within the descriptor, is at most 4 KiB, and does
not cross a 4 KiB boundary of the operand that counts: DST of COPY, FILL and ZERO, SRC of the others. -/
def Obligations.ChunkEndsAtBoundary : Prop :=
  ∀ (d : WDesc) (p : Nat), p < d.length →
    let start := (if d.op = 1 ∨ d.op = 2 ∨ d.op = 3 then d.dst else d.src) + p
    0 < d.chunk p ∧ p + d.chunk p ≤ d.length ∧ d.chunk p ≤ 4096 ∧
      start / 4096 = (start + d.chunk p - 1) / 4096 ∧
      (p + d.chunk p < d.length → (start + d.chunk p) % 4096 = 0)

/-! ### Mailbox commands that report -/

/-- R64, R75, R460: Identify answers on every path whose mailbox answers, in recovery and in Simmer too, with the serial number
at bytes 8 to 15 and the payload size field 16 (R63); Get Response Message Limit answers 2^16 bytes. The bytes that the CXL
standard lays out and the spec does not are one free value (log entry 12). Nothing but the answer changes. Completes: IDENTIFY,
GET_RESPONSE_MESSAGE_LIMIT. -/
def Sys2Proof.Claims.IdentifyAnswers : Prop :=
  ∀ (p : Path) (s : State),
    (s.mailboxUp p = true → ∃ b : Nat → List Byte, exec (.identify p) s = .next (answeredOpen s p 0x0001 b) ∧
      ∀ k, field (b k) 8 8 = s.fuses.serial.toNat ∧ field (b k) 16 1 = 16) ∧
    (Serves s p anyone → exec (.getResponseMessageLimit p) s = .next (answered s p 0x0003 0 [16]))

/-- R64: Identify Memory Device and Get Partition Info report, in units of 256 MiB, the capacity of the issuing link's windows
(over MCTP the user capacity of the population), all of it persistent and none volatile. Completes: IDENTIFY_MEMORY_DEVICE,
GET_PARTITION_INFO. -/
def Sys2Proof.Claims.CapacityIsPersistent : Prop :=
  ∀ (p : Path) (s : State), Serves s p anyone →
    ∃ units : Nat, units = (match p with
        | .link n => s.windowUnits n.val
        | .mctp => s.capacity / 2 ^ 28) ∧
    (units < 2 ^ 64 →
      (∃ b : Nat → List Byte, exec (.identifyMemoryDevice p) s = .next (answeredOpen s p 0x4000 b) ∧
        ∀ k, field (b k) 16 8 = units ∧ field (b k) 24 8 = 0 ∧ field (b k) 32 8 = units) ∧
      ∃ b : List Byte, exec (.getPartitionInfo p) s = .next (answered s p 0x4100 0 b) ∧ b.length = 32 ∧
        field b 0 8 = 0 ∧ field b 8 8 = units ∧ field b 16 8 = 0 ∧ field b 24 8 = 0)

/-- R66: the 32 bytes of Get Device State: the power state, the flags (PANTRY_BARE and READ_ONLY together, R226), the link-up
mask, the user capacity, the operating seconds and the power-cycle count. It answers in recovery and in Simmer. Completes:
GET_DEVICE_STATE. -/
def Sys2Proof.Claims.DeviceStateReport : Prop :=
  ∀ (p : Path) (s : State), s.mailboxUp p = true →
    ∃ b : List Byte, exec (.getDeviceState p) s = .next (answered s p 0xC000 0 b) ∧ b.length = 32 ∧
      field b 0 1 = (if s.pwrState = .simmer then 1 else 0) ∧
      ((b.getD 1 0).getLsbD 0 = s.prot.lid ∧ (b.getD 1 0).getLsbD 1 = s.upk.pantry ∧ (b.getD 1 0).getLsbD 2 = s.upk.pantry ∧
        (b.getD 1 0).getLsbD 3 = s.upk.capAlert ∧ (b.getD 1 0).getLsbD 4 = s.flt.degraded ∧
        (b.getD 1 0).getLsbD 5 = decide (s.upk.rebuildState ≠ 0) ∧ (b.getD 1 0).getLsbD 6 = s.ports.foMoved ∧
        (b.getD 1 0).getLsbD 7 = false) ∧
      (∀ n < 32, (field b 4 4).testBit n = (s.link n).up) ∧
      field b 8 8 = s.capacity ∧ field b 16 8 = s.opsec ∧ (s.clk.cycles < 2 ^ 24 → field b 24 4 = s.clk.cycles) ∧
      field b 28 4 = 0

/-- R64: Get Timestamp returns the time set, advanced by the nanoseconds since, and 0 where none is set; Get Shutdown State the
state recorded; Get Alert Configuration the 12 bytes stored, after 4 that are open; Get Supported Logs and Get Log answer with
what is open; a log that the device has not, or more than 64 KiB, is Invalid Input. Completes: GET_TIMESTAMP,
GET_SHUTDOWN_STATE, GET_ALERT_CONFIGURATION, GET_SUPPORTED_LOGS, GET_LOG. -/
def Sys2Proof.Claims.SettingsReadBack : Prop :=
  ∀ (p : Path) (s : State), Serves s p anyone →
    exec (.getTimestamp p) s = .next (answered s p 0x0300 0 (leBytes 8
      (if s.mbx.timeSet = 0 then 0 else s.mbx.timeSet + (s.now - s.mbx.timeAt) / Config.ns))) ∧
    exec (.getShutdownState p) s = .next (answered s p 0x4203 0 [s.mbx.shutdown]) ∧
    (s.mbx.alerts.length = 12 → ∃ b : Nat → List Byte, exec (.getAlertConfiguration p) s = .next (answeredOpen s p 0x4201 b) ∧
      ∀ k, (b k).length = 16 ∧ (b k).drop 4 = s.mbx.alerts) ∧
    (∃ b : Nat → List Byte, exec (.getSupportedLogs p) s = .next (answeredOpen s p 0x0400 b)) ∧
    (∀ (uuid : BitVec 128) (offset length : BitVec 32),
      (length.toNat ≤ 65536 → uuid = celUuid ∨ Config.hasLog uuid = true →
        ∃ b : Nat → List Byte, exec (.getLog p uuid offset length) s = .next (answeredOpen s p 0x0401 b) ∧
          ∀ k, (b k).length = length.toNat) ∧
      (65536 < length.toNat ∨ ¬ (uuid = celUuid ∨ Config.hasLog uuid = true) →
        exec (.getLog p uuid offset length) s = .next (answered s p 0x0401 2 [])))

/-- R61, R226, R428, R482: Get Health Info reports the hold-up fault in the health status, pantry bare in the media status, the
device temperature in whole degrees, and the Dirty Shutdown Count, which sticks at its width; the codes and the rest of the
layout are open. Get FW Info reports the running slot in [2:0] and the pending one in [5:3] of byte 1, three slots, no online
activation, and the revision of each slot (R461). Completes: GET_HEALTH_INFO, GET_FW_INFO. -/
def Sys2Proof.Claims.HealthAndFirmwareReport : Prop :=
  ∀ (p : Path) (s : State),
    (Serves s p anyone → ∃ b : Nat → List Byte, exec (.getHealthInfo p) s = .next (answeredOpen s p 0x4200 b) ∧
      ∀ k, (b k).getD 0 0 = Config.healthCode (if s.pwr.fault then 3 else 2) ∧
        (b k).getD 1 0 = Config.healthCode (if s.upk.pantry then 1 else 0) ∧
        field (b k) 4 2 = (BitVec.ofInt 16 (s.thm.hot / 16)).toNat ∧
        field (b k) 6 4 = min s.boot.dirty (2 ^ 32 - 1)) ∧
    (Serves s p (s.fwAccess true) → s.boot.running < 8 → s.boot.state.pendingFw < 8 →
      ∃ b : List Byte, exec (.getFwInfo p) s = .next (answered s p 0x0200 0 b) ∧ field b 0 1 = 3 ∧
        field b 1 1 % 8 = s.boot.running ∧ field b 1 1 / 8 = s.boot.state.pendingFw ∧ field b 2 1 = 0)

/-- R63, R64: Background Operation Status reports the path's own background command: while one runs its opcode, with a
percentage that is open and below 100; else the last one that ended, with its opcode and return code; else zeros. Completes:
BACKGROUND_OPERATION_STATUS. -/
def Sys2Proof.Claims.BackgroundStatusReport : Prop :=
  ∀ (p : Path) (s : State), Serves s p anyone →
    (∀ r, s.mbx.runs.find? (fun r => decide (r.path = p) && r.bg) = some r → r.opcode < 2 ^ 16 →
      ∃ b : List Byte, exec (.backgroundOperationStatus p) s = .next (answered { s with free := s.free + 1 } p 0x0002 0 b) ∧
        b.length = 8 ∧ field b 0 1 % 2 = 1 ∧ field b 0 1 / 2 < 100 ∧ field b 2 2 = r.opcode) ∧
    (s.mbx.runs.find? (fun r => decide (r.path = p) && r.bg) = none →
      (∀ x, s.mbx.done.find? (fun x => decide (x.path = p)) = some x → x.opcode < 2 ^ 16 → x.rc < 2 ^ 16 →
        ∃ b : List Byte, exec (.backgroundOperationStatus p) s = .next (answered s p 0x0002 0 b) ∧
          b.length = 8 ∧ field b 0 1 = 200 ∧ field b 2 2 = x.opcode ∧ field b 4 2 = x.rc) ∧
      (s.mbx.done.find? (fun x => decide (x.path = p)) = none →
        exec (.backgroundOperationStatus p) s = .next (answered s p 0x0002 0 (leBytes 8 0))))

/-- R64: the event commands act on the events of the issuing link only (over MCTP those of the fabric-owner link, log entry 50).
Get Event Records returns that link's records of the log, oldest first, as many as one payload holds, and says whether more
wait; Clear removes all of a log, or the records whose handles are listed, and refuses a handle that is not there; the interrupt
policy reads back as it was set. No other link's records or policy change. Completes: GET_EVENT_RECORDS, CLEAR_EVENT_RECORDS,
GET_EVENT_INTERRUPT_POLICY, SET_EVENT_INTERRUPT_POLICY. -/
def Sys2Proof.Claims.EventsOfTheIssuingLink : Prop :=
  ∀ (p : Path) (s : State), Serves s p anyone →
    (∀ log : Fin 5, ∃ b : List Byte, exec (.getEventRecords p log) s = .next (answered s p 0x0100 0 b) ∧
      field b 20 2 = min 511 (s.logOf (s.pathLink p) log.val).length ∧
      field b 0 1 = (if 511 < (s.logOf (s.pathLink p) log.val).length then 2 else 0) ∧
      b.drop 32 = (((s.logOf (s.pathLink p) log.val).take 511).map (fun e => e.bytes)).flatten) ∧
    (∀ log : Fin 5, ∃ t, exec (.clearEventRecords p log true []) s = .next t ∧
      t = answered { s with ports := { s.ports with links := t.ports.links } } p 0x0101 0 [] ∧ t.logOf (s.pathLink p) log.val = [] ∧
      (∀ n log', n ≠ s.pathLink p ∨ log' ≠ log.val → t.logOf n log' = s.logOf n log')) ∧
    (∀ (log : Fin 5) (h : BitVec 16), (∀ e ∈ s.logOf (s.pathLink p) log.val, e.handle % 2 ^ 16 ≠ h.toNat) →
      exec (.clearEventRecords p log false [h]) s = .next (answered s p 0x0101 0x0E [])) ∧
    (∀ bytes : List Byte, bytes.length = 5 → ∃ t, exec (.setEventInterruptPolicy p bytes) s = .next t ∧
      t = answered { s with ports := { s.ports with links := t.ports.links } } p 0x0103 0 [] ∧ (t.link (s.pathLink p)).eventIrq = bytes ∧
      (∀ n, n ≠ s.pathLink p → t.link n = s.link n) ∧
      exec (.getEventInterruptPolicy p) t = .next (answered t p 0x0102 0 bytes))

/-! ### Mailbox commands that set -/

/-- R61, R64: Set Timestamp, Set Alert Configuration and Set Shutdown State record what they are given and change nothing
else (Set Shutdown State has no other effect, R61); a tenant is turned away with Unsupported and nothing changes. Completes:
SET_TIMESTAMP, SET_ALERT_CONFIGURATION, SET_SHUTDOWN_STATE. -/
def Sys2Proof.Claims.SettingsAreRecorded : Prop :=
  ∀ (p : Path) (s : State) (ns : BitVec 64) (alerts : List Byte) (v : Byte),
    (Serves s p ownerOnly →
      exec (.setTimestamp p ns) s =
        .next (answered { s with mbx := { s.mbx with timeSet := ns.toNat, timeAt := s.now } } p 0x0301 0 []) ∧
      exec (.setAlertConfiguration p alerts) s =
        .next (answered { s with mbx := { s.mbx with alerts := alerts } } p 0x4202 0 []) ∧
      exec (.setShutdownState p v) s =
        .next (answered { s with mbx := { s.mbx with shutdown := v } } p 0x4204 0 [])) ∧
    (s.mailboxUp p = true → s.recovery = false → s.pwrState ≠ .simmer → s.isFo p = false →
      exec (.setTimestamp p ns) s = .next (answered s p 0x0301 3 []) ∧
      exec (.setAlertConfiguration p alerts) s = .next (answered s p 0x4202 3 []) ∧
      exec (.setShutdownState p v) s = .next (answered s p 0x4204 3 []))

/-- R64: what Set LSA writes into the label storage area Get LSA reads back, byte for byte, and every other byte reads as
before; a byte that nothing has written reads 0 (log entry 51), and a range past the end is Invalid Input, with nothing
written. How large the area is the spec leaves open (log entry 51). Completes: SET_LSA, GET_LSA. -/
def Obligations.LabelStorageReadsBack : Prop :=
  ∀ (p : Path) (s : State) (offset : BitVec 32) (data : List Byte), Serves s p ownerOnly →
    (offset.toNat + data.length ≤ Config.lsaSize →
      ∃ lsa, exec (.setLsa p offset data) s = .next (answered { s with mbx := { s.mbx with lsa := lsa } } p 0x4103 0 []) ∧
        ∀ i, lsa.getD i 0 =
          if offset.toNat ≤ i ∧ i < offset.toNat + data.length then data.getD (i - offset.toNat) 0 else s.mbx.lsa.getD i 0) ∧
    (Config.lsaSize < offset.toNat + data.length → exec (.setLsa p offset data) s = .next (answered s p 0x4103 2 [])) ∧
    (∀ length : BitVec 32, offset.toNat + length.toNat ≤ Config.lsaSize → length.toNat ≤ 65536 →
      exec (.getLsa p offset length) s = .next (answered s p 0x4102 0
        ((List.range length.toNat).map (fun i => s.mbx.lsa.getD (offset.toNat + i) 0))))

/-- R64, R65: Set Partition Info is answered Invalid Input and an opcode that the device does not implement Unsupported, with
no other effect; a command that has run for 2 s returns Background Command Started and goes on (R63). Completes:
SET_PARTITION_INFO, UNSUPPORTED_COMMAND, BACKGROUND_COMMAND_STARTED. -/
def Sys2Proof.Claims.RefusedAndLongCommands : Prop :=
  ∀ (p : Path) (s : State),
    (Serves s p ownerOnly → exec (.setPartitionInfo p) s = .next (answered s p 0x4101 2 [])) ∧
    (∀ op : BitVec 16, s.mailboxUp p = true → s.pwrState ≠ .simmer →
      exec (.unsupportedCommand p op) s = .next (answered s p op.toNat 3 [])) ∧
    (∀ r, s.mbx.runs.find? (fun r => decide (r.path = p) && !r.bg) = some r →
      ∃ runs, exec (.backgroundCommandStarted p) s = .next (sent { s with
          now := max s.now (r.since + 2 * Config.sec), mbx := { s.mbx with runs := runs } } (.background p r.opcode)) ∧
        runs.map (fun x => (x.path, x.opcode, x.since, x.args, x.rest)) =
          s.mbx.runs.map (fun x => (x.path, x.opcode, x.since, x.args, x.rest)) ∧
        ∃ x ∈ runs, x.path = p ∧ x.opcode = r.opcode ∧ x.bg = true)

/-- R291: Set Hook Lease gives the hooks of its range the lease, or returns them to SPR_HOOK_LEASE with 0, and leaves every other
hook and everything else about them as it is; other values are Invalid Input and no lease is changed; the next renewal of a hook
that has a lease of its own, and its next grant, take that lease. Completes: SET_HOOK_LEASE. -/
def Obligations.SetHookLease : Prop :=
  ∀ (p : Path) (s : State) (first count lease : Nat),
    (Serves s p ownerOnly →
      ((first < 4096 ∧ 1 ≤ count ∧ first + count ≤ 4096 ∧ (lease = 0 ∨ (10 ≤ lease ∧ lease ≤ 4194303))) →
        ∃ hooks, exec (.setHookLease p first count lease) s = .next (answered { s with hooks := hooks } p 0xC050 0 []) ∧
          ∀ h, hooks.getD h .fresh =
            if first ≤ h ∧ h < first + count then { s.hook h with set := lease } else s.hook h) ∧
      (¬ (first < 4096 ∧ 1 ≤ count ∧ first + count ≤ 4096 ∧ (lease = 0 ∨ (10 ≤ lease ∧ lease ≤ 4194303))) →
        exec (.setHookLease p first count lease) s = .next (answered s p 0xC050 2 []))) ∧
    (∀ (n : Fin 32) (h : Fin 4096), (s.hook h.val).set = lease →
      let applied := if lease = 0 then max 10 (s.liveFld .spr 0x900 21 0) else lease
      (∀ serial : BitVec 16, s.fenceAdmits n.val n.isLt false = true → (s.link n.val).blocked = [] →
        s.hookWritable h.val n.val = true → s.hookActs h.val n.val serial = true →
        ∃ t, exec (.hookRenew n h serial) s = .next t ∧ (t.hook h.val).lease = applied) ∧
      (s.fenceAdmits n.val n.isLt true = true → s.hookOpen h.val n.val = true → (s.hook h.val).state = 0 →
        ∃ t, exec (.hookAcquire n h) s = .next t ∧ (t.hook h.val).lease = applied))

/-! ### Firmware (R460, R461) -/

/-- R461: a transfer of an image in parts: the first part opens a slot that is not the running one and the slot holds nothing
valid from then on (log entry 52); a further part at the offset reached is appended; the last part, or a whole image, is judged
and stored where its key and signature verify; an abort forgets what came. A part at another offset, or with no transfer under
way, is refused and changes nothing. In recovery every link may transfer (R460). Completes: TRANSFER_FW. -/
def Sys2Proof.Claims.FirmwareArrivesInOrder : Prop :=
  ∀ (p : Path) (s : State) (slot : Byte) (offset : BitVec 32) (data : List Byte) (key : BitVec 384) (sigOk : Bool),
    Serves s p (s.fwAccess false) →
    (1 ≤ slot.toNat → slot.toNat ≤ 3 → slot.toNat ≠ s.boot.running → s.mbx.xferSlot = 0 →
      ∃ nor, exec (.transferFw p 1 slot offset data key sigOk) s = .next (answered { s with
          nor := nor, mbx := { s.mbx with xferSlot := slot.toNat, xfer := data } } p 0x0201 0 [])) ∧
    (s.mbx.xferSlot ≠ 0 → offset.toNat * 128 = s.mbx.xfer.length →
      exec (.transferFw p 2 slot offset data key sigOk) s =
        .next (answered { s with mbx := { s.mbx with xfer := s.mbx.xfer ++ data } } p 0x0201 0 [])) ∧
    (s.mbx.xferSlot = 0 ∨ offset.toNat * 128 ≠ s.mbx.xfer.length →
      exec (.transferFw p 2 slot offset data key sigOk) s = .next (answered s p 0x0201 9 []) ∧
      exec (.transferFw p 3 slot offset data key sigOk) s = .next (answered s p 0x0201 9 [])) ∧
    exec (.transferFw p 4 slot offset data key sigOk) s =
      .next (answered { s with mbx := { s.mbx with xferSlot := 0, xfer := [] } } p 0x0201 0 []) ∧
    (s.mbx.xferSlot ≠ 0 → offset.toNat * 128 = s.mbx.xfer.length →
      ∃ t, exec (.transferFw p 3 slot offset data key sigOk) s = .next t ∧ t.mbx.xferSlot = 0 ∧ t.mbx.xfer = [])

/-- R459, R461: Activate FW makes the valid image of slot 1 or 2 the pending one, to be tried at the next start, with no
tries counted yet; the online action is Invalid Input, an invalid image or a slot that there is not is refused, and nothing
changes. In recovery mode a warm start follows at once (R460). After 60 s in BOIL on the pending image it is confirmed: it
becomes the active one, none is pending, and the fused minimum rises to its security version if that is higher. Completes:
ACTIVATE_FW, FW_CONFIRMATION. -/
def Sys2Proof.Claims.FirmwareBecomesActive : Prop :=
  ∀ (p : Path) (s : State) (slot : Byte),
    (Serves s p (s.fwAccess false) →
      exec (.activateFw p true slot) s = .next (answered s p 0x0202 2 []) ∧
      (slot.toNat = 0 ∨ 3 < slot.toNat → exec (.activateFw p false slot) s = .next (answered s p 0x0202 0x0B [])) ∧
      (slot.toNat = 1 ∨ slot.toNat = 2 → s.fwValid slot.toNat = false →
        exec (.activateFw p false slot) s = .next (answered s p 0x0202 0x0A [])) ∧
      (slot.toNat = 1 ∨ slot.toNat = 2 → s.fwValid slot.toNat = true → s.recovery = false →
        ∃ nor, exec (.activateFw p false slot) s = .next (answered { s with
          nor := nor, boot := { s.boot with state := { s.boot.state with pendingFw := slot.toNat, tries := 0 } } }
          p 0x0202 0 []))) ∧
    (s.pwrState = .boil → s.boot.ready = true → s.boot.state.pendingFw ≠ 0 → s.boot.state.pendingFw = s.boot.running →
      s.boot.seq ≠ .preReset →
      ∃ t, exec .fwConfirmation s = .next t ∧ t.boot.state.activeFw = s.boot.state.pendingFw ∧ t.boot.state.pendingFw = 0 ∧
        t.boot.state.tries = 0 ∧ t.boot.confirmed = true ∧ t.now = max s.now (s.boot.boilAt + 60 * Config.sec) ∧
        t.fuses = { s.fuses with fwMin := max s.fuses.fwMin (((s.fwOf s.boot.running).map (fun i => i.secver)).getD 0) })

/-! ### Dynamic capacity (R56 to R59) -/

/-- R56, R57: a region is set, in units of 256 MiB, while no extent of it is added or offered anywhere, and reads back in both
configurations as it was set; with an extent of it in use, or past the DPA space, it is refused and stays. Get DCD Info reports
8 regions, and a list of extents the link's own. Bytes that the CXL standard lays out are open (log entry 12); that the command
gives base and length of a region is the model's operand (log entry 53). Completes: SET_DC_REGION_CONFIGURATION,
GET_DYNAMIC_CAPACITY_CONFIGURATION, GET_HOST_DC_REGION_CONFIGURATION, GET_DCD_INFO, GET_DYNAMIC_CAPACITY_EXTENT_LIST,
GET_DC_REGION_EXTENT_LISTS. -/
def Sys2Proof.Claims.RegionsAndExtentsReadBack : Prop :=
  ∀ (p : Path) (s : State),
    (Serves s p ownerOnly → ∀ (k : Fin 8) (base len : BitVec 32),
      (∀ e ∈ s.ports.links, ∀ x ∈ e.2.extents ++ e.2.offered, x.region ≠ k.val) → base.toNat + len.toNat ≤ 2 ^ 17 →
      ∃ rs, exec (.setDcRegionConfiguration p k base len) s =
          .next (answered { s with ports := { s.ports with regions := rs } } p 0x5602 0 []) ∧
        ∀ j, rs.getD j ⟨0, 0⟩ = if j = k.val then ⟨base.toNat, len.toNat⟩ else s.region j) ∧
    (Serves s p ownerOnly → ∀ (k : Fin 8) (base len : BitVec 32) (e : Nat × Link) (x : Extent),
      e ∈ s.ports.links → x ∈ e.2.extents ++ e.2.offered → x.region = k.val →
      exec (.setDcRegionConfiguration p k base len) s = .next (answered s p 0x5602 2 [])) ∧
    (Serves s p anyone → ∀ k : Fin 8, ∃ b : Nat → List Byte,
      exec (.getDynamicCapacityConfiguration p (byteOf k.val) 1) s = .next (answeredOpen s p 0x4800 b) ∧
      ∀ i, (s.region k.val).base < 2 ^ 17 → (s.region k.val).len < 2 ^ 18 →
        field (b i) 0 1 = 8 ∧ field (b i) 1 1 = 1 ∧ field (b i) 8 8 = (s.region k.val).base * 2 ^ 28 ∧
        field (b i) 24 8 = (s.region k.val).len * 2 ^ 28) ∧
    (Serves s p ownerOnly → ∀ (host : Fin 32) (k : Fin 8), ∃ b : Nat → List Byte,
      exec (.getHostDcRegionConfiguration p host (byteOf k.val) 1) s = .next (answeredOpen s p 0x5601 b) ∧
      ∀ i, (s.region k.val).base < 2 ^ 17 → (s.region k.val).len < 2 ^ 18 →
        field (b i) 0 2 = host.val ∧ field (b i) 10 8 = (s.region k.val).base * 2 ^ 28 ∧
        field (b i) 26 8 = (s.region k.val).len * 2 ^ 28) ∧
    (Serves s p ownerOnly → ∃ b : Nat → List Byte, exec (.getDcdInfo p) s = .next (answeredOpen s p 0x5600 b) ∧
      ∀ i, field (b i) 1 1 = 8) ∧
    (Serves s p anyone → ∀ first count : BitVec 32, ∃ b : Nat → List Byte,
      exec (.getDynamicCapacityExtentList p first count) s = .next (answeredOpen s p 0x4801 b) ∧
      ∀ i, (b i).drop 16 = ((((s.link (s.pathLink p)).extents.drop first.toNat).take count.toNat).map extentBytes).flatten) ∧
    (Serves s p ownerOnly → ∀ (host : Fin 32) (first count : BitVec 32), ∃ b : Nat → List Byte,
      exec (.getDcRegionExtentLists p host first count) s = .next (answeredOpen s p 0x5603 b) ∧
      ∀ i, field (b i) 0 4 = host.val ∧
        (b i).drop 20 = (((s.link host.val).extents.drop first.toNat).take count.toNat |>.map extentBytes).flatten)

/-- R56 to R58: an extent is offered to a link, and its host then accepts it whole: it is the link's from then on, is offered
no more, and is discarded by nothing; a range outside its region is refused. A host asked for a release keeps its extent until
it gives it up. Completes: INITIATE_DYNAMIC_CAPACITY_ADD, ADD_DYNAMIC_CAPACITY_RESPONSE, and
INITIATE_DYNAMIC_CAPACITY_RELEASE without force. -/
def Sys2Proof.Claims.ExtentsAreOfferedAndAccepted : Prop :=
  ∀ (p : Path) (s : State),
    (Serves s p ownerOnly → ∀ (host : Fin 32) (k : Fin 8) (tag : BitVec 128) (base len : Nat),
      0 < len → (s.region k.val).base ≤ base → base + len ≤ (s.region k.val).base + (s.region k.val).len →
      (s.link host.val).extents.length + (s.link host.val).offered.length < 1024 →
      ∃ t, exec (.initiateDynamicCapacityAdd p host k tag [(base, len)]) s = .next t ∧
        (t.link host.val).offered = (s.link host.val).offered ++ [⟨base, len, k.val, tag.toNat, 0⟩] ∧
        (t.link host.val).extents = (s.link host.val).extents ∧ (∀ n, n ≠ host.val → t.link n = s.link n) ∧
        (t.link host.val).events.length = (s.link host.val).events.length + 1 ∧
        t.out.getLast? = some (.mailbox p 0x5604 0 []) ∧ t.regs = s.regs ∧ t.siv = s.siv ∧ t.stk = s.stk) ∧
    (Serves s p ownerOnly → ∀ (host : Fin 32) (k : Fin 8) (tag : BitVec 128) (base len : Nat),
      len = 0 ∨ base < (s.region k.val).base ∨ (s.region k.val).base + (s.region k.val).len < base + len →
      exec (.initiateDynamicCapacityAdd p host k tag [(base, len)]) s = .next (answered s p 0x5604 2 [])) ∧
    (Serves s p anyone → ∀ e : Extent, (s.link (s.pathLink p)).offered = [e] →
      (s.link (s.pathLink p)).extents.length < 1024 →
      ∃ links, exec (.addDynamicCapacityResponse p [(e.base, e.len)]) s =
          .next (answered { s with ports := { s.ports with links := links } } p 0x4802 0 []) ∧
        ∀ n, links.getD n .down = if n = s.pathLink p then
            { s.link n with extents := (s.link n).extents ++ [{ e with added := s.now }], offered := [] }
          else s.link n) ∧
    (Serves s p ownerOnly → ∀ (host : Fin 32) (e : Extent), e ∈ (s.link host.val).extents → 0 < e.len →
      ∃ t, exec (.initiateDynamicCapacityRelease p host false [(e.base, e.len)]) s = .next t ∧
        (t.link host.val).extents = (s.link host.val).extents ∧
        (t.link host.val).releasing = (s.link host.val).releasing ++ [⟨e.base, e.len, 0, 0, s.now⟩] ∧
        (∀ n, n ≠ host.val → t.link n = s.link n) ∧ t.out.getLast? = some (.mailbox p 0x5605 0 []) ∧
        t.siv = s.siv ∧ t.stk = s.stk)

/-! ### Discard, poison, scan -/

/-- R67, R144 to R146: a Discard Range of whole loaves, in DPA that the path may name, resolves every line of the range to
zeros, with no media access and no frame of it left, where no frame of the range holds a write newer than its
program (R145), the directory holds no line of it, so that nothing is to be flushed first (R320), and journal staging has room
for the record (R134); the zero operation does the same (R64). A range that is not one of whole slices is Invalid Input, and nothing
changes. Completes: DISCARD_RANGE, MEDIA_OPERATIONS_ZERO. -/
def Sys2Proof.Claims.DiscardedLoavesReadZero : Prop :=
  ∀ (p : Path) (s : State) (dpa len : BitVec 64), Serves s p anyone →
    (dpa.toNat % 65536 = 0 → len.toNat % 65536 = 0 → 0 < len.toNat →
      s.mayRange p (dpa.toNat / 256) (len.toNat / 256) = true →
      (∀ e ∈ s.stk.frames, inSpan (dpa.toNat / 256) (len.toNat / 256) e.2.slice = true → e.2.redirty = false) →
      (∀ e ∈ s.spr.dir, inSpan (dpa.toNat / 256) (len.toNat / 256) (e.2.line / 4) = false) →
      s.inFlush (dpa.toNat / 256) (len.toNat / 256) = false → s.stagingRoom 1 = true →
      ∀ c, c = Instr.discardRange p dpa len ∨ c = Instr.mediaOperationsZero p [(dpa, len)] →
      ∃ t, exec c s = .next t ∧ ∀ slice line, inSpan (dpa.toNat / 256) (len.toNat / 256) slice = true →
        t.lookup slice line = .zeros ∧ t.resident slice = none) ∧
    (dpa.toNat % 256 ≠ 0 ∨ len.toNat % 256 ≠ 0 ∨ len.toNat = 0 →
      exec (.discardRange p dpa len) s = .next (answered s p 0xC001 2 []) ∧
      exec (.mediaOperationsZero p [(dpa, len)]) s = .next (answered s p 0x4402 2 []))

/-- R58: the release of an extent by its host, and a forced release by the fabric owner, take it from the link at once, and
its whole range reads as zeros from then on, under the conditions of DiscardedLoavesReadZero and where the link has no write to
it that is not yet accepted. Completes: RELEASE_DYNAMIC_CAPACITY, INITIATE_DYNAMIC_CAPACITY_RELEASE with force. -/
def Sys2Proof.Claims.ReleasedExtentsReadZero : Prop :=
  ∀ (p : Path) (s : State) (n : Fin 32) (e : Extent), (s.link n.val).extents = [e] → 0 < e.len → e.base + e.len ≤ 2 ^ 17 →
    (∀ f ∈ s.stk.frames, inSpan (e.base * 2 ^ 20) (e.len * 2 ^ 20) f.2.slice = true → f.2.redirty = false) →
    (∀ d ∈ s.spr.dir, inSpan (e.base * 2 ^ 20) (e.len * 2 ^ 20) (d.2.line / 4) = false) →
    s.inFlush (e.base * 2 ^ 20) (e.len * 2 ^ 20) = false → s.stagingRoom 1 = true →
    s.writesWait (some n.val) [(e.base * 2 ^ 20, e.len * 2 ^ 20)] = false →
    ∀ c, (c = Instr.releaseDynamicCapacity p [(e.base, e.len)] ∧ Serves s p anyone ∧ s.pathLink p = n.val) ∨
        (c = Instr.initiateDynamicCapacityRelease p n true [(e.base, e.len)] ∧ Serves s p ownerOnly) →
    ∃ t, exec c s = .next t ∧ (t.link n.val).extents = [] ∧
      (∀ slice line, inSpan (e.base * 2 ^ 20) (e.len * 2 ^ 20) slice = true →
        t.lookup slice line = .zeros ∧ t.resident slice = none)

/-- R64: the poison list names the poisoned lines of the range that a path may name, at most 4,095, by their DPA; Inject Poison
and Clear Poison are writes of the line, whose data is open when poison is injected, answered once the stockpot has accepted
them and with Busy while it cannot; a DPA that is not a line's, or at or above the user capacity, is Invalid Input. Completes:
GET_POISON_LIST, INJECT_POISON, CLEAR_POISON. -/
def Sys2Proof.Claims.PoisonCommands : Prop :=
  ∀ (p : Path) (s : State) (dpa : BitVec 64),
    (Serves s p anyone → dpa.toNat % 256 = 0 → s.mayRange p (dpa.toNat / 256) 1 = true →
      ∃ b : List Byte, exec (.getPoisonList p dpa 4) s = .next (answered s p 0x4300 0 b) ∧
        (∀ x, s.knownSlices (dpa.toNat / 256) 1 = [x] →
          field b 10 2 = ((List.range 4).filter (fun k => (s.poisonOf x).getLsbD k && inSpan (dpa.toNat / 64) 4 (x * 4 + k))).length)) ∧
    (Serves s p ownerOnly → dpa.toNat % 64 = 0 → dpa.toNat < s.capacity → ∀ data : Line,
      (∀ t, s.stewardWrite (dpa.toNat / 64) data false = some t →
        exec (.clearPoison p dpa data) s = .next (answered t p 0x4302 0 [])) ∧
      (s.stewardWrite (dpa.toNat / 64) data false = none →
        exec (.clearPoison p dpa data) s = .next (answered s p 0x4302 6 [])) ∧
      (∀ t, ({ s with free := s.free + 1 } : State).stewardWrite (dpa.toNat / 64) (Config.freeLine s.free) true = some t →
        exec (.injectPoison p dpa) s = .next (answered t p 0x4301 0 []))) ∧
    (Serves s p ownerOnly → ∀ data : Line, dpa.toNat % 64 ≠ 0 ∨ s.capacity ≤ dpa.toNat →
      exec (.clearPoison p dpa data) s = .next (answered s p 0x4302 2 []) ∧
      exec (.injectPoison p dpa) s = .next (answered s p 0x4301 2 []))

/-- R64: Scan Media reads the codewords of the range through the data path as a background command: a read is requested for
each, the results so far are dropped, and one scan runs at a time; its results name lines that the path may name, and no user
data (R373); the estimate is open. Completes: SCAN_MEDIA, GET_SCAN_MEDIA_CAPABILITIES, GET_SCAN_MEDIA_RESULTS. -/
def Sys2Proof.Claims.ScanMediaCommands : Prop :=
  ∀ (p : Path) (s : State), Serves s p anyone →
    (∀ dpa lines : BitVec 64,
      s.mayRange p (dpa.toNat / 256) ((dpa.toNat / 64 + lines.toNat + 3) / 4 - dpa.toNat / 256) = true →
      (∃ b : Nat → List Byte, exec (.getScanMediaCapabilities p dpa lines) s = .next (answeredOpen s p 0x4303 b)) ∧
      (s.mbx.runs = [] → ∃ t, exec (.scanMedia p dpa lines) s = .next t ∧
        t.mbx.runs = [⟨p, 0x4304, s.now, true, [], []⟩] ∧ t.mbx.scan = [] ∧
        t.out = s.out ++ [.background p 0x4304] ∧
        t.pass.nextReq = s.pass.nextReq +
          (s.codewordsOf (dpa.toNat / 256) ((dpa.toNat / 64 + lines.toNat + 3) / 4 - dpa.toNat / 256)).length ∧
        exec (.scanMedia p dpa lines) t = .next (answered t p 0x4304 6 []))) ∧
    (∃ b : List Byte, exec (.getScanMediaResults p) s = .next (answered s p 0x4305 0 b) ∧
      ((s.mbx.scan = [] ∨ ∀ l, s.mayRange p l 1 = false) → field b 26 2 = 0 ∧ b.length = 48))

/-! ### Keys, alarms, raw access (12_protection.md) -/

/-- R371: Get Key Info lists the state and the generation of the 64 slots of a group, 4 bytes each; a group that is not the
path's own, or that there is not, is Invalid Input. Completes: GET_KEY_INFO. -/
def Sys2Proof.Claims.KeyInfoLayout : Prop :=
  ∀ (p : Path) (s : State) (group : Byte), Serves s p anyone →
    (group.toNat < 16 → s.ownsGroup p group.toNat = true →
      ∃ b : List Byte, exec (.getKeyInfo p group) s = .next (answered s p 0xC010 0 b) ∧ b.length = 256 ∧
        ∀ k < 64, (s.slot (group.toNat * 64 + k)).state < 2 ^ 16 →
          field b (4 * k) 2 = (s.slot (group.toNat * 64 + k)).state ∧
          field b (4 * k + 2) 2 = (s.slot (group.toNat * 64 + k)).gen.toNat) ∧
    (16 ≤ group.toNat ∨ s.ownsGroup p group.toNat = false →
      exec (.getKeyInfo p group) s = .next (answered s p 0xC010 2 []))

/-- R371, R358: with no other change under way, Generate Key on an EMPTY slot leaves it EMPTY until the vault copy is durable;
then the slot is LOADED, its generation one higher or at 0xFFFF, and the command answers 0; where the copy fails the slot stays
EMPTY and the command answers 2. No other slot changes. On a slot that is not EMPTY it answers 1 and no slot changes. Completes:
GENERATE_KEY, VAULT_COPY_WRITTEN of the vault. -/
def Sys2Proof.Claims.GeneratedKeyLoadsWhenDurable : Prop :=
  ∀ (p : Path) (s : State) (n : BitVec 16), Serves s p anyone → n.toNat < 1024 → s.ownsGroup p (n.toNat / 64) = true →
    s.prot.jobs = [] → s.mbx.runs = [] →
    ((s.slot n.toNat).state = 0 → ∃ t, exec (.generateKey p n) s = .next t ∧ t.out = s.out ∧
      (∀ k, (t.slot k).state = (s.slot k).state) ∧
      (∃ u, exec (.vaultCopyWritten 0 true) t = .next u ∧ (u.slot n.toNat).state = 1 ∧
        (u.slot n.toNat).gen.toNat = min 0xFFFF ((s.slot n.toNat).gen.toNat + 1) ∧
        (∀ k, k ≠ n.toNat → u.slot k = s.slot k) ∧ u.out = s.out ++ [.mailbox p 0xC011 0 (leBytes 4 0)] ∧
        u.mbx.runs = []) ∧
      (∃ u, exec (.vaultCopyWritten 0 false) t = .next u ∧ (u.slot n.toNat).state = 0 ∧
        (∀ k, k ≠ n.toNat → u.slot k = s.slot k) ∧
        .mailbox p 0xC011 0 (leBytes 4 2) ∈ u.out ∧ u.mbx.runs = [])) ∧
    ((s.slot n.toNat).state ≠ 0 → ∃ t, exec (.generateKey p n) s = .next t ∧
      t.out = s.out ++ [.mailbox p 0xC011 0 (leBytes 4 1)] ∧ t.slots = s.slots ∧ t.mbx.runs = [])

/-- R372: with no other change under way, Erase Key has its ordering point at its start: the slot is EMPTY at once, its
generation stays, no frame of it is left in STATE 1, every ladle runs an invalidation, and the command waits;
no other slot changes. On an EMPTY slot it answers 1. Completes: ERASE_KEY. -/
def Sys2Proof.Claims.ErasedKeyIsEmptyAtOnce : Prop :=
  ∀ (p : Path) (s : State) (n : BitVec 16), Serves s p anyone → n.toNat < 1024 → s.ownsGroup p (n.toNat / 64) = true →
    s.prot.jobs = [] → s.mbx.runs = [] →
    ((s.slot n.toNat).state ≠ 0 → ∃ t, exec (.eraseKey p n) s = .next t ∧ (t.slot n.toNat).state = 0 ∧
      (t.slot n.toNat).gen = (s.slot n.toNat).gen ∧ (∀ k, k ≠ n.toNat → t.slot k = s.slot k) ∧
      (∀ e ∈ t.stk.frames, metaRegion.has e.1 = false → e.2.keyslot = n.toNat → e.2.state ≠ .resident) ∧
      (∀ q < 8, (t.ladle q).invBusy = true) ∧ t.mbx.runs.length = 1) ∧
    ((s.slot n.toNat).state = 0 → ∃ t, exec (.eraseKey p n) s = .next t ∧
      t.out = s.out ++ [.mailbox p 0xC012 0 (leBytes 4 1)] ∧ t.slots = s.slots ∧ t.mbx.runs = [])

/-- R372: Secure Erase and Sanitize regenerate: from their start, with no other change under way, no slot is LOADED or FAILED,
and neither has answered when the change is queued, except that Sanitize says it goes on in the background. Completes:
SECURE_ERASE, SANITIZE. -/
def Sys2Proof.Claims.EraseAllEmptiesEverySlot : Prop :=
  ∀ (p : Path) (s : State), Serves s p ownerOnly → s.prot.jobs = [] → s.mbx.runs = [] →
    (∃ t, exec (.secureErase p) s = .next t ∧ (∀ n, (t.slot n).state ≠ 1 ∧ (t.slot n).state ≠ 2) ∧ t.out = s.out ∧
      t.prot.jobs = [⟨.regenerate, some p, 0x4401⟩]) ∧
    (∃ t, exec (.sanitize p) s = .next t ∧ (∀ n, (t.slot n).state ≠ 1 ∧ (t.slot n).state ≠ 2) ∧
      t.out = s.out ++ [.background p 0x4400] ∧ t.prot.jobs = [⟨.regenerate, some p, 0x4400⟩])

/-- R370, R371: a nonce is 16 bytes from the device's entropy, is outstanding alone, and expires after 60 s; a lockout ends at its
time. The bytes of a nonce are free values. Completes: GET_AUTH_NONCE, NONCE_EXPIRY, AUTH_LOCKOUT_END. -/
def Sys2Proof.Claims.NonceAndLockout : Prop :=
  ∀ (p : Path) (s : State),
    (Serves s p ownerOnly → ∃ n : List Byte, n.length = 16 ∧
      exec (.getAuthNonce p) s = .next (answered { s with
        free := s.free + 2, prot := { s.prot with nonce := some n, nonceAt := s.now } } p 0xC013 0 n)) ∧
    (∀ n, s.prot.nonce = some n → exec .nonceExpiry s = .next { s with
      now := max s.now (s.prot.nonceAt + 60 * Config.sec), prot := { s.prot with nonce := none } }) ∧
    (∀ at', s.prot.lockedUntil = some at' → exec .authLockoutEnd s = .next { s with
      now := max s.now at', prot := { s.prot with lockedUntil := none } })

/-- R370, R371: Set Owner Secret on an IDE-secure path, while no secret is set and so any whole block passes, consumes the nonce
and sets the secret once the vault copy is durable; on another path it answers 4; with less than a whole block it is Invalid
Input, the nonce stays and nothing else changes. With a secret set a block that does not verify answers 2 and the third one
starts a lockout of 10 s. Completes: SET_OWNER_SECRET. -/
def Sys2Proof.Claims.OwnerSecretIsSet : Prop :=
  ∀ (p : Path) (s : State) (input : List Byte), Serves s p ownerOnly →
    (input.length < 64 → exec (.setOwnerSecret p input) s = .next (answered s p 0xC014 2 [])) ∧
    (64 ≤ input.length → s.prot.secret = none →
      (s.ideSecurePath p = false → exec (.setOwnerSecret p input) s =
        .next (answered { s with prot := { s.prot with nonce := none } } p 0xC014 0 (leBytes 4 4))) ∧
      (s.ideSecurePath p = true → s.prot.jobs = [] → s.mbx.runs = [] →
        ∃ t, exec (.setOwnerSecret p input) s = .next t ∧ t.prot.nonce = none ∧ t.prot.secret = none ∧ t.out = s.out ∧
          ∃ u, exec (.vaultCopyWritten 0 true) t = .next u ∧ u.prot.secret = some (input.take 32) ∧
            u.out = s.out ++ [.mailbox p 0xC014 0 (leBytes 4 0)])) ∧
    (64 ≤ input.length → ∀ key, s.prot.secret = some key → s.prot.lockedUntil = none →
      s.blockPasses key 0xC014 (input.take 32) (input.drop 32) = false → s.prot.authFails = 2 →
      exec (.setOwnerSecret p input) s = .next (answered { s with prot := { s.prot with
        nonce := none, authFails := 0, lockedUntil := some (s.now + 10 * Config.sec) } } p 0xC014 0 (leBytes 4 2)))

/-- R366, R367, R376: a write of 1 to KEY_CTRL.FORCE_LID enters lid down with cause 4: the latch is set, and every link is down
and held; in lid down it changes nothing more. Completes: FORCE_LID. -/
def Sys2Proof.Claims.ForcedLidTakesEveryLinkDown : Prop :=
  ∀ (path : Path) (s : State), Writes s path .key →
    (s.prot.lid = false → ∃ t, exec (.forceLid path) s = .next t ∧ t.prot.lid = true ∧ t.prot.cause = 4 ∧
      (∀ n < 32, (t.link n).up = false ∧ (t.link n).held = true) ∧ t.slots = s.slots ∧ t.prot.secret = s.prot.secret) ∧
    (s.prot.lid = true → exec (.forceLid path) s = .next s)

/-- R369: Clear Alarm outside lid down answers 1, with a reserved action 3, and in both cases the nonce is consumed; the first
of the outcomes 2, 3, 1 that applies is the one returned. In lid down, with a usable vault and no other change under way, the
latch is cleared once its vault copy is durable, and the command then answers 0. Completes: CLEAR_ALARM_RESUME,
CLEAR_ALARM_REFORMAT. -/
def Sys2Proof.Claims.ClearAlarmOutcomes : Prop :=
  ∀ (p : Path) (s : State) (blk : List Byte) (action : Byte), Serves s p ownerOnly → 32 ≤ blk.length → s.prot.secret = none →
    (2 ≤ action.toNat → exec (.clearAlarmReformat p action blk) s =
      .next (answered { s with prot := { s.prot with nonce := none } } p 0xC020 0 (leBytes 4 3))) ∧
    (s.prot.lid = false → exec (.clearAlarmResume p blk) s =
      .next (answered { s with prot := { s.prot with nonce := none } } p 0xC020 0 (leBytes 4 1)) ∧
      exec (.clearAlarmReformat p 1 blk) s =
        .next (answered { s with prot := { s.prot with nonce := none } } p 0xC020 0 (leBytes 4 1))) ∧
    (s.prot.lid = true → s.vaultUsable = true → s.prot.jobs = [] → s.mbx.runs = [] →
      (∃ t, exec (.clearAlarmResume p blk) s = .next t ∧ t.prot.lid = true ∧ t.prot.nonce = none ∧ t.out = s.out ∧
        ∃ u, exec (.vaultCopyWritten 0 true) t = .next u ∧ u.prot.lid = false ∧ u.prot.cause = 0 ∧ u.prot.counted = [] ∧
          u.prot.lastSlices = [] ∧ .mailbox p 0xC020 0 (leBytes 4 0) ∈ u.out ∧ .pin "ALARM" false ∈ u.out) ∧
      (∃ t, exec (.clearAlarmReformat p 1 blk) s = .next t ∧ t.prot.lid = true ∧ t.prot.nonce = none ∧ t.out = s.out ∧
        t.prot.jobs = [⟨.clear 1, some p, 0xC020⟩]))

/-- R373: a raw DPA read of a line in a keyed range gives zeros with poison and a raw DPA write of one is discarded; each is a RAW
alarm and is counted, and neither touches stockpot, map or media. A raw media read of a sector whose KIND is 1, 2 or 7 gives user
bytes of zeros. Outside a keyed range a raw read of a line that the stockpot holds whole gives its bytes. Completes:
RAW_ACCESS. -/
def Sys2Proof.Claims.RawAccessNeverShowsKeyedData : Prop :=
  ∀ (s : State) (debug : Bool) (line : BitVec 39),
    (s.keyedLine line.toNat = true →
      (∃ t, exec (.rawAccess debug (.readDpa line)) s = .next t ∧
        t.out.getLast? = some (.raw debug (List.replicate 64 0) [] true) ∧
        t.prot.rawBlocked = min (s.prot.rawBlocked + 1) (2 ^ 32 - 1) ∧ t.stk = s.stk ∧ t.siv = s.siv ∧ t.med = s.med) ∧
      (∀ data, ∃ t, exec (.rawAccess debug (.writeDpa line data)) s = .next t ∧
        t.prot.rawBlocked = min (s.prot.rawBlocked + 1) (2 ^ 32 - 1) ∧ t.stk = s.stk ∧ t.siv = s.siv ∧ t.med = s.med)) ∧
    (s.keyedLine line.toNat = false → ∀ f, s.resident (line.toNat / 4) = some f →
      (s.frame f).valid.getLsbD (line.toNat % 4) = true → (s.frame f).poison.getLsbD (line.toNat % 4) = false →
      exec (.rawAccess debug (.readDpa line)) s =
        .next (sent s (.raw debug (lineBytes ((s.frame f).data.get (line.toNat % 4))) [] false))) ∧
    (∀ (a : BitVec 38) (x : Sector), s.sector a.toNat = some x → x.kind = 1 ∨ x.kind = 2 ∨ x.kind = 7 →
      ∃ t spare, exec (.rawAccess debug (.readMedia a)) s = .next t ∧
        t.out.getLast? = some (.raw debug (List.replicate 256 0) spare false) ∧ t.med = s.med)

/-! ### SPDM and IDE keys (R374, R62) -/

/-- R374: the requests that set a session up go in the order of the standard, each answered with its response on a link that is
up: GET_VERSION in any stage begins a negotiation; GET_CAPABILITIES, NEGOTIATE_ALGORITHMS and KEY_EXCHANGE take it to the next
stage; FINISH with a proof that verifies opens the session, and END_SESSION ends it; the stage then is what the last one says.
The response codes and the stages are the standard's, not the spec's (log entry 40). Completes: GET_VERSION, GET_CAPABILITIES,
NEGOTIATE_ALGORITHMS, KEY_EXCHANGE, FINISH, END_SESSION. -/
def Sys2Proof.Claims.SessionsAreSetUpInOrder : Prop :=
  ∀ (s : State) (n : Fin 32), (s.link n.val).up = true →
    ∀ (c : Instr) (low high code stage : Nat), (c, low, high, code, stage) ∈
        [(Instr.getVersion n, 0, 5, 0x04, 1), (Instr.getCapabilities n, 1, 2, 0x61, 2),
         (Instr.negotiateAlgorithms n, 2, 3, 0x63, 3), (Instr.keyExchange n, 3, 5, 0x64, 4),
         (Instr.finish n true, 4, 4, 0x65, 5), (Instr.endSession n, 5, 5, 0x6C, 3)] →
      (low ≤ s.prot.doe.getD n.val 0 → s.prot.doe.getD n.val 0 ≤ high →
        ∃ doe, exec c s = .next (sent { s with free := s.free + 1, prot := { s.prot with doe := doe } }
            (.doe n.val code (Config.freeBytes s.free))) ∧
          ∀ k, doe.getD k 0 = if k = n.val then stage else s.prot.doe.getD k 0) ∧
      (s.prot.doe.getD n.val 0 < low ∨ high < s.prot.doe.getD n.val 0 →
        exec c s = .next (sent { s with free := s.free + 1 } (.doe n.val 0x7F (Config.freeBytes s.free))))

/-- R374: the requests that change no stage are answered in a negotiated one, and HEARTBEAT and QUERY inside a session; nothing but
the answer changes. Completes: GET_DIGESTS, GET_CERTIFICATE, CHALLENGE, GET_MEASUREMENTS, HEARTBEAT, QUERY. -/
def Sys2Proof.Claims.SessionQueriesAnswer : Prop :=
  ∀ (s : State) (n : Fin 32), (s.link n.val).up = true →
    ∀ (c : Instr) (low code : Nat), (c, low, code) ∈
        [(Instr.getDigests n, 3, 0x01), (Instr.getCertificate n, 3, 0x02), (Instr.challenge n, 3, 0x03),
         (Instr.getMeasurements n, 3, 0x60), (Instr.heartbeat n, 5, 0x68), (Instr.query n, 5, 0x101)] →
      exec c s = .next (sent { s with free := s.free + 1 } (.doe n.val
        (if low ≤ s.prot.doe.getD n.val 0 ∧ s.prot.doe.getD n.val 0 ≤ 5 then code else 0x7F) (Config.freeBytes s.free)))

/-- R374, R62: inside a link's session KEY_PROG programs a key of a set in one direction, which is not in use yet; K_SET_GO brings
it into use in place of the other set of that direction; with both directions of a stream in use the stream is secure, and an
Insecure one is so no more; K_SET_STOP takes it out of use. No other link's keys change. Completes: KEY_PROG, K_SET_GO,
K_SET_STOP. -/
def Sys2Proof.Claims.IdeKeysComeIntoUse : Prop :=
  ∀ (s : State) (n : Fin 32) (stream : Fin 6) (set : Fin 2) (tx : Bool), (s.link n.val).up = true →
    s.prot.doe.getD n.val 0 = 5 →
    (∃ t, exec (.keyProg n stream set tx) s = .next t ∧ ideCode stream.val set.val tx ∈ t.prot.ideKeys.getD n.val [] ∧
      ideCode stream.val set.val tx + 1 ∉ t.prot.ideKeys.getD n.val [] ∧
      (∀ k, k ≠ n.val → t.prot.ideKeys.getD k [] = s.prot.ideKeys.getD k []) ∧
      t.out = s.out ++ [.doe n.val 0x103 (Config.freeBytes s.free)]) ∧
    (ideCode stream.val set.val tx ∈ s.prot.ideKeys.getD n.val [] → ∃ t, exec (.kSetGo n stream set tx) s = .next t ∧
      ideCode stream.val set.val tx + 1 ∈ t.prot.ideKeys.getD n.val [] ∧
      ideCode stream.val (1 - set.val) tx + 1 ∉ t.prot.ideKeys.getD n.val [] ∧
      (ideSecure (t.prot.ideKeys.getD n.val []) stream.val = true → (t.link n.val).insecure.contains stream.val = false) ∧
      (∀ k, k ≠ n.val → t.prot.ideKeys.getD k [] = s.prot.ideKeys.getD k [] ∧ t.link k = s.link k) ∧
      t.out = s.out ++ [.doe n.val 0x106 (Config.freeBytes s.free)]) ∧
    (∃ t, exec (.kSetStop n stream set tx) s = .next t ∧ ideCode stream.val set.val tx + 1 ∉ t.prot.ideKeys.getD n.val [] ∧
      (∀ k, k ≠ n.val → t.prot.ideKeys.getD k [] = s.prot.ideKeys.getD k []) ∧
      t.out = s.out ++ [.doe n.val 0x106 (Config.freeBytes s.free)])

/-- R62, R374: a flit or TLP of a stream that fails its check makes the stream Insecure until it is re-keyed, the keys of that
stream are lost, and the spike records it; a stream already Insecure, or a link that is down, stays as it is. Completes:
IDE_CHECK_FAIL. -/
def Sys2Proof.Claims.FailedCheckMakesStreamInsecure : Prop :=
  ∀ (s : State) (n : Fin 32) (stream : Fin 6),
    ((s.link n.val).up = true → (s.link n.val).insecure.contains stream.val = false →
      ∃ t, exec (.ideCheckFail n stream) s = .next t ∧ (t.link n.val).insecure = (s.link n.val).insecure ++ [stream.val] ∧
        (∀ k ∈ t.prot.ideKeys.getD n.val [], k / 8 ≠ stream.val) ∧
        (∀ k, k ≠ n.val → t.link k = s.link k ∧ t.prot.ideKeys.getD k [] = s.prot.ideKeys.getD k []) ∧
        t.rails.event.waiting = s.rails.event.waiting ++ [⟨0x1004, BitVec.ofNat 64 n.val, BitVec.ofNat 64 stream.val, 0, 0⟩]) ∧
    ((s.link n.val).up = false ∨ (s.link n.val).insecure.contains stream.val = true →
      exec (.ideCheckFail n stream) s = .next s)

/-! ### Links (02_host_ports.md) -/

/-- R520, R73, R76, R80: outside Simmer a link that is down, not held and may train comes up with the width and the rate it trained
to, a rate above the fifth only in 256 B flit mode, with MEM_ACTIVE where the device presents memory, its fence SERIAL at the
start and its mask in the pass lowered; every other link stays as it is. A link that is up or held, or may not train, or a width
that the good lanes of its sub-link have not, changes nothing. Completes: LINK_UP. -/
def Sys2Proof.Claims.LinkTrains : Prop :=
  ∀ (s : State) (n : Fin 32) (w r : Fin 7) (flit msix : Bool), s.pwrState ≠ .simmer →
    ((s.link n.val).up = false → (s.link n.val).held = false → s.mayTrain n.val = true → w.val ≠ 0 → r.val ≠ 0 →
      0 < (s.goodLanes n.val).2 → w.val ≤ widthCode (s.goodLanes n.val).2 →
      ∃ t, exec (.linkUp n w r flit msix) s = .next t ∧ (t.link n.val).up = true ∧ (t.link n.val).width = w.val ∧
        (t.link n.val).rate = (if flit then r.val else min 5 r.val) ∧ (t.link n.val).flit256 = flit ∧
        (t.link n.val).memActive = s.mayPresent ∧ (t.link n.val).fenceSerial = 0 ∧
        t.pass.maskLink.getLsbD n.val = false ∧ (∀ k, k ≠ n.val → t.link k = s.link k) ∧
        t.stk = s.stk ∧ t.siv = s.siv ∧ t.med = s.med) ∧
    ((s.link n.val).up = true ∨ (s.link n.val).held = true ∨ s.mayTrain n.val = false ∨ w.val = 0 ∨ r.val = 0 ∨
      (s.goodLanes n.val).2 = 0 ∨ widthCode (s.goodLanes n.val).2 < w.val → exec (.linkUp n w r flit msix) s = .next s)

/-- R71, R91, R374: a link that goes down, also one that was retraining, is no longer up and presents no memory; its fences end, its held and waiting register
writes and its session and IDE keys go, its credits are 256 again, the pass masks it, and the last event on the Event rail is its
record. A link that is down stays as it is. Completes: LINK_DOWN. -/
def Sys2Proof.Claims.LinkGoesDown : Prop :=
  ∀ (s : State) (n : Fin 32) (surprise : Bool),
    ((s.link n.val).up = true ∨ (s.link n.val).retraining = true → ∃ t, exec (.linkDown n surprise) s = .next t ∧
      (t.link n.val).up = false ∧ (t.link n.val).retraining = false ∧ (t.link n.val).memActive = false ∧ (t.link n.val).fences = [] ∧
      (t.link n.val).holds = [] ∧ (t.link n.val).blocked = [] ∧ (t.link n.val).credits = 256 ∧
      t.prot.doe.find n.val = none ∧ t.prot.ideKeys.find n.val = none ∧ t.pass.maskLink.getLsbD n.val = true ∧
      ∃ e : Ev, t.rails.event.waiting.getLast? = some e ∧ e.code = 0x1001 ∧ e.p0 = BitVec.ofNat 64 n.val ∧
        e.p1 = (if surprise then 1 else 0)) ∧
    ((s.link n.val).up = false → (s.link n.val).retraining = false → exec (.linkDown n surprise) s = .next s)

/-- R452: while PERST# of a port is asserted its links are down and held; once it deasserts every link that may train is held no
more, and every other one is. Completes: PERST_ASSERT, PERST_DEASSERT. -/
def Sys2Proof.Claims.PerstHoldsItsLinks : Prop :=
  ∀ (s : State) (p : Fin 8),
    (∃ t, exec (.perstAssert p) s = .next t ∧ p.val ∈ t.ports.perst ∧
      ∀ k < 4, (t.link (p.val * 4 + k)).up = false ∧ (t.link (p.val * 4 + k)).held = true ∧ t.mayTrain (p.val * 4 + k) = false) ∧
    (∃ t, exec (.perstDeassert p) s = .next t ∧ p.val ∉ t.ports.perst ∧
      (∀ n < 32, (t.link n).held = !t.mayTrain n ∧ (t.link n).up = (s.link n).up) ∧ t.out = s.out)

/-- R60: GPF phase 1 is answered at once on a link that is up; phase 2 is answered once no ingress queue holds a committed entry;
while Flush runs the answer waits for it. Completes: GPF_PHASE_1, GPF_PHASE_2. -/
def Sys2Proof.Claims.GpfPhasesAnswer : Prop :=
  ∀ (s : State) (n : Fin 32),
    ((s.link n.val).up = true → exec (.gpfPhase1 n) s = .next (sent s (.gpf n.val 1))) ∧
    ((s.link n.val).up = true → s.pwrState ≠ .flush → (∀ k < 32, (s.link k).iwq = []) →
      exec (.gpfPhase2 n) s = .next (sent s (.gpf n.val 2))) ∧
    (s.pwrState = .flush → ∃ w, exec (.gpfPhase2 n) s = .next { s with ports := { s.ports with gpfWaiting := w } } ∧ n.val ∈ w)

/-- R41, R47: a viral indication is recorded and has no other effect; a host that commits an HDM decoder with values that the
rules admit has it committed, one that they do not admit has the error flag set instead, and clearing Commit clears both; no
other decoder and no other link changes. Completes: VIRAL_RECEIVED, HDM_DECODER_COMMIT. -/
def Sys2Proof.Claims.ViralAndDecoders : Prop :=
  ∀ (s : State) (n : Fin 32),
    (∃ links, exec (.viralReceived n) s = .next { s with ports := { s.ports with links := links } } ∧
      ∀ k, links.getD k .down = if k = n.val then { s.link k with viral := true } else s.link k) ∧
    (∀ (k : Fin 16) (set : Bool) (base size : BitVec 64) (ways gran : Nat), (s.link n.val).up = true →
      (s.link n.val).insecure.contains 1 = false →
      ∃ links, exec (.hdmDecoderCommit n k set base size ways gran) s =
          .next { s with ports := { s.ports with links := links } } ∧
        (∀ j, j ≠ n.val → links.getD j .down = s.link j) ∧
        (links.getD n.val .down).decoders.find k.val = some ⟨base, size, ways, gran,
          set && s.decoderOk n.val k.val base.toNat size.toNat ways gran,
          set && !s.decoderOk n.val k.val base.toNat size.toNat ways gran⟩ ∧
        (∀ j, j ≠ k.val → (links.getD n.val .down).decoders.find j = (s.link n.val).decoders.find j))

/-- R53, R55: once the fabric-owner port's sub-link 0 has been down for 500 ms while that of the alternate port is up, the
alternate port takes the role, and the device records the move; while the primary is up nothing moves. A primary that comes back
up does not take the role back. Completes: FO_FAILOVER. -/
def Sys2Proof.Claims.AlternateTakesTheRole : Prop :=
  ∀ s : State,
    (s.ports.foPort = s.rolePort 0 → s.rolePort 1 ≠ s.rolePort 0 → (s.link (s.rolePort 0 * 4)).up = false →
      (s.link (s.rolePort 1 * 4)).up = true →
      ∃ t, exec .foFailover s = .next t ∧ t.ports.foPort = s.rolePort 1 ∧ t.ports.foMoved = true ∧
        t.now = max s.now ((s.link (s.rolePort 0 * 4)).downSince + 500 * Config.ms) ∧
        t.rails.event.waiting = s.rails.event.waiting ++ [⟨0x1003, BitVec.ofNat 64 (s.rolePort 1), 0, 0, 0⟩] ∧
        (∀ k, t.link k = s.link k)) ∧
    ((s.link (s.rolePort 0 * 4)).up = true → exec .foFailover s = .next s) ∧
    (∀ (n : Fin 32) (w r : Fin 7) (flit msix : Bool), ∃ t, exec (.linkUp n w r flit msix) s = .next t ∧
      t.ports.foPort = s.ports.foPort)

/-- R70: Link Control answers, for every action, PORT_LINK_STATUS of the link in bytes 0 to 3 and its owner epoch in bytes 4 to 7,
as they stand after the action; status changes nothing; disable takes the link down and holds it, and a link cannot disable
itself; enable lets a disabled link train again where nothing else holds it; retrain takes a link that is up out of L0 to train again,
without an increment of its epoch. Completes: LINK_STATUS, LINK_DISABLE, LINK_ENABLE, LINK_RETRAIN. -/
def Sys2Proof.Claims.LinkControlActions : Prop :=
  ∀ (p : Path) (s : State) (n : Fin 32), Serves s p ownerOnly →
    (exec (.linkStatus p n) s = .next (answered s p 0xC004 0
      (leBytes 4 (s.linkStatus n.val).toNat ++ leBytes 4 (s.flt.epochs.getD (s.group n.val) 0).toNat))) ∧
    (p ≠ .link n → ∃ t, exec (.linkDisable p n) s = .next t ∧ (t.link n.val).up = false ∧ (t.link n.val).disabled = true ∧
      (t.link n.val).held = true ∧ t.mayTrain n.val = false ∧ t.out.getLast? = some (.mailbox p 0xC004 0
        (leBytes 4 (t.linkStatus n.val).toNat ++ leBytes 4 (t.flt.epochs.getD (t.group n.val) 0).toNat))) ∧
    (p = .link n → exec (.linkDisable p n) s = .next (answered s p 0xC004 2 [])) ∧
    ((s.link n.val).disabled = true → ∃ t, exec (.linkEnable p n) s = .next t ∧ (t.link n.val).disabled = false ∧
      (t.link n.val).held = !t.mayTrain n.val ∧ t.out.getLast? = some (.mailbox p 0xC004 0
        (leBytes 4 (t.linkStatus n.val).toNat ++ leBytes 4 (t.flt.epochs.getD (t.group n.val) 0).toNat))) ∧
    ((s.link n.val).up = true → ∃ t, exec (.linkRetrain p n) s = .next t ∧ (t.link n.val).up = false ∧
      (t.link n.val).retraining = true ∧ (t.link n.val).memActive = false ∧ (t.link n.val).held = (s.link n.val).held ∧ t.flt.epochs = s.flt.epochs ∧
      t.hooks = s.hooks ∧ t.out.getLast? = some (.mailbox p 0xC004 0
        (leBytes 4 (t.linkStatus n.val).toNat ++ leBytes 4 (t.flt.epochs.getD (t.group n.val) 0).toNat)))

/-- R69, R370: Fabric Owner Transfer to a port whose sub-link 0 is up moves the role and then answers, where the authorisation
block passes, as any whole block does while no secret is set; a port whose sub-link 0 is down, or that there is not, is Invalid
Input and the role stays; without a whole block it is Invalid Input and the nonce stays. The nonce is consumed otherwise.
Completes: FABRIC_OWNER_TRANSFER. -/
def Sys2Proof.Claims.FabricOwnerTransferMovesTheRole : Prop :=
  ∀ (p : Path) (s : State) (port : Byte) (blk : List Byte), Serves s p ownerOnly →
    (32 ≤ blk.length → s.prot.secret = none → port.toNat < 8 → (s.link (port.toNat * 4)).up = true →
      ∃ t, exec (.fabricOwnerTransfer p port blk) s = .next t ∧ t.ports.foPort = port.toNat ∧ t.prot.nonce = none ∧
        t.out.getLast? = some (.mailbox p 0xC003 0 []) ∧ (∀ k, t.link k = s.link k) ∧
        t.rails.event.waiting = s.rails.event.waiting ++ [⟨0x1003, BitVec.ofNat 64 port.toNat, 1, 0, 0⟩]) ∧
    (32 ≤ blk.length → s.prot.secret = none → 8 ≤ port.toNat ∨ (s.link (port.toNat * 4)).up = false →
      exec (.fabricOwnerTransfer p port blk) s =
        .next (answered { s with prot := { s.prot with nonce := none } } p 0xC003 2 [])) ∧
    (blk.length < 32 → exec (.fabricOwnerTransfer p port blk) s = .next (answered s p 0xC003 2 []))

/-! ### CXL.mem requests and back-invalidation (02_host_ports.md, 10_coherence.md) -/

/-- R77, R51: a CXL.mem read or write that arrives on a link whose Memory_Active is 0 is out of range: a read is answered with 64 B
of zeros with poison, a write is completed and its data discarded, and in both cases the port's capture words hold the address,
the link, cause 1 and reason 4, and an event is recorded. The MetaValue of the answer is open. Nothing of stockpot, map, media
or ingress queues changes. -/
def Obligations.NoMemoryIsOutOfRange : Prop :=
  ∀ (s : State) (n : Fin 32) (tag : BitVec 16) (hpa : BitVec 64) (m : MetaV), Takes s n.val → s.quiesced n.val = false →
    (s.link n.val).memActive = false → 0 < (s.link n.val).credits →
    ∀ c, (c = Instr.memRd n tag hpa m false ∨ (∃ noOp, c = Instr.memRdData n tag hpa noOp) ∨
        (∃ data poison, c = Instr.memWr n tag hpa data poison m) ∨
        (∃ data mask poison, c = Instr.memWrPtl n tag hpa data mask poison m)) →
      ∃ t, exec c s = .next t ∧ t.stk = s.stk ∧ t.siv = s.siv ∧ t.med = s.med ∧ t.ladles = s.ladles ∧
        (∀ k, (t.link k).iwq = (s.link k).iwq) ∧
        t.getLive (.port (n.val / 4)) 0x20 = hpa.extractLsb' 0 32 ∧ t.getLive (.port (n.val / 4)) 0x24 = hpa.extractLsb' 32 32 ∧
        t.getLive (.port (n.val / 4)) 0x28 = BitVec.ofNat 32 n.val ∧
        (∃ w, t.getLive (.port (n.val / 4)) 0x2C = at32 1 0 ||| at32 w 4 ||| at32 4 9 ∧
          (w = 0x1F ∨ ∃ d, (w, d) ∈ (s.link n.val).decoders)) ∧
        (∃ e : Ev, t.rails.event.waiting = s.rails.event.waiting ++ [e] ∧ e.code = 0x1002 ∧ e.p0 = BitVec.ofNat 64 n.val) ∧
        (if (∃ data poison, c = Instr.memWr n tag hpa data poison m) ∨
            (∃ data mask poison, c = Instr.memWrPtl n tag hpa data mask poison m)
          then t.out.getLast? = some (.cmp n.val tag.toNat 0)
          else ∃ kind, t.out.getLast? = some (.data n.val tag.toNat 0 true kind))

/-- R28, R90, R301: a request that decodes in a private or open-shelf window. A read whose bytes the link's own queued writes
cover is answered at once, forwarded from them; a read of a line that they do not touch goes on as a load of its own; a write
takes one credit, is committed to its link's queue and completed; MemInv, MemInvNT and MemClnEvct are completed; MemSpecRd is
taken with no effect. Completes: MEM_RD, MEM_RD_DATA, MEM_WR, MEM_WR_PTL, MEM_INV, MEM_INV_NT, MEM_CLN_EVCT, MEM_SPEC_RD. -/
def Obligations.RequestsInPlainWindows : Prop :=
  ∀ (s : State) (n : Fin 32) (tag : BitVec 16) (hpa : BitVec 64) (m : MetaV) (k line slot keyId : Nat) (wt : WinType),
    Takes s n.val → s.quiesced n.val = false → s.hostDecode n.val hpa = .hit k line slot keyId wt → wt ≠ .coherent →
    (∀ c, c = Instr.memRd n tag hpa m false ∨ (∃ noOp, c = Instr.memRdData n tag hpa noOp) →
      (∀ e : IwqEntry, (s.link n.val).iwq = [e] → e.line = line → e.mask = fullMask → e.poison = false →
        ∃ t, exec c s = .next t ∧ t.nextLoad = s.nextLoad + 1 ∧ t.loads.find s.nextLoad = none ∧
          (∀ j, j ≠ s.nextLoad → t.loads.find j = s.loads.find j) ∧
          ∃ kind, .data n.val tag.toNat e.data false kind ∈ t.out.drop s.out.length) ∧
      ((s.link n.val).iwq = [] → ∃ t, exec c s = .next t ∧ t.nextLoad = s.nextLoad + 1)) ∧
    (∀ (data : Line) (mask : Mask) (poison : Bool), 0 < (s.link n.val).credits →
      (∃ t, exec (.memWrPtl n tag hpa data mask poison m) s = .next t ∧
        (t.link n.val).credits = (s.link n.val).credits - 1 ∧
        .cmp n.val tag.toNat 0 ∈ t.out.drop s.out.length ∧
        ∃ e ∈ (t.link n.val).iwq, e.line = line ∧ e.data = data ∧ e.mask = mask ∧ e.poison = poison) ∧
      (∃ t, exec (.memWr n tag hpa data poison m) s = .next t ∧
        (t.link n.val).credits = (s.link n.val).credits - 1 ∧
        .cmp n.val tag.toNat 0 ∈ t.out.drop s.out.length ∧
        ∃ e ∈ (t.link n.val).iwq, e.line = line ∧ e.data = data ∧ e.mask = fullMask ∧ e.poison = poison)) ∧
    (∀ c, c = Instr.memInv n tag hpa m ∨ c = Instr.memInvNt n tag hpa m ∨ c = Instr.memClnEvct n tag hpa →
      ∃ t, exec c s = .next t ∧ t.out = s.out ++ [.cmp n.val tag.toNat 0] ∧ t.stk = s.stk ∧ t.spr = s.spr ∧
        (∀ j, (t.link j).iwq = (s.link j).iwq)) ∧
    exec (.memSpecRd n hpa) s = .next s

/-! ### Coherence: answers to snoops (10_coherence.md) -/

/-- R302, R316, R321: an answer to the one snoop of an open tracker, with no write-back queued and no request waiting, ends it: the
tracker and the snoop are gone. BIRspI leaves the link no holder, and a line whose only holder it was is I; BIRspS leaves the line
S; BIRspE leaves the entry; an answer that the snoop does not allow counts as BIRspI and raises PROTOCOL. A host's BIConflict is
acknowledged at once, and nothing but what is noted changes. Completes: BI_RSP_I, BI_RSP_S, BI_RSP_E, BI_CONFLICT. -/
def Sys2Proof.Claims.SnoopAnswers : Prop :=
  ∀ (s : State) (n : Fin 32) (tag : BitVec 12), Takes s n.val →
    (∃ t, exec (.biConflict n tag) s = .next t ∧ Noted s t ∧ t.out.getLast? = some (.cmp n.val tag.toNat 3)) ∧
    (∀ (k : Tracker) (x : Snp) (key : Nat) (e : DirE), s.spr.trackers = [k] → s.spr.snoops = [x] → x.tracker = k.id →
      k.act = .abandon → k.metas = [] → x.tag = some tag.toNat → x.link / 4 = n.val / 4 → x.answer = none → x.line = k.line →
      s.spr.queue = [] → s.spr.flushTodo = [] → (s.link n.val).iwq = [] → s.spr.dir = [(key, e)] → e.line = k.line →
      e.bcast = false → e.ptrs = [x.holder] →
      (∃ t, exec (.biRspI n tag) s = .next t ∧ t.spr.trackers = [] ∧ t.spr.snoops = [] ∧ t.spr.dir = [] ∧
        t.stk = s.stk ∧ t.siv = s.siv ∧ t.ports = s.ports) ∧
      (x.kind ≠ 2 → ∃ t, exec (.biRspS n tag) s = .next t ∧ t.spr.trackers = [] ∧ t.spr.snoops = [] ∧
        t.spr.dir = [(key, { e with state := .shared })] ∧ t.stk = s.stk ∧ t.siv = s.siv ∧ t.ports = s.ports) ∧
      (x.kind = 2 → ∃ t, exec (.biRspS n tag) s = .next t ∧ t.spr.trackers = [] ∧ t.spr.snoops = [] ∧ t.spr.dir = [] ∧
        (t.irqStat .spr).getLsbD 5 = true) ∧
      (x.kind = 0 → ∃ t, exec (.biRspE n tag) s = .next t ∧ t.spr.trackers = [] ∧ t.spr.snoops = [] ∧ t.spr.dir = [(key, e)] ∧
        t.stk = s.stk ∧ t.siv = s.siv ∧ t.ports = s.ports) ∧
      (x.kind ≠ 0 → ∃ t, exec (.biRspE n tag) s = .next t ∧ t.spr.trackers = [] ∧ t.spr.snoops = [] ∧ t.spr.dir = [] ∧
        (t.irqStat .spr).getLsbD 5 = true))

/-- R318, R320, R325: a snoop that has not been answered in SPR_BI_TMO disables its link: it is down, and the timeout is reported
with source 17. A write of GO starts a directory flush, which with nothing in the directory has no line to evict and is over at
its end event, with FLUSH_DONE raised; a GO while one runs is ignored. A read of SPR_TRK_OCC answers and clears SET_MAX.
Completes: SNOOP_TIMEOUT, DIRECTORY_FLUSH, DIRECTORY_FLUSH_END, TRK_OCC_READ. -/
def Sys2Proof.Claims.SnoopTimeoutAndFlush : Prop :=
  (∀ (s : State) (n : Fin 32) (x : Snp), Clocked s →
    s.spr.snoops.find? (fun x => decide (x.link = n.val) && x.tag.isSome && !s.answered x) = some x → (s.link n.val).up = true →
    ∃ t, exec (.snoopTimeout n) s = .next t ∧ (t.link n.val).up = false ∧ (t.link n.val).disabled = true ∧
      (⟨17, 7, s.group n.val⟩ : Report) ∈ t.reports) ∧
  (∀ (s : State) (path : Path), Writes s path .spr →
    (s.spr.flushing = true → exec (.directoryFlush path) s = .next s) ∧
    (s.spr.flushing = false → s.spr.dir = [] → s.spr.trackers = [] → s.spr.snoops = [] → s.spr.flushTodo = [] →
      ∃ t, exec (.directoryFlush path) s = .next t ∧ t.spr.flushing = true ∧ t.flushOver = true ∧ t.spr.dir = [] ∧
        ∃ u, exec .directoryFlushEnd t = .next u ∧ Noted { t with spr := { t.spr with flushing := false } } u ∧
          (u.irqStat .spr).getLsbD 2 = true)) ∧
  (∀ (s : State) (path : Path), Clocked s → s.heard path = true → s.view path .spr ≠ .hidden →
    exec (.trkOccRead path) s = .next (sent { s with spr := { s.spr with setMax := 0 } } (.regRead path [s.regRead path 0x250044])))

/-! ### Ladles, translation, the pass (08_read_path_and_pass.md, 04_translation.md) -/

/-- R240, R243: a write of ENABLE takes effect on a CLEAN ladle and else sets ENABLE_REFUSED; a disable clears CLEAN and voids every
fill; a full invalidation empties the ladle of valid lines, voids its fills and runs until its end, which leaves a disabled
ladle CLEAN and raises INV_DONE; a GO while one runs is ignored. No other ladle changes. Completes: LADLE_ENABLE, LADLE_DISABLE,
RANGE_INVALIDATION, RANGE_INVALIDATION_END. -/
def Sys2Proof.Claims.LadleControls : Prop :=
  ∀ (s : State) (p : Fin 8),
    (∀ path : Path, Writes s path (.ldl p.val) →
      (∃ ls, exec (.ladleEnable path p) s = .next { s with ladles := ls } ∧
        ∀ q, ls.getD q .fresh = if q = p.val then
            (if (s.ladle p.val).clean then { s.ladle p.val with enabled := true, refused := false }
              else { s.ladle p.val with refused := true })
          else s.ladle q) ∧
      (∃ ls, exec (.ladleDisable path p) s = .next { s with ladles := ls } ∧
        (∀ q, q ≠ p.val → ls.getD q .fresh = s.ladle q) ∧ (ls.getD p.val .fresh).enabled = false ∧
        (ls.getD p.val .fresh).clean = false ∧ (ls.getD p.val .fresh).ways = (s.ladle p.val).ways ∧
        ∀ k f, (ls.getD p.val .fresh).fills.find k = some f → f.void = true) ∧
      ((s.ladle p.val).invBusy = true → exec (.rangeInvalidation path p) s = .next s) ∧
      ((s.ladle p.val).invBusy = false → s.liveFld (.ldl p.val) 0x44 29 0 = 0 →
        ∃ t, exec (.rangeInvalidation path p) s = .next t ∧ Noted { s with ladles := t.ladles } t ∧
          (∀ q, q ≠ p.val → t.ladle q = s.ladle q) ∧ (t.ladle p.val).invBusy = true ∧ (t.ladle p.val).victims = [] ∧
          (t.ladle p.val).enabled = (s.ladle p.val).enabled ∧
          (∀ k w, (t.ladle p.val).ways.find k = some w → w.state = .filling) ∧
          ∀ k f, (t.ladle p.val).fills.find k = some f → f.void = true)) ∧
    (Clocked s → (s.ladle p.val).invBusy = true → s.mbx.runs = [] →
      ∃ t, exec (.rangeInvalidationEnd p) s = .next t ∧ Noted { s with ladles := t.ladles } t ∧
        (∀ q, q ≠ p.val → t.ladle q = s.ladle q) ∧ (t.irqStat (.ldl p.val)).getLsbD 0 = true ∧
        t.ladle p.val = { s.ladle p.val with
          invBusy := false, invFull := false
          clean := (s.ladle p.val).clean || ((s.ladle p.val).invFull && !(s.ladle p.val).enabled) }) ∧
    ((s.ladle p.val).invBusy = false → exec (.rangeInvalidationEnd p) s = .next s)

/-- R244, R237: a zero-a-line operation that its rules admit starts at its first line with its count and key slot; one that they do
not, sets ERR and raises ZERO_ERR; one while another runs is ignored. An invalidation taken off a ladle's rail leaves the line
in no victim buffer and no fill that is not void, and counts as applied; a disabled ladle applies nothing. Completes:
ZERO_A_LINE, LADLE_INVALIDATE. -/
def Sys2Proof.Claims.ZeroRunsAndInvalidations : Prop :=
  ∀ (s : State) (p : Fin 8),
    (∀ (path : Path) (lines : Fin 8192) (keyslot : Fin 1024), Writes s path (.ldl p.val) →
      let first := (s.getLive (.ldl p.val) 0x5C).toNat / 64 + s.liveFld (.ldl p.val) 0x60 12 0 * 2 ^ 26
      ((s.ladle p.val).zeroBusy = true → exec (.zeroALine path p lines keyslot) s = .next s) ∧
      ((s.ladle p.val).zeroBusy = false → s.zeroRefused first lines.val = false →
        ∃ t, exec (.zeroALine path p lines keyslot) s = .next t ∧ (t.ladle p.val).zeroBusy = true ∧
          (t.ladle p.val).zeroErr = false ∧ (t.ladle p.val).zeroNext = first ∧ (t.ladle p.val).zeroLeft = lines.val ∧
          (t.ladle p.val).zeroKey = keyslot.val ∧ (∀ q, q ≠ p.val → t.ladle q = s.ladle q) ∧ t.stk = s.stk ∧ t.out = s.out) ∧
      ((s.ladle p.val).zeroBusy = false → s.zeroRefused first lines.val = true →
        ∃ t, exec (.zeroALine path p lines keyslot) s = .next t ∧ (t.ladle p.val).zeroBusy = false ∧
          (t.ladle p.val).zeroErr = true ∧ (t.irqStat (.ldl p.val)).getLsbD 2 = true ∧
          (∀ q, q ≠ p.val → t.ladle q = s.ladle q) ∧ t.stk = s.stk)) ∧
    (∀ (line : Nat) (r : Rail Nat), Clocked s → (s.rails.invalidate.getD p.val .empty).take 256 = some (line, r) →
      ∃ t, exec (.ladleInvalidate p) s = .next t ∧ t.rails.invalidate.getD p.val .empty = r ∧
        (∀ q, q ≠ p.val → t.ladle q = s.ladle q ∧ t.rails.invalidate.getD q .empty = s.rails.invalidate.getD q .empty) ∧
        t.ports.applied.getD p.val 0 = s.ports.applied.getD p.val 0 + 1 ∧
        ((s.ladle p.val).enabled = true → (∀ v ∈ (t.ladle p.val).victims, v.1 ≠ line) ∧
          ∀ k f, (t.ladle p.val).fills.find k = some f → f.line = line → f.void = true) ∧
        ((s.ladle p.val).enabled = false → t.ladle p.val = s.ladle p.val) ∧ t.stk = s.stk ∧ t.siv = s.siv)

/-- R122, R123, R97, R388: a lookup of a host load whose slice is on media uses the lines of its entries in the entry cache and posts one read of its sector at the host-read deadline on that
burner's request rail, and the load waits for media; a stockpot lookup tells the HOME of its frame, and no other frame changes;
a lookup that needs a locked map-stack line waits in the sieve (R388). Completes: TRANSLATE_LOOKUP. -/
def Sys2Proof.Claims.LookupsResolve : Prop :=
  ∀ (s : State) (i : Fin 4) (r : Rail TReq), Clocked s →
    (∀ (id : Nat) (l : Load) (a : Nat), (s.rails.translate.getD i.val .empty).take 512 = some (.load id, r) →
      s.loads.find id = some l → l.stage ≠ .masked → s.lockedUnit (l.line / 4) = false →
      s.lookup (l.line / 4) (l.line % 4) = .sector a → s.readsLost a = false →
      ∃ t, exec (.translateLookup i) s = .next t ∧ t.loads.find id = some { l with stage := .media } ∧
        (∀ j, j ≠ id → t.loads.find j = s.loads.find j) ∧ t.rails.translate.getD i.val .empty = r ∧
        t.pass.nextReq = s.pass.nextReq + 1 ∧ t.out = s.out ∧ t.stk = s.stk ∧ t.siv = (s.cacheLookup (l.line / 4)).siv ∧
        ∃ q : MReq, q.addr = a ∧ q.op = .read ∧ q.purpose = .load id ∧ q.requester = .link l.link ∧ q.cls = .hostRead ∧
          q.retry = false ∧ q.epoch = (s.epochOf (.link l.link)).toNat ∧
          (t.rails.mediaReq.getD (saBurner a) .empty).waiting = (s.rails.mediaReq.getD (saBurner a) .empty).waiting ++ [q]) ∧
    (∀ f : Nat, (s.rails.translate.getD i.val .empty).take 512 = some (.home f, r) → (s.frame f).state ≠ .free →
      s.lockedUnit (s.frame f).slice = false → (s.frame f).home = .unknown → s.homeOf (s.frame f).slice ≠ .noCopy →
      ∃ t, exec (.translateLookup i) s = .next t ∧ t.frame f = { s.frame f with home := s.homeOf (s.frame f).slice } ∧
        (∀ g, g ≠ f → t.frame g = s.frame g) ∧ t.siv = (s.cacheLookup (s.frame f).slice).siv ∧ t.out = s.out) ∧
    (∀ q : TReq, (s.rails.translate.getD i.val .empty).take 512 = some (q, r) → s.lookupLocked q = true →
      ∃ rs, exec (.translateLookup i) s = .next { s with
          rails := { s.rails with translate := rs }, siv := { s.siv with waiting := s.siv.waiting ++ [q] } } ∧
        ∀ k, rs.getD k .empty = if k = i.val then r else s.rails.translate.getD k .empty) ∧
    ((s.rails.translate.getD i.val .empty).take 512 = none → exec (.translateLookup i) s = .next s)

/-- R248, R249, R252: a request that enters a lane is stamped with its deadline, a retry keeping its stamp; a lane whose one request
is eligible and not overdue grants it to the burner; a requester's mask is raised or lowered and no other requester's changes.
Completes: MEDIA_REQUEST_ENTRY, PASS_GRANT, REQUESTER_MASK. -/
def Sys2Proof.Claims.LanesGrant : Prop :=
  (∀ (s : State) (b : Fin 32) (q : MReq) (r : Rail MReq), Clocked s →
    (s.rails.mediaReq.getD b.val .empty).take 256 = some (q, r) → s.stale q = false → s.gone q = false →
    s.unitLost q.addr = false →
    ∃ t, exec (.mediaRequestEntry b) s = .next t ∧ t.rails.mediaReq.getD b.val .empty = r ∧
      (∀ k, k ≠ b.val → t.lane k = s.lane k) ∧ t.stk = s.stk ∧ t.out = s.out ∧
      t.lane b.val = s.lane b.val ++ [{ q with
        stamp := if q.retry then q.stamp else s.fc32 + BitVec.ofNat 32 (s.deadline q), entered := s.now }]) ∧
  (∀ (s : State) (b : Fin 32) (q : MReq), Clocked s → s.lane b.val = [q] → s.eligible b.val q = true → s.over q = false → q.op = .read →
    ∃ t, exec (.passGrant b) s = .next t ∧ t.lane b.val = [] ∧ (t.burner b.val).granted = (s.burner b.val).granted ++ [q] ∧
      (∀ k, k ≠ b.val → t.lane k = s.lane k ∧ t.burner k = s.burner k) ∧ t.stk = s.stk ∧ t.siv = s.siv) ∧
  (∀ (s : State) (r : Requester) (v : Bool), Clocked s →
    (∀ n, r = .link n → n < 32) → (∀ c, r = .whisk c → c < 64) →
    ∃ pass, exec (.requesterMask r v) s = .next { s with pass := pass } ∧
      ({ s with pass := pass } : State).masked r = v ∧ pass.lanes = s.pass.lanes ∧ pass.maskBrn = s.pass.maskBrn ∧
      ∀ r', r' ≠ r → (∀ n, r' = .link n → n < 32) → (∀ c, r' = .whisk c → c < 64) →
        ({ s with pass := pass } : State).masked r' = s.masked r')

/-- R30, R162, R218, R363: a codeword that decodes with every tag good, of a sector written under the load's slot and key, answers the
load with the stored line, and the load is over; one that class B cannot decode either, and that no sealed row rebuilds, answers
with poison. Completes: MEDIA_RESULT. -/
def Sys2Proof.Claims.MediaReadsAnswer : Prop :=
  ∀ (s : State) (b : Fin 32) (bad : BitVec 16) (q : MReq) (d : Decode) (rl : Rail MRes) (id : Nat) (l : Load), Clocked s →
    (s.rails.mediaRes.getD b.val .empty).take 256 = some (.read q d, rl) → q.job = none →
    q.purpose = .load id → s.loads.find id = some l → l.stage = .media → l.fill = none → s.upk.repairs = [] →
    (∀ (x : Sector) (n : Nat), s.sector q.addr = some x → x.keyslot = l.keyslot → s.loaded l.keyslot = true →
      (s.slot x.keyslot).keyId = x.keyId → x.poison.getLsbD (l.line % 4) = false →
      d = .classA n → bad = 0 → s.storedBad q.addr = 0 →
      ∃ t, exec (.mediaResult b bad) s = .next t ∧ t.loads.find id = none ∧
        .data l.link l.tag (x.data.get (l.line % 4)) false l.respE ∈ t.out.drop s.out.length) ∧
    (d = .fail → q.soft = true → s.rowSealed (s.stripeAt q.addr) (saPage q.addr) = false →
      ∃ t data, exec (.mediaResult b bad) s = .next t ∧ t.loads.find id = none ∧
        .data l.link l.tag data true l.respE ∈ t.out.drop s.out.length)

/-! ### The stockpot: acceptance, pages, programs (03_stockpot.md, 04_translation.md) -/

/-- R89, R95, R96, R115: while it is not frozen the stockpot accepts the entry at the head of a link's Accept rail. A whole line written
under a loaded slot into a slice that a frame holds stands in that frame from then on, valid, poisoned as the write was; the
other lines of the frame and every other frame stay; the entry leaves its queue and its credit goes back. A frozen stockpot
accepts nothing. Completes: ACCEPTANCE. -/
def Sys2Proof.Claims.AcceptedWritesStand : Prop :=
  ∀ (s : State) (n : Fin 32) (q : BitVec 16) (r : Rail (BitVec 16)) (e : IwqEntry) (f : Nat),
    (s.isFrozen = true → ∀ src : AcceptSrc, exec (.acceptance src) s = .next s) ∧
    (Clocked s → s.isFrozen = false → (s.rails.accept.getD n.val .empty).take 64 = some (q, r) → (s.link n.val).iwq = [e] →
      e.seq = q → seqLater q (s.link n.val).lastAck = true →
      e.mask = fullMask → e.wtype ≠ .coherent → s.loaded e.keyslot = true → s.upk.pantry = false → s.pwr.writeHold = false →
      s.resident (e.line / 4) = some f → (s.frame f).state = .resident → s.myTurn n.val = true →
      s.loads = [] → s.ctxs = [] → s.spr.trackers = [] → s.spr.queue = [] → s.spr.snoops = [] → s.spr.flushTodo = [] →
      ∃ t, exec (.acceptance (.link n)) s = .next t ∧ (t.frame f).data.get (e.line % 4) = e.data ∧
        (t.frame f).valid.getLsbD (e.line % 4) = true ∧ (t.frame f).poison.getLsbD (e.line % 4) = e.poison ∧
        (∀ k < 4, k ≠ e.line % 4 → (t.frame f).data.get k = (s.frame f).data.get k) ∧
        (∀ g, g ≠ f → t.frame g = s.frame g) ∧ (t.link n.val).iwq = [] ∧
        (t.link n.val).credits = (s.link n.val).credits + 1 ∧ t.siv = s.siv ∧ t.med = s.med)

/-- R92, R104, R140: a checkpoint page takes the next 64 sectors of the image that the checkpoint took, in frames of the metadata
quota; the first slice that is ready to drain starts a page of its stream. A frozen stockpot assembles nothing (R115). 20 µs after its first slice a page is filled
up with pad sectors and waits for its target, and 20 µs after it an aligned page that is held goes on as single slices; the
oldest resident slice of the host share has aged at the time its age says. Completes: PAGE_ASSEMBLY, PAD_FILL_EXPIRY,
ALIGNED_PAGE_WAIT_EXPIRY, AGE_MAX_EXPIRY. -/
def Sys2Proof.Claims.PagesAssemble : Prop :=
  ∀ s : State,
    (∀ c : Ckpt, s.halted = false → s.siv.ckptActive = true → s.siv.ckptNext < s.siv.ckptPages → s.siv.ckptImage = some c →
      s.metaRoom = true →
      ∃ t p, exec (.pageAssembly .checkpoint) s = .next t ∧
        t = { s with siv := { s.siv with ckptNext := s.siv.ckptNext + 1 }, stk := t.stk } ∧
        t.stk.nextPage = s.stk.nextPage + 1 ∧ t.stk.pages = s.stk.pages.put s.stk.nextPage p ∧
        p.stream = .checkpoint ∧ p.stage = .target ∧ p.items.length = 64 ∧
        (∀ k < 64, ∃ x src, p.items[k]? = some (.sector x src) ∧ x.kind = 5 ∧ x.data = c.sector (s.siv.ckptNext * 64 + k)) ∧
        ∀ g, metaRegion.has g = false → t.frame g = s.frame g) ∧
    (∀ (q : Stream) (f : Nat), q = .host ∨ q = .upkeep ∨ q = .rebuild → s.halted = false →
      (∀ e ∈ s.stk.pages, ¬ (e.2.stream = q ∧ e.2.stage = .assembling)) → s.drainReady q = [f] →
      ∃ t p, exec (.pageAssembly q) s = .next t ∧ t.stk.pages.find s.stk.nextPage = some p ∧ p.stream = q ∧
        p.items = [.frame f] ∧ p.stage = .assembling ∧ p.since = s.now ∧ t.stk.nextPage = s.stk.nextPage + 1) ∧
    (∀ q : Stream, s.isFrozen = true → exec (.pageAssembly q) s = .next s) ∧
    (∀ (q : Stream) (i : Nat) (p : Page), s.halted = false →
      s.stk.pages.find? (fun e => decide (e.2.stream = q) && decide (e.2.stage = .assembling)) = some (i, p) →
      s.stk.pages.find i = some p →
      exec (.padFillExpiry q) s = .next { s with
        now := max s.now (p.since + 20 * Config.us)
        stk := { s.stk with pages := s.stk.pages.put i { p with
          items := p.items ++ List.replicate (64 - p.items.length) .pad, stage := .target } } }) ∧
    (∀ (i : Nat) (p : Page), s.halted = false → s.oldestPage .alignedWait = some (i, p) → s.stk.pages.find i = some p → p.stream = .upkeep →
      (∀ o ∈ s.med.openStripes, o.stream ≠ .upkeep) → 8 ≤ s.med.openStripes.length →
      ∃ t, exec .alignedPageWaitExpiry s = .next t ∧ t.now = max s.now (p.since + 20 * Config.us) ∧
        t.stk.pages.find i = some { p with stage := .target, aligned := none }) ∧
    (∀ e ∈ s.stk.frames, Clocked s → hostRegion.has e.1 = true → e.2.state = .resident →
      ∃ x ∈ s.stk.frames, exec .ageMaxExpiry s = .next { s with
          now := max s.now (x.2.since + max 1 (s.liveFld .stk 0x58 15 0) * Config.ms) } ∧
        hostRegion.has x.1 = true ∧ x.2.state = .resident ∧ x.2.since ≤ e.2.since)

/-- R126, R127, R133: a metadata page that is judged takes the next position of its open stripe and the next sequence value, and its
program is issued; a page that waited for a slice block is judged again once one is free, and where its loaves can be mapped
takes the next position of its stream. Completes: PAGE_TARGETING, SLICE_WAIT_REJUDGE. -/
def Sys2Proof.Claims.PagesAreTargeted : Prop :=
  ∀ (s : State) (i : Nat) (p : Page) (o : OpenStripe) (pg b pl : Nat), s.stk.pages.find i = some p →
    s.halted = false → s.singlePos p.stream = some (o, pg, b, pl) →
    (s.oldestPage .target = some (i, p) → p.stream = .journal → (∀ x ∈ p.items, ∃ y src, x = .sector y src) →
      ∃ t p', exec .pageTargeting s = .next t ∧ t.stk.pages.find i = some p' ∧
        p'.addr = some (s.memberAddr o.stripe b pg pl) ∧ p'.seq = s.siv.seq + 1 ∧ p'.stage = .loaded ∧
        p'.items = p.items ∧ t.siv.seq = s.siv.seq + 1) ∧
    (s.oldestPage .sliceWait = some (i, p) → 0 < s.freeBlocks → (∀ e ∈ s.stk.pages, e.2.stage ≠ .passed) →
      (∀ j ∈ s.judge (if p.heated then 0 else 1) (hostRegion.size - s.used hostRegion) (s.pageLoaves p), j.2.1 = .mapSlices) →
      s.hostPaced p.stream = false → s.stagingRoom (s.pageLoaves p).length = true →
      ∃ t p', exec .sliceWaitRejudge s = .next t ∧ t.stk.pages.find i = some p' ∧
        p'.addr = some (s.memberAddr o.stripe b pg pl) ∧ p'.seq = s.siv.seq + 1 ∧ p'.items = p.items)

/-- R105, R163, R167: a page program that passes puts every sector that its page prepared, or its parity page, on media at its address;
one whose PFAIL bit is set raises PROGRAM_FAIL. 10 ms after the first issue of the only open row its unfilled positions are given
pad pages. Completes: PROGRAM_RESULT, ROW_PAD_EXPIRY. -/
def Sys2Proof.Claims.ProgramsStand : Prop :=
  ∀ s : State,
    (∀ (b : Fin 32) (r : MReq) (pf : BitVec 4) (rl : Rail MRes) (i : Nat) (p : Page), Clocked s →
      (s.rails.mediaRes.getD b.val .empty).take 256 = some (.program r pf, rl) →
      r.op = .program i → s.stk.pages.find i = some p →
      (pf.getLsbD (saPlane r.addr) = false → ∃ t, exec (.programResult b) s = .next t ∧
        (p.par = none → ∀ k x src, p.items[k]? = some (.sector x src) → t.med.sectors.find (p.addr.getD 0 + k) = some x) ∧
        (∀ x, p.par = some x → t.med.parity.find (p.addr.getD 0 / 64) = some x)) ∧
      (pf.getLsbD (saPlane r.addr) = true → ∃ t, exec (.programResult b) s = .next t ∧ (t.irqStat .stk).getLsbD 4 = true)) ∧
    (∀ (o : OpenStripe) (pg since : Nat), s.halted = false → s.med.openStripes = [o] → o.rows = [(pg, since)] →
      o.issued.contains pg = false → o.started.contains pg = true →
      ∃ t, exec .rowPadExpiry s = .next t ∧ t.now = max s.now (since + 10 * Config.ms) ∧
        s.stk.nextPage + (o.positions.filter (fun y => decide (y.1 ≤ pg))).length ≤ t.stk.nextPage)

/-- R115: a write of FREEZE freezes the stockpot for test and a write of 0 ends that, except that a write of 1 is ignored while any
link is memory-active; nothing but the register changes, and from reset to the end of replay the stockpot is frozen whatever it
holds. Completes: FREEZE. -/
def Sys2Proof.Claims.FreezeForTest : Prop :=
  ∀ (s : State) (path : Path) (v : Bool), Writes s path .stk →
    ((v = false ∨ ∀ e ∈ s.ports.links, e.2.memActive = false) →
      ∃ t, exec (.freeze path v) s = .next t ∧ t = { s with regs := t.regs } ∧ t.isFrozen = (s.stk.frozen || v)) ∧
    ((∃ e ∈ s.ports.links, e.2.memActive = true) → exec (.freeze path true) s = .next s)

/-- R132, R138, R140, R148: a demotion takes the first queued loaf, at no more than the rate, and folds it into four pages; a flush
mark stages its record, a cursor for every open plane block and the blocks on deck; a checkpoint that starts stages its record
and takes the map, the slices and the block table as its image, on its timer, early on a full journal, or by CKPT_NOW, and not
while one runs. Completes: DEMOTION_FOLD, FLUSH_MARK, CHECKPOINT_START, CKPT_NOW. -/
def Sys2Proof.Claims.MetadataGoesOut : Prop :=
  ∀ s : State,
    (∀ (l : Nat) (ls : List Nat), s.halted = false → s.siv.demote = l :: ls →
      (if s.siv.foldWindow = s.now / Config.ms then s.siv.foldCount else 0) < max 1 (s.liveFld .siv 0x48 7 0) →
      s.used upkeepRegion + 256 ≤ upkeepRegion.size →
      ∃ t, exec .demotionFold s = .next t ∧ t.siv.demote = ls ∧ t.siv.foldWindow = s.now / Config.ms ∧
        ((s.loaf l).fmt = 2 → (t.loaf l).busy = true ∧ t.stk.nextPage = s.stk.nextPage + 4) ∧
        ((s.loaf l).fmt ≠ 2 → t.stk = s.stk)) ∧
    (Clocked s → s.deckEmpty = true ∨ 32 * 2 ^ 20 ≤ s.siv.recordsSinceMark * 16 →
      ∃ t recs, exec .flushMark s = .next t ∧ t.siv.staging = s.siv.staging ++ recs ∧
        recs.head? = some ⟨.flushMark, 0, s.cursors.length + s.onDeckBlocks.length, s.coveredSeq⟩ ∧
        recs.length = 1 + s.cursors.length + s.onDeckBlocks.length ∧ t.siv.markPending = true ∧
        t.siv.recordsSinceMark = 0 ∧ t.stk = s.stk) ∧
    (∀ c : Instr, c = .checkpointStart ∨ (∃ path, c = .ckptNow path ∧ Writes s path .siv) →
      (s.siv.ckptActive = true → exec c s = .next s) ∧
      (Clocked s → s.siv.ckptActive = false → ∃ t img, exec c s = .next t ∧ t.siv.ckptActive = true ∧ t.siv.ckptNum = s.siv.ckptNum + 1 ∧
        t.siv.ckptImage = some img ∧ img.number = s.siv.ckptNum + 1 ∧ img.loafs = t.siv.loafs ∧ img.slices = t.siv.slices ∧
        img.table = t.med.table ∧ t.siv.staging = s.siv.staging ++ [⟨.ckptStart, 0, s.siv.ckptNum + 1, s.siv.seq⟩] ∧
        t.stk = s.stk))

/-! ### Upkeep (07_upkeep.md) -/

/-- R207: the next free user stripe goes on deck: it is among those that are being reset and a reset is requested of every live
burner; with 8 user stripes on deck or on their way nothing changes. Completes: ON_DECK. -/
def Sys2Proof.Claims.StripesGoOnDeck : Prop :=
  ∀ (s : State) (q : Stream), q = .host ∨ q = .upkeep ∨ q = .rebuild → Clocked s →
    (∀ S, countIf s.userStripe s.med.onDeck + countIf (fun e => s.userStripe e.1) s.med.resetting < 8 → s.nextFree = some S →
      ∃ t, exec (.onDeck q) s = .next t ∧ t.med.resetting.find S = some s.liveBurners ∧
        t.pass.nextReq = s.pass.nextReq + s.liveBurners.length ∧ t.siv.loafs = s.siv.loafs) ∧
    (8 ≤ countIf s.userStripe s.med.onDeck + countIf (fun e => s.userStripe e.1) s.med.resetting →
      exec (.onDeck q) s = .next s)

/-- R209, R212, R214, R216: outside lid down and Simmer, with no victim under way, the scraper takes the first forced victim, and
none while F is above START and none is forced; a chosen victim bars another choice. A governor window begins with its budget whole; the drift clock advances
by a power of two of ticks each 4 s. Completes: VICTIM_CHOICE, GOVERNOR_WINDOW, DRIFT_CLOCK_TICK. -/
def Sys2Proof.Claims.UpkeepTicks : Prop :=
  ∀ s : State,
    (s.prot.lid = true ∨ s.upk.victim.isSome = true ∨ s.pwrState = .simmer → exec .victimChoice s = .next s) ∧
    (s.prot.lid = false → s.upk.victim = none → s.pwrState ≠ .simmer → s.upk.rebuildState = 0 → s.upk.forced = [] →
      (s.liveFld .upk 0x44 15 0 < s.freeStripes → exec .victimChoice s = .next s) ∧
      (s.freeStripes ≤ s.liveFld .upk 0x44 15 0 → s.greedyVictim.1 = none → exec .victimChoice s = .next s)) ∧
    (∀ (f : Forced) (rest : List Forced), s.prot.lid = false → s.upk.victim = none → s.pwrState ≠ .simmer →
      s.upk.forced = f :: rest → s.mayForce f = true →
      ∃ t, exec .victimChoice s = .next t ∧ t.upk.forced = rest ∧ t.upk.victimPrec = f.prec ∧
        (s.drained f.stripe = false → t.upk.victim = some f.stripe)) ∧
    (Clocked s → exec .governorWindow s = .next { s with
      now := max s.now (s.upk.govWindow + Config.sec)
      upk := { s.upk with
        govWindow := max s.now (s.upk.govWindow + Config.sec), govSpent := 0, governedLast := s.upk.governed, governed := false } }) ∧
    ∃ t, exec .driftClockTick s = .next t ∧ t.now = max s.now (s.upk.driftAt + 4 * Config.sec) ∧ t.upk.driftAt = t.now ∧
      (∃ k ≤ 6, t.upk.driftClk = s.upk.driftClk + BitVec.ofNat 32 (2 ^ k)) ∧ t.out = s.out ∧ t.stk = s.stk ∧ t.med = s.med

/-- R220, R232, R170: a patrol read asks for the next codeword of the patrol's stripe at the taster's deadline; a seal scan for the
next codeword of the oldest block that waits; in lid down and in Simmer neither runs. PATROL_RESTART begins a pass at stripe 0 at
four times the pace, or waits while the taster does not run. Completes: PATROL_READ, SEAL_SCAN, PATROL_RESTART. -/
def Sys2Proof.Claims.TasterReads : Prop :=
  ∀ s : State,
    (s.tasterRuns = false → exec .patrolRead s = .next s ∧ exec .sealScan s = .next s) ∧
    (∀ a, s.tasterRuns = true → s.upk.patrolRestart = false →
      s.patrolAddr s.upk.patrolStripe s.upk.patrolPos = some a → s.readsLost a = false →
      ∃ t q, exec .patrolRead s = .next t ∧ t.upk = { s.upk with patrolPos := s.upk.patrolPos + 1 } ∧
        (t.rails.mediaReq.getD (saBurner a) .empty).waiting = (s.rails.mediaReq.getD (saBurner a) .empty).waiting ++ [q] ∧
        q.addr = a ∧ q.op = .read ∧ q.purpose = .patrol s.upk.patrolStripe ∧ q.cls = .taster ∧ t.out = s.out ∧ t.stk = s.stk) ∧
    (∀ (x since : Nat) (rest : List (Nat × Nat)), s.tasterRuns = true → s.upk.sealQueue = (x, since) :: rest →
      s.upk.seals.getD x 0 < 4 * (s.blk x).cursor →
      ∃ t, exec .sealScan s = .next t ∧ t.upk.seals.getD x 0 = s.upk.seals.getD x 0 + 1 ∧
        t.pass.nextReq = s.pass.nextReq + 1 ∧ t.out = s.out ∧ t.stk = s.stk) ∧
    ∀ path : Path, Writes s path .upk →
      (s.tasterRuns = true → exec (.patrolRestart path) s = .next { s with upk := { s.upk with
        patrolStripe := 0, patrolPos := 0, patrolFast := true, patrolStarted := s.now, patrolRestart := false, catchup := false } }) ∧
      (s.tasterRuns = false → exec (.patrolRestart path) s = .next { s with upk := { s.upk with patrolRestart := true } })

/-- R228, R229: Upkeep Status and Rebuild Status report to the fabric owner, with the free stripes and the floor, the drift clock and
the stripes withdrawn; the rebuild state, the burners retired and what is left. Nothing but the answer changes. Completes:
UPKEEP_STATUS, REBUILD_STATUS. -/
def Sys2Proof.Claims.UpkeepReports : Prop :=
  ∀ (p : Path) (s : State), Serves s p ownerOnly →
    (∃ b : List Byte, exec (.upkeepStatus p) s = .next (answered s p 0xC060 0 b) ∧ b.length = 32 ∧
      (s.freeStripes < 2 ^ 32 → field b 0 4 = s.freeStripes) ∧ field b 4 4 = floorOf s.dieCount ∧
      ((b.getD 8 0).getLsbD 0 = s.upk.victim.isSome ∧ (b.getD 8 0).getLsbD 2 = s.upk.capAlert ∧
        (b.getD 8 0).getLsbD 3 = s.upk.pantry ∧ (b.getD 8 0).getLsbD 4 = s.upk.governedLast ∧
        (b.getD 8 0).getLsbD 6 = s.upk.catchup ∧ (b.getD 8 0).getLsbD 7 = s.upk.spareLow) ∧
      field b 24 4 = s.upk.driftClk.toNat ∧ (s.upk.withdrawn < 2 ^ 32 → field b 28 4 = s.upk.withdrawn)) ∧
    (∃ b : List Byte, exec (.rebuildStatus p) s = .next (answered s p 0xC062 0 b) ∧ b.length = 16 ∧
      (s.upk.rebuildState < 256 → field b 0 1 = s.upk.rebuildState) ∧
      field b 1 1 = ((List.range 32).filter (fun k => s.upk.retiredMask.getLsbD k)).length ∧
      (s.upk.lastRetired < 256 → field b 2 1 = s.upk.lastRetired) ∧
      (s.upk.rebuildLeft < 2 ^ 32 → field b 4 4 = s.upk.rebuildLeft) ∧
      (s.upk.rebuildBytes < 2 ^ 64 → field b 8 8 = s.upk.rebuildBytes))

/-- R229, R230, R401: Retire Burner and Retire Die retire the unit at once, mask the burner's lane, and answer once the checkpoint
that they force is durable; the refusals are answered in their order (a burner that is retired 3, two retired 1, a rebuild
running 2, a stripe with more than two members lost 4; a position that there is not 4, a die on a retired burner 2, a die that is
retired or failed 1, a stripe with more than two members lost 3), and a burner beyond 31 is Invalid Input (log entry 38).
Completes: RETIRE_BURNER, RETIRE_DIE. -/
def Sys2Proof.Claims.UnitsAreRetired : Prop :=
  ∀ (p : Path) (s : State), Serves s p ownerOnly →
    (∀ b : Byte, 32 ≤ b.toNat → exec (.retireBurner p b) s = .next (answered s p 0xC061 2 []) ∧
      ∀ ce : Byte, exec (.retireDie p b ce) s = .next (answered s p 0xC063 2 [])) ∧
    (∀ b : Byte, b.toNat < 32 →
      let two := 2 ≤ ((List.range 32).filter (fun k => s.upk.retiredMask.getLsbD k)).length
      let lost := s.tooManyLost (fun _ x => decide (x = b.toNat))
      (s.upk.retiredMask.getLsbD b.toNat = true → exec (.retireBurner p b) s = .next (answered s p 0xC061 0 (leBytes 4 3))) ∧
      (s.upk.retiredMask.getLsbD b.toNat = false →
        (two → exec (.retireBurner p b) s = .next (answered s p 0xC061 0 (leBytes 4 1))) ∧
        (¬ two → s.upk.rebuildState ≠ 0 → exec (.retireBurner p b) s = .next (answered s p 0xC061 0 (leBytes 4 2))) ∧
        (¬ two → s.upk.rebuildState = 0 → lost = true → exec (.retireBurner p b) s = .next (answered s p 0xC061 0 (leBytes 4 4))) ∧
        (¬ two → s.upk.rebuildState = 0 → lost = false → ∃ t, exec (.retireBurner p b) s = .next t ∧
          (t.burner b.toNat).retired = true ∧ t.upk.retiredMask.getLsbD b.toNat = true ∧ t.upk.lastRetired = b.toNat ∧
          t.pass.maskBrn.getLsbD b.toNat = true ∧
          (⟨p, 0xC061, s.now, false, [s.siv.ckptNum + 1], []⟩ : MbxRun) ∈ t.mbx.runs))) ∧
    (∀ b ce : Byte, b.toNat < 32 →
      let lost := s.tooManyLost (fun S x => decide (x = b.toNat) && decide (s.stripeCe S = ce.toNat))
      (s.dieCount ≤ ce.toNat → exec (.retireDie p b ce) s = .next (answered s p 0xC063 0 (leBytes 4 4))) ∧
      (ce.toNat < s.dieCount →
        (s.upk.retiredMask.getLsbD b.toNat = true → exec (.retireDie p b ce) s = .next (answered s p 0xC063 0 (leBytes 4 2))) ∧
        (s.upk.retiredMask.getLsbD b.toNat = false →
          ((s.die b.toNat ce.toNat).retired = true ∨ (s.die b.toNat ce.toNat).failed = true →
            exec (.retireDie p b ce) s = .next (answered s p 0xC063 0 (leBytes 4 1))) ∧
          ((s.die b.toNat ce.toNat).retired = false → (s.die b.toNat ce.toNat).failed = false →
            (lost = true → exec (.retireDie p b ce) s = .next (answered s p 0xC063 0 (leBytes 4 3))) ∧
            (lost = false → ∃ t, exec (.retireDie p b ce) s = .next t ∧ (t.die b.toNat ce.toNat).retired = true ∧
              (⟨p, 0xC063, s.now, false, [s.siv.ckptNum + 1], []⟩ : MbxRun) ∈ t.mbx.runs)))))

/-! ### Fences, held writes, hooks (09_ordering.md) -/

/-- R271 to R275: a read or a write of one of a link's three fence registers starts a fence of its scope, where none runs, that waits
for the writes of the link that are committed and not accepted, bears the next SERIAL and is answered only at its end; its end,
which comes only when every wait is over, keeps the status word and returns it to a read. No other link changes. That the serial
is the fence's own count is the model's reading (log entry 25). Completes: FENCE_LINK, FENCE_PORT, FENCE_DEV, FENCE_COMPLETE. -/
def Sys2Proof.Claims.FencesRun : Prop :=
  ∀ (s : State) (n : Fin 32),
    (∀ (read : Bool) (c : Instr) (scope : Nat), (c, scope) ∈
        [(Instr.fenceLink n read, 0), (Instr.fencePort n read, 1), (Instr.fenceDev n read, 2)] →
      s.fenceAdmits n.val n.isLt read = true → (s.link n.val).blocked = [] → (s.link n.val).fences = [] →
      ∃ t f, exec c s = .next t ∧ (t.link n.val).fences = [f] ∧ f.scope = scope ∧ f.read = read ∧ f.started = some s.now ∧
        f.serial = ((s.link n.val).fenceSerial + 1) % 65536 ∧ f.discards = 0 ∧ (t.link n.val).fenceSerial = f.serial ∧
        ((s.link n.val).memActive = true → f.waits = (s.link n.val).iwq.map (fun e => e.arr)) ∧
        ((s.link n.val).memActive = false → f.waits = []) ∧
        (∀ k, k ≠ n.val → t.link k = s.link k) ∧ t.out = s.out ∧ t.hooks = s.hooks ∧ t.stk = s.stk) ∧
    (∀ f : Fence, (s.link n.val).fences = [f] →
      (s.fenceDone n.val f = true → ∃ t, exec (.fenceComplete n) s = .next t ∧ (t.link n.val).fences = [] ∧
        (t.link n.val).fenceLast = fenceWord (if f.discards = 0 then 0 else 1) f.scope f.discards f.serial ∧
        (∀ k, k ≠ n.val → t.link k = s.link k) ∧ Noted { s with ports := t.ports } t ∧
        (f.read = true → .fence n.val (t.link n.val).fenceLast ∈ t.out.drop s.out.length)) ∧
      (s.fenceDone n.val f = false → exec (.fenceComplete n) s = .next s))

/-- R277, R278: 2 ms after a fence started the writes to dead targets that it covers are discarded, each with a record, and counted
in its discards; the same for the fence of a hook's release; a held write whose target has revived is delivered, and is held no
more. Completes: FENCE_DISCARD_EXPIRY, HELD_WRITE_DELIVERY. -/
def Sys2Proof.Claims.HeldWritesEnd : Prop :=
  ∀ (s : State) (n : Fin 32),
    (∀ (f : Fence) (since : Nat), (s.link n.val).fences = [f] → f.started = some since →
      let ws := (s.link n.val).holds.filter (fun w => f.holds.contains w.id)
      ∃ t, exec (.fenceDiscardExpiry n none) s = .next t ∧ t.now = max s.now (since + 2 * Config.ms) ∧
        (t.link n.val).holds = (s.link n.val).holds.filter (fun w => !f.holds.contains w.id) ∧
        (t.link n.val).fences = [{ f with discards := f.discards + ws.length }] ∧
        t.rails.event.waiting = s.rails.event.waiting ++ ws.map (fun w =>
          ⟨0x1005, BitVec.ofNat 64 n.val, BitVec.ofNat 64 w.off, BitVec.ofNat 64 w.data.toNat, BitVec.ofNat 64 f.serial⟩) ∧
        (∀ k, k ≠ n.val → t.link k = s.link k) ∧ t.out = s.out ∧ t.hooks = s.hooks) ∧
    (∀ (h : Fin 4096) (f : Fence), (s.hook h.val).fence = some f →
      ∃ t, exec (.fenceDiscardExpiry n (some h)) s = .next t ∧ t.now = max s.now (f.arrived + 2 * Config.ms) ∧
        (t.link (s.hook h.val).link).holds = (s.link (s.hook h.val).link).holds.filter (fun w => !f.holds.contains w.id) ∧
        (t.hook h.val).fence = some { f with
          discards := ((s.link (s.hook h.val).link).holds.filter (fun w => f.holds.contains w.id)).length } ∧
        (∀ k, k ≠ h.val → t.hook k = s.hook k)) ∧
    (∀ w : Bar0Write, Clocked s → (s.link n.val).holds.find? s.revived = some w → (s.link n.val).blocked = [] →
      ∃ t, exec (.heldWriteDelivery n) s = .next t ∧ ∀ x ∈ (t.link n.val).holds, x.id ≠ w.id) ∧
    ((s.link n.val).holds.find? s.revived = none → exec (.heldWriteDelivery n) s = .next s)

/-- R282 to R284: a read of a hook's acquire register grants a hook that is FREE or FREE_BROKEN to the link's group, with its SERIAL
one higher, and says whether it was broken; a hook that is held or releasing answers with its holder, and a hook whose mask does
not admit the link with DENIED; only a grant changes the hook, and no other hook changes. Completes: HOOK_ACQUIRE. -/
def Sys2Proof.Claims.HooksAreGranted : Prop :=
  ∀ (s : State) (n : Fin 32) (h : Fin 4096), s.fenceAdmits n.val n.isLt true = true →
    (s.hookOpen h.val n.val = true → (s.hook h.val).state = 0 ∨ (s.hook h.val).state = 2 →
      ∃ t, exec (.hookAcquire n h) s = .next t ∧ Noted { s with hooks := t.hooks } t ∧
        t.hook h.val = { s.hook h.val with
          state := 1, owner := s.group n.val, serial := (s.hook h.val).serial + 1, since := s.now
          lease := s.leaseOf (s.hook h.val) } ∧
        (∀ k, k ≠ h.val → t.hook k = s.hook k) ∧
        t.out.getLast? = some (.regRead (.link n) [hookToken true (decide ((s.hook h.val).state = 2)) false (s.group n.val)
          ((s.hook h.val).serial + 1)])) ∧
    (s.hookOpen h.val n.val = true → (s.hook h.val).state ≠ 0 → (s.hook h.val).state ≠ 2 →
      ∃ t, exec (.hookAcquire n h) s = .next t ∧ Noted s t ∧ t.out.getLast? =
        some (.regRead (.link n) [hookToken false false false (s.hook h.val).owner (s.hook h.val).serial])) ∧
    (s.hookOpen h.val n.val = false →
      ∃ t, exec (.hookAcquire n h) s = .next t ∧ Noted s t ∧
        t.out.getLast? = some (.regRead (.link n) [hookToken false false true 0 0]))

/-- R285 to R288, R293: the holder's write with RELEASE puts the hook in RELEASING with a device fence of its own, and the end of that
fence leaves it FREE, or FREE_BROKEN where writes were discarded; its write with RENEW restarts the lease; a write that does not
act is only recorded. A hook whose lease has run out, or that the fabric owner breaks, is FREE_BROKEN without a holder. No other
hook changes. Completes: HOOK_RELEASE, HOOK_RENEW, HOOK_RELEASE_FENCE_COMPLETE, HOOK_LEASE_EXPIRY, HOOK_BREAK. -/
def Sys2Proof.Claims.HooksAreReleased : Prop :=
  ∀ (s : State) (n : Fin 32) (h : Fin 4096) (serial : BitVec 16),
    (s.fenceAdmits n.val n.isLt false = true → (s.link n.val).blocked = [] → s.hookWritable h.val n.val = true →
      (s.hookActs h.val n.val serial = true →
        (∃ t f, exec (.hookRelease n h serial) s = .next t ∧ t = { s with hooks := t.hooks } ∧
          t.hook h.val = { s.hook h.val with state := 3, link := n.val, fence := some f } ∧ f.scope = 2 ∧
          f.started = some s.now ∧ (∀ k, k ≠ h.val → t.hook k = s.hook k)) ∧
        (∃ t, exec (.hookRenew n h serial) s = .next t ∧ t = { s with hooks := t.hooks } ∧
          t.hook h.val = { s.hook h.val with since := s.now, lease := s.leaseOf (s.hook h.val) } ∧
          (∀ k, k ≠ h.val → t.hook k = s.hook k))) ∧
      (s.hookActs h.val n.val serial = false → ∀ c, c = Instr.hookRelease n h serial ∨ c = Instr.hookRenew n h serial →
        ∃ t, exec c s = .next t ∧ Noted s t ∧ t.rails.event.waiting = s.rails.event.waiting ++ [⟨0x4002, BitVec.ofNat 64 n.val,
          BitVec.ofNat 64 h.val, BitVec.ofNat 64 serial.toNat, 0⟩])) ∧
    (∀ f : Fence, (s.hook h.val).fence = some f →
      (Clocked s → s.fenceDone (s.hook h.val).link f = true →
        ∃ t, exec (.hookReleaseFenceComplete h) s = .next t ∧ t = { s with hooks := t.hooks } ∧
          (t.hook h.val).state = (if f.discards = 0 then 0 else 2) ∧ (t.hook h.val).fence = none ∧
          (t.hook h.val).serial = (s.hook h.val).serial ∧ (∀ k, k ≠ h.val → t.hook k = s.hook k)) ∧
      (s.fenceDone (s.hook h.val).link f = false → exec (.hookReleaseFenceComplete h) s = .next s)) ∧
    (Clocked s → (s.hook h.val).state = 1 → ∃ t, exec (.hookLeaseExpiry h) s = .next t ∧ t = { s with now := t.now, hooks := t.hooks } ∧
      t.now = max s.now ((s.hook h.val).since + (s.hook h.val).lease * Config.ms) ∧ (t.hook h.val).state = 2 ∧
      (t.hook h.val).owner = 0 ∧ (∀ k, k ≠ h.val → t.hook k = s.hook k)) ∧
    ((s.hook h.val).state ≠ 1 → exec (.hookLeaseExpiry h) s = .next s) ∧
    (∀ path : Path, Writes s path .spr → ∃ t, exec (.hookBreak path h) s = .next t ∧
      t = { s with hooks := t.hooks, regs := t.regs } ∧ (∀ k, k ≠ h.val → t.hook k = s.hook k) ∧
      ((s.hook h.val).state = 1 → (t.hook h.val).state = 2 ∧ (t.hook h.val).owner = 0) ∧
      ((s.hook h.val).state ≠ 1 → t.hook h.val = s.hook h.val))

/-! ### Whisk engines (11_whisk_engines.md) -/

/-- R335, R336, R342: a descriptor at HEAD of a context that may run, whose fetch has ended and whose operation is the command's,
makes the context RUNNING with the descriptor's fields and its running state fresh; one with nothing to do is at once ready to
complete; a descriptor that breaks a rule faults the context with a DESCRIPTOR fault; one of another operation is left to its
own command. While a line of the fetch is still to come from media the context holds the channel and waits (R332). Completes: NOP, COPY, FILL, ZERO, COMPARE, CRC_32C, SCAN. -/
def Sys2Proof.Claims.DescriptorsBegin : Prop :=
  ∀ (s u : State) (i : Fin 256) (b : List Byte) (c : Instr) (op : Nat), (c, op) ∈
      [(Instr.nop i, 0), (Instr.copy i, 1), (Instr.fill i, 2), (Instr.zero i, 3), (Instr.compare i, 4), (Instr.crc32c i, 5),
       (Instr.scan i, 6)] →
    (∀ e ∈ s.ctxs, e.2.bells = []) → (s.ctx i.val).head ≠ (s.ctx i.val).tail → (s.ctx i.val).desc = none →
    (s.ctx i.val).done = none → s.mayRun i.val = true → Clocked s →
    (s.fetchDesc i.val = (.waits, u) → ∃ t, exec c s = .next t ∧ t = { u with ctxs := t.ctxs, chans := t.chans } ∧
      (t.ctx i.val).state = 3 ∧ (t.ctx i.val).desc = (u.ctx i.val).desc ∧ (t.ctx i.val).head = (u.ctx i.val).head) ∧
    (s.fetchDesc i.val = (.got b, u) → (descOk b = true → field b 0 1 % 16 = op →
      ∃ t, exec c s = .next t ∧ (t.ctx i.val).state = 3 ∧ (t.ctx i.val).desc = some (descOf b) ∧
        (t.ctx i.val).progress = 0 ∧ (t.ctx i.val).began = 0 ∧ (t.ctx i.val).found = 0 ∧
        (t.ctx i.val).crc = (descOf b).value.setWidth 32 ∧ (t.ctx i.val).done = (descOf b).atOnce ∧
        (t.ctx i.val).head = (u.ctx i.val).head ∧ (t.chan (i.val / 4)).slot = i.val % 4 ∧
        (op = 0 → (t.ctx i.val).done = some (1, 0))) ∧
    (descOk b = false → ∃ t, exec c s = .next t ∧ (t.ctx i.val).state = 5 ∧ (t.ctx i.val).kind = 5 ∧
      (t.irqStat (.wsk (i.val / 4))).getLsbD (4 + i.val % 4) = true) ∧
    (descOk b = true → field b 0 1 % 16 ≠ op → ∃ t, exec c s = .next t ∧ t = { u with ctxs := t.ctxs } ∧
      (∀ j, j ≠ i.val → t.ctx j = u.ctx j) ∧ (t.ctx i.val).desc = (u.ctx i.val).desc ∧ (t.ctx i.val).head = (u.ctx i.val).head))

/-- R340, R344, R347: a running context that has been asked to pause pauses at its chunk boundary; a chunk whose reads have all
returned is consumed: the running state moves on by the chunk and its writes are queued after those that wait. Once the
completion word of a descriptor is written and accepted HEAD passes it, the context is IDLE or READY by what is left in its
ring, and DONE is raised where the descriptor asked for it; no other context changes. Completes: WHISK_CHUNK,
DESCRIPTOR_COMPLETE. -/
def Sys2Proof.Claims.ChunksAndCompletions : Prop :=
  ∀ (s : State) (i : Fin 256) (d : WDesc), Clocked s → (∀ e ∈ s.ctxs, e.2.bells = []) → (s.ctx i.val).state = 3 →
    (s.ctx i.val).desc = some d →
    ((s.ctx i.val).done = none → (s.chan (i.val / 4)).halted = false → (s.chan (i.val / 4)).held = false →
      ((s.ctx i.val).issued = false → (s.ctx i.val).writes = [] → (s.ctx i.val).pausing = true →
        ∃ t, exec (.whiskChunk i) s = .next t ∧ t = { s with ctxs := t.ctxs } ∧
          t.ctx i.val = { s.ctx i.val with state := 4, pausing := false } ∧ (∀ j, j ≠ i.val → t.ctx j = s.ctx j)) ∧
      ((s.ctx i.val).issued = true → (s.ctx i.val).need = [] → (s.ctx i.val).bad = 0 →
        let o := (s.ctx i.val).run d (s.ctx i.val).began (d.chunk (s.ctx i.val).began)
        (∀ w ∈ o.writes, s.isCoherent w.line = false) →
        ∃ t, exec (.whiskChunk i) s = .next t ∧ t = { s with ctxs := t.ctxs } ∧ (t.ctx i.val).issued = false ∧
          (t.ctx i.val).began = (s.ctx i.val).began + d.chunk (s.ctx i.val).began ∧ (t.ctx i.val).crc = o.crc ∧
          (t.ctx i.val).found = o.found ∧ (t.ctx i.val).done = o.done ∧
          (t.ctx i.val).writes = (s.ctx i.val).writes ++ o.writes ∧ (∀ j, j ≠ i.val → t.ctx j = s.ctx j))) ∧
    (∀ st res, (s.ctx i.val).done = some (st, res) → (s.ctx i.val).writes = [] → s.marksApplied (s.ctx i.val) = true →
      (s.chan (i.val / 4)).held = false → (s.ctx i.val).posted = true →
      ∃ t, exec (.descriptorComplete i) s = .next t ∧ Noted { s with ctxs := t.ctxs } t ∧
        (t.ctx i.val).head = (s.ctx i.val).head + 1 ∧ (t.ctx i.val).desc = none ∧ (t.ctx i.val).done = none ∧
        (t.ctx i.val).state = (if (s.ctx i.val).pausing then 4 else if (s.ctx i.val).head + 1 = (s.ctx i.val).tail then 1 else 2) ∧
        (d.irq = true → (t.irqStat (.wsk (i.val / 4))).getLsbD (i.val % 4) = true) ∧
        (∀ j, j ≠ i.val → t.ctx j = s.ctx j))

/-- R334, R337, R344, R333: doorbell writes of a path whose link has no committed write waiting act at once. A TAIL within the ring
submits descriptors and makes an IDLE context READY; one past it sets TAIL_ERR and is ignored; RESUME makes a PAUSED, FAULTED
or STOPPED context READY, or IDLE with an empty ring; TLB_INV drops the slot's cached translations. PAUSE pauses a READY context
at once and a running one at its boundary; ABORT ends the descriptor at HEAD as aborted with its progress; RESTART runs a
halted channel again. No other context changes. Completes: CTX_TAIL, CTX_RESUME, TLB_INV, CTX_PAUSE, CTX_ABORT,
CHANNEL_RESTART. -/
def Sys2Proof.Claims.ContextControls : Prop :=
  ∀ (s : State) (path : Path) (i : Fin 256) (v : BitVec 32), WritesChannel s path (i.val / 4) →
    ((∀ e ∈ s.ctxs, e.2.bells = []) → (∀ n, path = .link n → (s.link n.val).iwq = []) →
      (∃ t, exec (.ctxTail path i v) s = .next t ∧ t = { s with ctxs := t.ctxs } ∧ (∀ j, j ≠ i.val → t.ctx j = s.ctx j) ∧
        t.ctx i.val = (if s.ringSize i.val < (v - (s.ctx i.val).head).toNat then { s.ctx i.val with tailErr := true }
          else { s.ctx i.val with
            tail := v, tailErr := false
            state := if (s.ctx i.val).state = 1 ∧ v ≠ (s.ctx i.val).head then 2 else (s.ctx i.val).state })) ∧
      ((s.chan (i.val / 4)).halted = false → (s.ctx i.val).state = 4 ∨ (s.ctx i.val).state = 5 ∨ (s.ctx i.val).state = 6 →
        (s.ctx i.val).saveErr = false → ∃ t, exec (.ctxResume path i) s = .next t ∧ t = { s with ctxs := t.ctxs } ∧
          (∀ j, j ≠ i.val → t.ctx j = s.ctx j) ∧
          (t.ctx i.val).state = (if (s.ctx i.val).head = (s.ctx i.val).tail then 1 else 2) ∧ (t.ctx i.val).kind = 0 ∧
          (t.ctx i.val).desc = (s.ctx i.val).desc ∧ (t.ctx i.val).progress = (s.ctx i.val).progress) ∧
      (∃ t, exec (.tlbInv path i) s = .next t ∧ t = { s with ctxs := t.ctxs, chans := t.chans } ∧
        (∀ j, j ≠ i.val → t.ctx j = s.ctx j) ∧ (∀ k, k ≠ i.val / 4 → t.chan k = s.chan k) ∧
        (t.chan (i.val / 4)).tlb = (s.chan (i.val / 4)).tlb.filter (fun e => e.1 != i.val % 4))) ∧
    (∃ t, exec (.ctxPause path i) s = .next t ∧ t = { s with ctxs := t.ctxs } ∧ (∀ j, j ≠ i.val → t.ctx j = s.ctx j) ∧
      ((s.ctx i.val).state = 2 → (t.ctx i.val).state = 4) ∧
      ((s.ctx i.val).state = 3 → (s.ctx i.val).boundary = true → (t.ctx i.val).state = 4) ∧
      ((s.ctx i.val).state = 3 → (s.ctx i.val).boundary = false → (t.ctx i.val).state = 3 ∧ (t.ctx i.val).pausing = true)) ∧
    (∃ t, exec (.ctxAbort path i) s = .next t ∧ t = { s with ctxs := t.ctxs } ∧ (∀ j, j ≠ i.val → t.ctx j = s.ctx j) ∧
      ((s.ctx i.val).state = 4 ∨ (s.ctx i.val).state = 5 ∨ (s.ctx i.val).state = 6 →
        ((s.ctx i.val).head = (s.ctx i.val).tail → (t.ctx i.val).state = 1) ∧
        ((s.ctx i.val).head ≠ (s.ctx i.val).tail → (t.ctx i.val).done = some (4, (s.ctx i.val).progress)))) ∧
    (∀ c : Fin 64, c.val = i.val / 4 → ∃ t, exec (.channelRestart path c) s = .next t ∧ t = { s with chans := t.chans } ∧
      t.chan c.val = { s.chan c.val with halted := false } ∧ (∀ k, k ≠ c.val → t.chan k = s.chan k))

/-! ### Memory integrity (13_memory_integrity.md) -/

/-- R382 to R385, R388: a corrected word is counted in its instance with where it stood, an uncorrectable one in the other count; the
levels of a domain's buckets fall by one each LEAK seconds, and LEAK 0 stops that; a rail whose pointer copies differ resets, with
its record on the Event rail and a report of source 15; the oldest locked map-stack line is rebuilt and unlocked. Completes:
BUCKET_LEAK, RAIL_RESET, MAP_STACK_RECONSTRUCTION. -/
def Sys2Proof.Claims.IntegrityEvents : Prop :=
  (∀ (s : State) (d : Fin 9),
    (s.liveFld .mec (0x80 + d.val * 4) 15 8 = 0 → exec (.bucketLeak d) s = .next s) ∧
    (s.liveFld .mec (0x80 + d.val * 4) 15 8 ≠ 0 → ∃ t, exec (.bucketLeak d) s = .next t ∧
      t.now = max s.now (s.mec.leaks.getD d.val 0 + s.liveFld .mec (0x80 + d.val * 4) 15 8 * Config.sec) ∧
      (∀ i, i < domainInsts d.val →
        t.mecCount d.val i = { s.mecCount d.val i with level := (s.mecCount d.val i).level - 1 }) ∧
      (∀ d' i, d' ≠ d.val → i < 8 → t.mecCount d' i = s.mecCount d' i) ∧ t.regs = s.regs ∧ t.out = s.out)) ∧
  (∀ (s : State) (r : RailId), Clocked s → ∃ t x, exec (.railReset r) s = .next t ∧
    t.rails.event.waiting.getLast? = some ⟨6, BitVec.ofNat 64 (railPlace r).1, BitVec.ofNat 64 (railPlace r).2.1, 0, 0⟩ ∧
    t.reports.getLast? = some x ∧ x.source = 15) ∧
  (∀ (s : State) (x : Nat) (xs : List Nat), Clocked s → s.mec.locked = x :: xs → s.ckptLineLost x = false →
    ∃ t, exec .mapStackReconstruction s = .next t ∧ t.mec.locked = xs ∧ (t.irqStat .mec).getLsbD 12 = true)

/-- R392: in test mode, while no link is memory-active, what a raw write stores a raw read of the same word loads: the 64 data bits
and the 14 check bits as they were given; a checked read corrects a word with one bit in error, names its position and counts
nothing; an access that its rules refuse sets REFUSED. Completes: RAW_WRITE, RAW_READ, CHECKED_READ. -/
def Sys2Proof.Claims.TestAccess : Prop :=
  ∀ (s : State) (path : Path) (row : Bool), Writes s path .mec →
    (s.testOk row = true →
      (∃ t, exec (.rawWrite path row) s = .next t ∧ t.mec.refused = false ∧
        ∃ u, exec (.rawRead path row) t = .next u ∧ u.mec.words = t.mec.words ∧
          u.getLive .mec 0xA8 = s.getLive .mec 0xA8 ∧ u.getLive .mec 0xAC = s.getLive .mec 0xAC ∧
          u.getLive .mec 0xB0 = ((s.getLive .mec 0xB0).setWidth 14).setWidth 32) ∧
      (∀ (d : BitVec 64) (p : Nat), p < 78 → s.mec.words.find (s.testKey row) = some (bchEncode d ^^^ BitVec.ofNat 78 (2 ^ p)) →
        ∃ t, exec (.checkedRead path row) s = .next t ∧ t.mec.result = 1 ∧ t.mec.pos0 = p ∧ t.mec.pos1 = 0x7F ∧
          t.getLive .mec 0xA8 = (bchEncode d).extractLsb' 14 32 ∧ t.getLive .mec 0xAC = (bchEncode d).extractLsb' 46 32 ∧
          t.mec.counts = s.mec.counts) ∧
      (∀ d : BitVec 64, s.mec.words.find (s.testKey row) = some (bchEncode d) →
        ∃ t, exec (.checkedRead path row) s = .next t ∧ t.mec.result = 0 ∧ t.mec.counts = s.mec.counts)) ∧
    (s.testOk row = false → ∀ c, c = Instr.rawWrite path row ∨ c = Instr.rawRead path row ∨ c = Instr.checkedRead path row →
      ∃ t, exec c s = .next t ∧ t.mec = { s.mec with refused := true } ∧ t.out = s.out)

/-- R393, R394: a scrub starts on a valid range of a valid domain, by register or by mailbox, where none runs: it is busy from then on
with nothing found; by register an invalid one sets REFUSED, by mailbox it is Invalid Input, and Busy while one runs; a scrub of
more than 64 MiB goes on in the background. At its end it has read every word of its range, SCRUB_DONE is raised, and the
command that waits gets its output. Completes: SCRUB_GO, SCRUB_RANGE, SCRUB_END. -/
def Sys2Proof.Claims.ScrubsRun : Prop :=
  ∀ s : State,
    (∀ (path : Path) (d : Fin 16) (i : Fin 8), Writes s path .mec →
      let start := (s.getLive .mec 0xC4).toNat + s.liveFld .mec 0xC8 2 0 * 2 ^ 32
      let len := (s.getLive .mec 0xCC).toNat + s.liveFld .mec 0xD0 2 0 * 2 ^ 32
      (s.mec.scrub.busy = true → exec (.scrubGo path d i) s = .next s) ∧
      (s.mec.scrub.busy = false →
        (scrubOk d.val i.val start len = true → ∃ t, exec (.scrubGo path d i) s = .next t ∧ t.mec.scrub.busy = true ∧
          t.mec.scrub.domain = d.val ∧ t.mec.scrub.inst = i.val ∧ t.mec.scrub.start = start ∧ t.mec.scrub.len = len ∧
          t.mec.scrub.corrected = 0 ∧ t.mec.scrub.bad = 0 ∧ t.mec.scrub.refused = false ∧ t.out = s.out ∧ t.stk = s.stk) ∧
        (scrubOk d.val i.val start len = false → ∃ t, exec (.scrubGo path d i) s = .next t ∧ t.mec.scrub.busy = false ∧
          t.mec.scrub.refused = true ∧ t.out = s.out ∧ t.stk = s.stk))) ∧
    (∀ (p : Path) (d i : Byte) (start len : BitVec 64), Serves s p ownerOnly →
      (s.mec.scrub.busy = true → exec (.scrubRange p d i start len) s = .next (answered s p 0xC070 6 [])) ∧
      (s.mec.scrub.busy = false → scrubOk d.toNat i.toNat start.toNat len.toNat = false →
        exec (.scrubRange p d i start len) s = .next (answered s p 0xC070 2 [])) ∧
      (s.mec.scrub.busy = false → scrubOk d.toNat i.toNat start.toNat len.toNat = true → s.mbx.runs = [] →
        ∃ t, exec (.scrubRange p d i start len) s = .next t ∧ t.mec.scrub.busy = true ∧ t.mec.scrub.path = some p ∧
          t.mec.scrub.start = start.toNat ∧ t.mec.scrub.len = len.toNat ∧
          t.mbx.runs = [⟨p, 0xC070, s.now, decide (2 ^ 26 < len.toNat), [], []⟩] ∧
          t.out = s.out ++ (if 2 ^ 26 < len.toNat then [.background p 0xC070] else []))) ∧
    (Clocked s → s.mec.scrub.busy = true → s.plantedErrs = [] → ∃ t, exec (.scrubEnd []) s = .next t ∧ t.mec.scrub.busy = false ∧
      t.mec.scrub.words = s.mec.scrub.len / 8 ∧ (t.irqStat .mec).getLsbD 11 = true ∧
      (∀ p since, s.mbx.runs = [⟨p, 0xC070, since, false, [], []⟩] →
        .mailbox p 0xC070 0 t.mec.scrub.output ∈ t.out.drop s.out.length ∧ t.mbx.runs = [])) ∧
    (s.mec.scrub.busy = false → exec (.scrubEnd []) s = .next s)

/-! ### The fault ledger and the stewards (14_faults_and_recovery.md) -/

/-- R398, R403, R415: the ledger takes the oldest report that waits; one of a host that does not answer (source 17) is captured and no
unit is charged; a corrected word of a domain is counted in its instance. With nothing reported nothing changes. Completes:
FAULT_REPORT. -/
def Sys2Proof.Claims.ReportsAreTaken : Prop :=
  ∀ s : State,
    (s.reports = [] → exec (.faultReport .queued) s = .next s) ∧
    (∀ (r : Report) (rs : List Report), s.reports = r :: rs → r.source = 17 →
      ∃ t, exec (.faultReport .queued) s = .next t ∧ t = { s with reports := rs, regs := t.regs } ∧
        t.getLive .flt 0x24 = BitVec.ofNat 32 r.uid) ∧
    (∀ (d : Fin 9) (i : Fin 8) (off : Nat) (p0 p1 : Fin 128),
      ∃ t, exec (.faultReport (.corrected d i off p0 p1)) s = .next t ∧
        (t.mecCount d.val i.val).ce = sat 31 ((s.mecCount d.val i.val).ce + 1) ∧ (t.mecCount d.val i.val).lastOff = off ∧
        (t.mecCount d.val i.val).ue = (s.mecCount d.val i.val).ue)

/-- R399, R405: the nearest backoff of a die ends at its time and the die takes commands again, and so does that of a link's
recovery; CLR_LANES removes every lane entry and writes the ledger region. Completes: RETRY_BACKOFF_EXPIRY, CLR_LANES. -/
def Sys2Proof.Claims.BackoffsAndLanes : Prop :=
  ∀ s : State,
    (∀ (k due : Nat) (d : Die), Clocked s → s.dies = [(k, d)] → k < 320 → d.retryAt = some due → s.flt.laneRetry = [] →
      ∃ t, exec .retryBackoffExpiry s = .next t ∧ t.now = max s.now due ∧
        t.die (k / 10) (k % 10) = { d with retryAt := none } ∧ t.flt = s.flt ∧ t.out = s.out) ∧
    (∀ (l n due : Nat), Clocked s → (∀ e ∈ s.dies, e.2.retryAt = none) → s.flt.laneRetry = [(l, (n, due))] → 0 < due →
      ∃ t, exec .retryBackoffExpiry s = .next t ∧ t.flt.laneRetry.getD l (0, 0) = (n, 0) ∧
        ((s.link l).up = false → t.now = max s.now due ∧ t.dies = s.dies ∧ t.out = s.out)) ∧
    (∀ path : Path, Writes s path .flt → ∃ t, exec (.clrLanes path) s = .next t ∧
      t = { s with flt := t.flt, nor := t.nor } ∧ t.flt.lanes = [] ∧ (∀ e ∈ t.flt.entries, e.1 ≠ 3) ∧
      t.flt.writing = some t.flt.entries ∧ t.nor.writes = s.nor.writes ++ [1])

/-- R409, R410: a steward whose watchdog runs out, or whose firmware fails, restarts: its epoch rises, the restart is counted and
recorded with its cause, and while its restarts are fewer than the limit it runs again and the stockpot, the map, the media, the
links and the ladles stay as they are; a retired one stays retired. Completes: WATCHDOG_EXPIRY, FIRMWARE_FAULT. -/
def Sys2Proof.Claims.StewardsRestart : Prop :=
  ∀ (s : State) (n : Fin 12) (c : Instr) (cause : Nat), (c, cause) ∈ [(Instr.watchdogExpiry n, 1), (Instr.firmwareFault n, 2)] →
    (s.flt.stwRetired.getLsbD n.val = true → exec c s = .next s) ∧
    (Clocked s → s.flt.stwRetired.getLsbD n.val = false → (s.stwRecent n.val).length < max 1 (s.liveFld .flt 0x48 3 0) →
      ∃ t, exec c s = .next t ∧ t.flt.epochs.getD (96 + n.val) 0 = s.flt.epochs.getD (96 + n.val) 0 + 1 ∧
        t.flt.stwRestarts = sat 16 (s.flt.stwRestarts + 1) ∧ t.flt.stwRetired = s.flt.stwRetired ∧
        (t.irqStat .stw).getLsbD 0 = true ∧
        (∃ e : Ev, t.rails.event.waiting = s.rails.event.waiting ++ [e] ∧ e.code = 0x7002 ∧ e.p0 = BitVec.ofNat 64 n.val ∧
          e.p1 = BitVec.ofNat 64 cause) ∧
        t.stk = s.stk ∧ t.siv = s.siv ∧ t.med = s.med ∧ t.ports = s.ports ∧ t.ladles = s.ladles)

/-! ### Tallies and the spike (18_observability.md) -/

/-- R497, R498: TLY_CLEAR with GO clears every counter of its range, or every histogram unit with its bins and maximum, and no other;
a snapshot copies every counter and bin into the bank and advances its serial, a tenant's too; Tally Snapshot does it and answers
with the serial first; a range past counter 767 is Invalid Input. Completes: TALLY_CLEAR, SNAPSHOT, TALLY_SNAPSHOT. -/
def Sys2Proof.Claims.TalliesAreRead : Prop :=
  ∀ s : State,
    (∀ (path : Path) (v : BitVec 32), Writes s path .tly → v.getLsbD 31 = true →
      ∃ t, exec (.tallyClear path v) s = .next t ∧ t = { s with tly := t.tly, regs := t.regs } ∧
        (v.getLsbD 20 = false → t.tly.bins = s.tly.bins ∧ ∀ n, t.tly.counters.getD n .zero =
          if (v.extractLsb' 0 10).toNat ≤ n ∧ n ≤ (v.extractLsb' 10 10).toNat ∧ n < 768 then .zero
          else s.tly.counters.getD n .zero) ∧
        (v.getLsbD 20 = true → t.tly.counters = s.tly.counters ∧
          ∀ u, (v.extractLsb' 0 10).toNat ≤ u → u ≤ (v.extractLsb' 10 10).toNat → u < 32 →
            t.tly.hmax.getD u 0 = 0 ∧ ∀ k < 32, t.tly.bins.getD (u * 32 + k) .zero = .zero)) ∧
    (∀ path : Path, s.heard path = true → s.view path .tly = .full ∨ s.view path .tly = .tenant → Clear s path →
      exec (.snapshot path) s = .next { s with tly := { s.tly with
        snap := s.tly.counters, sbins := s.tly.bins, snapSerial := (s.tly.snapSerial + 1) % 65536 } }) ∧
    (∀ (p : Path) (first count : BitVec 16) (units : Bool), Serves s p anyone →
      (768 < first.toNat + count.toNat →
        exec (.tallySnapshot p first count units) s = .next (answered s p 0xC040 2 [])) ∧
      (first.toNat + count.toNat ≤ 768 →
        ∃ b : List Byte, exec (.tallySnapshot p first count units) s = .next (answered { s with tly := { s.tly with
            snap := s.tly.counters, sbins := s.tly.bins, snapSerial := (s.tly.snapSerial + 1) % 65536 } } p 0xC040 0 b) ∧
          field b 0 8 = (s.tly.snapSerial + 1) % 65536))

/-- R504, R505: the spike takes the next event off its rail; before it has found its ring position the event is held apart; after that
an event that is not limited is staged, while staging has room, as a record with the next SERIAL, the operating time and the
power cycles. Completes: SPIKE_EVENT. -/
def Sys2Proof.Claims.EventsAreStaged : Prop :=
  ∀ (s : State) (e : Ev) (r : Rail Ev), Clocked s → s.rails.event.take 1024 = some (e, r) →
    (s.spk.ringOk = false → exec .spikeEvent s = .next { s with
      rails := { s.rails with event := r }, spk := { s.spk with waiting := s.spk.waiting ++ [e] } }) ∧
    (s.spk.ringOk = true → e.limited = false → s.spk.staged.length < 4096 →
      ∃ t x, exec .spikeEvent s = .next t ∧ t.rails.event = r ∧ t.spk.staged = s.spk.staged ++ [x] ∧ x.code = e.code ∧
        x.serial = s.spk.next ∧ x.opsec = s.opsec ∧ x.cycles = s.clk.cycles ∧ x.p0 = e.p0 ∧ x.p1 = e.p1 ∧ x.p2 = e.p2 ∧
        x.p3 = e.p3 ∧ t.spk.next = s.spk.next + 1 ∧ t.spk.ring = s.spk.ring ∧ t.tly = s.tly)

/-- R510, R511, R515: Read Spike answers with the oldest and the newest serial and the records from its start on, and changes nothing;
a count of 0 or above 1023 is Invalid Input. Clear Spike, where its block passes, drops every record and stages SPIKE_CLEARED under
the next serial, and answers 0; in lid down it answers 1 and drops nothing. SPK_READ_CTRL.GO loads the record of the serial
asked for, or says that it is not held. Completes: READ_SPIKE, CLEAR_SPIKE, SPIKE_READ_GO. -/
def Sys2Proof.Claims.SpikeIsReadAndCleared : Prop :=
  ∀ s : State,
    (∀ (p : Path) (start : BitVec 32) (count : BitVec 16) (older : Bool), Serves s p ownerOnly →
      (count.toNat = 0 ∨ 1023 < count.toNat → exec (.readSpike p start count older) s = .next (answered s p 0xC030 2 [])) ∧
      (1 ≤ count.toNat → count.toNat ≤ 1023 →
        ∃ b : List Byte, exec (.readSpike p start count older) s = .next (answered s p 0xC030 0 b) ∧
          field b 0 4 = s.spk.oldest.toNat ∧ field b 4 4 = s.newestSerial.toNat ∧ field b 8 2 ≤ count.toNat)) ∧
    (∀ (p : Path) (blk : List Byte), Serves s p ownerOnly → 32 ≤ blk.length → s.prot.secret = none →
      (s.prot.lid = true → exec (.clearSpike p blk) s =
        .next (answered { s with prot := { s.prot with nonce := none } } p 0xC031 0 (leBytes 4 1))) ∧
      (s.prot.lid = false → ∃ t x, exec (.clearSpike p blk) s = .next t ∧ t.spk.staged = [x] ∧ x.code = 3 ∧
        x.serial = t.spk.oldest ∧ t.spk.ring = [] ∧ t.out.getLast? = some (.mailbox p 0xC031 0 (leBytes 4 0)) ∧
        t.prot.nonce = none)) ∧
    (∀ path : Path, Writes s path .spk → exec (.spikeReadGo path) s = .next { s with spk := { s.spk with
      readSerial := s.recOf (s.getLive .spk 0x54), missing := (s.recOf (s.getLive .spk 0x54)).isNone } })

/-! ### Dies and their commands (06_burner_channel.md) -/

/-- R182, R183, R195: with the root PLL running a burner makes the next use of its bus, the ready one with the nearest deadline.
It sets the levels of the plane of a granted read whose codes differ from the record, and keeps them on record; it sends the
sense of a read its die can take, which then waits in the plane's register; it transfers a sensed codeword, whose register is
then free, and posts what its decoding gave: reset where the plane read BLANK (R194), a number of corrected bits where it
converges within BRN_LDPC.ITER iterations, or a failure. Only that die and that burner's list change. Completes:
READ_LEVEL_SET, SECTOR_READ, DATA_OUT. -/
def Sys2Proof.Claims.DiesAreRead : Prop :=
  ∀ (s : State) (b : Fin 32), Clocked s →
    (∀ q, s.nextUse b.val = some (.set q) →
      let l := s.levelsOf q
      let d := s.die b.val (saCe q.addr)
      ∃ t, exec (.readLevelSet b) s = .next t ∧ DieIs s t b.val (saCe q.addr) { d with levels := d.levels.put (saPlane q.addr) l } ∧
        t = { s with dies := t.dies, out := s.out ++ [.die b.val (saCe q.addr)
          [0x40 + 2 ^ saPlane q.addr * 256, l.getD 0 0 + l.getD 1 0 * 256, 0, l.getD 2 0]] }) ∧
    (∀ q, s.nextUse b.val = some (.sense q) →
      let d := s.die b.val (saCe q.addr)
      ∃ t, exec (.sectorRead b) s = .next t ∧
        DieIs s t b.val (saCe q.addr) { d with
          sensing := d.sensing.put (saPlane q.addr) q, senseAt := d.senseAt.put (saPlane q.addr) s.now
          drdy := d.drdy &&& ~~~ BitVec.ofNat 4 (2 ^ saPlane q.addr) } ∧
        BurnerIs s t b.val { s.burner b.val with granted := (s.burner b.val).granted.filter (fun r => r.id != q.id) } ∧
        t = { s with dies := t.dies, burners := t.burners, out := s.out ++
          [.die b.val (saCe q.addr) ((0x01 + 2 ^ saPlane q.addr * 256) :: addrWords q.addr)] }) ∧
    (∀ (iters : Option (Fin 64)) (corrected : Fin 1024) (ce pl : Nat) (q : MReq), s.nextUse b.val = some (.out ce pl q) →
      let d := s.die b.val ce
      ∃ t, exec (.dataOut b iters corrected) s = .next t ∧
        DieIs s t b.val ce { d with
          sensing := d.sensing.del pl, drdy := d.drdy &&& ~~~ BitVec.ofNat 4 (2 ^ pl), retries := 0 } ∧
        (t.rails.mediaRes.getD b.val .empty).waiting = (s.rails.mediaRes.getD b.val .empty).waiting ++
          [.read q (if d.blank.getLsbD pl then .blank
            else if ∃ n, iters = some n ∧ n.val ≤ s.ldpcIter b.val then .classA corrected.val else .fail)] ∧
        (∀ k, k ≠ b.val → t.rails.mediaRes.getD k .empty = s.rails.mediaRes.getD k .empty) ∧
        Noted { s with dies := t.dies, rails := { s.rails with mediaRes := t.rails.mediaRes } } t ∧
        (.die b.val ce ((0x05 + 2 ^ pl * 256) :: addrWords q.addr) : Output) ∈ t.out.drop s.out.length)

/-- R182 to R184: where it is the next use of the bus, a granted page program is loaded into the latch of its plane, with the
page's bytes, each lane as DBI drives it where the die declares it (R181); a confirm starts one program over every loaded plane
of the die, and one beyond the wear governor's budget (R214) only sets the governor's mark; the granted reset of a block starts.
Completes: PROGRAM_LOAD, PROGRAM_CONFIRM, BLOCK_RESET. -/
def Sys2Proof.Claims.DiesAreProgrammed : Prop :=
  ∀ (s : State) (b : Fin 32), Clocked s →
    (∀ (q : MReq) (i : Nat), s.nextUse b.val = some (.load q) → q.op = .program i →
      let d := s.die b.val (saCe q.addr)
      ∃ t data dbi, exec (.programLoad b) s = .next t ∧
        DieIs s t b.val (saCe q.addr) { d with latches := d.latches.put (saPlane q.addr) i } ∧
        (d.dbi = false → data = s.pageBytes i ∧ dbi = []) ∧
        t.stk.pages.find i = (s.stk.pages.find i).map (fun p => { p with stage := .programming }) ∧
        t = { s with dies := t.dies, stk := t.stk, out := s.out ++
          [.die b.val (saCe q.addr) ((0x10 + 2 ^ saPlane q.addr * 256) :: addrWords q.addr), .dieData b.val (saCe q.addr) data dbi] }) ∧
    (∀ (ce : Fin 10) (q : MReq) (qs : List MReq), s.nextUse b.val = some (.confirm ce.val q qs) →
      ∃ t, exec (.programConfirm b ce) s = .next t ∧
        DieIs s t b.val ce.val { s.die b.val ce.val with
          op := .program, opReqs := qs, suspended := false, suspensions := 0, runSince := s.now, ran := 0 } ∧
        BurnerIs s t b.val { s.burner b.val with
          granted := (s.burner b.val).granted.filter (fun r => qs.all (fun x => r.id != x.id)) } ∧
        t = { s with dies := t.dies, burners := t.burners, upk := { s.upk with govSpent := s.upk.govSpent + 16384 * qs.length }
                     out := s.out ++ [.die b.val ce.val
                       ((0x15 + (s.die b.val ce.val).latches.foldl (fun m e => m + 2 ^ e.1) 0 * 256) ::
                         addrWords (q.addr / 256 * 256))] }) ∧
    (∀ ce : Fin 10, s.loadedReqs b.val ce.val ≠ [] → s.mayConfirm b.val ce.val = true →
      s.programBudget < s.upk.govSpent + 16384 * (s.loadedReqs b.val ce.val).length →
      exec (.programConfirm b ce) s = .next { s with upk := { s.upk with governed := true } }) ∧
    (∀ q, s.nextUse b.val = some (.reset q) →
      ∃ t, exec (.blockReset b) s = .next t ∧
        DieIs s t b.val (saCe q.addr) { s.die b.val (saCe q.addr) with
          op := .reset, opReqs := [q], suspended := false, suspensions := 0, runSince := s.now, ran := 0 } ∧
        BurnerIs s t b.val { s.burner b.val with granted := (s.burner b.val).granted.filter (fun r => r.id != q.id) } ∧
        t = { s with dies := t.dies, burners := t.burners, out := s.out ++
          [.die b.val (saCe q.addr) ((0x20 + 0xF * 256) :: addrWords q.addr)] })

/-- R186, R189 to R191, R196: an operation is suspended only where a granted read with a nearer deadline waits for the die, the
operation may be suspended once more and MIN_RUN has passed; the end of MIN_RUN asks again. A suspended operation runs again
where one of the three conditions of R190 holds, and at the latest when WIN has passed since the SUSPEND; MIN_RUN then counts
from tRSM after the RESUME. A reset that Flush suspended is not resumed. Completes: SUSPEND, MIN_RUN_EXPIRY, RESUME,
SUSPEND_WINDOW_EXPIRY. -/
def Sys2Proof.Claims.OperationsAreSuspended : Prop :=
  ∀ (s : State) (b : Fin 32) (ce : Fin 10), Clocked s →
    let d := s.die b.val ce.val
    (s.wantsSuspend b.val ce.val = true →
      (d.runSince + s.minRun b.val ≤ s.now → ∃ t, exec (.suspend b ce) s = .next t ∧
        DieIs s t b.val ce.val { d with
          suspended := true, status := d.status &&& ~~~ 2#32, suspendedAt := s.now, suspensions := d.suspensions + 1
          ran := d.ran + (s.now - d.runSince) } ∧
        Noted { s with dies := t.dies } t ∧ (.die b.val ce.val [0x30] : Output) ∈ t.out.drop s.out.length) ∧
      (s.now < d.runSince + s.minRun b.val → exec (.suspend b ce) s = .next s ∧
        ((s.reach (d.runSince + s.minRun b.val)).wantsSuspend b.val ce.val = true →
          ∃ t, exec (.minRunExpiry b ce) s = .next t ∧ t.now = d.runSince + s.minRun b.val ∧
            (t.die b.val ce.val).suspended = true ∧ (t.die b.val ce.val).suspensions = d.suspensions + 1 ∧
            ∀ k, k ≠ b.val * 10 + ce.val → t.dies.getD k .absent = s.dies.getD k .absent))) ∧
    (s.wantsSuspend b.val ce.val = false → exec (.suspend b ce) s = .next s) ∧
    (s.mustResume b.val ce.val = true → ∃ t, exec (.resume b ce) s = .next t ∧
      DieIs s t b.val ce.val { d with suspended := false, runSince := s.now + 200 * Config.ns } ∧
      t = { s with dies := t.dies, out := s.out ++ [.die b.val ce.val [0x31]] }) ∧
    (s.mustResume b.val ce.val = false → exec (.resume b ce) s = .next s) ∧
    (d.suspended = true → d.op ≠ .none → s.pwrState = .flush ∧ d.op = .reset ∨
      ∃ t, exec (.suspendWindowExpiry b ce) s = .next t ∧
        t.now = max s.now (d.suspendedAt + s.suspWin b.val) ∧
        DieIs s t b.val ce.val { d with suspended := false, runSince := t.now + 200 * Config.ns } ∧
        t = { s with now := t.now, dies := t.dies, out := s.out ++ [.die b.val ce.val [0x31]] }) ∧
    (s.pwrState = .flush → d.op = .reset →
      exec (.resume b ce) s = .next s ∧ exec (.suspendWindowExpiry b ce) s = .next s)

/-- R185, R187, R204: a status word is kept, with the alert, the planes that hold data and those that read blank; while none of its
bits says that a command was rejected or an operation ended, nothing else changes; a program that ends so leaves the die with
no operation and posts its result; a temperature is kept with the die's offset; the alert line raises ALERT and reads the status
and the temperature of every present die, here of the one. Completes: STATUS, TEMPERATURE, ALERT_N. -/
def Sys2Proof.Claims.DiesAnswer : Prop :=
  ∀ (s : State) (b : Fin 32) (ce : Fin 10), Clocked s → Live s b.val ce.val →
    (∀ w : W32, w.getLsbD 4 = false →
      let d := { s.die b.val ce.val with
        status := w, alert := w.getLsbD 3, drdy := w.extractLsb' 12 4, blank := w.extractLsb' 16 4
        busyUntil := if w.getLsbD 0 = true ∧ w.extractLsb' 5 2 = 0 then 0 else (s.die b.val ce.val).busyUntil }
      (w.getLsbD 0 = false → ∃ t, exec (.status b ce w) s = .next t ∧ DieIs s t b.val ce.val d ∧
        t = { s with dies := t.dies, out := s.out ++ [.die b.val ce.val [0x70]] }) ∧
      (∀ q, (s.die b.val ce.val).op = .program → (s.die b.val ce.val).opReqs = [q] → w.getLsbD 0 = true → w.getLsbD 1 = false →
        w.extractLsb' 5 2 = 0 → ∃ t, exec (.status b ce w) s = .next t ∧
          DieIs s t b.val ce.val { d with op := .none, opReqs := [], suspended := false, latches := [], retries := 0 } ∧
          (t.rails.mediaRes.getD b.val .empty).waiting = (s.rails.mediaRes.getD b.val .empty).waiting ++ [opResult d w q])) ∧
    (∀ raw : BitVec 16, ∃ t, exec (.temperature b ce raw) s = .next t ∧
      DieIs s t b.val ce.val { s.die b.val ce.val with temp := raw + (s.die b.val ce.val).tempOffset } ∧
      t = { s with dies := t.dies, out := s.out ++ [.die b.val ce.val [0x71]] }) ∧
    (∀ (words : List W32) (temps : List (BitVec 16)), (words.getD ce.val 0).getLsbD 4 = false →
      (s.die b.val ce.val).op = .none → ce.val < words.length → ce.val < temps.length →
      (∀ k : Nat, k < 10 → k ≠ ce.val → (s.die b.val k).present = false) →
      ∃ t, exec (.alertN b words temps) s = .next t ∧ (t.irqStat (.brn b.val)).getLsbD 2 = true ∧
        (t.die b.val ce.val).status = words.getD ce.val 0 ∧
        (t.die b.val ce.val).temp = temps.getD ce.val 0 + (s.die b.val ce.val).tempOffset ∧
        Noted { s with dies := t.dies } t ∧ ∀ k, k ≠ b.val * 10 + ce.val → t.dies.getD k .absent = s.dies.getD k .absent)

/-- R183, R186, R188, R195: a reset of a die aborts what runs: an aborted read or block reset goes back on the granted list, the
die's default levels stand again, its latches are empty and it is busy for 10 µs; an operation that has not ended after twice its
maximum time is ended so, the die waits for the fault ledger and a transient fault is reported. No command goes to a chip enable
that is not in use (R178, R197). Completes: DIE_RESET, DIE_TIMEOUT. -/
def Sys2Proof.Claims.DiesAreReset : Prop :=
  ∀ (s : State) (b : Fin 32) (ce : Fin 10), Clocked s →
    let d := s.die b.val ce.val
    let d' := fun (now : Nat) => { d with
      op := .none, opReqs := [], suspended := false, sensing := [], drdy := 0, latches := [], levels := [], status := 1
      busyUntil := now + 10 * Config.us }
    (s.ceUsed b.val ce.val = true → d.op ≠ .program →
      ∃ t, exec (.dieReset b ce) s = .next t ∧ DieIs s t b.val ce.val (d' s.now) ∧
        BurnerIs s t b.val { s.burner b.val with granted := (s.burner b.val).granted ++ (d.sensing.map (·.2) ++
          (if d.op = .reset then d.opReqs else [])) } ∧
        t = { s with dies := t.dies, burners := t.burners, out := s.out ++ [.die b.val ce.val [0xFE]] }) ∧
    (s.ceUsed b.val ce.val = false → exec (.dieReset b ce) s = .next s) ∧
    (Live s b.val ce.val → d.sensing = [] → d.op = .reset → d.suspended = false →
      ∃ t, exec (.dieTimeout b ce) s = .next t ∧ t.now = max s.now (d.runSince + 2 * d.op.maxTime - d.ran) ∧
        DieIs s t b.val ce.val { d' t.now with held := true } ∧
        BurnerIs s t b.val { s.burner b.val with granted := (s.burner b.val).granted ++ d.opReqs } ∧
        t.reports = s.reports ++ [⟨1, 1, dieId b.val ce.val⟩] ∧ (t.irqStat (.brn b.val)).getLsbD 1 = true) ∧
    (Live s b.val ce.val → d.sensing = [] → d.op = .none → exec (.dieTimeout b ce) s = .next s)

/-- R178, R198, R199: a parameter page with no valid copy leaves the die absent; one with a valid copy, and no listed defect, gives
the die its levels, its identity and its offset; an owner record is classified, and one that matches gives N and the format
sequence, and the dies found at chip enable N or above are ignored from then on; at format a die's record is written, which takes
16 µs, and the media is formatted when the last present die has its record. A page that breaks a required value is a
configuration fault. Completes: PARAMETER_PAGE, OWNER_READ, OWNER_WRITE. -/
def Sys2Proof.Claims.DiesAreDiscovered : Prop :=
  ∀ (s : State) (b : Fin 32) (ce : Fin 10), Clocked s →
    let d := s.die b.val ce.val
    (∀ bytes : List Byte, d.ready = true → s.ceUsed b.val ce.val = true →
      (validCopy bytes = none → ∃ t, exec (.parameterPage b ce bytes) s = .next t ∧
        DieIs s t b.val ce.val { d with present := false } ∧
        t = { s with dies := t.dies, out := s.out ++ [.die b.val ce.val [0x80]] }) ∧
      (∀ c, validCopy bytes = some c → (∀ k < 64, 2048 ≤ field c (64 + 2 * k) 2) →
        ∃ t, exec (.parameterPage b ce bytes) s = .next t ∧
          DieIs s t b.val ce.val { d with
            present := true, defaults := [field c 17 1, field c 18 1, field c 19 1], dbi := (field c 20 1).testBit 0
            uid := BitVec.ofNat 64 (field c 40 8), tempOffset := BitVec.ofNat 16 (field c 48 2), defects := [] } ∧
          Noted { s with dies := t.dies } t ∧ (pageOk c = false → (t.irqStat (.brn b.val)).getLsbD 3 = true))) ∧
    (∀ (blank : Bool) (bytes : List Byte), d.present = true → d.ready = true → s.ceUsed b.val ce.val = true →
      let n := field bytes 10 1
      let d' := { d with
        owner := s.classify b.val ce.val blank bytes
        ownerRec := if s.classify b.val ce.val blank bytes = .ok then bytes else [] }
      ∃ t, exec (.ownerRead b ce blank bytes) s = .next t ∧
        (s.classify b.val ce.val blank bytes ≠ .ok → DieIs s t b.val ce.val d' ∧
          t = { s with dies := t.dies, out := s.out ++ [.die b.val ce.val [0x88]] }) ∧
        (s.classify b.val ce.val blank bytes = .ok → t.med.dies = n ∧ t.med.formatSeq = BitVec.ofNat 48 (field bytes 16 6) ∧
          ((∀ e ∈ s.dies, e.2.present = true → e.1 % 10 < n) → DieIs s t b.val ce.val d' ∧
            t = { s with dies := t.dies, med := t.med, out := s.out ++ [.die b.val ce.val [0x88]] }) ∧
          (s.dieCount ≠ n → ∀ e ∈ s.dies, n ≤ e.1 % 10 → (t.dies.getD e.1 .absent).present = false))) ∧
    (Live s b.val ce.val → s.med.formatted = false → s.dieCount ≠ 0 → d.ready = true → d.busyUntil ≤ s.now →
      let r := ownerRecord s.fuses.serial b.val ce.val s.dieCount s.med.formatSeq
      ∃ t data dbi, exec (.ownerWrite b ce) s = .next t ∧
        DieIs s t b.val ce.val { d with owner := .ok, ownerRec := r, busyUntil := s.now + 16 * Config.us } ∧
        (d.dbi = false → data = r ∧ dbi = []) ∧
        t.med.formatted = t.dies.all (fun e => !e.2.present || decide (e.2.ownerRec.length = 64)) ∧
        t = { s with dies := t.dies, med := { s.med with formatted := t.med.formatted }
                     out := s.out ++ [.die b.val ce.val [0x89], .dieData b.val ce.val data dbi] }) ∧
    (s.med.formatted = true → exec (.ownerWrite b ce) s = .next s)

/-- R183, R186: the training commands go to a present die that is idle: its pattern is read, its scratch register is loaded with 512
bytes and read back; only the scratch register of that die changes. Completes: TRAIN_READ, TRAIN_WRITE, TRAIN_READBACK. -/
def Sys2Proof.Claims.ScratchIsTrained : Prop :=
  ∀ (s : State) (b : Fin 32) (ce : Fin 10), Clocked s → s.mayTrainDie b.val ce.val = true →
    exec (.trainRead b ce) s = .next (sent s (.die b.val ce.val [0x90])) ∧
    exec (.trainReadback b ce) s = .next (sent s (.die b.val ce.val [0x92])) ∧
    ∀ pattern : List Byte, pattern.length = 512 → ∃ t data dbi, exec (.trainWrite b ce pattern) s = .next t ∧
      DieIs s t b.val ce.val { s.die b.val ce.val with scratch := pattern } ∧
      ((s.die b.val ce.val).dbi = false → data = pattern ∧ dbi = []) ∧
      t = { s with dies := t.dies, out := s.out ++ [.die b.val ce.val [0x91], .dieData b.val ce.val data dbi] }

/-! ### Trims, training, tests, rounds (06_burner_channel.md, 07_upkeep.md, 17_thermal_and_round.md) -/

/-- R222: a calibration of a die and a bucket whose warning count has reached CAL adds the offsets found to the three trims of that
die and bucket, held within 31 codes, and clears its count; no other trim changes. Completes: READ_LEVEL_CALIBRATION. -/
def Sys2Proof.Claims.TrimsAreAdded : Prop :=
  ∀ (s : State) (die : Fin 320) (bucket : Fin 16) (best : List (Fin 7)) (us : Fin 2001),
    Clocked s → s.tasterRuns = true → Live s (die.val / 10) (die.val % 10) →
    0 < s.upk.warnCounts.getD (die.val * 16 + bucket.val) 0 →
    s.liveFld .upk 0x68 31 24 ≤ s.upk.warnCounts.getD (die.val * 16 + bucket.val) 0 →
    ∃ t, exec (.readLevelCalibration .internal die bucket [best] us) s = .next t ∧
      t.upk.warnCounts.find (die.val * 16 + bucket.val) = none ∧
      (∀ k, k ≠ die.val * 16 + bucket.val → t.upk.trims.getD k [0, 0, 0] = s.upk.trims.getD k [0, 0, 0]) ∧
      (∀ i, i < 3 → (t.upk.trims.getD (die.val * 16 + bucket.val) [0, 0, 0]).getD i 0 =
        max (-31) (min 31 ((s.upk.trims.getD (die.val * 16 + bucket.val) [0, 0, 0]).getD i 0 +
          (((best.getD i 3).val : Int) * 2 - 6)))) ∧
      t.upk.retiredMask = s.upk.retiredMask ∧ t.dies = s.dies ∧ t.stk = s.stk ∧ t.siv = s.siv ∧ t.out = s.out

/-- R202, R203: BRN_TRAIN.QUICK queues every die of the burner that is in service for a quick trim and no die is queued twice; a trim
of a queued die takes it off the queue, moves its two delays towards what was found by 8 taps at most, takes the other two settings
and is counted, up to 255. Completes: QUICK_TRIM. -/
def Sys2Proof.Claims.DiesAreTrimmed : Prop :=
  ∀ (s : State) (b : Fin 32) (ce : Fin 10) (r : TrainRes),
    (∀ path : Path, Writes s path (.brn b.val) → ∃ t, exec (.quickTrim (.register path) b ce r) s = .next t ∧
      (∀ c, c < 10 → s.dieLive b.val c = true → t.thm.trimQueue.contains (b.val * 10 + c) = true ∧
        (t.burner b.val).quickBusy = true) ∧
      (∀ d, s.thm.trimQueue.contains d = true → t.thm.trimQueue.contains d = true) ∧ t.dies = s.dies ∧ t.stk = s.stk) ∧
    (Clocked s → s.thm.trimQueue.contains (b.val * 10 + ce.val) = true → Live s b.val ce.val → r.ok = true →
      ∃ t, exec (.quickTrim .internal b ce r) s = .next t ∧
        t.thm.trimQueue = s.thm.trimQueue.filter (fun d => decide (d ≠ b.val * 10 + ce.val)) ∧
        DieIs s t b.val ce.val { s.die b.val ce.val with
          rdDly := recentre (s.die b.val ce.val).rdDly r.rd, wrDly := recentre (s.die b.val ce.val).wrDly r.wr
          vref := r.vref, margin := r.margin } ∧
        (t.burner b.val).quickCount = sat 8 ((s.burner b.val).quickCount + 1) ∧ (∀ k, k ≠ b.val → t.burner k = s.burner k)) ∧
    (s.thm.trimQueue.contains (b.val * 10 + ce.val) = false → exec (.quickTrim .internal b ce r) s = .next s)

/-- R200: the full training of a burner with one die in service takes what was found for that die and makes the burner ready with its
lane open; a die for which training failed has failed, and as it was the burner's last, the burner is reported too, with source
6. Completes: FULL_TRAINING. -/
def Sys2Proof.Claims.BurnersAreTrained : Prop :=
  ∀ (s : State) (b : Fin 32) (ce : Fin 10) (res : List TrainRes) (r : TrainRes), Clocked s → (s.burner b.val).retired = false →
    (s.burner b.val).fullBusy = true → Live s b.val ce.val → (∀ k, k < 10 → k ≠ ce.val → s.dieLive b.val k = false) →
    ce.val < res.length → res.getD ce.val ⟨0, 0, 0, 0, false⟩ = r →
    (r.ok = true → ∃ t, exec (.fullTraining .internal b res) s = .next t ∧
      DieIs s t b.val ce.val { s.die b.val ce.val with rdDly := r.rd, wrDly := r.wr, vref := r.vref, margin := r.margin } ∧
      BurnerIs s t b.val { s.burner b.val with
        failMask := 0, training := false, fullBusy := false, trainState := 0, ready := true } ∧
      t.pass.maskBrn.getLsbD b.val = false ∧ t.pass.lanes = s.pass.lanes ∧ t.reports = s.reports) ∧
    (r.ok = false → ∃ t, exec (.fullTraining .internal b res) s = .next t ∧
      DieIs s t b.val ce.val { s.die b.val ce.val with failed := true } ∧
      (t.burner b.val).training = false ∧ (t.burner b.val).trainState = 3 ∧
      (t.burner b.val).failMask = BitVec.ofNat 10 (2 ^ ce.val) ∧ (∀ k, k ≠ b.val → t.burner k = s.burner k) ∧
      t.reports = s.reports ++ [⟨4, 1, dieId b.val ce.val⟩, ⟨6, 2, b.val⟩] ∧ (t.irqStat (.brn b.val)).getLsbD 0 = true)

/-- R486, R490: Run Test on the sensors and on the codecs, from the fabric owner, runs at once while no test runs, and is outcome 2 while
one does (the model's choice, log entry 117): SENSOR_SELF_CHECK of target 0xFF
answers outcome 0 and ends with pass or fail, pass where there is no sensor, with TEST_DONE raised; CODEC_SELF_TEST of a burner in
service, or of 0xFF, answers outcome 0, charges each target burner, and fails exactly where one of them fails it; a target that is
not there is outcome 3 for either, and a non-zero argument Invalid Input. Completes: SENSOR_SELF_CHECK, CODEC_SELF_TEST. -/
def Sys2Proof.Claims.SensorsAndCodecsAreTested : Prop :=
  ∀ (s : State) (p : Path) (target arg : Byte) (fails : BitVec 32) (us : Fin 2001), Serves s p ownerOnly →
    let tail := leBytes 2 s.thm.deferred.length
    (s.thm.testState ≠ 1 → ∃ t, exec (.sensorSelfCheck (.runTest p 0xFF 0)) s = .next t ∧
      t.thm.test = 1 ∧ t.thm.target = 0xFF ∧ t.thm.testState = 0 ∧ t.thm.testResult ≤ 1 ∧
      (s.thm.sensors = [] → t.thm.testResult = 0) ∧ (t.irqStat .thm).getLsbD 4 = true ∧
      t.out.getLast? = some (.mailbox p 0xC080 0 ([0, 1] ++ tail))) ∧
    (s.thm.testState = 1 →
      exec (.sensorSelfCheck (.runTest p 0xFF 0)) s = .next (answered s p 0xC080 0 ([2, 1] ++ tail)) ∧
      exec (.codecSelfTest (.runTest p 0xFF 0) fails us) s = .next (answered s p 0xC080 0 ([2, 4] ++ tail))) ∧
    (s.thm.testState ≠ 1 → target = 0xFF ∨ s.liveBurners.contains target.toNat = true →
      ∃ t, exec (.codecSelfTest (.runTest p target 0) fails us) s = .next t ∧
        t.thm.test = 4 ∧ t.thm.target = target.toNat ∧ t.thm.testState = 0 ∧ (t.irqStat .thm).getLsbD 4 = true ∧
        t.thm.testResult = (if s.liveBurners.any (fun b =>
          (decide (target = 0xFF) || decide (b = target.toNat)) && fails.getLsbD b) then 1 else 0) ∧
        t.out.getLast? = some (.mailbox p 0xC080 0 ([0, 4] ++ tail))) ∧
    (target ≠ 0xFF → exec (.sensorSelfCheck (.runTest p target 0)) s = .next (answered s p 0xC080 0 ([3, 1] ++ tail)) ∧
      (s.liveBurners.contains target.toNat = false →
        exec (.codecSelfTest (.runTest p target 0) fails us) s = .next (answered s p 0xC080 0 ([3, 4] ++ tail)))) ∧
    (arg ≠ 0 → exec (.sensorSelfCheck (.runTest p target arg)) s = .next (answered s p 0xC080 2 []) ∧
      exec (.codecSelfTest (.runTest p target arg) fails us) s = .next (answered s p 0xC080 2 []))

/-- R486, R487: a disruptive test asked for by Run Test while no link is memory-active and no test runs starts at once with outcome
0: KETTLE_CAPACITANCE_TEST (0x10) asks the power page's test, MAP_STACK_TRAINING (0x12) trains the stacks of its target. While a link
is memory-active it joins the queue with outcome 1, unless it stands there already, or is refused with outcome 2 where the queue
holds 16. Completes: KETTLE_CAPACITANCE_TEST, MAP_STACK_TRAINING. -/
def Sys2Proof.Claims.DisruptiveTestsStartOrWait : Prop :=
  ∀ (s : State) (p : Path) (ok : Bool), Serves s p ownerOnly →
    let idle := s.ports.links.any (fun e => e.2.memActive) = false ∧ s.thm.testState ≠ 1
    let busy := s.ports.links.any (fun e => e.2.memActive) = true
    let n := s.thm.deferred.length
    (idle → ∃ t, exec (.kettleCapacitanceTest (.runTest p 0xFF 0)) s = .next t ∧
      t.thm = { s.thm with test := 0x10, target := 0xFF, testState := 1, testResult := 0 } ∧
      t.pwr = { s.pwr with testReq := true, test := 1 } ∧
      t.out = s.out ++ [.mailbox p 0xC080 0 ([0, 0x10] ++ leBytes 2 n)]) ∧
    (idle → ∃ t, exec (.mapStackTraining (.runTest p 0xFF 0) ok) s = .next t ∧
      t.thm = { s.thm with test := 0x12, target := 0xFF, testState := 1, testResult := 0 } ∧ t.pwr = s.pwr ∧
      t.out = s.out ++ [.mailbox p 0xC080 0 ([0, 0x12] ++ leBytes 2 n)]) ∧
    (busy → s.thm.deferred.contains (0x10, 0xFF) = false → n < 16 →
      ∃ t, exec (.kettleCapacitanceTest (.runTest p 0xFF 0)) s = .next t ∧ t.thm.deferred = s.thm.deferred ++ [(0x10, 0xFF)] ∧
        t.out = s.out ++ [.mailbox p 0xC080 0 ([1, 0x10] ++ leBytes 2 (n + 1))]) ∧
    (busy → s.thm.deferred.contains (0x12, 0xFF) = false → n < 16 →
      ∃ t, exec (.mapStackTraining (.runTest p 0xFF 0) ok) s = .next t ∧ t.thm.deferred = s.thm.deferred ++ [(0x12, 0xFF)] ∧
        t.out = s.out ++ [.mailbox p 0xC080 0 ([1, 0x12] ++ leBytes 2 (n + 1))]) ∧
    (busy → s.thm.deferred.contains (0x10, 0xFF) = false → 16 ≤ n →
      exec (.kettleCapacitanceTest (.runTest p 0xFF 0)) s = .next (answered s p 0xC080 0 ([2, 0x10] ++ leBytes 2 n))) ∧
    (busy → s.thm.deferred.contains (0x12, 0xFF) = false → 16 ≤ n →
      exec (.mapStackTraining (.runTest p 0xFF 0) ok) s = .next (answered s p 0xC080 0 ([2, 0x12] ++ leBytes 2 n)))

/-- R467, R488: the map-stack training that a test began ends with its outcome and TEST_DONE, where no line of the map is locked; a start whose map-stack training fails
presents no memory. Completes: MAP_STACK_TRAINING. -/
def Sys2Proof.Claims.MapStackTrainingEnds : Prop :=
  ∀ (s : State) (ok : Bool),
    (s.thm.test = 0x12 → s.thm.testState = 1 → s.mec.locked = [] → ∃ t, exec (.mapStackTraining .internal ok) s = .next t ∧
      Noted { s with thm := { s.thm with testState := 0, testResult := if ok then 0 else 1 } } t ∧
      (t.irqStat .thm).getLsbD 4 = true) ∧
    (s.pwrState = .starting → s.thm.test ≠ 0x12 → ∃ t, exec (.mapStackTraining .internal false) s = .next t ∧
      t.boot.noMemory = true ∧ Noted { s with boot := { s.boot with noMemory := true } } t)

/-- R477, R484: a round comes 10 ms after the one before, is counted modulo 2^24, takes the supply and kettle means, and counts an
overrun where the round before was late; with no trip counted so far it does not shut the device down; in no other power state is
there a round. Completes: HOUSEKEEPING_ROUND. -/
def Sys2Proof.Claims.RoundsAreCounted : Prop :=
  ∀ (s : State) (ctl stack media : List (Option (BitVec 16))) (supply kettle : BitVec 16) (answers : List (Option (List Byte)))
    (late : Bool),
    (s.pwrState = .starting ∨ s.pwrState = .boil ∨ s.pwrState = .simmer → s.thm.trips = 0 →
      ∃ t, exec (.housekeepingRound ctl stack media supply kettle answers late) s = .next t ∧
        t.thm.rounds = (s.thm.rounds + 1) % 2 ^ 24 ∧ t.now = max s.now (s.thm.roundAt + 10 * Config.ms) ∧ t.thm.roundAt = t.now ∧
        t.thm.overruns = (if late then sat 8 (s.thm.overruns + 1) else s.thm.overruns) ∧ t.pwr.supply = supply.toNat ∧
        t.pwr.kettle = kettle.toNat ∧ t.pwrState = s.pwrState ∧ t.thm.trips ≤ 1 ∧ t.stk = s.stk ∧ t.siv = s.siv ∧
        t.ports = s.ports) ∧
    (s.pwrState ≠ .starting → s.pwrState ≠ .boil → s.pwrState ≠ .simmer →
      exec (.housekeepingRound ctl stack media supply kettle answers late) s = .next s)

/-! ### Power (15_power.md) -/

/-- R417, R422, R446: VAUX coming up samples the address strap and leaves the device cold, or in fault where the latch stands; the
master sends IDENTIFY to every slave address and knows as present those that answer. VAUX going down leaves every rail off and
every link down; the fault latch and OFF_HELD outlive it unless it stays below 1.0 V for a second. Completes: VAUX_GOOD,
VAUX_LOSS. -/
def Sys2Proof.Claims.VauxComesAndGoes : Prop :=
  ∀ s : State,
    (∀ (addr : Fin 16) (answers : BitVec 16), s.pwr.vaux = false →
      ∃ t, exec (.vauxGood addr answers) s = .next t ∧ t.pwr.vaux = true ∧ t.pwr.yvAddr = addr.val ∧
        t.pwrState = (if s.pwr.latched then .fault else .cold) ∧ t.pwr.latched = s.pwr.latched ∧ t.pwr.offHeld = s.pwr.offHeld ∧
        t.pwr.coldAt = s.now ∧ t.pwr.frameAt = s.now ∧
        (addr.val = 0 → ∀ a, 1 ≤ a → a < 16 → (t.pwr.slaves.getD a .none).present = answers.getLsbD a) ∧
        t = { s with pwrState := t.pwrState, pwr := t.pwr, out := s.out ++
          (if addr.val = 0 then (List.range 15).map (fun k => .yulvoga (yvFrame (k + 1) 0x01)) else []) }) ∧
    (s.pwr.vaux = true → ∀ (addr : Fin 16) (answers : BitVec 16), exec (.vauxGood addr answers) s = .next s) ∧
    (∀ second : Bool, ∃ t, exec (.vauxLoss second) s = .next t ∧ t.pwr.vaux = false ∧ t.pwr.vauxLost = s.now ∧ t.pwr.rails = [] ∧
      t.pwr.armed = false ∧ t.pwrState = .cold ∧ t.pwr.latched = (s.pwr.latched && !second) ∧
      t.pwr.offHeld = (s.pwr.offHeld && !second) ∧ (∀ n, (t.link n).up = false) ∧ t.fuses = s.fuses ∧ t.out = s.out)

/-- R419, R420, R422, R436, R440: a cold device whose start conditions hold goes to RAMPING with rail 0 enabled, and one with a fault
latched or held off stays as it is; a rail that has been good for 50 µs qualifies and the next is enabled, while rail 7 begins the
start with ALIVE high; a rail that has not qualified after 10 ms (code 1), or loses its good condition a fourth time (code 2),
latches the fault with its STATUS_WORD and takes the rails down; an earlier loss is counted and raises RAIL_CHATTER. Completes:
START_RAMPING, RAIL_QUALIFIED, RAIL_RAMP_TIMEOUT, POWER_GOOD_LOSS. -/
def Sys2Proof.Claims.RailsComeUp : Prop :=
  ∀ s : State,
    (∀ supply : BitVec 16, s.pwrState = .cold → s.pwr.vaux = true → s.pwr.flushReq = false →
      (s.pwr.latched = true ∨ s.pwr.offHeld = true → exec (.startRamping supply) s = .next s) ∧
      (s.pwr.latched = false → s.pwr.offHeld = false → s.pwr.yvAddr = 0 ∨ s.pwr.powerOn = true →
        s.liveFld .pwr 0x40 15 8 * 25 ≤ supply.toNat →
        ∃ t, exec (.startRamping supply) s = .next t ∧ t.pwrState = .ramping ∧ (t.rail 0).enabled = true ∧
          (t.rail 0).qualified = false ∧ (∀ k, k ≠ 0 → t.rail k = s.rail k) ∧ t.pwr.armed = false ∧
          t.now = max s.now (max (s.pwr.coldAt + 500 * Config.ms) (s.pwr.supplyGoodAt + 100 * Config.ms)) ∧
          t.out.getLast? = some (.pin "PWR_EN0" true) ∧ t.fuses = s.fuses ∧ t.spk.ring = s.spk.ring)) ∧
    (∀ i : Fin 8, s.pwrState = .ramping → (s.rail i.val).qualified = false →
      (∀ k, k < 8 → (s.rail k).enabled = decide (k ≤ i.val)) →
      (∀ strap : Fin 4, (∀ k, k < i.val → (s.rail k).qualified = true) →
        max s.now ((s.rail i.val).goodAt + 50 * Config.us) ≤ (s.rail i.val).since + 10 * Config.ms → ∃ t, exec (.railQualified i strap) s = .next t ∧
        t.now = max s.now ((s.rail i.val).goodAt + 50 * Config.us) ∧ (t.rail i.val).qualified = true ∧
        (∀ k, k ≠ i.val → k ≠ i.val + 1 → t.rail k = s.rail k) ∧ (i.val = 4 → t.boot.smbAddr = 0x64 + strap.val) ∧
        (i.val < 7 → t.pwrState = .ramping ∧ (t.rail (i.val + 1)).enabled = true ∧ (t.rail (i.val + 1)).since = t.now ∧
          t.out.getLast? = some (.pin (enName (i.val + 1)) true)) ∧
        (i.val = 7 → t.pwrState = .starting ∧ t.boot.seq = .start ∧ t.out = s.out ++ [.pin "ALIVE" true])) ∧
      (∀ status : BitVec 16, ∃ t, exec (.railRampTimeout i status) s = .next t ∧ t.pwrState = .shutdown ∧ t.pwr.latched = true ∧
        t.pwr.code = 1 ∧ t.pwr.rail = i.val ∧ t.pwr.pmbStatus = status ∧ (t.rail i.val).enabled = false ∧
        (t.rail i.val).dropping = true ∧ (∀ k, k < i.val → (t.rail k).enabled = true)) ∧
      (∀ status : BitVec 16,
        ((s.rail i.val).requal = 3 → ∃ t, exec (.powerGoodLoss i status) s = .next t ∧ t.pwrState = .shutdown ∧
          t.pwr.latched = true ∧ t.pwr.code = 2 ∧ t.pwr.rail = i.val ∧ t.pwr.pmbStatus = status ∧
          (t.rail i.val).enabled = false) ∧
        ((s.rail i.val).requal ≠ 3 → ∃ t, exec (.powerGoodLoss i status) s = .next t ∧
          t.rail i.val = { s.rail i.val with
            good := false, qualified := false, goodAt := s.now, requal := (s.rail i.val).requal + 1 } ∧
          (∀ k, k ≠ i.val → t.rail k = s.rail k) ∧ (t.irqStat .pwr).getLsbD 5 = true ∧ t.pwrState = s.pwrState)))

/-- R421, R423, R431: in the down sequence a rail that is off lets the highest enabled rail be lowered, and the last one ends the
sequence, cold or in fault; a rail that is not off after 10 ms lowers every enabled rail and latches code 5. An undervoltage
latches code 3, and starts Flush with cause 7 where it is armed, else the rails go down; an overvoltage latches code 4 and lowers
every rail at once, with no Flush. Completes: RAIL_OFF, DISCHARGE_TIMEOUT, UNDERVOLTAGE, OVERVOLTAGE. -/
def Sys2Proof.Claims.RailsGoDown : Prop :=
  ∀ (s : State) (i : Fin 8),
    (s.pwrState = .shutdown → (s.rail i.val).dropping = true → (s.rail i.val).enabled = false →
      ((∀ j, j < 8 → j ≠ i.val → (s.rail j).dropping = false) →
        (s.enabledRails = [] → ∃ t, exec (.railOff i) s = .next t ∧ t.pwrState = (if s.pwr.latched then .fault else .cold) ∧
          t.rail i.val = { s.rail i.val with dropping := false, good := false, qualified := false } ∧ t.out = s.out) ∧
        (∀ k ks, s.enabledRails = k :: ks → ∃ t, exec (.railOff i) s = .next t ∧ t.pwrState = .shutdown ∧
          (t.rail k).enabled = false ∧ (t.rail k).dropping = true ∧ (t.rail i.val).dropping = false ∧
          (∀ j, j ≠ i.val → j ≠ k → t.rail j = s.rail j) ∧ t.out = s.out ++ [.pin (enName k) false])) ∧
      (∃ t, exec (.dischargeTimeout i) s = .next t ∧ t.now = max s.now ((s.rail i.val).since + 10 * Config.ms) ∧
        t.pwr.latched = true ∧ t.pwr.code = 5 ∧ t.pwr.rail = i.val ∧ t.pwrState = .shutdown ∧
        ∀ k, k < 8 → (t.rail k).enabled = false)) ∧
    ((s.rail i.val).dropping = false → exec (.railOff i) s = .next s ∧ exec (.dischargeTimeout i) s = .next s) ∧
    (s.pwrState.flushable = true → ∃ t, exec (.undervoltage i) s = .next t ∧ t.pwr.latched = true ∧ t.pwr.code = 3 ∧
      t.pwr.rail = i.val ∧ (s.pwr.armed = true → t.pwrState = .flush ∧ t.pwr.cause = 7 ∧ t.stk.frozen = true) ∧
      (s.pwr.armed = false → t.pwrState = .shutdown)) ∧
    (s.enabledRails ≠ [] → ∃ t, exec (.overvoltage i) s = .next t ∧ t.pwr.latched = true ∧ t.pwr.code = 4 ∧ t.pwr.rail = i.val ∧
      t.pwrState = .shutdown ∧ t.pwr.armed = false ∧ ∀ k, k < 8 → (t.rail k).enabled = false)

/-- R424: a PMBus transaction is PAGE, where the rail has a page, and its code; what it reads goes to that rail's reading and
nothing else changes; one that fails its check is sent twice, is recorded with the rail and the code, and leaves the readings as
they were; a status byte is read only where STATUS_WORD shows its class; while the bus is not in use nothing is sent. A fall of
PMB_ALERT_N is raised and reads STATUS_WORD from every rail. Completes: PMB_ALERT, PAGE, CLEAR_FAULTS, VOUT_MODE, STATUS_WORD,
STATUS_VOUT, STATUS_IOUT, STATUS_INPUT, STATUS_TEMPERATURE, READ_VIN, READ_VOUT, READ_IOUT, READ_TEMPERATURE_1, PMBUS_REVISION. -/
def Obligations.RegulatorsAreRead : Prop :=
  ∀ (s : State) (i : Fin 8) (w : BitVec 16) (b : Byte),
    let r := s.rail i.val
    let page := s.liveFld .pwr (0x100 + i.val * 8) 15 8
    let sends := fun (code : Nat) => (if page = 0xFF then [] else [Output.pmbus i.val 0 page]) ++ [Output.pmbus i.val code 0]
    (s.pmbLive = true →
      (∃ t, exec .pmbAlert s = .next t ∧ Noted s t ∧ (t.irqStat .pwr).getLsbD 4 = true ∧
        ∀ k, k < 8 → .pmbus k 0x79 0 ∈ t.out.drop s.out.length) ∧
      (page ≠ 0xFF → exec (.page i) s = .next (sent s (.pmbus i.val 0 page))) ∧
      (page = 0xFF → exec (.page i) s = .next s) ∧
      (∀ (c : Instr) (code : Nat) (r' : PRail), (c, code, r') ∈
          [(Instr.clearFaults i true, 0x03, { r with status := 0, sub := [] }),
           (Instr.voutMode i (some b), 0x20, { r with mode := b }),
           (Instr.statusWord i (some w), 0x79, { r with status := w }),
           (Instr.readVin i (some w), 0x88, { r with vin := w }),
           (Instr.readVout i (some w), 0x8B, { r with vout := linear16 r.mode w }),
           (Instr.readIout i (some w), 0x8C, { r with iout := linear11 w }),
           (Instr.readTemperature1 i (some w), 0x8D, { r with temp := w })] →
        ∃ t, exec c s = .next t ∧ t.rail i.val = r' ∧ (∀ k, k ≠ i.val → t.rail k = s.rail k) ∧
          t = { s with pwr := { s.pwr with rails := t.pwr.rails }, out := s.out ++ sends code }) ∧
      (∀ (c : Instr) (code bit : Nat), (c, code, bit) ∈
          [(Instr.statusVout i (some b), 0x7A, 15), (Instr.statusIout i (some b), 0x7B, 14),
           (Instr.statusInput i (some b), 0x7C, 13), (Instr.statusTemperature i (some b), 0x7D, 2)] →
        (r.status.getLsbD bit = true → ∃ t, exec c s = .next t ∧ t.rail i.val = { r with sub := r.sub.put code b } ∧
          (∀ k, k ≠ i.val → t.rail k = s.rail k) ∧
          t = { s with pwr := { s.pwr with rails := t.pwr.rails }, out := s.out ++ sends code }) ∧
        (r.status.getLsbD bit = false → exec c s = .next s)) ∧
      (∃ t, exec (.pmbusRevision i (some b)) s = .next t ∧ t.rail i.val = { r with rev := b } ∧
        (∀ k, k ≠ i.val → t.rail k = s.rail k) ∧ t.rails.event.waiting = s.rails.event.waiting ++
          (if b.toNat < 0x33 then [⟨0x8003, BitVec.ofNat 64 i.val, 0x98, 0, 0⟩] else [])) ∧
      (∀ (c : Instr) (code : Nat), (c, code) ∈
          [(Instr.clearFaults i false, 0x03), (Instr.voutMode i none, 0x20), (Instr.statusWord i none, 0x79),
           (Instr.readVin i none, 0x88), (Instr.readVout i none, 0x8B), (Instr.readIout i none, 0x8C),
           (Instr.readTemperature1 i none, 0x8D), (Instr.pmbusRevision i none, 0x98)] →
        ∃ t, exec c s = .next t ∧ Noted s t ∧ t.out = s.out ++ (sends code ++ sends code) ∧
          t.rails.event.waiting = s.rails.event.waiting ++ [⟨0x8003, BitVec.ofNat 64 i.val, BitVec.ofNat 64 code, 0, 0⟩])) ∧
    (s.pmbLive = false → ∀ c, c ∈ [Instr.pmbAlert, .page i, .clearFaults i true, .voutMode i (some b), .statusWord i (some w),
      .statusVout i (some b), .statusIout i (some b), .statusInput i (some b), .statusTemperature i (some b), .readVin i (some w),
      .readVout i (some w), .readIout i (some w), .readTemperature1 i (some w), .pmbusRevision i (some b)] → exec c s = .next s)

/-- R427 to R430: a bank that reaches READY while a test is due stops charging and has its test load connected; its discharge to
nine tenths of V0 gives its capacitance, its floor and whether it is too small, and charging goes on; a test that times out is a
fault. Below v_hold with Flush armed writes are held, and at v_hold + 0.5 V the credits held back return. Completes:
KETTLE_READY, KETTLE_TEST_DISCHARGE, KETTLE_TEST_TIMEOUT, WRITE_HOLD, WRITE_HOLD_END. -/
def Sys2Proof.Claims.KettleIsMeasured : Prop :=
  ∀ s : State,
    (∀ v : BitVec 16, s.pwr.charging = true → s.pwr.testing = false →
      s.pwr.testReq = true ∨ (s.pwrState = .starting ∧ s.pwr.armed = false) → s.kettleReady * 25 ≤ v.toNat →
      exec (.kettleReady v) s = .next { s with
        pwr := { s.pwr with
          kettle := v.toNat, charging := false, testing := true, v0 := v.toNat, testAt := s.now, test := 1 }
        out := s.out ++ [.pin "KETTLE_CHG_EN" false, .pin "KETTLE_TEST_EN" true] }) ∧
    (∀ us : BitVec 32, s.pwr.testing = true →
      (us.toNat ≤ 400000 → ∃ t, exec (.kettleTestDischarge us) s = .next t ∧ t.now = max s.now (s.pwr.testAt + us.toNat * Config.us) ∧
        t.pwr.cap = kettleC us.toNat ∧ t.pwr.testing = false ∧ t.pwr.charging = true ∧ t.pwr.testReq = false ∧ t.pwr.test = 0 ∧
        t.pwr.kettle = s.pwr.v0 * 9 / 10 ∧ t.pwr.hold = s.vHold (kettleC us.toNat) ∧ t.pwr.fault = s.kettleShort (kettleC us.toNat) ∧
        t.pwr.weak = decide (kettleC us.toNat < s.kettleWeakAt) ∧
        t.pwr.armed = (s.pwr.armed || decide (s.pwrState = .starting)) ∧ (t.irqStat .pwr).getLsbD 3 = true) ∧
      (400000 < us.toNat → exec (.kettleTestDischarge us) s = .next s) ∧
      (∃ t, exec .kettleTestTimeout s = .next t ∧ t.now = max s.now (s.pwr.testAt + 400 * Config.ms) ∧ t.pwr.fault = true ∧
        t.pwr.testing = false ∧ t.pwr.test = 3 ∧ t.pwr.cap = s.pwr.cap ∧ (t.irqStat .pwr).getLsbD 3 = true)) ∧
    (∀ v : BitVec 16, s.pwr.armed = true → s.pwrState.flushable = true → s.pwr.writeHold = false →
      s.liveFld .pwr 0x40 7 0 * 25 ≤ s.pwr.supply → v.toNat < s.pwr.hold →
      ∃ t, exec (.writeHold v) s = .next t ∧ (t.irqStat .pwr).getLsbD 1 = true ∧
        Noted { s with pwr := { s.pwr with writeHold := true, kettle := v.toNat } } t) ∧
    (∀ v : BitVec 16, s.pwr.writeHold = true → s.pwr.hold + 50 ≤ v.toNat → ∃ t, exec (.writeHoldEnd v) s = .next t ∧
      t = { s with pwr := { s.pwr with writeHold := false, kettle := v.toNat }, ports := { s.ports with links := t.ports.links } } ∧
      ∀ n, (t.link n).credits = (s.link n).credits + (s.link n).owed ∧ (t.link n).owed = 0 ∧
        (t.link n).iwq = (s.link n).iwq ∧ (t.link n).up = (s.link n).up)

/-- R431 to R434: a supply failure (cause 1), the kettle at its floor (2), FLUSH_REQ high (3) and a reference clock without an edge
(5) start Flush where it is armed: every link is down, the stockpot is frozen and the cause is latched; where it is not armed the
device shuts down, and once Flush has started a further trigger changes no cause. A dip of the supply that ends in time is only
recorded; a bus below 14.0 V abandons Flush. Completes: SUPPLY_FAIL, KETTLE_FLOOR, FLUSH_REQ, REFERENCE_CLOCK_ABSENT, BROWNOUT,
FLUSH_ABANDON. -/
def Sys2Proof.Claims.FlushIsTriggered : Prop :=
  ∀ s : State,
    (∀ (c : Instr) (cause : Nat), (c, cause) ∈
        [(Instr.supplyFail, 1), (Instr.kettleFloor, 2), (Instr.flushReq true, 3), (Instr.referenceClockAbsent, 5)] →
      (s.pwrState.flushable = true → s.pwr.armed = true → ∃ t, exec c s = .next t ∧ t.pwrState = .flush ∧ t.pwr.cause = cause ∧
        t.pwr.flushAt = s.now ∧ t.pwr.charging = false ∧ t.stk.frozen = true ∧ (∀ n, n < 32 → (t.link n).up = false) ∧
        t.boot.seq = .flush) ∧
      (s.pwrState.flushable = true → s.pwr.armed = false → c ≠ .kettleFloor →
        ∃ t, exec c s = .next t ∧ t.pwrState = .shutdown ∧ t.stk = s.stk ∧ ∀ n, (t.link n).up = false) ∧
      (s.pwrState = .flush → ∃ t, exec c s = .next t ∧ t.pwrState = .flush ∧ t.pwr.cause = s.pwr.cause ∧ t.stk = s.stk ∧
        t.out = s.out)) ∧
    (exec (.flushReq false) s = .next { s with pwr := { s.pwr with flushReq := false } }) ∧
    (∀ us : Fin 2000, s.pwrState.flushable = true → ∃ t, exec (.brownout us) s = .next t ∧ Noted s t ∧
      (t.irqStat .pwr).getLsbD 0 = true ∧ t.rails.event.waiting = s.rails.event.waiting ++
        [⟨0x8001, BitVec.ofNat 64 us.val, 0, 0, 0⟩]) ∧
    (s.pwrState = .flush → ∃ t, exec .flushAbandon s = .next t ∧ t.pwrState = .shutdown ∧ t.pwr.abandoned = true ∧
      t.pwr.cause = s.pwr.cause ∧ ∀ n, (t.link n).up = false) ∧
    (s.pwrState ≠ .flush → exec .flushAbandon s = .next s)

/-! ### Simmer and the Yulvoga bus (02_host_ports.md, 15_power.md) -/

/-- R68, R75, R437: Set Power State to Simmer, by a link that is up and with nothing busy, starts the entry: the other links are held
down, CXL.mem is off on the Simmer link and the command goes on; a link that is not there is Invalid Input, and a device that is
not idle in Boil is Busy; the target reached already answers at once. The wake out of Simmer leaves the device in Boil and the
waiting commands answered, or waits where a deferred test runs (R487). Completes: SIMMER_ENTRY, SIMMER_WAKE. -/
def Sys2Proof.Claims.SimmerIsEnteredAndLeft : Prop :=
  ∀ (s : State) (p : Path), Serves s p s.powerAccess →
    (∀ link : Byte,
      let n := if link = 0xFF then s.simmerDefault else link.toNat
      (s.pwrState = .simmer → exec (.simmerEntry p link) s = .next (answered s p 0xC002 0 (leBytes 4 1))) ∧
      (s.pwrState ≠ .simmer → 32 ≤ n ∨ (s.link n).up = false →
        exec (.simmerEntry p link) s = .next (answered s p 0xC002 2 [])) ∧
      (s.pwrState ≠ .simmer → n < 32 → (s.link n).up = true →
        (s.pwrState ≠ .boil ∨ s.boot.seq ≠ .idle ∨ s.simmerBusy = true →
          exec (.simmerEntry p link) s = .next (answered s p 0xC002 6 [])) ∧
        (s.pwrState = .boil → s.boot.seq = .idle → s.simmerBusy = false →
          ∃ t, exec (.simmerEntry p link) s = .next t ∧ t.boot.seq = .simmer p ∧ t.boot.simmerAt = s.now ∧
            t.ports.simmerLink = n ∧ (t.link n).memActive = false ∧ (∀ k, k < 32 → k ≠ n → (t.link k).up = false)))) ∧
    (∀ (fails : BitVec 32) (rate : Fin 6),
      (s.pwrState = .simmer → s.thm.testState ≠ 1 → ∃ t, exec (.simmerWake p fails rate) s = .next t ∧ t.pwrState = .boil ∧
        t.boot.boilAt = s.now ∧ (∀ b ∈ s.liveBurners, fails.getLsbD b = true → (t.burner b).training = true) ∧
        (s.mbx.runs = [] → t.mbx.runs = [] ∧ .mailbox p 0xC002 0 (leBytes 4 0) ∈ t.out.drop s.out.length)) ∧
      (s.pwrState = .simmer → s.thm.testState = 1 → exec (.simmerWake p fails rate) s = .next { s with
        mbx := { s.mbx with runs := s.mbx.runs ++ [⟨p, 0xC002, s.now, false, [0, fails.toNat, rate.val + 1], []⟩] } }) ∧
      (s.pwrState = .boil → s.boot.seq = .idle →
        exec (.simmerWake p fails rate) s = .next (answered s p 0xC002 0 (leBytes 4 0))) ∧
      (s.pwrState ≠ .simmer → s.pwrState ≠ .boil → exec (.simmerWake p fails rate) s = .next (answered s p 0xC002 6 [])))

/-- R442 to R445: a slave answers a valid frame with its status, its payload and their CRC, and notes when the frame came: IDENTIFY
gives the serial, the grade and the dies per burner, STATUS and KETTLE_INFO what their tables say; POWER_ON in COLD clears OFF_HELD
and lets the slave start, and is refused with status 4 while a fault is latched; POWER_OFF sets OFF_HELD and triggers Flush with
cause 4; CLEAR_FAULT clears the latch in FAULT alone; a frame with a bad CRC is answered with status 3 and not acted on, an
unknown command with status 2. A device that is no slave takes none of them. Completes: YV_IDENTIFY, YV_STATUS, POWER_ON,
POWER_OFF, CLEAR_FAULT, KETTLE_INFO, YULVOGA_BAD_FRAME. -/
def Sys2Proof.Claims.SlavesAnswer : Prop :=
  ∀ s : State,
    (s.isSlave = true →
      let heard := fun (st : Nat) => { s.pwr with frameAt := s.now, yvStatus := st }
      let tells := fun (st : Nat) (b : List Byte) => s.out ++ [Output.yulvoga (yvAnswer s.pwr.yvAddr st b)]
      (exec .yvIdentify s = .next { s with
        pwr := heard 0
        out := tells 0 (leBytes 8 s.fuses.serial.toNat ++ [byteOf (Grade.code s.fuses.grade), byteOf s.dieCount, 0, 0]) }) ∧
      (∃ t b, exec .yvStatus s = .next t ∧ t = { s with pwr := heard 0, out := tells 0 b } ∧ b.length = 12 ∧
        field b 0 1 = s.pwrState.code ∧ field b 3 1 = s.pwr.lastCause % 256 ∧
        (∀ x, b[1]? = some x → x.getLsbD 1 = s.pwr.offHeld ∧ x.getLsbD 2 = s.pwr.latched ∧ x.getLsbD 6 = s.prot.lid)) ∧
      (exec .kettleInfo s = .next { s with
        pwr := heard 0
        out := tells 0 (leBytes 2 (min s.pwr.cap 65535) ++ leBytes 2 (min s.pwr.hold 65535) ++
          leBytes 2 (min s.pwr.kettle 65535) ++ leBytes 2 s.kettleHours) }) ∧
      (s.pwr.latched = true → exec .powerOn s = .next { s with pwr := heard 4, out := tells 4 [] }) ∧
      (s.pwr.latched = false → s.pwrState = .cold → exec .powerOn s = .next { s with
        pwr := { heard 0 with offHeld := false, powerOn := true }, out := tells 0 [] }) ∧
      (s.pwr.latched = false → s.pwrState ≠ .cold → exec .powerOn s = .next { s with pwr := heard 0, out := tells 0 [] }) ∧
      (∀ broadcast : Bool, ∃ t, exec (.powerOff broadcast) s = .next t ∧ t.pwr.offHeld = true ∧ t.pwr.frameAt = s.now ∧
        (s.pwrState.flushable = true → s.pwr.armed = true → t.pwrState = .flush ∧ t.pwr.cause = 4) ∧
        (s.pwrState.flushable = true → s.pwr.armed = false → t.pwrState = .shutdown) ∧
        (s.pwrState = .cold → t.pwrState = .cold)) ∧
      (s.pwrState = .fault → exec (.clearFault false) s = .next ((List.range 8).foldl (fun u i => u.pmb i 0x03 0) { s with
        pwrState := .cold, pwr := { heard 0 with latched := false, coldAt := s.now }, out := tells 0 [] })) ∧
      (s.pwrState ≠ .fault → exec (.clearFault false) s = .next { s with pwr := heard 4, out := tells 4 [] } ∧
        exec (.clearFault true) s = .next { s with pwr := heard 4 }) ∧
      exec (.yulvogaBadFrame true) s = .next { s with pwr := heard 2, out := tells 2 [] } ∧
      exec (.yulvogaBadFrame false) s = .next { s with pwr := { s.pwr with yvStatus := 3 }, out := tells 3 [] }) ∧
    (s.isSlave = false → ∀ c, c ∈ [Instr.yvIdentify, .yvStatus, .powerOn, .powerOff false, .powerOff true, .clearFault false,
      .clearFault true, .kettleInfo, .yulvogaBadFrame true, .yulvogaBadFrame false] → exec c s = .next s)

/-- R448: a cold slave that has had no valid frame for 5 s may start after its address times 200 ms more, unless it is held off; the
clock is then at that moment or later. Completes: YULVOGA_FALLBACK. -/
def Obligations.SlavesFallBack : Prop :=
  ∀ s : State, s.isSlave = true → s.pwrState = .cold →
    (s.pwr.offHeld = false → exec .yulvogaFallback s = .next { s with
      now := max s.now (s.pwr.frameAt + 5 * Config.sec + s.pwr.yvAddr * (200 * Config.ms)), pwr := { s.pwr with powerOn := true } }) ∧
    (s.pwr.offHeld = true → exec .yulvogaFallback s = .next s)

/-- R443, R450: GO on the master sends the frame once and once more for each repeat, ten times where the transaction does not
complete; PWR_YV_RESP then holds the result and the status of a slave; a transaction that does not complete raises YV_ERR; one
that completes with IDENTIFY makes the slave present; a slave takes the command word and sends nothing. Completes: YV_CMD_GO. -/
def Sys2Proof.Claims.MasterSends : Prop :=
  ∀ (s : State) (path : Path) (addr : Fin 16) (cmd : Byte) (again : Fin 10) (result : Fin 4) (status : Byte) (payload : List Byte),
    Writes s path .pwr →
    ∃ t, exec (.yvCmdGo path addr cmd again result status payload) s = .next t ∧
      (s.pwr.yvAddr ≠ 0 → t = { s with regs := t.regs }) ∧
      (s.pwr.yvAddr = 0 →
        t.pwr.respResult = result.val ∧ t.pwr.respStatus = (if addr.val = 0 then 0 else status.toNat) ∧
        (∃ extra, t.out = s.out ++ List.replicate (if result.val = 0 then again.val + 1 else 10)
          (.yulvoga (yvFrame addr.val cmd.toNat)) ++ extra) ∧
        (result.val ≠ 0 → (t.irqStat .pwr).getLsbD 7 = true ∧ t.pwr.slaves = s.pwr.slaves) ∧
        (result.val = 0 → cmd = 0x01 → addr.val ≠ 0 → status = 0 → (t.pwr.slaves.getD addr.val .none).present = true))

/-! ### Resets, commits, registers, the TAP (16_bring_up.md, 19_register_architecture.md, 20_package_and_electrical.md) -/

/-- R451, R453: a write of the warm reset key by a path that may write BOOT_RESET, with the device ready and no warm reset under way,
starts the pre-reset phase: every link is down and a pending commit is abandoned; with frames held in pantry bare it is a Flush
with cause 3 instead. While a start runs, or the pre-reset phase, it is ignored. Completes: WARM_RESET. -/
def Sys2Proof.Claims.WarmResetBegins : Prop :=
  ∀ (s : State) (path : Path), Writes s path .boot → s.recovery = false →
    (s.boot.ready = true → s.boot.seq ≠ .preReset → s.pwrState = .boil ∨ s.pwrState = .simmer → s.heldFrames = false →
      ∃ t, exec (.warmReset path) s = .next t ∧ t.boot.seq = .preReset ∧ t.boot.began = s.now ∧
        t.boot.trapped = false ∧ t.cmt.pending = false ∧ (∀ n, n < 32 → (t.link n).up = false) ∧ t.pwrState = s.pwrState) ∧
    (s.boot.ready = true → s.boot.seq ≠ .preReset → s.pwrState = .boil ∨ s.pwrState = .simmer → s.heldFrames = true →
      s.pwr.armed = true → ∃ t, exec (.warmReset path) s = .next t ∧ t.pwrState = .flush ∧ t.pwr.cause = 3) ∧
    (s.boot.ready = false ∨ s.boot.seq = .preReset → exec (.warmReset path) s = .next s)

/-- R453: a pre-reset phase that has not ended 50 ms after its trigger becomes a Flush with cause 3; outside that phase the timeout
does nothing. Completes: WARM_RESET_TIMEOUT. -/
def Sys2Proof.Claims.WarmResetTimesOut : Prop :=
  ∀ s : State,
    (s.boot.seq = .preReset → s.pwrState.flushable = true → s.pwr.armed = true →
      ∃ t, exec .warmResetTimeout s = .next t ∧ t.pwrState = .flush ∧ t.pwr.cause = 3 ∧
        t.pwr.flushAt = max s.now (s.boot.began + 50 * Config.ms)) ∧
    (s.boot.seq ≠ .preReset → exec .warmResetTimeout s = .next s)

/-- R471, R472: a commit with nothing staged ends at once with result 1 and the next serial; one whose sets all stand, with no link
memory-active, is pending with result 2 and no port to quiesce; one that a rule refuses ends with result 4; a commit while
one is pending is ignored. A discard reloads every shadow from its live value. Completes: COMMIT, DISCARD. -/
def Sys2Proof.Claims.CommitsAreJudged : Prop :=
  ∀ (s : State) (path : Path), Writes s path .glb →
    (s.cmt.pending = false → s.changes = [] → exec (.commit path) s = .next { s with
      cmt := { s.cmt with serial := s.cmt.serial + 1, result := 1, span := false, quiesce := 0 } }) ∧
    (s.cmt.pending = false → s.changes ≠ [] → (s.judgeStaged s.changes (s.cmt.serial + 1)).1 = true →
      (∀ n, (s.link n).memActive = false) →
      ∃ t, exec (.commit path) s = .next t ∧ t.cmt.pending = true ∧ t.cmt.by_ = some path ∧ t.cmt.result = 2 ∧
        t.cmt.serial = s.cmt.serial + 1 ∧ t.cmt.ports = [] ∧ t.cmt.since = s.now ∧ t.cmt.changes = s.changes ∧
        t.stk = s.stk ∧ t.ports = s.ports) ∧
    (s.cmt.pending = false → s.changes ≠ [] → (s.judgeStaged s.changes (s.cmt.serial + 1)).1 = false →
      ∃ t, exec (.commit path) s = .next t ∧ t.cmt.pending = false ∧ t.cmt.result = 4 ∧ t.cmt.serial = s.cmt.serial + 1 ∧
        t.stk = s.stk) ∧
    (s.cmt.pending = false →
      ∃ t, exec (.discard path) s = .next t ∧ t = { s with regs := { s.regs with shadow := t.regs.shadow } } ∧
        ∀ (p : RPage) (o : Nat) (r : RegRow), locate (p.base + o) = some (p, o) → p.row o = some r → r.staged = true →
          t.getShadow p o = s.getLive p o) ∧
    (s.cmt.pending = true → exec (.commit path) s = .next s ∧ exec (.discard path) s = .next s)

/-- R472, R473: a pending commit with no port to quiesce applies at the next 1 µs boundary and ends with result 1; one with ports
applies once they are quiet within 20 µs, with its quiesce time, and else ends after 20 µs with result 3 and nothing applied, its
shadows kept. A changed register has its new live value (here one of the pass, which nothing else follows from), and no
other register changes. Completes: COMMIT_APPLY, QUIESCE_REACHED, QUIESCE_TIMEOUT. -/
def Sys2Proof.Claims.CommitsApply : Prop :=
  ∀ (s : State) (o : Nat) (v : BitVec 32), s.cmt.pending = true → s.cmt.waiting = [] → s.cmt.requests = [] →
    let done := fun (result quiesce : Nat) (span : Bool) => { s.cmt with
      pending := false, by_ := none, result := result, span := span, quiesce := quiesce, ports := [], changes := []
      waiting := [], requests := [] }
    (o < 0x10000 → s.cmt.changes = [(RPage.pas.base + o, v)] → s.cmt.ports = [] →
      ∃ t, exec .commitApply s = .next t ∧ t.cmt = done 1 0 false ∧
        t.now = max s.now ((s.cmt.since / Config.us + 1) * Config.us) ∧ t.getLive .pas o = v ∧
        (∀ k, k ≠ RPage.pas.base + o → t.regs.live.getD k 0 = s.regs.live.getD k 0) ∧
        t.stk = s.stk ∧ t.ports = s.ports ∧ t.pass = s.pass ∧ t.out = s.out) ∧
    (o < 0x10000 → s.cmt.changes = [(RPage.pas.base + o, v)] → s.cmt.ports ≠ [] → s.quiescent = true →
      s.now ≤ s.cmt.since + 20 * Config.us →
      ∃ t, exec .quiesceReached s = .next t ∧ t.cmt = done 1 ((s.now - s.cmt.since) * 10 / Config.us) true ∧
        t.getLive .pas o = v ∧ t.stk = s.stk ∧ t.ports = s.ports) ∧
    (s.cmt.ports ≠ [] → s.quiescent = false →
      ∃ t, exec .quiesceTimeout s = .next t ∧ t.now = max s.now (s.cmt.since + 20 * Config.us) ∧ t.cmt = done 3 200 true ∧
        t.regs.shadow = s.regs.shadow ∧ (∀ k, k % 4096 ≠ 0x14 → t.regs.live.find k = s.regs.live.find k) ∧
        t.stk = s.stk ∧ t.ports = s.ports)

/-- R519 to R521, R525, R526: a write of IRQ_STAT clears the bits written as 1 and no other register; a write of IRQ_FORCE sets each bit
its page has; a whole word written to a staged register changes its shadow alone, in the bits that its table lets be written,
and to a register that is not staged its live value; a word that is written in part is not written, and its access is recorded
and raised, as is a read of more than 64 bytes; a read answers with its words in order. Completes: REGISTER_WRITE,
IRQ_STAT_CLEAR, IRQ_FORCE, LO_REGISTER_READ. -/
def Sys2Proof.Claims.RegistersAreAccessed : Prop :=
  ∀ (s : State) (path : Path) (off : Fin 0x4000000) (p : RPage) (o : Nat) (v : BitVec 32),
    locate off.val = some (p, o) → locate (p.base + 0x14) = some (p, 0x14) → locate (p.base + 0x1C) = some (p, 0x1C) →
    Writes s path p →
    (∃ t, exec (.irqStatClear path off v) s = .next t ∧ t = { s with regs := { s.regs with live := t.regs.live } } ∧
      t.irqStat p = s.irqStat p &&& ~~~v ∧ ∀ k, k ≠ p.base + 0x14 → t.regs.live.getD k 0 = s.regs.live.getD k 0) ∧
    (∃ t, exec (.irqForce path off v) s = .next t ∧ Noted s t ∧
      ∀ i, i < 32 → (t.irqStat p).getLsbD i = ((s.irqStat p).getLsbD i || (v.getLsbD i && p.irqMask.testBit i))) ∧
    (∀ r : RegRow, off.val % 4 = 0 → p.base + o = off.val → p.row o = some r → o ≠ 0x14 → o ≠ 0x1C →
      s.special path p o v = none →
      (r.staged = true → s.cmt.pending = false → s.windowLocked p o v = false →
        ∃ t, exec (.registerWrite path off [.whole v]) s = .next t ∧
          t = { s with regs := { s.regs with shadow := t.regs.shadow } } ∧
          t.getShadow p o = maskedWrite (s.getShadow p o) v r.mask) ∧
      (r.staged = false → ∃ t, exec (.registerWrite path off [.whole v]) s = .next t ∧
        t = { s with regs := { s.regs with live := t.regs.live } } ∧ t.getLive p o = maskedWrite (s.getLive p o) v r.mask)) ∧
    (∃ t, exec (.registerWrite path off [.part]) s = .next t ∧ (t.irqStat .glb).getLsbD 0 = true ∧
      t.boot.accessErr = at32 (off.val / 4 * 4 % 2 ^ 26) 0 ||| (match path with
        | .mctp => bit32 true 31
        | .link n => at32 n.val 26) ∧ Noted { s with boot := { s.boot with accessErr := t.boot.accessErr } } t) ∧
    (∀ words : Fin 1025, off.val % 4 = 0 → path = .mctp → 0 < words.val →
      (∀ k, k < words.val → s.readSide path (off.val + 4 * k) = s) →
      let ws := (List.range words.val).map (fun k => s.regRead path (off.val + 4 * k))
      (words.val ≤ 16 → exec (.loRegisterRead path off words) s = .next (sent s (.regRead path ws))) ∧
      (16 < words.val → ∃ t, exec (.loRegisterRead path off words) s = .next t ∧ (t.irqStat .glb).getLsbD 0 = true ∧
        .regRead path ws ∈ t.out.drop s.out.length))

/-- R523: the vendor register commands over MCTP: in FLUSH and SHUTDOWN the answer is 3 and nothing is done; a bad offset, count or
alignment is answered with 1; a read answers with its words in ascending order; a write of one word does what that word does
and is answered with 0, or with 4 where it targets a dead target, which it is then discarded for and recorded. Completes:
MCTP_READ, MCTP_WRITE. -/
def Sys2Proof.Claims.VendorCommandsAnswer : Prop :=
  ∀ (s : State) (off : BitVec 32) (count : Byte) (v : BitVec 32),
    (s.pwrState = .flush ∨ s.pwrState = .shutdown →
      exec (.mctpRead off count) s = .next (sent s (.mctp 1 3 [])) ∧ exec (.mctpWrite off [v]) s = .next (sent s (.mctp 2 3 []))) ∧
    (s.heard .mctp = true →
      (off.toNat % 4 ≠ 0 ∨ count.toNat = 0 ∨ 16 < count.toNat ∨ 0x4000000 < off.toNat + 4 * count.toNat →
        exec (.mctpRead off count) s = .next (sent s (.mctp 1 1 []))) ∧
      (off.toNat % 4 ≠ 0 ∨ 0x4000000 < off.toNat + 4 → exec (.mctpWrite off [v]) s = .next (sent s (.mctp 2 1 []))) ∧
      (off.toNat % 4 = 0 → 1 ≤ count.toNat → count.toNat ≤ 16 → off.toNat + 4 * count.toNat ≤ 0x4000000 →
        (∀ k, k < count.toNat → s.readSide .mctp (off.toNat + 4 * k) = s) →
        exec (.mctpRead off count) s = .next (sent s (.mctp 1 0
          ((List.range count.toNat).map (fun k => s.regRead .mctp (off.toNat + 4 * k)))))) ∧
      (off.toNat % 4 = 0 → off.toNat + 4 ≤ 0x4000000 →
        (s.deadWord off.toNat = false →
          exec (.mctpWrite off [v]) s = .next (sent (s.accessWrite .mctp off.toNat v) (.mctp 2 0 []))) ∧
        (s.deadWord off.toNat = true → exec (.mctpWrite off [v]) s =
          .next (sent (s.record 0x1005 0x20 off.toNat v.toNat 0) (.mctp 2 4 []))))) 

/-- R550, R551: while VIO is up a TAP instruction is loaded: IDCODE puts the identification code in the scan path; EXTEST, CLAMP,
HIGHZ, EXTEST_PULSE and EXTEST_TRAIN are loaded only while no link is memory-active and the stockpot is empty, and the register
holds BYPASS otherwise; nothing else changes. Completes: TAP_INSTRUCTION. -/
def Sys2Proof.Claims.TapLoads : Prop :=
  ∀ (s : State) (k : Fin 8),
    (s.pwr.vaux = true → (s.rail 4).qualified = true → s.pwrState ≠ .flush →
      (k.val = 1 → exec (.tapInstruction k) s = .next (sent { s with boot := { s.boot with tap := 1 } } (.tdo s.idcode)) ∧
        s.idcode.extractLsb' 12 16 = 0x9032 ∧ s.idcode.extractLsb' 1 11 = 0x2F3 ∧ s.idcode.getLsbD 0 = true) ∧
      (k.val = 0 ∨ k.val = 2 → exec (.tapInstruction k) s = .next { s with boot := { s.boot with tap := k.val } }) ∧
      (3 ≤ k.val →
        ((∀ e ∈ s.ports.links, e.2.memActive = false) → s.stk.frames = [] → s.stk.pages = [] →
          exec (.tapInstruction k) s = .next { s with boot := { s.boot with tap := k.val } }) ∧
        ((∃ e ∈ s.ports.links, e.2.memActive = true) ∨ s.stk.frames ≠ [] →
          exec (.tapInstruction k) s = .next { s with boot := { s.boot with tap := 0 } }))) ∧
    (s.pwr.vaux = false ∨ (s.rail 4).qualified = false → exec (.tapInstruction k) s = .next s)

/-! ### Rules stated whole -/

/-- R122: a lookup resolves as the pseudo-code says: by the loaf entry's FMT, then by the slice entry's; a loaf or slice entry with
FMT 3 is corrupt; a slice of a discard that waits for a slice block gives zeros (R145). A load whose lookup gives zeros or poison,
or is corrupt, is answered with zeros or with poison (whose data is open), with no media request and no integrity check, and a
corrupt one is reported to the fault ledger. The HOME answer of a slice is "no media copy" exactly where its first line's lookup
gives no sector. -/
def Obligations.LookupFollowsTheTables : Prop :=
  ∀ (s : State) (slice line : Nat), line < 4 →
    let e := s.loaf (slice / 256)
    let f := s.sliceE (e.loc % 2 ^ 22) (slice % 256)
    (s.discardWaits slice = true → s.lookup slice line = .zeros) ∧
    (s.discardWaits slice = false →
      (e.fmt = 0 → s.lookup slice line = .zeros) ∧
      (e.fmt = 1 → s.lookup slice line = .sector (e.loc * 2 ^ 8 + slice % 256)) ∧
      (e.fmt = 2 → f.fmt = 0 → s.lookup slice line = .zeros) ∧
      (e.fmt = 2 → f.fmt = 2 → s.lookup slice line = if f.poison.getLsbD line then .poison else .zeros) ∧
      (e.fmt = 2 → f.fmt = 1 → s.lookup slice line = .sector f.saddr) ∧
      (e.fmt = 3 ∨ (e.fmt = 2 ∧ f.fmt = 3) → s.lookup slice line = .corrupt)) ∧
    (s.homeOf slice = .noCopy ↔ ∀ a, s.lookup slice 0 ≠ .sector a) ∧
    ∀ (i : Fin 4) (r : Rail TReq) (id : Nat) (l : Load), Clocked s →
      (s.rails.translate.getD i.val .empty).take 512 = some (.load id, r) → s.loads.find id = some l → l.stage ≠ .masked →
      l.fill = none → l.line = slice * 4 + line → s.lockedUnit slice = false → (∀ a, s.lookup slice line ≠ .sector a) →
      ∃ t, exec (.translateLookup i) s = .next t ∧ t.loads.find id = none ∧ t.pass.nextReq = s.pass.nextReq ∧
        t.med = s.med ∧ t.siv = (s.cacheLookup slice).siv ∧
        (∃ data, (s.lookup slice line = .zeros → data = 0) ∧
          .data l.link l.tag data (decide (s.lookup slice line ≠ .zeros)) l.respE ∈ t.out.drop s.out.length) ∧
        (s.lookup slice line = .corrupt → ∃ x, x ∈ t.reports.drop s.reports.length ∧ x.source = 14)

/-- R528: a read of the summary words over MCTP: a bit of GLB_IRQ_SUM, GLB_IRQ_BRN or GLB_IRQ_WSK is set exactly while the page it
names, or one of those it names, has a bit set in IRQ_STAT AND IRQ_EN. -/
def Obligations.SummaryBitsFollowThePages : Prop :=
  ∀ s : State, s.heard .mctp = true → s.view .mctp .glb = .full →
    let set := fun (p : RPage) => decide (s.irqStat p &&& s.irqEn p ≠ 0)
    ∃ sum brn lo hi : BitVec 32,
      exec (.loRegisterRead .mctp 0x54 4) s = .next (sent s (.regRead .mctp [sum, brn, lo, hi])) ∧
      (∀ p, p < 8 → sum.getLsbD p = set (.port p) ∧ sum.getLsbD (p + 8) = set (.ldl p)) ∧
      (∀ (k : Nat) (p : RPage), (k, p) ∈ [(16, RPage.stk), (17, .siv), (18, .upk), (19, .pas), (20, .spr), (21, .key), (22, .mec),
          (25, .pwr), (26, .thm), (27, .tly), (28, .spk), (29, .flt), (30, .stw)] → sum.getLsbD k = set p) ∧
      (sum.getLsbD 23 = true ↔ ∃ c, c < 64 ∧ set (.wsk c) = true) ∧
      (sum.getLsbD 24 = true ↔ ∃ b, b < 32 ∧ set (.brn b) = true) ∧
      (sum.getLsbD 31 = (set .glb || set .boot)) ∧
      (∀ b, b < 32 → brn.getLsbD b = set (.brn b)) ∧
      (∀ c, c < 32 → lo.getLsbD c = set (.wsk c) ∧ hi.getLsbD c = set (.wsk (c + 32)))

/-- R6: the speed grade is what the fuse-held field of the capability register reads, on every path that sees the global page in
full, and no step, whatever its command, changes it: no recipe and no register write does. -/
def Obligations.SpeedGradeIsFused : Prop :=
  ∀ s : State,
    (∀ path : Path, s.heard path = true → s.view path .glb = .full →
      ∃ w : BitVec 32, exec (.loRegisterRead path 0x8 1) s = .next (sent s (.regRead path [w])) ∧
        (w.extractLsb' 0 2 = 0 ↔ s.fuses.grade = .g30) ∧ (w.extractLsb' 0 2 = 1 ↔ s.fuses.grade = .g24)) ∧
    (∀ t, step s = .next t → t.fuses.grade = s.fuses.grade)

/-! ### The families -/

/-- All of IdentifyAnswers (R64, R75, R460: Identify and Get Response Message Limit answer); CapacityIsPersistent (R64: Identify
Memory Device and Get Partition Info report persistent capacity only); DeviceStateReport (R66: Get Device State reports state,
flags, links, capacity and counters). Completes: IDENTIFY, GET_RESPONSE_MESSAGE_LIMIT, IDENTIFY_MEMORY_DEVICE,
GET_PARTITION_INFO, GET_DEVICE_STATE. -/
def Obligations.ReportingCommands : Prop :=
  Sys2Proof.Claims.IdentifyAnswers ∧ Sys2Proof.Claims.CapacityIsPersistent ∧ Sys2Proof.Claims.DeviceStateReport

/-- All of SettingsReadBack (R64: timestamp, shutdown state, alerts and logs read back); SettingsAreRecorded (R61, R64: Set
Timestamp, Alert Configuration and Shutdown State record, for the fabric owner only); HealthAndFirmwareReport (R61, R226,
R428, R482: Get Health Info and Get FW Info report). Completes: GET_TIMESTAMP, GET_SHUTDOWN_STATE, GET_ALERT_CONFIGURATION,
GET_SUPPORTED_LOGS, GET_LOG, SET_TIMESTAMP, SET_ALERT_CONFIGURATION, SET_SHUTDOWN_STATE, GET_HEALTH_INFO, GET_FW_INFO. -/
def Obligations.SettingsAndHealth : Prop :=
  Sys2Proof.Claims.SettingsReadBack ∧ Sys2Proof.Claims.SettingsAreRecorded ∧ Sys2Proof.Claims.HealthAndFirmwareReport

/-- All of BackgroundStatusReport (R63, R64: Background Operation Status reports the path's own command); RefusedAndLongCommands
(R64, R65: refused commands and commands that go on in the background); EventsOfTheIssuingLink (R64: the event commands act on
the issuing link's events only). Completes: BACKGROUND_OPERATION_STATUS, SET_PARTITION_INFO, UNSUPPORTED_COMMAND,
BACKGROUND_COMMAND_STARTED, GET_EVENT_RECORDS, CLEAR_EVENT_RECORDS, GET_EVENT_INTERRUPT_POLICY, SET_EVENT_INTERRUPT_POLICY. -/
def Obligations.BackgroundAndEvents : Prop :=
  Sys2Proof.Claims.BackgroundStatusReport ∧ Sys2Proof.Claims.RefusedAndLongCommands ∧
    Sys2Proof.Claims.EventsOfTheIssuingLink

/-- All of FirmwareArrivesInOrder (R461: Transfer FW takes the parts of an image in order); FirmwareBecomesActive (R459, R461:
Activate FW makes an image pending and 60 s in BOIL confirm it). Completes: TRANSFER_FW, ACTIVATE_FW, FW_CONFIRMATION. -/
def Obligations.FirmwareImages : Prop :=
  Sys2Proof.Claims.FirmwareArrivesInOrder ∧ Sys2Proof.Claims.FirmwareBecomesActive

/-- All of RegionsAndExtentsReadBack (R56, R57: dynamic capacity regions and extents read back); ExtentsAreOfferedAndAccepted (R56
to R58: extents are offered, accepted and asked back). Completes: SET_DC_REGION_CONFIGURATION,
GET_DYNAMIC_CAPACITY_CONFIGURATION, GET_HOST_DC_REGION_CONFIGURATION, GET_DCD_INFO, GET_DYNAMIC_CAPACITY_EXTENT_LIST,
GET_DC_REGION_EXTENT_LISTS, INITIATE_DYNAMIC_CAPACITY_ADD, ADD_DYNAMIC_CAPACITY_RESPONSE, INITIATE_DYNAMIC_CAPACITY_RELEASE
without force. -/
def Obligations.DynamicCapacity : Prop :=
  Sys2Proof.Claims.RegionsAndExtentsReadBack ∧ Sys2Proof.Claims.ExtentsAreOfferedAndAccepted

/-- All of DiscardedLoavesReadZero (R67, R144 to R146: a discarded range resolves to zeros); ReleasedExtentsReadZero (R58: a
released extent resolves to zeros). Completes: DISCARD_RANGE, MEDIA_OPERATIONS_ZERO, RELEASE_DYNAMIC_CAPACITY,
INITIATE_DYNAMIC_CAPACITY_RELEASE with force. -/
def Obligations.Discards : Prop :=
  Sys2Proof.Claims.DiscardedLoavesReadZero ∧ Sys2Proof.Claims.ReleasedExtentsReadZero

/-- All of PoisonCommands (R64: the poison list and the injection and clearing of poison); ScanMediaCommands (R64: Scan Media and
its results). Completes: GET_POISON_LIST, INJECT_POISON, CLEAR_POISON, SCAN_MEDIA, GET_SCAN_MEDIA_CAPABILITIES,
GET_SCAN_MEDIA_RESULTS. -/
def Obligations.PoisonAndScan : Prop :=
  Sys2Proof.Claims.PoisonCommands ∧ Sys2Proof.Claims.ScanMediaCommands

/-- All of KeyInfoLayout (R371: Get Key Info lists a group's states and generations); GeneratedKeyLoadsWhenDurable (R371, R358: a
generated key loads once the vault copy is durable); ErasedKeyIsEmptyAtOnce (R372: an erased key is empty at once);
EraseAllEmptiesEverySlot (R372: Secure Erase and Sanitize empty every slot). Completes: GET_KEY_INFO, GENERATE_KEY,
VAULT_COPY_WRITTEN of the vault, ERASE_KEY, SECURE_ERASE, SANITIZE. -/
def Obligations.KeySlots : Prop :=
  Sys2Proof.Claims.KeyInfoLayout ∧ Sys2Proof.Claims.GeneratedKeyLoadsWhenDurable ∧
    Sys2Proof.Claims.ErasedKeyIsEmptyAtOnce ∧ Sys2Proof.Claims.EraseAllEmptiesEverySlot

/-- All of NonceAndLockout (R370, R371: the authorisation nonce and the lockout); OwnerSecretIsSet (R370, R371: Set Owner Secret
sets the secret or says why not); ClearAlarmOutcomes (R369: the outcomes of Clear Alarm). Completes: GET_AUTH_NONCE,
NONCE_EXPIRY, AUTH_LOCKOUT_END, SET_OWNER_SECRET, CLEAR_ALARM_RESUME, CLEAR_ALARM_REFORMAT. -/
def Obligations.Authorisation : Prop :=
  Sys2Proof.Claims.NonceAndLockout ∧ Sys2Proof.Claims.OwnerSecretIsSet ∧ Sys2Proof.Claims.ClearAlarmOutcomes

/-- All of ForcedLidTakesEveryLinkDown (R366, R367, R376: FORCE_LID enters lid down and takes every link down);
RawAccessNeverShowsKeyedData (R373: raw access never shows keyed data). Completes: FORCE_LID, RAW_ACCESS. -/
def Obligations.LidDownAndRawAccess : Prop :=
  Sys2Proof.Claims.ForcedLidTakesEveryLinkDown ∧ Sys2Proof.Claims.RawAccessNeverShowsKeyedData

/-- All of SessionsAreSetUpInOrder (R374: SPDM sessions are set up in the order of the standard); SessionQueriesAnswer (R374: SPDM
queries answer in a negotiated session); IdeKeysComeIntoUse (R374, R62: IDE keys are programmed, brought into use and
stopped); FailedCheckMakesStreamInsecure (R62, R374: a failed IDE check makes the stream Insecure). Completes: GET_VERSION,
GET_CAPABILITIES, NEGOTIATE_ALGORITHMS, KEY_EXCHANGE, FINISH, END_SESSION, GET_DIGESTS, GET_CERTIFICATE, CHALLENGE,
GET_MEASUREMENTS, HEARTBEAT, QUERY, KEY_PROG, K_SET_GO, K_SET_STOP, IDE_CHECK_FAIL. -/
def Obligations.SessionsAndLinkKeys : Prop :=
  Sys2Proof.Claims.SessionsAreSetUpInOrder ∧ Sys2Proof.Claims.SessionQueriesAnswer ∧ Sys2Proof.Claims.IdeKeysComeIntoUse
    ∧ Sys2Proof.Claims.FailedCheckMakesStreamInsecure

/-- All of LinkTrains (R520, R73, R76, R80: a link trains to its width and rate); LinkGoesDown (R71, R91, R374: what a link that
goes down leaves); PerstHoldsItsLinks (R452: PERST# holds the links of its port). Completes: LINK_UP, LINK_DOWN, PERST_ASSERT,
PERST_DEASSERT. -/
def Obligations.LinksComeAndGo : Prop :=
  Sys2Proof.Claims.LinkTrains ∧ Sys2Proof.Claims.LinkGoesDown ∧ Sys2Proof.Claims.PerstHoldsItsLinks

/-- All of GpfPhasesAnswer (R60: the phases of a global persistent flush are answered); ViralAndDecoders (R41, R47: viral is
recorded and HDM decoders commit). Completes: GPF_PHASE_1, GPF_PHASE_2, VIRAL_RECEIVED, HDM_DECODER_COMMIT. -/
def Obligations.PersistentFlushAndDecoders : Prop :=
  Sys2Proof.Claims.GpfPhasesAnswer ∧ Sys2Proof.Claims.ViralAndDecoders

/-- All of AlternateTakesTheRole (R53, R55: the alternate port takes the fabric-owner role after 500 ms); LinkControlActions (R70:
Link Control status, disable, enable and retrain); FabricOwnerTransferMovesTheRole (R69, R370: Fabric Owner Transfer moves the
role). Completes: FO_FAILOVER, LINK_STATUS, LINK_DISABLE, LINK_ENABLE, LINK_RETRAIN, FABRIC_OWNER_TRANSFER. -/
def Obligations.FabricOwnerRole : Prop :=
  Sys2Proof.Claims.AlternateTakesTheRole ∧ Sys2Proof.Claims.LinkControlActions ∧
    Sys2Proof.Claims.FabricOwnerTransferMovesTheRole

/-- All of SnoopAnswers (R302, R316, R321: answers to snoops end trackers and change the directory as R302, R316 and R321 say);
SnoopTimeoutAndFlush (R318, R320, R325: a snoop that times out disables its link, and a directory flush starts and ends).
Completes: BI_RSP_I, BI_RSP_S, BI_RSP_E, BI_CONFLICT, SNOOP_TIMEOUT, DIRECTORY_FLUSH, DIRECTORY_FLUSH_END, TRK_OCC_READ. -/
def Obligations.CoherenceCommands : Prop :=
  Sys2Proof.Claims.SnoopAnswers ∧ Sys2Proof.Claims.SnoopTimeoutAndFlush

/-- All of LadleControls (R240, R243: enable, disable and invalidation of a ladle); ZeroRunsAndInvalidations (R244, R237: zero-a-
line starts or is refused, and a posted invalidation is applied). Completes: LADLE_ENABLE, LADLE_DISABLE, RANGE_INVALIDATION,
RANGE_INVALIDATION_END, ZERO_A_LINE, LADLE_INVALIDATE. -/
def Obligations.Ladles : Prop :=
  Sys2Proof.Claims.LadleControls ∧ Sys2Proof.Claims.ZeroRunsAndInvalidations

/-- All of LookupsResolve (R122, R123, R97, R388: a lookup of a load posts one media read and one of a frame gives its HOME);
LanesGrant (R248, R249, R252: requests enter lanes with their stamps, are granted, and requesters are masked);
MediaReadsAnswer (R30, R162, R218, R363: a decoded codeword answers its load, an unrecoverable one answers with poison).
Completes: TRANSLATE_LOOKUP, MEDIA_REQUEST_ENTRY, PASS_GRANT, REQUESTER_MASK, MEDIA_RESULT. -/
def Obligations.ReadPath : Prop :=
  Sys2Proof.Claims.LookupsResolve ∧ Sys2Proof.Claims.LanesGrant ∧ Sys2Proof.Claims.MediaReadsAnswer

/-- All of AcceptedWritesStand (R89, R95, R96, R115: a queued write is accepted into its frame and posted to the ladles);
FreezeForTest (R115: FREEZE stops acceptance and assembly). Completes: ACCEPTANCE, FREEZE. -/
def Obligations.Acceptance : Prop :=
  Sys2Proof.Claims.AcceptedWritesStand ∧ Sys2Proof.Claims.FreezeForTest

/-- All of PagesAssemble (R92, R104, R140: a stream's page is assembled and padded when its time is over); PagesAreTargeted (R126,
R127, R133: pages get their targets, wait, or are judged again); ProgramsStand (R105, R163, R167: program and reset results
switch the map or start again); MetadataGoesOut (R132, R138, R140, R148: checkpoint, journal and spike pages go out).
Completes: PAGE_ASSEMBLY, PAD_FILL_EXPIRY, ALIGNED_PAGE_WAIT_EXPIRY, AGE_MAX_EXPIRY, PAGE_TARGETING, SLICE_WAIT_REJUDGE,
PROGRAM_RESULT, ROW_PAD_EXPIRY, DEMOTION_FOLD, FLUSH_MARK, CHECKPOINT_START, CKPT_NOW. -/
def Obligations.PagesGoToMedia : Prop :=
  Sys2Proof.Claims.PagesAssemble ∧ Sys2Proof.Claims.PagesAreTargeted ∧ Sys2Proof.Claims.ProgramsStand ∧
    Sys2Proof.Claims.MetadataGoesOut

/-- All of StripesGoOnDeck (R207: stripes go on deck, victims are chosen and rows padded); UpkeepTicks (R209, R212, R214, R216:
governor windows and drift-clock ticks); TasterReads (R220, R232, R170: patrol and seal-scan reads). Completes: ON_DECK,
VICTIM_CHOICE, GOVERNOR_WINDOW, DRIFT_CLOCK_TICK, PATROL_READ, SEAL_SCAN, PATROL_RESTART. -/
def Obligations.Upkeep : Prop :=
  Sys2Proof.Claims.StripesGoOnDeck ∧ Sys2Proof.Claims.UpkeepTicks ∧ Sys2Proof.Claims.TasterReads

/-- All of UpkeepReports (R228, R229: upkeep Status and Rebuild Status report); UnitsAreRetired (R229, R230, R401: burners and
dies are retired or refused). Completes: UPKEEP_STATUS, REBUILD_STATUS, RETIRE_BURNER, RETIRE_DIE. -/
def Obligations.UpkeepCommands : Prop :=
  Sys2Proof.Claims.UpkeepReports ∧ Sys2Proof.Claims.UnitsAreRetired

/-- All of FencesRun (R271 to R275: fences start, wait and complete); HeldWritesEnd (R277, R278: held writes are discarded or
delivered). Completes: FENCE_LINK, FENCE_PORT, FENCE_DEV, FENCE_COMPLETE, FENCE_DISCARD_EXPIRY, HELD_WRITE_DELIVERY. -/
def Obligations.Fences : Prop :=
  Sys2Proof.Claims.FencesRun ∧ Sys2Proof.Claims.HeldWritesEnd

/-- All of HooksAreGranted (R282 to R284: reads of an acquire register grant hooks); HooksAreReleased (R285 to R288, R293: hooks
are released, renewed, expire and are broken). Completes: HOOK_ACQUIRE, HOOK_RELEASE, HOOK_RENEW, HOOK_RELEASE_FENCE_COMPLETE,
HOOK_LEASE_EXPIRY, HOOK_BREAK. -/
def Obligations.Hooks : Prop :=
  Sys2Proof.Claims.HooksAreGranted ∧ Sys2Proof.Claims.HooksAreReleased

/-- All of DescriptorsBegin (R335, R336, R342: descriptors are submitted and begin); ChunksAndCompletions (R340, R344, R347:
chunks run and descriptors complete); ContextControls (R334, R337, R344, R333: contexts pause, resume, abort and restart).
Completes: NOP, COPY, FILL, ZERO, COMPARE, CRC_32C, SCAN, WHISK_CHUNK, DESCRIPTOR_COMPLETE, CTX_TAIL, CTX_RESUME, TLB_INV,
CTX_PAUSE, CTX_ABORT, CHANNEL_RESTART. -/
def Obligations.Whisks : Prop :=
  Sys2Proof.Claims.DescriptorsBegin ∧ Sys2Proof.Claims.ChunksAndCompletions ∧ Sys2Proof.Claims.ContextControls

/-- All of IntegrityEvents (R382 to R385, R388: bucket leaks, rail resets and map-stack reconstruction); TestAccess (R392: test
mode writes and reads stored words); ScrubsRun (R393, R394: scrubs start, are refused and end); MapStackTrainingEnds (R467,
R488: the map-stack training ends with its outcome). Completes: BUCKET_LEAK, RAIL_RESET, MAP_STACK_RECONSTRUCTION, RAW_WRITE,
RAW_READ, CHECKED_READ, SCRUB_GO, SCRUB_RANGE, SCRUB_END, MAP_STACK_TRAINING. -/
def Obligations.MemoryIntegrity : Prop :=
  Sys2Proof.Claims.IntegrityEvents ∧ Sys2Proof.Claims.TestAccess ∧ Sys2Proof.Claims.ScrubsRun ∧
    Sys2Proof.Claims.MapStackTrainingEnds

/-- All of ReportsAreTaken (R398, R403, R415: fault reports are taken by the ledger); BackoffsAndLanes (R399, R405: retry backoffs
end and lane entries are cleared); StewardsRestart (R409, R410: stewards restart). Completes: FAULT_REPORT,
RETRY_BACKOFF_EXPIRY, CLR_LANES, WATCHDOG_EXPIRY, FIRMWARE_FAULT. -/
def Obligations.FaultsAndStewards : Prop :=
  Sys2Proof.Claims.ReportsAreTaken ∧ Sys2Proof.Claims.BackoffsAndLanes ∧ Sys2Proof.Claims.StewardsRestart

/-- All of TalliesAreRead (R497, R498: tallies are cleared and snapshot); EventsAreStaged (R504, R505: events become spike
records); SpikeIsReadAndCleared (R510, R511, R515: the spike is read and cleared). Completes: TALLY_CLEAR, SNAPSHOT,
TALLY_SNAPSHOT, SPIKE_EVENT, READ_SPIKE, CLEAR_SPIKE, SPIKE_READ_GO. -/
def Obligations.TalliesAndSpike : Prop :=
  Sys2Proof.Claims.TalliesAreRead ∧ Sys2Proof.Claims.EventsAreStaged ∧ Sys2Proof.Claims.SpikeIsReadAndCleared

/-- All of DiesAreRead (R182, R183, R195: levels are set, sectors are sensed and data is transferred and decoded);
DiesAreProgrammed (R182 to R184: pages are loaded and confirmed, blocks are reset). Completes: READ_LEVEL_SET, SECTOR_READ,
DATA_OUT, PROGRAM_LOAD, PROGRAM_CONFIRM, BLOCK_RESET. -/
def Obligations.DieAccess : Prop :=
  Sys2Proof.Claims.DiesAreRead ∧ Sys2Proof.Claims.DiesAreProgrammed

/-- All of OperationsAreSuspended (R186, R189 to R191, R196: operations of dies are suspended and resumed); DiesAnswer (R185,
R187, R204: status words, temperatures and the alert line); DiesAreReset (R183, R186, R188, R195: dies are reset and time
out). Completes: SUSPEND, MIN_RUN_EXPIRY, RESUME, SUSPEND_WINDOW_EXPIRY, STATUS, TEMPERATURE, ALERT_N, DIE_RESET, DIE_TIMEOUT. -/
def Obligations.DieOperations : Prop :=
  Sys2Proof.Claims.OperationsAreSuspended ∧ Sys2Proof.Claims.DiesAnswer ∧ Sys2Proof.Claims.DiesAreReset

/-- All of DiesAreDiscovered (R178, R198, R199: parameter pages and owner records); ScratchIsTrained (R183, R186: the training
commands of an idle die). Completes: PARAMETER_PAGE, OWNER_READ, OWNER_WRITE, TRAIN_READ, TRAIN_WRITE, TRAIN_READBACK. -/
def Obligations.DieDiscovery : Prop :=
  Sys2Proof.Claims.DiesAreDiscovered ∧ Sys2Proof.Claims.ScratchIsTrained

/-- All of TrimsAreAdded (R222: read-level calibration adds to trims); DiesAreTrimmed (R202, R203: quick trims are queued and
done); BurnersAreTrained (R200: full training makes a burner ready or fails its dies); SensorsAndCodecsAreTested (R486, R490:
the sensor self-check and the codec self-test run at once). Completes: READ_LEVEL_CALIBRATION, QUICK_TRIM, FULL_TRAINING,
SENSOR_SELF_CHECK, CODEC_SELF_TEST. -/
def Obligations.TrimsAndTraining : Prop :=
  Sys2Proof.Claims.TrimsAreAdded ∧ Sys2Proof.Claims.DiesAreTrimmed ∧ Sys2Proof.Claims.BurnersAreTrained ∧
    Sys2Proof.Claims.SensorsAndCodecsAreTested

/-- All of DisruptiveTestsStartOrWait (R486, R487: disruptive tests start, are deferred or are refused); RoundsAreCounted (R477,
R484: housekeeping rounds). Completes: KETTLE_CAPACITANCE_TEST, MAP_STACK_TRAINING, HOUSEKEEPING_ROUND. -/
def Obligations.TestsAndRounds : Prop :=
  Sys2Proof.Claims.DisruptiveTestsStartOrWait ∧ Sys2Proof.Claims.RoundsAreCounted

/-- All of VauxComesAndGoes (R417, R422, R446: VAUX rises and falls); RailsComeUp (R419, R420, R422, R436, R440: the up sequence
of the rails and its failures); RailsGoDown (R421, R423, R431: the down sequence, undervoltage and overvoltage). Completes:
VAUX_GOOD, VAUX_LOSS, START_RAMPING, RAIL_QUALIFIED, RAIL_RAMP_TIMEOUT, POWER_GOOD_LOSS, RAIL_OFF, DISCHARGE_TIMEOUT,
UNDERVOLTAGE, OVERVOLTAGE. -/
def Obligations.RailSequences : Prop :=
  Sys2Proof.Claims.VauxComesAndGoes ∧ Sys2Proof.Claims.RailsComeUp ∧ Sys2Proof.Claims.RailsGoDown

/-- All of KettleIsMeasured (R427 to R430: the kettle's capacitance test and the write hold); FlushIsTriggered (R431 to R434: the
triggers of Flush and what they do when it is not armed); WarmResetTimesOut (R453: the pre-reset phase times out into a
Flush). Completes: KETTLE_READY, KETTLE_TEST_DISCHARGE, KETTLE_TEST_TIMEOUT, WRITE_HOLD, WRITE_HOLD_END, SUPPLY_FAIL,
KETTLE_FLOOR, FLUSH_REQ, REFERENCE_CLOCK_ABSENT, BROWNOUT, FLUSH_ABANDON, WARM_RESET_TIMEOUT. -/
def Obligations.KettleAndFlush : Prop :=
  Sys2Proof.Claims.KettleIsMeasured ∧ Sys2Proof.Claims.FlushIsTriggered ∧ Sys2Proof.Claims.WarmResetTimesOut

/-- All of SimmerIsEnteredAndLeft (R68, R75, R437: simmer is entered and left); SlavesAnswer (R442 to R445: what a Yulvoga slave
answers); MasterSends (R443, R450: what the Yulvoga master sends and learns). Completes: SIMMER_ENTRY, SIMMER_WAKE,
YV_IDENTIFY, YV_STATUS, POWER_ON, POWER_OFF, CLEAR_FAULT, KETTLE_INFO, YULVOGA_BAD_FRAME, YV_CMD_GO. -/
def Obligations.SimmerAndYulvoga : Prop :=
  Sys2Proof.Claims.SimmerIsEnteredAndLeft ∧ Sys2Proof.Claims.SlavesAnswer ∧ Sys2Proof.Claims.MasterSends

/-- All of WarmResetBegins (R451, R453: a warm reset begins or becomes a Flush); CommitsAreJudged (R471, R472: staged registers
are committed or discarded). Completes: WARM_RESET, COMMIT, DISCARD. -/
def Obligations.ResetsAndCommits : Prop :=
  Sys2Proof.Claims.WarmResetBegins ∧ Sys2Proof.Claims.CommitsAreJudged

/-- All of RegistersAreAccessed (R519 to R521, R525, R526: words are written and read, interrupts cleared and forced);
VendorCommandsAnswer (R523: the vendor register commands over MCTP); TapLoads (R550, R551: boundary-scan instructions are
loaded); CommitsApply (R472, R473: a pending commit applies or times out). Completes: REGISTER_WRITE, IRQ_STAT_CLEAR,
IRQ_FORCE, LO_REGISTER_READ, MCTP_READ, MCTP_WRITE, TAP_INSTRUCTION, COMMIT_APPLY, QUIESCE_REACHED, QUIESCE_TIMEOUT. -/
def Obligations.RegistersAndTap : Prop :=
  Sys2Proof.Claims.RegistersAreAccessed ∧ Sys2Proof.Claims.VendorCommandsAnswer ∧ Sys2Proof.Claims.TapLoads ∧
    Sys2Proof.Claims.CommitsApply
end

