-- ==== Sys2Proof/Laws/Codes.lean ====
section
/-!
SUPPORT. Laws of the little-endian byte helpers and of the CRC-framed records built from them.
-/

namespace Sys2Proof.Laws

open Sys2Proof Sys2Proof.Machine

@[simp] theorem length_leBytes (k n : Nat) : (leBytes k n).length = k := by
  induction k generalizing n with
  | zero => rfl
  | succ k ih => simp [leBytes, ih]

/-- Reading back the bytes of a number gives the number in that width. -/
theorem leNat_leBytes (k n : Nat) : leNat (leBytes k n) = n % 256 ^ k := by
  induction k generalizing n with
  | zero => simp [leBytes, leNat, Nat.mod_one]
  | succ k ih =>
    have h : (byteOf n).toNat = n % 256 := by simp [byteOf]
    rw [leBytes, leNat, ih, h, Nat.pow_succ', Nat.mod_mul]

/-- A list of 1,020 bytes followed by its CRC-32C is a valid copy of a parameter page. -/
theorem validCopy_framed (x : List Byte) (h : x.length = 1020) :
    validCopy (x ++ leBytes 4 (crc32c x).toNat) = some (x ++ leBytes 4 (crc32c x).toNat) := by
  have hl : (x ++ leBytes 4 (crc32c x).toNat).length = 1024 := by simp [h]
  have hn : (x ++ leBytes 4 (crc32c x).toNat) ≠ [] := fun e => by simp [e] at hl
  have hc : chunksOf 1024 3 (x ++ leBytes 4 (crc32c x).toNat) = [x ++ leBytes 4 (crc32c x).toNat] := by
    rw [chunksOf, List.take_of_length_le (by omega), List.drop_of_length_le (by omega)]
    simp [hn, chunksOf]
  have hf : field (x ++ leBytes 4 (crc32c x).toNat) 1020 4 = (crc32c x).toNat := by
    have hlt := (crc32c x).isLt
    rw [field, ← h, List.drop_left, List.take_of_length_le (by simp), leNat_leBytes]
    omega
  have ht : (x ++ leBytes 4 (crc32c x).toNat).take 1020 = x := by rw [← h, List.take_left]
  simp only [validCopy, hc, List.find?_cons, hl, hf, ht, BitVec.ofNat_toNat, BitVec.setWidth_eq, decide_true, Bool.and_self]

end Sys2Proof.Laws
end

