-- ==== Sys2Proof/Laws/State.lean ====
section
/-!
SUPPORT. The small laws of State: for each primitive update of one part, what it writes and that every other part is as it
was. Every law is true by unfolding; they are simp lemmas, so that no proof unfolds a record update.
-/

namespace Sys2Proof.Machine

/-! ### emit -/

@[simp] theorem State.emit_out (s : State) (o : Output) : (s.emit o).out = s.out ++ [o] := rfl
@[simp] theorem State.emit_pending (s : State) (o : Output) : (s.emit o).pending = s.pending := rfl
@[simp] theorem State.emit_now (s : State) (o : Output) : (s.emit o).now = s.now := rfl
@[simp] theorem State.emit_free (s : State) (o : Output) : (s.emit o).free = s.free := rfl
@[simp] theorem State.emit_fuses (s : State) (o : Output) : (s.emit o).fuses = s.fuses := rfl
@[simp] theorem State.emit_regs (s : State) (o : Output) : (s.emit o).regs = s.regs := rfl
@[simp] theorem State.emit_ports (s : State) (o : Output) : (s.emit o).ports = s.ports := rfl
@[simp] theorem State.emit_loads (s : State) (o : Output) : (s.emit o).loads = s.loads := rfl
@[simp] theorem State.emit_nextLoad (s : State) (o : Output) : (s.emit o).nextLoad = s.nextLoad := rfl
@[simp] theorem State.emit_rails (s : State) (o : Output) : (s.emit o).rails = s.rails := rfl
@[simp] theorem State.emit_stk (s : State) (o : Output) : (s.emit o).stk = s.stk := rfl
@[simp] theorem State.emit_siv (s : State) (o : Output) : (s.emit o).siv = s.siv := rfl
@[simp] theorem State.emit_med (s : State) (o : Output) : (s.emit o).med = s.med := rfl
@[simp] theorem State.emit_dies (s : State) (o : Output) : (s.emit o).dies = s.dies := rfl
@[simp] theorem State.emit_burners (s : State) (o : Output) : (s.emit o).burners = s.burners := rfl
@[simp] theorem State.emit_upk (s : State) (o : Output) : (s.emit o).upk = s.upk := rfl
@[simp] theorem State.emit_pass (s : State) (o : Output) : (s.emit o).pass = s.pass := rfl
@[simp] theorem State.emit_ladles (s : State) (o : Output) : (s.emit o).ladles = s.ladles := rfl
@[simp] theorem State.emit_spr (s : State) (o : Output) : (s.emit o).spr = s.spr := rfl
@[simp] theorem State.emit_ctxs (s : State) (o : Output) : (s.emit o).ctxs = s.ctxs := rfl
@[simp] theorem State.emit_chans (s : State) (o : Output) : (s.emit o).chans = s.chans := rfl
@[simp] theorem State.emit_tly (s : State) (o : Output) : (s.emit o).tly = s.tly := rfl
@[simp] theorem State.emit_spk (s : State) (o : Output) : (s.emit o).spk = s.spk := rfl
@[simp] theorem State.emit_clk (s : State) (o : Output) : (s.emit o).clk = s.clk := rfl
@[simp] theorem State.emit_thm (s : State) (o : Output) : (s.emit o).thm = s.thm := rfl
@[simp] theorem State.emit_flt (s : State) (o : Output) : (s.emit o).flt = s.flt := rfl
@[simp] theorem State.emit_reports (s : State) (o : Output) : (s.emit o).reports = s.reports := rfl
@[simp] theorem State.emit_slots (s : State) (o : Output) : (s.emit o).slots = s.slots := rfl
@[simp] theorem State.emit_prot (s : State) (o : Output) : (s.emit o).prot = s.prot := rfl
@[simp] theorem State.emit_pwrState (s : State) (o : Output) : (s.emit o).pwrState = s.pwrState := rfl
@[simp] theorem State.emit_recovery (s : State) (o : Output) : (s.emit o).recovery = s.recovery := rfl
@[simp] theorem State.emit_hooks (s : State) (o : Output) : (s.emit o).hooks = s.hooks := rfl
@[simp] theorem State.emit_cmt (s : State) (o : Output) : (s.emit o).cmt = s.cmt := rfl
@[simp] theorem State.emit_mbx (s : State) (o : Output) : (s.emit o).mbx = s.mbx := rfl
@[simp] theorem State.emit_mec (s : State) (o : Output) : (s.emit o).mec = s.mec := rfl
@[simp] theorem State.emit_pwr (s : State) (o : Output) : (s.emit o).pwr = s.pwr := rfl
@[simp] theorem State.emit_nor (s : State) (o : Output) : (s.emit o).nor = s.nor := rfl
@[simp] theorem State.emit_boot (s : State) (o : Output) : (s.emit o).boot = s.boot := rfl
@[simp] theorem State.emit_stw (s : State) (o : Output) : (s.emit o).stw = s.stw := rfl

/-! ### reach -/

@[simp] theorem State.reach_now (s : State) (due : Nat) : (s.reach due).now = max s.now due := rfl
@[simp] theorem State.reach_pending (s : State) (due : Nat) : (s.reach due).pending = s.pending := rfl
@[simp] theorem State.reach_free (s : State) (due : Nat) : (s.reach due).free = s.free := rfl
@[simp] theorem State.reach_out (s : State) (due : Nat) : (s.reach due).out = s.out := rfl
@[simp] theorem State.reach_fuses (s : State) (due : Nat) : (s.reach due).fuses = s.fuses := rfl
@[simp] theorem State.reach_regs (s : State) (due : Nat) : (s.reach due).regs = s.regs := rfl
@[simp] theorem State.reach_ports (s : State) (due : Nat) : (s.reach due).ports = s.ports := rfl
@[simp] theorem State.reach_loads (s : State) (due : Nat) : (s.reach due).loads = s.loads := rfl
@[simp] theorem State.reach_nextLoad (s : State) (due : Nat) : (s.reach due).nextLoad = s.nextLoad := rfl
@[simp] theorem State.reach_rails (s : State) (due : Nat) : (s.reach due).rails = s.rails := rfl
@[simp] theorem State.reach_stk (s : State) (due : Nat) : (s.reach due).stk = s.stk := rfl
@[simp] theorem State.reach_siv (s : State) (due : Nat) : (s.reach due).siv = s.siv := rfl
@[simp] theorem State.reach_med (s : State) (due : Nat) : (s.reach due).med = s.med := rfl
@[simp] theorem State.reach_dies (s : State) (due : Nat) : (s.reach due).dies = s.dies := rfl
@[simp] theorem State.reach_burners (s : State) (due : Nat) : (s.reach due).burners = s.burners := rfl
@[simp] theorem State.reach_upk (s : State) (due : Nat) : (s.reach due).upk = s.upk := rfl
@[simp] theorem State.reach_pass (s : State) (due : Nat) : (s.reach due).pass = s.pass := rfl
@[simp] theorem State.reach_ladles (s : State) (due : Nat) : (s.reach due).ladles = s.ladles := rfl
@[simp] theorem State.reach_spr (s : State) (due : Nat) : (s.reach due).spr = s.spr := rfl
@[simp] theorem State.reach_ctxs (s : State) (due : Nat) : (s.reach due).ctxs = s.ctxs := rfl
@[simp] theorem State.reach_chans (s : State) (due : Nat) : (s.reach due).chans = s.chans := rfl
@[simp] theorem State.reach_tly (s : State) (due : Nat) : (s.reach due).tly = s.tly := rfl
@[simp] theorem State.reach_spk (s : State) (due : Nat) : (s.reach due).spk = s.spk := rfl
@[simp] theorem State.reach_clk (s : State) (due : Nat) : (s.reach due).clk = s.clk := rfl
@[simp] theorem State.reach_thm (s : State) (due : Nat) : (s.reach due).thm = s.thm := rfl
@[simp] theorem State.reach_flt (s : State) (due : Nat) : (s.reach due).flt = s.flt := rfl
@[simp] theorem State.reach_reports (s : State) (due : Nat) : (s.reach due).reports = s.reports := rfl
@[simp] theorem State.reach_slots (s : State) (due : Nat) : (s.reach due).slots = s.slots := rfl
@[simp] theorem State.reach_prot (s : State) (due : Nat) : (s.reach due).prot = s.prot := rfl
@[simp] theorem State.reach_pwrState (s : State) (due : Nat) : (s.reach due).pwrState = s.pwrState := rfl
@[simp] theorem State.reach_recovery (s : State) (due : Nat) : (s.reach due).recovery = s.recovery := rfl
@[simp] theorem State.reach_hooks (s : State) (due : Nat) : (s.reach due).hooks = s.hooks := rfl
@[simp] theorem State.reach_cmt (s : State) (due : Nat) : (s.reach due).cmt = s.cmt := rfl
@[simp] theorem State.reach_mbx (s : State) (due : Nat) : (s.reach due).mbx = s.mbx := rfl
@[simp] theorem State.reach_mec (s : State) (due : Nat) : (s.reach due).mec = s.mec := rfl
@[simp] theorem State.reach_pwr (s : State) (due : Nat) : (s.reach due).pwr = s.pwr := rfl
@[simp] theorem State.reach_nor (s : State) (due : Nat) : (s.reach due).nor = s.nor := rfl
@[simp] theorem State.reach_boot (s : State) (due : Nat) : (s.reach due).boot = s.boot := rfl
@[simp] theorem State.reach_stw (s : State) (due : Nat) : (s.reach due).stw = s.stw := rfl

/-! ### rootStop -/

@[simp] theorem State.rootStop_clk (s : State) : (s.rootStop).clk = { s.clk with rootOff := some s.now } := rfl
@[simp] theorem State.rootStop_pending (s : State) : (s.rootStop).pending = s.pending := rfl
@[simp] theorem State.rootStop_now (s : State) : (s.rootStop).now = s.now := rfl
@[simp] theorem State.rootStop_free (s : State) : (s.rootStop).free = s.free := rfl
@[simp] theorem State.rootStop_out (s : State) : (s.rootStop).out = s.out := rfl
@[simp] theorem State.rootStop_fuses (s : State) : (s.rootStop).fuses = s.fuses := rfl
@[simp] theorem State.rootStop_regs (s : State) : (s.rootStop).regs = s.regs := rfl
@[simp] theorem State.rootStop_ports (s : State) : (s.rootStop).ports = s.ports := rfl
@[simp] theorem State.rootStop_loads (s : State) : (s.rootStop).loads = s.loads := rfl
@[simp] theorem State.rootStop_nextLoad (s : State) : (s.rootStop).nextLoad = s.nextLoad := rfl
@[simp] theorem State.rootStop_rails (s : State) : (s.rootStop).rails = s.rails := rfl
@[simp] theorem State.rootStop_stk (s : State) : (s.rootStop).stk = s.stk := rfl
@[simp] theorem State.rootStop_siv (s : State) : (s.rootStop).siv = s.siv := rfl
@[simp] theorem State.rootStop_med (s : State) : (s.rootStop).med = s.med := rfl
@[simp] theorem State.rootStop_dies (s : State) : (s.rootStop).dies = s.dies := rfl
@[simp] theorem State.rootStop_burners (s : State) : (s.rootStop).burners = s.burners := rfl
@[simp] theorem State.rootStop_upk (s : State) : (s.rootStop).upk = s.upk := rfl
@[simp] theorem State.rootStop_pass (s : State) : (s.rootStop).pass = s.pass := rfl
@[simp] theorem State.rootStop_ladles (s : State) : (s.rootStop).ladles = s.ladles := rfl
@[simp] theorem State.rootStop_spr (s : State) : (s.rootStop).spr = s.spr := rfl
@[simp] theorem State.rootStop_ctxs (s : State) : (s.rootStop).ctxs = s.ctxs := rfl
@[simp] theorem State.rootStop_chans (s : State) : (s.rootStop).chans = s.chans := rfl
@[simp] theorem State.rootStop_tly (s : State) : (s.rootStop).tly = s.tly := rfl
@[simp] theorem State.rootStop_spk (s : State) : (s.rootStop).spk = s.spk := rfl
@[simp] theorem State.rootStop_thm (s : State) : (s.rootStop).thm = s.thm := rfl
@[simp] theorem State.rootStop_flt (s : State) : (s.rootStop).flt = s.flt := rfl
@[simp] theorem State.rootStop_reports (s : State) : (s.rootStop).reports = s.reports := rfl
@[simp] theorem State.rootStop_slots (s : State) : (s.rootStop).slots = s.slots := rfl
@[simp] theorem State.rootStop_prot (s : State) : (s.rootStop).prot = s.prot := rfl
@[simp] theorem State.rootStop_pwrState (s : State) : (s.rootStop).pwrState = s.pwrState := rfl
@[simp] theorem State.rootStop_recovery (s : State) : (s.rootStop).recovery = s.recovery := rfl
@[simp] theorem State.rootStop_hooks (s : State) : (s.rootStop).hooks = s.hooks := rfl
@[simp] theorem State.rootStop_cmt (s : State) : (s.rootStop).cmt = s.cmt := rfl
@[simp] theorem State.rootStop_mbx (s : State) : (s.rootStop).mbx = s.mbx := rfl
@[simp] theorem State.rootStop_mec (s : State) : (s.rootStop).mec = s.mec := rfl
@[simp] theorem State.rootStop_pwr (s : State) : (s.rootStop).pwr = s.pwr := rfl
@[simp] theorem State.rootStop_nor (s : State) : (s.rootStop).nor = s.nor := rfl
@[simp] theorem State.rootStop_boot (s : State) : (s.rootStop).boot = s.boot := rfl
@[simp] theorem State.rootStop_stw (s : State) : (s.rootStop).stw = s.stw := rfl

/-! ### setLive -/

@[simp] theorem State.setLive_regs (s : State) (p : RPage) (o : Nat) (v : W32) : (s.setLive p o v).regs =
    { s.regs with live := s.regs.live.set (p.house s.fuses.grade o) (p.base + o) v } := rfl
@[simp] theorem State.setLive_pending (s : State) (p : RPage) (o : Nat) (v : W32) :
    (s.setLive p o v).pending = s.pending := rfl
@[simp] theorem State.setLive_now (s : State) (p : RPage) (o : Nat) (v : W32) : (s.setLive p o v).now = s.now := rfl
@[simp] theorem State.setLive_free (s : State) (p : RPage) (o : Nat) (v : W32) : (s.setLive p o v).free = s.free := rfl
@[simp] theorem State.setLive_out (s : State) (p : RPage) (o : Nat) (v : W32) : (s.setLive p o v).out = s.out := rfl
@[simp] theorem State.setLive_fuses (s : State) (p : RPage) (o : Nat) (v : W32) : (s.setLive p o v).fuses = s.fuses := rfl
@[simp] theorem State.setLive_ports (s : State) (p : RPage) (o : Nat) (v : W32) : (s.setLive p o v).ports = s.ports := rfl
@[simp] theorem State.setLive_loads (s : State) (p : RPage) (o : Nat) (v : W32) : (s.setLive p o v).loads = s.loads := rfl
@[simp] theorem State.setLive_nextLoad (s : State) (p : RPage) (o : Nat) (v : W32) :
    (s.setLive p o v).nextLoad = s.nextLoad := rfl
@[simp] theorem State.setLive_rails (s : State) (p : RPage) (o : Nat) (v : W32) : (s.setLive p o v).rails = s.rails := rfl
@[simp] theorem State.setLive_stk (s : State) (p : RPage) (o : Nat) (v : W32) : (s.setLive p o v).stk = s.stk := rfl
@[simp] theorem State.setLive_siv (s : State) (p : RPage) (o : Nat) (v : W32) : (s.setLive p o v).siv = s.siv := rfl
@[simp] theorem State.setLive_med (s : State) (p : RPage) (o : Nat) (v : W32) : (s.setLive p o v).med = s.med := rfl
@[simp] theorem State.setLive_dies (s : State) (p : RPage) (o : Nat) (v : W32) : (s.setLive p o v).dies = s.dies := rfl
@[simp] theorem State.setLive_burners (s : State) (p : RPage) (o : Nat) (v : W32) :
    (s.setLive p o v).burners = s.burners := rfl
@[simp] theorem State.setLive_upk (s : State) (p : RPage) (o : Nat) (v : W32) : (s.setLive p o v).upk = s.upk := rfl
@[simp] theorem State.setLive_pass (s : State) (p : RPage) (o : Nat) (v : W32) : (s.setLive p o v).pass = s.pass := rfl
@[simp] theorem State.setLive_ladles (s : State) (p : RPage) (o : Nat) (v : W32) : (s.setLive p o v).ladles = s.ladles := rfl
@[simp] theorem State.setLive_spr (s : State) (p : RPage) (o : Nat) (v : W32) : (s.setLive p o v).spr = s.spr := rfl
@[simp] theorem State.setLive_ctxs (s : State) (p : RPage) (o : Nat) (v : W32) : (s.setLive p o v).ctxs = s.ctxs := rfl
@[simp] theorem State.setLive_chans (s : State) (p : RPage) (o : Nat) (v : W32) : (s.setLive p o v).chans = s.chans := rfl
@[simp] theorem State.setLive_tly (s : State) (p : RPage) (o : Nat) (v : W32) : (s.setLive p o v).tly = s.tly := rfl
@[simp] theorem State.setLive_spk (s : State) (p : RPage) (o : Nat) (v : W32) : (s.setLive p o v).spk = s.spk := rfl
@[simp] theorem State.setLive_clk (s : State) (p : RPage) (o : Nat) (v : W32) : (s.setLive p o v).clk = s.clk := rfl
@[simp] theorem State.setLive_thm (s : State) (p : RPage) (o : Nat) (v : W32) : (s.setLive p o v).thm = s.thm := rfl
@[simp] theorem State.setLive_flt (s : State) (p : RPage) (o : Nat) (v : W32) : (s.setLive p o v).flt = s.flt := rfl
@[simp] theorem State.setLive_reports (s : State) (p : RPage) (o : Nat) (v : W32) :
    (s.setLive p o v).reports = s.reports := rfl
@[simp] theorem State.setLive_slots (s : State) (p : RPage) (o : Nat) (v : W32) : (s.setLive p o v).slots = s.slots := rfl
@[simp] theorem State.setLive_prot (s : State) (p : RPage) (o : Nat) (v : W32) : (s.setLive p o v).prot = s.prot := rfl
@[simp] theorem State.setLive_pwrState (s : State) (p : RPage) (o : Nat) (v : W32) :
    (s.setLive p o v).pwrState = s.pwrState := rfl
@[simp] theorem State.setLive_recovery (s : State) (p : RPage) (o : Nat) (v : W32) :
    (s.setLive p o v).recovery = s.recovery := rfl
@[simp] theorem State.setLive_hooks (s : State) (p : RPage) (o : Nat) (v : W32) : (s.setLive p o v).hooks = s.hooks := rfl
@[simp] theorem State.setLive_cmt (s : State) (p : RPage) (o : Nat) (v : W32) : (s.setLive p o v).cmt = s.cmt := rfl
@[simp] theorem State.setLive_mbx (s : State) (p : RPage) (o : Nat) (v : W32) : (s.setLive p o v).mbx = s.mbx := rfl
@[simp] theorem State.setLive_mec (s : State) (p : RPage) (o : Nat) (v : W32) : (s.setLive p o v).mec = s.mec := rfl
@[simp] theorem State.setLive_pwr (s : State) (p : RPage) (o : Nat) (v : W32) : (s.setLive p o v).pwr = s.pwr := rfl
@[simp] theorem State.setLive_nor (s : State) (p : RPage) (o : Nat) (v : W32) : (s.setLive p o v).nor = s.nor := rfl
@[simp] theorem State.setLive_boot (s : State) (p : RPage) (o : Nat) (v : W32) : (s.setLive p o v).boot = s.boot := rfl
@[simp] theorem State.setLive_stw (s : State) (p : RPage) (o : Nat) (v : W32) : (s.setLive p o v).stw = s.stw := rfl

/-! ### setShadow -/

@[simp] theorem State.setShadow_regs (s : State) (p : RPage) (o : Nat) (v : W32) : (s.setShadow p o v).regs =
    { s.regs with shadow := s.regs.shadow.set (p.house s.fuses.grade o) (p.base + o) v } := rfl
@[simp] theorem State.setShadow_pending (s : State) (p : RPage) (o : Nat) (v : W32) :
    (s.setShadow p o v).pending = s.pending := rfl
@[simp] theorem State.setShadow_now (s : State) (p : RPage) (o : Nat) (v : W32) : (s.setShadow p o v).now = s.now := rfl
@[simp] theorem State.setShadow_free (s : State) (p : RPage) (o : Nat) (v : W32) : (s.setShadow p o v).free = s.free := rfl
@[simp] theorem State.setShadow_out (s : State) (p : RPage) (o : Nat) (v : W32) : (s.setShadow p o v).out = s.out := rfl
@[simp] theorem State.setShadow_fuses (s : State) (p : RPage) (o : Nat) (v : W32) : (s.setShadow p o v).fuses = s.fuses := rfl
@[simp] theorem State.setShadow_ports (s : State) (p : RPage) (o : Nat) (v : W32) : (s.setShadow p o v).ports = s.ports := rfl
@[simp] theorem State.setShadow_loads (s : State) (p : RPage) (o : Nat) (v : W32) : (s.setShadow p o v).loads = s.loads := rfl
@[simp] theorem State.setShadow_nextLoad (s : State) (p : RPage) (o : Nat) (v : W32) :
    (s.setShadow p o v).nextLoad = s.nextLoad := rfl
@[simp] theorem State.setShadow_rails (s : State) (p : RPage) (o : Nat) (v : W32) : (s.setShadow p o v).rails = s.rails := rfl
@[simp] theorem State.setShadow_stk (s : State) (p : RPage) (o : Nat) (v : W32) : (s.setShadow p o v).stk = s.stk := rfl
@[simp] theorem State.setShadow_siv (s : State) (p : RPage) (o : Nat) (v : W32) : (s.setShadow p o v).siv = s.siv := rfl
@[simp] theorem State.setShadow_med (s : State) (p : RPage) (o : Nat) (v : W32) : (s.setShadow p o v).med = s.med := rfl
@[simp] theorem State.setShadow_dies (s : State) (p : RPage) (o : Nat) (v : W32) : (s.setShadow p o v).dies = s.dies := rfl
@[simp] theorem State.setShadow_burners (s : State) (p : RPage) (o : Nat) (v : W32) :
    (s.setShadow p o v).burners = s.burners := rfl
@[simp] theorem State.setShadow_upk (s : State) (p : RPage) (o : Nat) (v : W32) : (s.setShadow p o v).upk = s.upk := rfl
@[simp] theorem State.setShadow_pass (s : State) (p : RPage) (o : Nat) (v : W32) : (s.setShadow p o v).pass = s.pass := rfl
@[simp] theorem State.setShadow_ladles (s : State) (p : RPage) (o : Nat) (v : W32) :
    (s.setShadow p o v).ladles = s.ladles := rfl
@[simp] theorem State.setShadow_spr (s : State) (p : RPage) (o : Nat) (v : W32) : (s.setShadow p o v).spr = s.spr := rfl
@[simp] theorem State.setShadow_ctxs (s : State) (p : RPage) (o : Nat) (v : W32) : (s.setShadow p o v).ctxs = s.ctxs := rfl
@[simp] theorem State.setShadow_chans (s : State) (p : RPage) (o : Nat) (v : W32) : (s.setShadow p o v).chans = s.chans := rfl
@[simp] theorem State.setShadow_tly (s : State) (p : RPage) (o : Nat) (v : W32) : (s.setShadow p o v).tly = s.tly := rfl
@[simp] theorem State.setShadow_spk (s : State) (p : RPage) (o : Nat) (v : W32) : (s.setShadow p o v).spk = s.spk := rfl
@[simp] theorem State.setShadow_clk (s : State) (p : RPage) (o : Nat) (v : W32) : (s.setShadow p o v).clk = s.clk := rfl
@[simp] theorem State.setShadow_thm (s : State) (p : RPage) (o : Nat) (v : W32) : (s.setShadow p o v).thm = s.thm := rfl
@[simp] theorem State.setShadow_flt (s : State) (p : RPage) (o : Nat) (v : W32) : (s.setShadow p o v).flt = s.flt := rfl
@[simp] theorem State.setShadow_reports (s : State) (p : RPage) (o : Nat) (v : W32) :
    (s.setShadow p o v).reports = s.reports := rfl
@[simp] theorem State.setShadow_slots (s : State) (p : RPage) (o : Nat) (v : W32) : (s.setShadow p o v).slots = s.slots := rfl
@[simp] theorem State.setShadow_prot (s : State) (p : RPage) (o : Nat) (v : W32) : (s.setShadow p o v).prot = s.prot := rfl
@[simp] theorem State.setShadow_pwrState (s : State) (p : RPage) (o : Nat) (v : W32) :
    (s.setShadow p o v).pwrState = s.pwrState := rfl
@[simp] theorem State.setShadow_recovery (s : State) (p : RPage) (o : Nat) (v : W32) :
    (s.setShadow p o v).recovery = s.recovery := rfl
@[simp] theorem State.setShadow_hooks (s : State) (p : RPage) (o : Nat) (v : W32) : (s.setShadow p o v).hooks = s.hooks := rfl
@[simp] theorem State.setShadow_cmt (s : State) (p : RPage) (o : Nat) (v : W32) : (s.setShadow p o v).cmt = s.cmt := rfl
@[simp] theorem State.setShadow_mbx (s : State) (p : RPage) (o : Nat) (v : W32) : (s.setShadow p o v).mbx = s.mbx := rfl
@[simp] theorem State.setShadow_mec (s : State) (p : RPage) (o : Nat) (v : W32) : (s.setShadow p o v).mec = s.mec := rfl
@[simp] theorem State.setShadow_pwr (s : State) (p : RPage) (o : Nat) (v : W32) : (s.setShadow p o v).pwr = s.pwr := rfl
@[simp] theorem State.setShadow_nor (s : State) (p : RPage) (o : Nat) (v : W32) : (s.setShadow p o v).nor = s.nor := rfl
@[simp] theorem State.setShadow_boot (s : State) (p : RPage) (o : Nat) (v : W32) : (s.setShadow p o v).boot = s.boot := rfl
@[simp] theorem State.setShadow_stw (s : State) (p : RPage) (o : Nat) (v : W32) : (s.setShadow p o v).stw = s.stw := rfl

/-! ### setLink -/

@[simp] theorem State.setLink_ports (s : State) (n : Nat) (f : Link → Link) : (s.setLink n f).ports =
    { s.ports with links := s.ports.links.upd .down n f } := rfl
@[simp] theorem State.setLink_pending (s : State) (n : Nat) (f : Link → Link) : (s.setLink n f).pending = s.pending := rfl
@[simp] theorem State.setLink_now (s : State) (n : Nat) (f : Link → Link) : (s.setLink n f).now = s.now := rfl
@[simp] theorem State.setLink_free (s : State) (n : Nat) (f : Link → Link) : (s.setLink n f).free = s.free := rfl
@[simp] theorem State.setLink_out (s : State) (n : Nat) (f : Link → Link) : (s.setLink n f).out = s.out := rfl
@[simp] theorem State.setLink_fuses (s : State) (n : Nat) (f : Link → Link) : (s.setLink n f).fuses = s.fuses := rfl
@[simp] theorem State.setLink_regs (s : State) (n : Nat) (f : Link → Link) : (s.setLink n f).regs = s.regs := rfl
@[simp] theorem State.setLink_loads (s : State) (n : Nat) (f : Link → Link) : (s.setLink n f).loads = s.loads := rfl
@[simp] theorem State.setLink_nextLoad (s : State) (n : Nat) (f : Link → Link) : (s.setLink n f).nextLoad = s.nextLoad := rfl
@[simp] theorem State.setLink_rails (s : State) (n : Nat) (f : Link → Link) : (s.setLink n f).rails = s.rails := rfl
@[simp] theorem State.setLink_stk (s : State) (n : Nat) (f : Link → Link) : (s.setLink n f).stk = s.stk := rfl
@[simp] theorem State.setLink_siv (s : State) (n : Nat) (f : Link → Link) : (s.setLink n f).siv = s.siv := rfl
@[simp] theorem State.setLink_med (s : State) (n : Nat) (f : Link → Link) : (s.setLink n f).med = s.med := rfl
@[simp] theorem State.setLink_dies (s : State) (n : Nat) (f : Link → Link) : (s.setLink n f).dies = s.dies := rfl
@[simp] theorem State.setLink_burners (s : State) (n : Nat) (f : Link → Link) : (s.setLink n f).burners = s.burners := rfl
@[simp] theorem State.setLink_upk (s : State) (n : Nat) (f : Link → Link) : (s.setLink n f).upk = s.upk := rfl
@[simp] theorem State.setLink_pass (s : State) (n : Nat) (f : Link → Link) : (s.setLink n f).pass = s.pass := rfl
@[simp] theorem State.setLink_ladles (s : State) (n : Nat) (f : Link → Link) : (s.setLink n f).ladles = s.ladles := rfl
@[simp] theorem State.setLink_spr (s : State) (n : Nat) (f : Link → Link) : (s.setLink n f).spr = s.spr := rfl
@[simp] theorem State.setLink_ctxs (s : State) (n : Nat) (f : Link → Link) : (s.setLink n f).ctxs = s.ctxs := rfl
@[simp] theorem State.setLink_chans (s : State) (n : Nat) (f : Link → Link) : (s.setLink n f).chans = s.chans := rfl
@[simp] theorem State.setLink_tly (s : State) (n : Nat) (f : Link → Link) : (s.setLink n f).tly = s.tly := rfl
@[simp] theorem State.setLink_spk (s : State) (n : Nat) (f : Link → Link) : (s.setLink n f).spk = s.spk := rfl
@[simp] theorem State.setLink_clk (s : State) (n : Nat) (f : Link → Link) : (s.setLink n f).clk = s.clk := rfl
@[simp] theorem State.setLink_thm (s : State) (n : Nat) (f : Link → Link) : (s.setLink n f).thm = s.thm := rfl
@[simp] theorem State.setLink_flt (s : State) (n : Nat) (f : Link → Link) : (s.setLink n f).flt = s.flt := rfl
@[simp] theorem State.setLink_reports (s : State) (n : Nat) (f : Link → Link) : (s.setLink n f).reports = s.reports := rfl
@[simp] theorem State.setLink_slots (s : State) (n : Nat) (f : Link → Link) : (s.setLink n f).slots = s.slots := rfl
@[simp] theorem State.setLink_prot (s : State) (n : Nat) (f : Link → Link) : (s.setLink n f).prot = s.prot := rfl
@[simp] theorem State.setLink_pwrState (s : State) (n : Nat) (f : Link → Link) : (s.setLink n f).pwrState = s.pwrState := rfl
@[simp] theorem State.setLink_recovery (s : State) (n : Nat) (f : Link → Link) : (s.setLink n f).recovery = s.recovery := rfl
@[simp] theorem State.setLink_hooks (s : State) (n : Nat) (f : Link → Link) : (s.setLink n f).hooks = s.hooks := rfl
@[simp] theorem State.setLink_cmt (s : State) (n : Nat) (f : Link → Link) : (s.setLink n f).cmt = s.cmt := rfl
@[simp] theorem State.setLink_mbx (s : State) (n : Nat) (f : Link → Link) : (s.setLink n f).mbx = s.mbx := rfl
@[simp] theorem State.setLink_mec (s : State) (n : Nat) (f : Link → Link) : (s.setLink n f).mec = s.mec := rfl
@[simp] theorem State.setLink_pwr (s : State) (n : Nat) (f : Link → Link) : (s.setLink n f).pwr = s.pwr := rfl
@[simp] theorem State.setLink_nor (s : State) (n : Nat) (f : Link → Link) : (s.setLink n f).nor = s.nor := rfl
@[simp] theorem State.setLink_boot (s : State) (n : Nat) (f : Link → Link) : (s.setLink n f).boot = s.boot := rfl
@[simp] theorem State.setLink_stw (s : State) (n : Nat) (f : Link → Link) : (s.setLink n f).stw = s.stw := rfl

/-! ### setFrame -/

@[simp] theorem State.setFrame_stk (s : State) (f : Nat) (x : Frame) : (s.setFrame f x).stk =
    { s.stk with frames := s.stk.frames.set .free f x } := rfl
@[simp] theorem State.setFrame_pending (s : State) (f : Nat) (x : Frame) : (s.setFrame f x).pending = s.pending := rfl
@[simp] theorem State.setFrame_now (s : State) (f : Nat) (x : Frame) : (s.setFrame f x).now = s.now := rfl
@[simp] theorem State.setFrame_free (s : State) (f : Nat) (x : Frame) : (s.setFrame f x).free = s.free := rfl
@[simp] theorem State.setFrame_out (s : State) (f : Nat) (x : Frame) : (s.setFrame f x).out = s.out := rfl
@[simp] theorem State.setFrame_fuses (s : State) (f : Nat) (x : Frame) : (s.setFrame f x).fuses = s.fuses := rfl
@[simp] theorem State.setFrame_regs (s : State) (f : Nat) (x : Frame) : (s.setFrame f x).regs = s.regs := rfl
@[simp] theorem State.setFrame_ports (s : State) (f : Nat) (x : Frame) : (s.setFrame f x).ports = s.ports := rfl
@[simp] theorem State.setFrame_loads (s : State) (f : Nat) (x : Frame) : (s.setFrame f x).loads = s.loads := rfl
@[simp] theorem State.setFrame_nextLoad (s : State) (f : Nat) (x : Frame) : (s.setFrame f x).nextLoad = s.nextLoad := rfl
@[simp] theorem State.setFrame_rails (s : State) (f : Nat) (x : Frame) : (s.setFrame f x).rails = s.rails := rfl
@[simp] theorem State.setFrame_siv (s : State) (f : Nat) (x : Frame) : (s.setFrame f x).siv = s.siv := rfl
@[simp] theorem State.setFrame_med (s : State) (f : Nat) (x : Frame) : (s.setFrame f x).med = s.med := rfl
@[simp] theorem State.setFrame_dies (s : State) (f : Nat) (x : Frame) : (s.setFrame f x).dies = s.dies := rfl
@[simp] theorem State.setFrame_burners (s : State) (f : Nat) (x : Frame) : (s.setFrame f x).burners = s.burners := rfl
@[simp] theorem State.setFrame_upk (s : State) (f : Nat) (x : Frame) : (s.setFrame f x).upk = s.upk := rfl
@[simp] theorem State.setFrame_pass (s : State) (f : Nat) (x : Frame) : (s.setFrame f x).pass = s.pass := rfl
@[simp] theorem State.setFrame_ladles (s : State) (f : Nat) (x : Frame) : (s.setFrame f x).ladles = s.ladles := rfl
@[simp] theorem State.setFrame_spr (s : State) (f : Nat) (x : Frame) : (s.setFrame f x).spr = s.spr := rfl
@[simp] theorem State.setFrame_ctxs (s : State) (f : Nat) (x : Frame) : (s.setFrame f x).ctxs = s.ctxs := rfl
@[simp] theorem State.setFrame_chans (s : State) (f : Nat) (x : Frame) : (s.setFrame f x).chans = s.chans := rfl
@[simp] theorem State.setFrame_tly (s : State) (f : Nat) (x : Frame) : (s.setFrame f x).tly = s.tly := rfl
@[simp] theorem State.setFrame_spk (s : State) (f : Nat) (x : Frame) : (s.setFrame f x).spk = s.spk := rfl
@[simp] theorem State.setFrame_clk (s : State) (f : Nat) (x : Frame) : (s.setFrame f x).clk = s.clk := rfl
@[simp] theorem State.setFrame_thm (s : State) (f : Nat) (x : Frame) : (s.setFrame f x).thm = s.thm := rfl
@[simp] theorem State.setFrame_flt (s : State) (f : Nat) (x : Frame) : (s.setFrame f x).flt = s.flt := rfl
@[simp] theorem State.setFrame_reports (s : State) (f : Nat) (x : Frame) : (s.setFrame f x).reports = s.reports := rfl
@[simp] theorem State.setFrame_slots (s : State) (f : Nat) (x : Frame) : (s.setFrame f x).slots = s.slots := rfl
@[simp] theorem State.setFrame_prot (s : State) (f : Nat) (x : Frame) : (s.setFrame f x).prot = s.prot := rfl
@[simp] theorem State.setFrame_pwrState (s : State) (f : Nat) (x : Frame) : (s.setFrame f x).pwrState = s.pwrState := rfl
@[simp] theorem State.setFrame_recovery (s : State) (f : Nat) (x : Frame) : (s.setFrame f x).recovery = s.recovery := rfl
@[simp] theorem State.setFrame_hooks (s : State) (f : Nat) (x : Frame) : (s.setFrame f x).hooks = s.hooks := rfl
@[simp] theorem State.setFrame_cmt (s : State) (f : Nat) (x : Frame) : (s.setFrame f x).cmt = s.cmt := rfl
@[simp] theorem State.setFrame_mbx (s : State) (f : Nat) (x : Frame) : (s.setFrame f x).mbx = s.mbx := rfl
@[simp] theorem State.setFrame_mec (s : State) (f : Nat) (x : Frame) : (s.setFrame f x).mec = s.mec := rfl
@[simp] theorem State.setFrame_pwr (s : State) (f : Nat) (x : Frame) : (s.setFrame f x).pwr = s.pwr := rfl
@[simp] theorem State.setFrame_nor (s : State) (f : Nat) (x : Frame) : (s.setFrame f x).nor = s.nor := rfl
@[simp] theorem State.setFrame_boot (s : State) (f : Nat) (x : Frame) : (s.setFrame f x).boot = s.boot := rfl
@[simp] theorem State.setFrame_stw (s : State) (f : Nat) (x : Frame) : (s.setFrame f x).stw = s.stw := rfl

/-! ### setLoaf -/

@[simp] theorem State.setLoaf_siv (s : State) (l : Nat) (e : LoafE) : (s.setLoaf l e).siv =
    { s.siv with loafs := s.siv.loafs.set .unmapped l e } := rfl
@[simp] theorem State.setLoaf_pending (s : State) (l : Nat) (e : LoafE) : (s.setLoaf l e).pending = s.pending := rfl
@[simp] theorem State.setLoaf_now (s : State) (l : Nat) (e : LoafE) : (s.setLoaf l e).now = s.now := rfl
@[simp] theorem State.setLoaf_free (s : State) (l : Nat) (e : LoafE) : (s.setLoaf l e).free = s.free := rfl
@[simp] theorem State.setLoaf_out (s : State) (l : Nat) (e : LoafE) : (s.setLoaf l e).out = s.out := rfl
@[simp] theorem State.setLoaf_fuses (s : State) (l : Nat) (e : LoafE) : (s.setLoaf l e).fuses = s.fuses := rfl
@[simp] theorem State.setLoaf_regs (s : State) (l : Nat) (e : LoafE) : (s.setLoaf l e).regs = s.regs := rfl
@[simp] theorem State.setLoaf_ports (s : State) (l : Nat) (e : LoafE) : (s.setLoaf l e).ports = s.ports := rfl
@[simp] theorem State.setLoaf_loads (s : State) (l : Nat) (e : LoafE) : (s.setLoaf l e).loads = s.loads := rfl
@[simp] theorem State.setLoaf_nextLoad (s : State) (l : Nat) (e : LoafE) : (s.setLoaf l e).nextLoad = s.nextLoad := rfl
@[simp] theorem State.setLoaf_rails (s : State) (l : Nat) (e : LoafE) : (s.setLoaf l e).rails = s.rails := rfl
@[simp] theorem State.setLoaf_stk (s : State) (l : Nat) (e : LoafE) : (s.setLoaf l e).stk = s.stk := rfl
@[simp] theorem State.setLoaf_med (s : State) (l : Nat) (e : LoafE) : (s.setLoaf l e).med = s.med := rfl
@[simp] theorem State.setLoaf_dies (s : State) (l : Nat) (e : LoafE) : (s.setLoaf l e).dies = s.dies := rfl
@[simp] theorem State.setLoaf_burners (s : State) (l : Nat) (e : LoafE) : (s.setLoaf l e).burners = s.burners := rfl
@[simp] theorem State.setLoaf_upk (s : State) (l : Nat) (e : LoafE) : (s.setLoaf l e).upk = s.upk := rfl
@[simp] theorem State.setLoaf_pass (s : State) (l : Nat) (e : LoafE) : (s.setLoaf l e).pass = s.pass := rfl
@[simp] theorem State.setLoaf_ladles (s : State) (l : Nat) (e : LoafE) : (s.setLoaf l e).ladles = s.ladles := rfl
@[simp] theorem State.setLoaf_spr (s : State) (l : Nat) (e : LoafE) : (s.setLoaf l e).spr = s.spr := rfl
@[simp] theorem State.setLoaf_ctxs (s : State) (l : Nat) (e : LoafE) : (s.setLoaf l e).ctxs = s.ctxs := rfl
@[simp] theorem State.setLoaf_chans (s : State) (l : Nat) (e : LoafE) : (s.setLoaf l e).chans = s.chans := rfl
@[simp] theorem State.setLoaf_tly (s : State) (l : Nat) (e : LoafE) : (s.setLoaf l e).tly = s.tly := rfl
@[simp] theorem State.setLoaf_spk (s : State) (l : Nat) (e : LoafE) : (s.setLoaf l e).spk = s.spk := rfl
@[simp] theorem State.setLoaf_clk (s : State) (l : Nat) (e : LoafE) : (s.setLoaf l e).clk = s.clk := rfl
@[simp] theorem State.setLoaf_thm (s : State) (l : Nat) (e : LoafE) : (s.setLoaf l e).thm = s.thm := rfl
@[simp] theorem State.setLoaf_flt (s : State) (l : Nat) (e : LoafE) : (s.setLoaf l e).flt = s.flt := rfl
@[simp] theorem State.setLoaf_reports (s : State) (l : Nat) (e : LoafE) : (s.setLoaf l e).reports = s.reports := rfl
@[simp] theorem State.setLoaf_slots (s : State) (l : Nat) (e : LoafE) : (s.setLoaf l e).slots = s.slots := rfl
@[simp] theorem State.setLoaf_prot (s : State) (l : Nat) (e : LoafE) : (s.setLoaf l e).prot = s.prot := rfl
@[simp] theorem State.setLoaf_pwrState (s : State) (l : Nat) (e : LoafE) : (s.setLoaf l e).pwrState = s.pwrState := rfl
@[simp] theorem State.setLoaf_recovery (s : State) (l : Nat) (e : LoafE) : (s.setLoaf l e).recovery = s.recovery := rfl
@[simp] theorem State.setLoaf_hooks (s : State) (l : Nat) (e : LoafE) : (s.setLoaf l e).hooks = s.hooks := rfl
@[simp] theorem State.setLoaf_cmt (s : State) (l : Nat) (e : LoafE) : (s.setLoaf l e).cmt = s.cmt := rfl
@[simp] theorem State.setLoaf_mbx (s : State) (l : Nat) (e : LoafE) : (s.setLoaf l e).mbx = s.mbx := rfl
@[simp] theorem State.setLoaf_mec (s : State) (l : Nat) (e : LoafE) : (s.setLoaf l e).mec = s.mec := rfl
@[simp] theorem State.setLoaf_pwr (s : State) (l : Nat) (e : LoafE) : (s.setLoaf l e).pwr = s.pwr := rfl
@[simp] theorem State.setLoaf_nor (s : State) (l : Nat) (e : LoafE) : (s.setLoaf l e).nor = s.nor := rfl
@[simp] theorem State.setLoaf_boot (s : State) (l : Nat) (e : LoafE) : (s.setLoaf l e).boot = s.boot := rfl
@[simp] theorem State.setLoaf_stw (s : State) (l : Nat) (e : LoafE) : (s.setLoaf l e).stw = s.stw := rfl

/-! ### setSliceE -/

@[simp] theorem State.setSliceE_siv (s : State) (b k : Nat) (e : SliceE) : (s.setSliceE b k e).siv =
    { s.siv with slices := s.siv.slices.set .unmapped (b * 256 + k) e } := rfl
@[simp] theorem State.setSliceE_pending (s : State) (b k : Nat) (e : SliceE) : (s.setSliceE b k e).pending = s.pending := rfl
@[simp] theorem State.setSliceE_now (s : State) (b k : Nat) (e : SliceE) : (s.setSliceE b k e).now = s.now := rfl
@[simp] theorem State.setSliceE_free (s : State) (b k : Nat) (e : SliceE) : (s.setSliceE b k e).free = s.free := rfl
@[simp] theorem State.setSliceE_out (s : State) (b k : Nat) (e : SliceE) : (s.setSliceE b k e).out = s.out := rfl
@[simp] theorem State.setSliceE_fuses (s : State) (b k : Nat) (e : SliceE) : (s.setSliceE b k e).fuses = s.fuses := rfl
@[simp] theorem State.setSliceE_regs (s : State) (b k : Nat) (e : SliceE) : (s.setSliceE b k e).regs = s.regs := rfl
@[simp] theorem State.setSliceE_ports (s : State) (b k : Nat) (e : SliceE) : (s.setSliceE b k e).ports = s.ports := rfl
@[simp] theorem State.setSliceE_loads (s : State) (b k : Nat) (e : SliceE) : (s.setSliceE b k e).loads = s.loads := rfl
@[simp] theorem State.setSliceE_nextLoad (s : State) (b k : Nat) (e : SliceE) :
    (s.setSliceE b k e).nextLoad = s.nextLoad := rfl
@[simp] theorem State.setSliceE_rails (s : State) (b k : Nat) (e : SliceE) : (s.setSliceE b k e).rails = s.rails := rfl
@[simp] theorem State.setSliceE_stk (s : State) (b k : Nat) (e : SliceE) : (s.setSliceE b k e).stk = s.stk := rfl
@[simp] theorem State.setSliceE_med (s : State) (b k : Nat) (e : SliceE) : (s.setSliceE b k e).med = s.med := rfl
@[simp] theorem State.setSliceE_dies (s : State) (b k : Nat) (e : SliceE) : (s.setSliceE b k e).dies = s.dies := rfl
@[simp] theorem State.setSliceE_burners (s : State) (b k : Nat) (e : SliceE) : (s.setSliceE b k e).burners = s.burners := rfl
@[simp] theorem State.setSliceE_upk (s : State) (b k : Nat) (e : SliceE) : (s.setSliceE b k e).upk = s.upk := rfl
@[simp] theorem State.setSliceE_pass (s : State) (b k : Nat) (e : SliceE) : (s.setSliceE b k e).pass = s.pass := rfl
@[simp] theorem State.setSliceE_ladles (s : State) (b k : Nat) (e : SliceE) : (s.setSliceE b k e).ladles = s.ladles := rfl
@[simp] theorem State.setSliceE_spr (s : State) (b k : Nat) (e : SliceE) : (s.setSliceE b k e).spr = s.spr := rfl
@[simp] theorem State.setSliceE_ctxs (s : State) (b k : Nat) (e : SliceE) : (s.setSliceE b k e).ctxs = s.ctxs := rfl
@[simp] theorem State.setSliceE_chans (s : State) (b k : Nat) (e : SliceE) : (s.setSliceE b k e).chans = s.chans := rfl
@[simp] theorem State.setSliceE_tly (s : State) (b k : Nat) (e : SliceE) : (s.setSliceE b k e).tly = s.tly := rfl
@[simp] theorem State.setSliceE_spk (s : State) (b k : Nat) (e : SliceE) : (s.setSliceE b k e).spk = s.spk := rfl
@[simp] theorem State.setSliceE_clk (s : State) (b k : Nat) (e : SliceE) : (s.setSliceE b k e).clk = s.clk := rfl
@[simp] theorem State.setSliceE_thm (s : State) (b k : Nat) (e : SliceE) : (s.setSliceE b k e).thm = s.thm := rfl
@[simp] theorem State.setSliceE_flt (s : State) (b k : Nat) (e : SliceE) : (s.setSliceE b k e).flt = s.flt := rfl
@[simp] theorem State.setSliceE_reports (s : State) (b k : Nat) (e : SliceE) : (s.setSliceE b k e).reports = s.reports := rfl
@[simp] theorem State.setSliceE_slots (s : State) (b k : Nat) (e : SliceE) : (s.setSliceE b k e).slots = s.slots := rfl
@[simp] theorem State.setSliceE_prot (s : State) (b k : Nat) (e : SliceE) : (s.setSliceE b k e).prot = s.prot := rfl
@[simp] theorem State.setSliceE_pwrState (s : State) (b k : Nat) (e : SliceE) :
    (s.setSliceE b k e).pwrState = s.pwrState := rfl
@[simp] theorem State.setSliceE_recovery (s : State) (b k : Nat) (e : SliceE) :
    (s.setSliceE b k e).recovery = s.recovery := rfl
@[simp] theorem State.setSliceE_hooks (s : State) (b k : Nat) (e : SliceE) : (s.setSliceE b k e).hooks = s.hooks := rfl
@[simp] theorem State.setSliceE_cmt (s : State) (b k : Nat) (e : SliceE) : (s.setSliceE b k e).cmt = s.cmt := rfl
@[simp] theorem State.setSliceE_mbx (s : State) (b k : Nat) (e : SliceE) : (s.setSliceE b k e).mbx = s.mbx := rfl
@[simp] theorem State.setSliceE_mec (s : State) (b k : Nat) (e : SliceE) : (s.setSliceE b k e).mec = s.mec := rfl
@[simp] theorem State.setSliceE_pwr (s : State) (b k : Nat) (e : SliceE) : (s.setSliceE b k e).pwr = s.pwr := rfl
@[simp] theorem State.setSliceE_nor (s : State) (b k : Nat) (e : SliceE) : (s.setSliceE b k e).nor = s.nor := rfl
@[simp] theorem State.setSliceE_boot (s : State) (b k : Nat) (e : SliceE) : (s.setSliceE b k e).boot = s.boot := rfl
@[simp] theorem State.setSliceE_stw (s : State) (b k : Nat) (e : SliceE) : (s.setSliceE b k e).stw = s.stw := rfl

/-! ### updBlk -/

@[simp] theorem State.updBlk_med (s : State) (x : Nat) (f : Block → Block) : (s.updBlk x f).med =
    { s.med with table := s.med.table.upd .blank x f } := rfl
@[simp] theorem State.updBlk_pending (s : State) (x : Nat) (f : Block → Block) : (s.updBlk x f).pending = s.pending := rfl
@[simp] theorem State.updBlk_now (s : State) (x : Nat) (f : Block → Block) : (s.updBlk x f).now = s.now := rfl
@[simp] theorem State.updBlk_free (s : State) (x : Nat) (f : Block → Block) : (s.updBlk x f).free = s.free := rfl
@[simp] theorem State.updBlk_out (s : State) (x : Nat) (f : Block → Block) : (s.updBlk x f).out = s.out := rfl
@[simp] theorem State.updBlk_fuses (s : State) (x : Nat) (f : Block → Block) : (s.updBlk x f).fuses = s.fuses := rfl
@[simp] theorem State.updBlk_regs (s : State) (x : Nat) (f : Block → Block) : (s.updBlk x f).regs = s.regs := rfl
@[simp] theorem State.updBlk_ports (s : State) (x : Nat) (f : Block → Block) : (s.updBlk x f).ports = s.ports := rfl
@[simp] theorem State.updBlk_loads (s : State) (x : Nat) (f : Block → Block) : (s.updBlk x f).loads = s.loads := rfl
@[simp] theorem State.updBlk_nextLoad (s : State) (x : Nat) (f : Block → Block) : (s.updBlk x f).nextLoad = s.nextLoad := rfl
@[simp] theorem State.updBlk_rails (s : State) (x : Nat) (f : Block → Block) : (s.updBlk x f).rails = s.rails := rfl
@[simp] theorem State.updBlk_stk (s : State) (x : Nat) (f : Block → Block) : (s.updBlk x f).stk = s.stk := rfl
@[simp] theorem State.updBlk_siv (s : State) (x : Nat) (f : Block → Block) : (s.updBlk x f).siv = s.siv := rfl
@[simp] theorem State.updBlk_dies (s : State) (x : Nat) (f : Block → Block) : (s.updBlk x f).dies = s.dies := rfl
@[simp] theorem State.updBlk_burners (s : State) (x : Nat) (f : Block → Block) : (s.updBlk x f).burners = s.burners := rfl
@[simp] theorem State.updBlk_upk (s : State) (x : Nat) (f : Block → Block) : (s.updBlk x f).upk = s.upk := rfl
@[simp] theorem State.updBlk_pass (s : State) (x : Nat) (f : Block → Block) : (s.updBlk x f).pass = s.pass := rfl
@[simp] theorem State.updBlk_ladles (s : State) (x : Nat) (f : Block → Block) : (s.updBlk x f).ladles = s.ladles := rfl
@[simp] theorem State.updBlk_spr (s : State) (x : Nat) (f : Block → Block) : (s.updBlk x f).spr = s.spr := rfl
@[simp] theorem State.updBlk_ctxs (s : State) (x : Nat) (f : Block → Block) : (s.updBlk x f).ctxs = s.ctxs := rfl
@[simp] theorem State.updBlk_chans (s : State) (x : Nat) (f : Block → Block) : (s.updBlk x f).chans = s.chans := rfl
@[simp] theorem State.updBlk_tly (s : State) (x : Nat) (f : Block → Block) : (s.updBlk x f).tly = s.tly := rfl
@[simp] theorem State.updBlk_spk (s : State) (x : Nat) (f : Block → Block) : (s.updBlk x f).spk = s.spk := rfl
@[simp] theorem State.updBlk_clk (s : State) (x : Nat) (f : Block → Block) : (s.updBlk x f).clk = s.clk := rfl
@[simp] theorem State.updBlk_thm (s : State) (x : Nat) (f : Block → Block) : (s.updBlk x f).thm = s.thm := rfl
@[simp] theorem State.updBlk_flt (s : State) (x : Nat) (f : Block → Block) : (s.updBlk x f).flt = s.flt := rfl
@[simp] theorem State.updBlk_reports (s : State) (x : Nat) (f : Block → Block) : (s.updBlk x f).reports = s.reports := rfl
@[simp] theorem State.updBlk_slots (s : State) (x : Nat) (f : Block → Block) : (s.updBlk x f).slots = s.slots := rfl
@[simp] theorem State.updBlk_prot (s : State) (x : Nat) (f : Block → Block) : (s.updBlk x f).prot = s.prot := rfl
@[simp] theorem State.updBlk_pwrState (s : State) (x : Nat) (f : Block → Block) : (s.updBlk x f).pwrState = s.pwrState := rfl
@[simp] theorem State.updBlk_recovery (s : State) (x : Nat) (f : Block → Block) : (s.updBlk x f).recovery = s.recovery := rfl
@[simp] theorem State.updBlk_hooks (s : State) (x : Nat) (f : Block → Block) : (s.updBlk x f).hooks = s.hooks := rfl
@[simp] theorem State.updBlk_cmt (s : State) (x : Nat) (f : Block → Block) : (s.updBlk x f).cmt = s.cmt := rfl
@[simp] theorem State.updBlk_mbx (s : State) (x : Nat) (f : Block → Block) : (s.updBlk x f).mbx = s.mbx := rfl
@[simp] theorem State.updBlk_mec (s : State) (x : Nat) (f : Block → Block) : (s.updBlk x f).mec = s.mec := rfl
@[simp] theorem State.updBlk_pwr (s : State) (x : Nat) (f : Block → Block) : (s.updBlk x f).pwr = s.pwr := rfl
@[simp] theorem State.updBlk_nor (s : State) (x : Nat) (f : Block → Block) : (s.updBlk x f).nor = s.nor := rfl
@[simp] theorem State.updBlk_boot (s : State) (x : Nat) (f : Block → Block) : (s.updBlk x f).boot = s.boot := rfl
@[simp] theorem State.updBlk_stw (s : State) (x : Nat) (f : Block → Block) : (s.updBlk x f).stw = s.stw := rfl

/-! ### addInflight -/

@[simp] theorem State.addInflight_med (s : State) (a : Nat) : (s.addInflight a).med =
    { s.med with inflight := s.med.inflight.upd 0 (pbOfAddr a) (· + 1) } := rfl
@[simp] theorem State.addInflight_pending (s : State) (a : Nat) : (s.addInflight a).pending = s.pending := rfl
@[simp] theorem State.addInflight_now (s : State) (a : Nat) : (s.addInflight a).now = s.now := rfl
@[simp] theorem State.addInflight_free (s : State) (a : Nat) : (s.addInflight a).free = s.free := rfl
@[simp] theorem State.addInflight_out (s : State) (a : Nat) : (s.addInflight a).out = s.out := rfl
@[simp] theorem State.addInflight_fuses (s : State) (a : Nat) : (s.addInflight a).fuses = s.fuses := rfl
@[simp] theorem State.addInflight_regs (s : State) (a : Nat) : (s.addInflight a).regs = s.regs := rfl
@[simp] theorem State.addInflight_ports (s : State) (a : Nat) : (s.addInflight a).ports = s.ports := rfl
@[simp] theorem State.addInflight_loads (s : State) (a : Nat) : (s.addInflight a).loads = s.loads := rfl
@[simp] theorem State.addInflight_nextLoad (s : State) (a : Nat) : (s.addInflight a).nextLoad = s.nextLoad := rfl
@[simp] theorem State.addInflight_rails (s : State) (a : Nat) : (s.addInflight a).rails = s.rails := rfl
@[simp] theorem State.addInflight_stk (s : State) (a : Nat) : (s.addInflight a).stk = s.stk := rfl
@[simp] theorem State.addInflight_siv (s : State) (a : Nat) : (s.addInflight a).siv = s.siv := rfl
@[simp] theorem State.addInflight_dies (s : State) (a : Nat) : (s.addInflight a).dies = s.dies := rfl
@[simp] theorem State.addInflight_burners (s : State) (a : Nat) : (s.addInflight a).burners = s.burners := rfl
@[simp] theorem State.addInflight_upk (s : State) (a : Nat) : (s.addInflight a).upk = s.upk := rfl
@[simp] theorem State.addInflight_pass (s : State) (a : Nat) : (s.addInflight a).pass = s.pass := rfl
@[simp] theorem State.addInflight_ladles (s : State) (a : Nat) : (s.addInflight a).ladles = s.ladles := rfl
@[simp] theorem State.addInflight_spr (s : State) (a : Nat) : (s.addInflight a).spr = s.spr := rfl
@[simp] theorem State.addInflight_ctxs (s : State) (a : Nat) : (s.addInflight a).ctxs = s.ctxs := rfl
@[simp] theorem State.addInflight_chans (s : State) (a : Nat) : (s.addInflight a).chans = s.chans := rfl
@[simp] theorem State.addInflight_tly (s : State) (a : Nat) : (s.addInflight a).tly = s.tly := rfl
@[simp] theorem State.addInflight_spk (s : State) (a : Nat) : (s.addInflight a).spk = s.spk := rfl
@[simp] theorem State.addInflight_clk (s : State) (a : Nat) : (s.addInflight a).clk = s.clk := rfl
@[simp] theorem State.addInflight_thm (s : State) (a : Nat) : (s.addInflight a).thm = s.thm := rfl
@[simp] theorem State.addInflight_flt (s : State) (a : Nat) : (s.addInflight a).flt = s.flt := rfl
@[simp] theorem State.addInflight_reports (s : State) (a : Nat) : (s.addInflight a).reports = s.reports := rfl
@[simp] theorem State.addInflight_slots (s : State) (a : Nat) : (s.addInflight a).slots = s.slots := rfl
@[simp] theorem State.addInflight_prot (s : State) (a : Nat) : (s.addInflight a).prot = s.prot := rfl
@[simp] theorem State.addInflight_pwrState (s : State) (a : Nat) : (s.addInflight a).pwrState = s.pwrState := rfl
@[simp] theorem State.addInflight_recovery (s : State) (a : Nat) : (s.addInflight a).recovery = s.recovery := rfl
@[simp] theorem State.addInflight_hooks (s : State) (a : Nat) : (s.addInflight a).hooks = s.hooks := rfl
@[simp] theorem State.addInflight_cmt (s : State) (a : Nat) : (s.addInflight a).cmt = s.cmt := rfl
@[simp] theorem State.addInflight_mbx (s : State) (a : Nat) : (s.addInflight a).mbx = s.mbx := rfl
@[simp] theorem State.addInflight_mec (s : State) (a : Nat) : (s.addInflight a).mec = s.mec := rfl
@[simp] theorem State.addInflight_pwr (s : State) (a : Nat) : (s.addInflight a).pwr = s.pwr := rfl
@[simp] theorem State.addInflight_nor (s : State) (a : Nat) : (s.addInflight a).nor = s.nor := rfl
@[simp] theorem State.addInflight_boot (s : State) (a : Nat) : (s.addInflight a).boot = s.boot := rfl
@[simp] theorem State.addInflight_stw (s : State) (a : Nat) : (s.addInflight a).stw = s.stw := rfl

/-! ### dropInflight -/

@[simp] theorem State.dropInflight_med (s : State) (a : Nat) : (s.dropInflight a).med =
    { s.med with inflight := s.med.inflight.upd 0 (pbOfAddr a) (· - 1) } := rfl
@[simp] theorem State.dropInflight_pending (s : State) (a : Nat) : (s.dropInflight a).pending = s.pending := rfl
@[simp] theorem State.dropInflight_now (s : State) (a : Nat) : (s.dropInflight a).now = s.now := rfl
@[simp] theorem State.dropInflight_free (s : State) (a : Nat) : (s.dropInflight a).free = s.free := rfl
@[simp] theorem State.dropInflight_out (s : State) (a : Nat) : (s.dropInflight a).out = s.out := rfl
@[simp] theorem State.dropInflight_fuses (s : State) (a : Nat) : (s.dropInflight a).fuses = s.fuses := rfl
@[simp] theorem State.dropInflight_regs (s : State) (a : Nat) : (s.dropInflight a).regs = s.regs := rfl
@[simp] theorem State.dropInflight_ports (s : State) (a : Nat) : (s.dropInflight a).ports = s.ports := rfl
@[simp] theorem State.dropInflight_loads (s : State) (a : Nat) : (s.dropInflight a).loads = s.loads := rfl
@[simp] theorem State.dropInflight_nextLoad (s : State) (a : Nat) : (s.dropInflight a).nextLoad = s.nextLoad := rfl
@[simp] theorem State.dropInflight_rails (s : State) (a : Nat) : (s.dropInflight a).rails = s.rails := rfl
@[simp] theorem State.dropInflight_stk (s : State) (a : Nat) : (s.dropInflight a).stk = s.stk := rfl
@[simp] theorem State.dropInflight_siv (s : State) (a : Nat) : (s.dropInflight a).siv = s.siv := rfl
@[simp] theorem State.dropInflight_dies (s : State) (a : Nat) : (s.dropInflight a).dies = s.dies := rfl
@[simp] theorem State.dropInflight_burners (s : State) (a : Nat) : (s.dropInflight a).burners = s.burners := rfl
@[simp] theorem State.dropInflight_upk (s : State) (a : Nat) : (s.dropInflight a).upk = s.upk := rfl
@[simp] theorem State.dropInflight_pass (s : State) (a : Nat) : (s.dropInflight a).pass = s.pass := rfl
@[simp] theorem State.dropInflight_ladles (s : State) (a : Nat) : (s.dropInflight a).ladles = s.ladles := rfl
@[simp] theorem State.dropInflight_spr (s : State) (a : Nat) : (s.dropInflight a).spr = s.spr := rfl
@[simp] theorem State.dropInflight_ctxs (s : State) (a : Nat) : (s.dropInflight a).ctxs = s.ctxs := rfl
@[simp] theorem State.dropInflight_chans (s : State) (a : Nat) : (s.dropInflight a).chans = s.chans := rfl
@[simp] theorem State.dropInflight_tly (s : State) (a : Nat) : (s.dropInflight a).tly = s.tly := rfl
@[simp] theorem State.dropInflight_spk (s : State) (a : Nat) : (s.dropInflight a).spk = s.spk := rfl
@[simp] theorem State.dropInflight_clk (s : State) (a : Nat) : (s.dropInflight a).clk = s.clk := rfl
@[simp] theorem State.dropInflight_thm (s : State) (a : Nat) : (s.dropInflight a).thm = s.thm := rfl
@[simp] theorem State.dropInflight_flt (s : State) (a : Nat) : (s.dropInflight a).flt = s.flt := rfl
@[simp] theorem State.dropInflight_reports (s : State) (a : Nat) : (s.dropInflight a).reports = s.reports := rfl
@[simp] theorem State.dropInflight_slots (s : State) (a : Nat) : (s.dropInflight a).slots = s.slots := rfl
@[simp] theorem State.dropInflight_prot (s : State) (a : Nat) : (s.dropInflight a).prot = s.prot := rfl
@[simp] theorem State.dropInflight_pwrState (s : State) (a : Nat) : (s.dropInflight a).pwrState = s.pwrState := rfl
@[simp] theorem State.dropInflight_recovery (s : State) (a : Nat) : (s.dropInflight a).recovery = s.recovery := rfl
@[simp] theorem State.dropInflight_hooks (s : State) (a : Nat) : (s.dropInflight a).hooks = s.hooks := rfl
@[simp] theorem State.dropInflight_cmt (s : State) (a : Nat) : (s.dropInflight a).cmt = s.cmt := rfl
@[simp] theorem State.dropInflight_mbx (s : State) (a : Nat) : (s.dropInflight a).mbx = s.mbx := rfl
@[simp] theorem State.dropInflight_mec (s : State) (a : Nat) : (s.dropInflight a).mec = s.mec := rfl
@[simp] theorem State.dropInflight_pwr (s : State) (a : Nat) : (s.dropInflight a).pwr = s.pwr := rfl
@[simp] theorem State.dropInflight_nor (s : State) (a : Nat) : (s.dropInflight a).nor = s.nor := rfl
@[simp] theorem State.dropInflight_boot (s : State) (a : Nat) : (s.dropInflight a).boot = s.boot := rfl
@[simp] theorem State.dropInflight_stw (s : State) (a : Nat) : (s.dropInflight a).stw = s.stw := rfl

/-! ### updDie -/

@[simp] theorem State.updDie_dies (s : State) (b ce : Nat) (f : Die → Die) : (s.updDie b ce f).dies =
    s.dies.upd .absent (b * 10 + ce) f := rfl
@[simp] theorem State.updDie_pending (s : State) (b ce : Nat) (f : Die → Die) : (s.updDie b ce f).pending = s.pending := rfl
@[simp] theorem State.updDie_now (s : State) (b ce : Nat) (f : Die → Die) : (s.updDie b ce f).now = s.now := rfl
@[simp] theorem State.updDie_free (s : State) (b ce : Nat) (f : Die → Die) : (s.updDie b ce f).free = s.free := rfl
@[simp] theorem State.updDie_out (s : State) (b ce : Nat) (f : Die → Die) : (s.updDie b ce f).out = s.out := rfl
@[simp] theorem State.updDie_fuses (s : State) (b ce : Nat) (f : Die → Die) : (s.updDie b ce f).fuses = s.fuses := rfl
@[simp] theorem State.updDie_regs (s : State) (b ce : Nat) (f : Die → Die) : (s.updDie b ce f).regs = s.regs := rfl
@[simp] theorem State.updDie_ports (s : State) (b ce : Nat) (f : Die → Die) : (s.updDie b ce f).ports = s.ports := rfl
@[simp] theorem State.updDie_loads (s : State) (b ce : Nat) (f : Die → Die) : (s.updDie b ce f).loads = s.loads := rfl
@[simp] theorem State.updDie_nextLoad (s : State) (b ce : Nat) (f : Die → Die) :
    (s.updDie b ce f).nextLoad = s.nextLoad := rfl
@[simp] theorem State.updDie_rails (s : State) (b ce : Nat) (f : Die → Die) : (s.updDie b ce f).rails = s.rails := rfl
@[simp] theorem State.updDie_stk (s : State) (b ce : Nat) (f : Die → Die) : (s.updDie b ce f).stk = s.stk := rfl
@[simp] theorem State.updDie_siv (s : State) (b ce : Nat) (f : Die → Die) : (s.updDie b ce f).siv = s.siv := rfl
@[simp] theorem State.updDie_med (s : State) (b ce : Nat) (f : Die → Die) : (s.updDie b ce f).med = s.med := rfl
@[simp] theorem State.updDie_burners (s : State) (b ce : Nat) (f : Die → Die) : (s.updDie b ce f).burners = s.burners := rfl
@[simp] theorem State.updDie_upk (s : State) (b ce : Nat) (f : Die → Die) : (s.updDie b ce f).upk = s.upk := rfl
@[simp] theorem State.updDie_pass (s : State) (b ce : Nat) (f : Die → Die) : (s.updDie b ce f).pass = s.pass := rfl
@[simp] theorem State.updDie_ladles (s : State) (b ce : Nat) (f : Die → Die) : (s.updDie b ce f).ladles = s.ladles := rfl
@[simp] theorem State.updDie_spr (s : State) (b ce : Nat) (f : Die → Die) : (s.updDie b ce f).spr = s.spr := rfl
@[simp] theorem State.updDie_ctxs (s : State) (b ce : Nat) (f : Die → Die) : (s.updDie b ce f).ctxs = s.ctxs := rfl
@[simp] theorem State.updDie_chans (s : State) (b ce : Nat) (f : Die → Die) : (s.updDie b ce f).chans = s.chans := rfl
@[simp] theorem State.updDie_tly (s : State) (b ce : Nat) (f : Die → Die) : (s.updDie b ce f).tly = s.tly := rfl
@[simp] theorem State.updDie_spk (s : State) (b ce : Nat) (f : Die → Die) : (s.updDie b ce f).spk = s.spk := rfl
@[simp] theorem State.updDie_clk (s : State) (b ce : Nat) (f : Die → Die) : (s.updDie b ce f).clk = s.clk := rfl
@[simp] theorem State.updDie_thm (s : State) (b ce : Nat) (f : Die → Die) : (s.updDie b ce f).thm = s.thm := rfl
@[simp] theorem State.updDie_flt (s : State) (b ce : Nat) (f : Die → Die) : (s.updDie b ce f).flt = s.flt := rfl
@[simp] theorem State.updDie_reports (s : State) (b ce : Nat) (f : Die → Die) : (s.updDie b ce f).reports = s.reports := rfl
@[simp] theorem State.updDie_slots (s : State) (b ce : Nat) (f : Die → Die) : (s.updDie b ce f).slots = s.slots := rfl
@[simp] theorem State.updDie_prot (s : State) (b ce : Nat) (f : Die → Die) : (s.updDie b ce f).prot = s.prot := rfl
@[simp] theorem State.updDie_pwrState (s : State) (b ce : Nat) (f : Die → Die) :
    (s.updDie b ce f).pwrState = s.pwrState := rfl
@[simp] theorem State.updDie_recovery (s : State) (b ce : Nat) (f : Die → Die) :
    (s.updDie b ce f).recovery = s.recovery := rfl
@[simp] theorem State.updDie_hooks (s : State) (b ce : Nat) (f : Die → Die) : (s.updDie b ce f).hooks = s.hooks := rfl
@[simp] theorem State.updDie_cmt (s : State) (b ce : Nat) (f : Die → Die) : (s.updDie b ce f).cmt = s.cmt := rfl
@[simp] theorem State.updDie_mbx (s : State) (b ce : Nat) (f : Die → Die) : (s.updDie b ce f).mbx = s.mbx := rfl
@[simp] theorem State.updDie_mec (s : State) (b ce : Nat) (f : Die → Die) : (s.updDie b ce f).mec = s.mec := rfl
@[simp] theorem State.updDie_pwr (s : State) (b ce : Nat) (f : Die → Die) : (s.updDie b ce f).pwr = s.pwr := rfl
@[simp] theorem State.updDie_nor (s : State) (b ce : Nat) (f : Die → Die) : (s.updDie b ce f).nor = s.nor := rfl
@[simp] theorem State.updDie_boot (s : State) (b ce : Nat) (f : Die → Die) : (s.updDie b ce f).boot = s.boot := rfl
@[simp] theorem State.updDie_stw (s : State) (b ce : Nat) (f : Die → Die) : (s.updDie b ce f).stw = s.stw := rfl

/-! ### updBurner -/

@[simp] theorem State.updBurner_burners (s : State) (b : Nat) (f : Burner → Burner) : (s.updBurner b f).burners =
    s.burners.upd .fresh b f := rfl
@[simp] theorem State.updBurner_pending (s : State) (b : Nat) (f : Burner → Burner) :
    (s.updBurner b f).pending = s.pending := rfl
@[simp] theorem State.updBurner_now (s : State) (b : Nat) (f : Burner → Burner) : (s.updBurner b f).now = s.now := rfl
@[simp] theorem State.updBurner_free (s : State) (b : Nat) (f : Burner → Burner) : (s.updBurner b f).free = s.free := rfl
@[simp] theorem State.updBurner_out (s : State) (b : Nat) (f : Burner → Burner) : (s.updBurner b f).out = s.out := rfl
@[simp] theorem State.updBurner_fuses (s : State) (b : Nat) (f : Burner → Burner) : (s.updBurner b f).fuses = s.fuses := rfl
@[simp] theorem State.updBurner_regs (s : State) (b : Nat) (f : Burner → Burner) : (s.updBurner b f).regs = s.regs := rfl
@[simp] theorem State.updBurner_ports (s : State) (b : Nat) (f : Burner → Burner) : (s.updBurner b f).ports = s.ports := rfl
@[simp] theorem State.updBurner_loads (s : State) (b : Nat) (f : Burner → Burner) : (s.updBurner b f).loads = s.loads := rfl
@[simp] theorem State.updBurner_nextLoad (s : State) (b : Nat) (f : Burner → Burner) :
    (s.updBurner b f).nextLoad = s.nextLoad := rfl
@[simp] theorem State.updBurner_rails (s : State) (b : Nat) (f : Burner → Burner) : (s.updBurner b f).rails = s.rails := rfl
@[simp] theorem State.updBurner_stk (s : State) (b : Nat) (f : Burner → Burner) : (s.updBurner b f).stk = s.stk := rfl
@[simp] theorem State.updBurner_siv (s : State) (b : Nat) (f : Burner → Burner) : (s.updBurner b f).siv = s.siv := rfl
@[simp] theorem State.updBurner_med (s : State) (b : Nat) (f : Burner → Burner) : (s.updBurner b f).med = s.med := rfl
@[simp] theorem State.updBurner_dies (s : State) (b : Nat) (f : Burner → Burner) : (s.updBurner b f).dies = s.dies := rfl
@[simp] theorem State.updBurner_upk (s : State) (b : Nat) (f : Burner → Burner) : (s.updBurner b f).upk = s.upk := rfl
@[simp] theorem State.updBurner_pass (s : State) (b : Nat) (f : Burner → Burner) : (s.updBurner b f).pass = s.pass := rfl
@[simp] theorem State.updBurner_ladles (s : State) (b : Nat) (f : Burner → Burner) :
    (s.updBurner b f).ladles = s.ladles := rfl
@[simp] theorem State.updBurner_spr (s : State) (b : Nat) (f : Burner → Burner) : (s.updBurner b f).spr = s.spr := rfl
@[simp] theorem State.updBurner_ctxs (s : State) (b : Nat) (f : Burner → Burner) : (s.updBurner b f).ctxs = s.ctxs := rfl
@[simp] theorem State.updBurner_chans (s : State) (b : Nat) (f : Burner → Burner) : (s.updBurner b f).chans = s.chans := rfl
@[simp] theorem State.updBurner_tly (s : State) (b : Nat) (f : Burner → Burner) : (s.updBurner b f).tly = s.tly := rfl
@[simp] theorem State.updBurner_spk (s : State) (b : Nat) (f : Burner → Burner) : (s.updBurner b f).spk = s.spk := rfl
@[simp] theorem State.updBurner_clk (s : State) (b : Nat) (f : Burner → Burner) : (s.updBurner b f).clk = s.clk := rfl
@[simp] theorem State.updBurner_thm (s : State) (b : Nat) (f : Burner → Burner) : (s.updBurner b f).thm = s.thm := rfl
@[simp] theorem State.updBurner_flt (s : State) (b : Nat) (f : Burner → Burner) : (s.updBurner b f).flt = s.flt := rfl
@[simp] theorem State.updBurner_reports (s : State) (b : Nat) (f : Burner → Burner) :
    (s.updBurner b f).reports = s.reports := rfl
@[simp] theorem State.updBurner_slots (s : State) (b : Nat) (f : Burner → Burner) : (s.updBurner b f).slots = s.slots := rfl
@[simp] theorem State.updBurner_prot (s : State) (b : Nat) (f : Burner → Burner) : (s.updBurner b f).prot = s.prot := rfl
@[simp] theorem State.updBurner_pwrState (s : State) (b : Nat) (f : Burner → Burner) :
    (s.updBurner b f).pwrState = s.pwrState := rfl
@[simp] theorem State.updBurner_recovery (s : State) (b : Nat) (f : Burner → Burner) :
    (s.updBurner b f).recovery = s.recovery := rfl
@[simp] theorem State.updBurner_hooks (s : State) (b : Nat) (f : Burner → Burner) : (s.updBurner b f).hooks = s.hooks := rfl
@[simp] theorem State.updBurner_cmt (s : State) (b : Nat) (f : Burner → Burner) : (s.updBurner b f).cmt = s.cmt := rfl
@[simp] theorem State.updBurner_mbx (s : State) (b : Nat) (f : Burner → Burner) : (s.updBurner b f).mbx = s.mbx := rfl
@[simp] theorem State.updBurner_mec (s : State) (b : Nat) (f : Burner → Burner) : (s.updBurner b f).mec = s.mec := rfl
@[simp] theorem State.updBurner_pwr (s : State) (b : Nat) (f : Burner → Burner) : (s.updBurner b f).pwr = s.pwr := rfl
@[simp] theorem State.updBurner_nor (s : State) (b : Nat) (f : Burner → Burner) : (s.updBurner b f).nor = s.nor := rfl
@[simp] theorem State.updBurner_boot (s : State) (b : Nat) (f : Burner → Burner) : (s.updBurner b f).boot = s.boot := rfl
@[simp] theorem State.updBurner_stw (s : State) (b : Nat) (f : Burner → Burner) : (s.updBurner b f).stw = s.stw := rfl

/-! ### updLadle -/

@[simp] theorem State.updLadle_ladles (s : State) (p : Nat) (f : Ladle → Ladle) : (s.updLadle p f).ladles =
    s.ladles.upd .fresh p f := rfl
@[simp] theorem State.updLadle_pending (s : State) (p : Nat) (f : Ladle → Ladle) : (s.updLadle p f).pending = s.pending := rfl
@[simp] theorem State.updLadle_now (s : State) (p : Nat) (f : Ladle → Ladle) : (s.updLadle p f).now = s.now := rfl
@[simp] theorem State.updLadle_free (s : State) (p : Nat) (f : Ladle → Ladle) : (s.updLadle p f).free = s.free := rfl
@[simp] theorem State.updLadle_out (s : State) (p : Nat) (f : Ladle → Ladle) : (s.updLadle p f).out = s.out := rfl
@[simp] theorem State.updLadle_fuses (s : State) (p : Nat) (f : Ladle → Ladle) : (s.updLadle p f).fuses = s.fuses := rfl
@[simp] theorem State.updLadle_regs (s : State) (p : Nat) (f : Ladle → Ladle) : (s.updLadle p f).regs = s.regs := rfl
@[simp] theorem State.updLadle_ports (s : State) (p : Nat) (f : Ladle → Ladle) : (s.updLadle p f).ports = s.ports := rfl
@[simp] theorem State.updLadle_loads (s : State) (p : Nat) (f : Ladle → Ladle) : (s.updLadle p f).loads = s.loads := rfl
@[simp] theorem State.updLadle_nextLoad (s : State) (p : Nat) (f : Ladle → Ladle) :
    (s.updLadle p f).nextLoad = s.nextLoad := rfl
@[simp] theorem State.updLadle_rails (s : State) (p : Nat) (f : Ladle → Ladle) : (s.updLadle p f).rails = s.rails := rfl
@[simp] theorem State.updLadle_stk (s : State) (p : Nat) (f : Ladle → Ladle) : (s.updLadle p f).stk = s.stk := rfl
@[simp] theorem State.updLadle_siv (s : State) (p : Nat) (f : Ladle → Ladle) : (s.updLadle p f).siv = s.siv := rfl
@[simp] theorem State.updLadle_med (s : State) (p : Nat) (f : Ladle → Ladle) : (s.updLadle p f).med = s.med := rfl
@[simp] theorem State.updLadle_dies (s : State) (p : Nat) (f : Ladle → Ladle) : (s.updLadle p f).dies = s.dies := rfl
@[simp] theorem State.updLadle_burners (s : State) (p : Nat) (f : Ladle → Ladle) : (s.updLadle p f).burners = s.burners := rfl
@[simp] theorem State.updLadle_upk (s : State) (p : Nat) (f : Ladle → Ladle) : (s.updLadle p f).upk = s.upk := rfl
@[simp] theorem State.updLadle_pass (s : State) (p : Nat) (f : Ladle → Ladle) : (s.updLadle p f).pass = s.pass := rfl
@[simp] theorem State.updLadle_spr (s : State) (p : Nat) (f : Ladle → Ladle) : (s.updLadle p f).spr = s.spr := rfl
@[simp] theorem State.updLadle_ctxs (s : State) (p : Nat) (f : Ladle → Ladle) : (s.updLadle p f).ctxs = s.ctxs := rfl
@[simp] theorem State.updLadle_chans (s : State) (p : Nat) (f : Ladle → Ladle) : (s.updLadle p f).chans = s.chans := rfl
@[simp] theorem State.updLadle_tly (s : State) (p : Nat) (f : Ladle → Ladle) : (s.updLadle p f).tly = s.tly := rfl
@[simp] theorem State.updLadle_spk (s : State) (p : Nat) (f : Ladle → Ladle) : (s.updLadle p f).spk = s.spk := rfl
@[simp] theorem State.updLadle_clk (s : State) (p : Nat) (f : Ladle → Ladle) : (s.updLadle p f).clk = s.clk := rfl
@[simp] theorem State.updLadle_thm (s : State) (p : Nat) (f : Ladle → Ladle) : (s.updLadle p f).thm = s.thm := rfl
@[simp] theorem State.updLadle_flt (s : State) (p : Nat) (f : Ladle → Ladle) : (s.updLadle p f).flt = s.flt := rfl
@[simp] theorem State.updLadle_reports (s : State) (p : Nat) (f : Ladle → Ladle) : (s.updLadle p f).reports = s.reports := rfl
@[simp] theorem State.updLadle_slots (s : State) (p : Nat) (f : Ladle → Ladle) : (s.updLadle p f).slots = s.slots := rfl
@[simp] theorem State.updLadle_prot (s : State) (p : Nat) (f : Ladle → Ladle) : (s.updLadle p f).prot = s.prot := rfl
@[simp] theorem State.updLadle_pwrState (s : State) (p : Nat) (f : Ladle → Ladle) :
    (s.updLadle p f).pwrState = s.pwrState := rfl
@[simp] theorem State.updLadle_recovery (s : State) (p : Nat) (f : Ladle → Ladle) :
    (s.updLadle p f).recovery = s.recovery := rfl
@[simp] theorem State.updLadle_hooks (s : State) (p : Nat) (f : Ladle → Ladle) : (s.updLadle p f).hooks = s.hooks := rfl
@[simp] theorem State.updLadle_cmt (s : State) (p : Nat) (f : Ladle → Ladle) : (s.updLadle p f).cmt = s.cmt := rfl
@[simp] theorem State.updLadle_mbx (s : State) (p : Nat) (f : Ladle → Ladle) : (s.updLadle p f).mbx = s.mbx := rfl
@[simp] theorem State.updLadle_mec (s : State) (p : Nat) (f : Ladle → Ladle) : (s.updLadle p f).mec = s.mec := rfl
@[simp] theorem State.updLadle_pwr (s : State) (p : Nat) (f : Ladle → Ladle) : (s.updLadle p f).pwr = s.pwr := rfl
@[simp] theorem State.updLadle_nor (s : State) (p : Nat) (f : Ladle → Ladle) : (s.updLadle p f).nor = s.nor := rfl
@[simp] theorem State.updLadle_boot (s : State) (p : Nat) (f : Ladle → Ladle) : (s.updLadle p f).boot = s.boot := rfl
@[simp] theorem State.updLadle_stw (s : State) (p : Nat) (f : Ladle → Ladle) : (s.updLadle p f).stw = s.stw := rfl

/-! ### updSlot -/

@[simp] theorem State.updSlot_slots (s : State) (n : Nat) (f : KeySlot → KeySlot) : (s.updSlot n f).slots =
    s.slots.upd .empty n f := rfl
@[simp] theorem State.updSlot_pending (s : State) (n : Nat) (f : KeySlot → KeySlot) :
    (s.updSlot n f).pending = s.pending := rfl
@[simp] theorem State.updSlot_now (s : State) (n : Nat) (f : KeySlot → KeySlot) : (s.updSlot n f).now = s.now := rfl
@[simp] theorem State.updSlot_free (s : State) (n : Nat) (f : KeySlot → KeySlot) : (s.updSlot n f).free = s.free := rfl
@[simp] theorem State.updSlot_out (s : State) (n : Nat) (f : KeySlot → KeySlot) : (s.updSlot n f).out = s.out := rfl
@[simp] theorem State.updSlot_fuses (s : State) (n : Nat) (f : KeySlot → KeySlot) : (s.updSlot n f).fuses = s.fuses := rfl
@[simp] theorem State.updSlot_regs (s : State) (n : Nat) (f : KeySlot → KeySlot) : (s.updSlot n f).regs = s.regs := rfl
@[simp] theorem State.updSlot_ports (s : State) (n : Nat) (f : KeySlot → KeySlot) : (s.updSlot n f).ports = s.ports := rfl
@[simp] theorem State.updSlot_loads (s : State) (n : Nat) (f : KeySlot → KeySlot) : (s.updSlot n f).loads = s.loads := rfl
@[simp] theorem State.updSlot_nextLoad (s : State) (n : Nat) (f : KeySlot → KeySlot) :
    (s.updSlot n f).nextLoad = s.nextLoad := rfl
@[simp] theorem State.updSlot_rails (s : State) (n : Nat) (f : KeySlot → KeySlot) : (s.updSlot n f).rails = s.rails := rfl
@[simp] theorem State.updSlot_stk (s : State) (n : Nat) (f : KeySlot → KeySlot) : (s.updSlot n f).stk = s.stk := rfl
@[simp] theorem State.updSlot_siv (s : State) (n : Nat) (f : KeySlot → KeySlot) : (s.updSlot n f).siv = s.siv := rfl
@[simp] theorem State.updSlot_med (s : State) (n : Nat) (f : KeySlot → KeySlot) : (s.updSlot n f).med = s.med := rfl
@[simp] theorem State.updSlot_dies (s : State) (n : Nat) (f : KeySlot → KeySlot) : (s.updSlot n f).dies = s.dies := rfl
@[simp] theorem State.updSlot_burners (s : State) (n : Nat) (f : KeySlot → KeySlot) :
    (s.updSlot n f).burners = s.burners := rfl
@[simp] theorem State.updSlot_upk (s : State) (n : Nat) (f : KeySlot → KeySlot) : (s.updSlot n f).upk = s.upk := rfl
@[simp] theorem State.updSlot_pass (s : State) (n : Nat) (f : KeySlot → KeySlot) : (s.updSlot n f).pass = s.pass := rfl
@[simp] theorem State.updSlot_ladles (s : State) (n : Nat) (f : KeySlot → KeySlot) : (s.updSlot n f).ladles = s.ladles := rfl
@[simp] theorem State.updSlot_spr (s : State) (n : Nat) (f : KeySlot → KeySlot) : (s.updSlot n f).spr = s.spr := rfl
@[simp] theorem State.updSlot_ctxs (s : State) (n : Nat) (f : KeySlot → KeySlot) : (s.updSlot n f).ctxs = s.ctxs := rfl
@[simp] theorem State.updSlot_chans (s : State) (n : Nat) (f : KeySlot → KeySlot) : (s.updSlot n f).chans = s.chans := rfl
@[simp] theorem State.updSlot_tly (s : State) (n : Nat) (f : KeySlot → KeySlot) : (s.updSlot n f).tly = s.tly := rfl
@[simp] theorem State.updSlot_spk (s : State) (n : Nat) (f : KeySlot → KeySlot) : (s.updSlot n f).spk = s.spk := rfl
@[simp] theorem State.updSlot_clk (s : State) (n : Nat) (f : KeySlot → KeySlot) : (s.updSlot n f).clk = s.clk := rfl
@[simp] theorem State.updSlot_thm (s : State) (n : Nat) (f : KeySlot → KeySlot) : (s.updSlot n f).thm = s.thm := rfl
@[simp] theorem State.updSlot_flt (s : State) (n : Nat) (f : KeySlot → KeySlot) : (s.updSlot n f).flt = s.flt := rfl
@[simp] theorem State.updSlot_reports (s : State) (n : Nat) (f : KeySlot → KeySlot) :
    (s.updSlot n f).reports = s.reports := rfl
@[simp] theorem State.updSlot_prot (s : State) (n : Nat) (f : KeySlot → KeySlot) : (s.updSlot n f).prot = s.prot := rfl
@[simp] theorem State.updSlot_pwrState (s : State) (n : Nat) (f : KeySlot → KeySlot) :
    (s.updSlot n f).pwrState = s.pwrState := rfl
@[simp] theorem State.updSlot_recovery (s : State) (n : Nat) (f : KeySlot → KeySlot) :
    (s.updSlot n f).recovery = s.recovery := rfl
@[simp] theorem State.updSlot_hooks (s : State) (n : Nat) (f : KeySlot → KeySlot) : (s.updSlot n f).hooks = s.hooks := rfl
@[simp] theorem State.updSlot_cmt (s : State) (n : Nat) (f : KeySlot → KeySlot) : (s.updSlot n f).cmt = s.cmt := rfl
@[simp] theorem State.updSlot_mbx (s : State) (n : Nat) (f : KeySlot → KeySlot) : (s.updSlot n f).mbx = s.mbx := rfl
@[simp] theorem State.updSlot_mec (s : State) (n : Nat) (f : KeySlot → KeySlot) : (s.updSlot n f).mec = s.mec := rfl
@[simp] theorem State.updSlot_pwr (s : State) (n : Nat) (f : KeySlot → KeySlot) : (s.updSlot n f).pwr = s.pwr := rfl
@[simp] theorem State.updSlot_nor (s : State) (n : Nat) (f : KeySlot → KeySlot) : (s.updSlot n f).nor = s.nor := rfl
@[simp] theorem State.updSlot_boot (s : State) (n : Nat) (f : KeySlot → KeySlot) : (s.updSlot n f).boot = s.boot := rfl
@[simp] theorem State.updSlot_stw (s : State) (n : Nat) (f : KeySlot → KeySlot) : (s.updSlot n f).stw = s.stw := rfl

/-! ### updCtx -/

@[simp] theorem State.updCtx_ctxs (s : State) (n : Nat) (f : Ctx → Ctx) : (s.updCtx n f).ctxs = s.ctxs.upd .fresh n f := rfl
@[simp] theorem State.updCtx_pending (s : State) (n : Nat) (f : Ctx → Ctx) : (s.updCtx n f).pending = s.pending := rfl
@[simp] theorem State.updCtx_now (s : State) (n : Nat) (f : Ctx → Ctx) : (s.updCtx n f).now = s.now := rfl
@[simp] theorem State.updCtx_free (s : State) (n : Nat) (f : Ctx → Ctx) : (s.updCtx n f).free = s.free := rfl
@[simp] theorem State.updCtx_out (s : State) (n : Nat) (f : Ctx → Ctx) : (s.updCtx n f).out = s.out := rfl
@[simp] theorem State.updCtx_fuses (s : State) (n : Nat) (f : Ctx → Ctx) : (s.updCtx n f).fuses = s.fuses := rfl
@[simp] theorem State.updCtx_regs (s : State) (n : Nat) (f : Ctx → Ctx) : (s.updCtx n f).regs = s.regs := rfl
@[simp] theorem State.updCtx_ports (s : State) (n : Nat) (f : Ctx → Ctx) : (s.updCtx n f).ports = s.ports := rfl
@[simp] theorem State.updCtx_loads (s : State) (n : Nat) (f : Ctx → Ctx) : (s.updCtx n f).loads = s.loads := rfl
@[simp] theorem State.updCtx_nextLoad (s : State) (n : Nat) (f : Ctx → Ctx) : (s.updCtx n f).nextLoad = s.nextLoad := rfl
@[simp] theorem State.updCtx_rails (s : State) (n : Nat) (f : Ctx → Ctx) : (s.updCtx n f).rails = s.rails := rfl
@[simp] theorem State.updCtx_stk (s : State) (n : Nat) (f : Ctx → Ctx) : (s.updCtx n f).stk = s.stk := rfl
@[simp] theorem State.updCtx_siv (s : State) (n : Nat) (f : Ctx → Ctx) : (s.updCtx n f).siv = s.siv := rfl
@[simp] theorem State.updCtx_med (s : State) (n : Nat) (f : Ctx → Ctx) : (s.updCtx n f).med = s.med := rfl
@[simp] theorem State.updCtx_dies (s : State) (n : Nat) (f : Ctx → Ctx) : (s.updCtx n f).dies = s.dies := rfl
@[simp] theorem State.updCtx_burners (s : State) (n : Nat) (f : Ctx → Ctx) : (s.updCtx n f).burners = s.burners := rfl
@[simp] theorem State.updCtx_upk (s : State) (n : Nat) (f : Ctx → Ctx) : (s.updCtx n f).upk = s.upk := rfl
@[simp] theorem State.updCtx_pass (s : State) (n : Nat) (f : Ctx → Ctx) : (s.updCtx n f).pass = s.pass := rfl
@[simp] theorem State.updCtx_ladles (s : State) (n : Nat) (f : Ctx → Ctx) : (s.updCtx n f).ladles = s.ladles := rfl
@[simp] theorem State.updCtx_spr (s : State) (n : Nat) (f : Ctx → Ctx) : (s.updCtx n f).spr = s.spr := rfl
@[simp] theorem State.updCtx_chans (s : State) (n : Nat) (f : Ctx → Ctx) : (s.updCtx n f).chans = s.chans := rfl
@[simp] theorem State.updCtx_tly (s : State) (n : Nat) (f : Ctx → Ctx) : (s.updCtx n f).tly = s.tly := rfl
@[simp] theorem State.updCtx_spk (s : State) (n : Nat) (f : Ctx → Ctx) : (s.updCtx n f).spk = s.spk := rfl
@[simp] theorem State.updCtx_clk (s : State) (n : Nat) (f : Ctx → Ctx) : (s.updCtx n f).clk = s.clk := rfl
@[simp] theorem State.updCtx_thm (s : State) (n : Nat) (f : Ctx → Ctx) : (s.updCtx n f).thm = s.thm := rfl
@[simp] theorem State.updCtx_flt (s : State) (n : Nat) (f : Ctx → Ctx) : (s.updCtx n f).flt = s.flt := rfl
@[simp] theorem State.updCtx_reports (s : State) (n : Nat) (f : Ctx → Ctx) : (s.updCtx n f).reports = s.reports := rfl
@[simp] theorem State.updCtx_slots (s : State) (n : Nat) (f : Ctx → Ctx) : (s.updCtx n f).slots = s.slots := rfl
@[simp] theorem State.updCtx_prot (s : State) (n : Nat) (f : Ctx → Ctx) : (s.updCtx n f).prot = s.prot := rfl
@[simp] theorem State.updCtx_pwrState (s : State) (n : Nat) (f : Ctx → Ctx) : (s.updCtx n f).pwrState = s.pwrState := rfl
@[simp] theorem State.updCtx_recovery (s : State) (n : Nat) (f : Ctx → Ctx) : (s.updCtx n f).recovery = s.recovery := rfl
@[simp] theorem State.updCtx_hooks (s : State) (n : Nat) (f : Ctx → Ctx) : (s.updCtx n f).hooks = s.hooks := rfl
@[simp] theorem State.updCtx_cmt (s : State) (n : Nat) (f : Ctx → Ctx) : (s.updCtx n f).cmt = s.cmt := rfl
@[simp] theorem State.updCtx_mbx (s : State) (n : Nat) (f : Ctx → Ctx) : (s.updCtx n f).mbx = s.mbx := rfl
@[simp] theorem State.updCtx_mec (s : State) (n : Nat) (f : Ctx → Ctx) : (s.updCtx n f).mec = s.mec := rfl
@[simp] theorem State.updCtx_pwr (s : State) (n : Nat) (f : Ctx → Ctx) : (s.updCtx n f).pwr = s.pwr := rfl
@[simp] theorem State.updCtx_nor (s : State) (n : Nat) (f : Ctx → Ctx) : (s.updCtx n f).nor = s.nor := rfl
@[simp] theorem State.updCtx_boot (s : State) (n : Nat) (f : Ctx → Ctx) : (s.updCtx n f).boot = s.boot := rfl
@[simp] theorem State.updCtx_stw (s : State) (n : Nat) (f : Ctx → Ctx) : (s.updCtx n f).stw = s.stw := rfl

/-! ### updChan -/

@[simp] theorem State.updChan_chans (s : State) (c : Nat) (f : Chan → Chan) : (s.updChan c f).chans =
    s.chans.upd .fresh c f := rfl
@[simp] theorem State.updChan_pending (s : State) (c : Nat) (f : Chan → Chan) : (s.updChan c f).pending = s.pending := rfl
@[simp] theorem State.updChan_now (s : State) (c : Nat) (f : Chan → Chan) : (s.updChan c f).now = s.now := rfl
@[simp] theorem State.updChan_free (s : State) (c : Nat) (f : Chan → Chan) : (s.updChan c f).free = s.free := rfl
@[simp] theorem State.updChan_out (s : State) (c : Nat) (f : Chan → Chan) : (s.updChan c f).out = s.out := rfl
@[simp] theorem State.updChan_fuses (s : State) (c : Nat) (f : Chan → Chan) : (s.updChan c f).fuses = s.fuses := rfl
@[simp] theorem State.updChan_regs (s : State) (c : Nat) (f : Chan → Chan) : (s.updChan c f).regs = s.regs := rfl
@[simp] theorem State.updChan_ports (s : State) (c : Nat) (f : Chan → Chan) : (s.updChan c f).ports = s.ports := rfl
@[simp] theorem State.updChan_loads (s : State) (c : Nat) (f : Chan → Chan) : (s.updChan c f).loads = s.loads := rfl
@[simp] theorem State.updChan_nextLoad (s : State) (c : Nat) (f : Chan → Chan) : (s.updChan c f).nextLoad = s.nextLoad := rfl
@[simp] theorem State.updChan_rails (s : State) (c : Nat) (f : Chan → Chan) : (s.updChan c f).rails = s.rails := rfl
@[simp] theorem State.updChan_stk (s : State) (c : Nat) (f : Chan → Chan) : (s.updChan c f).stk = s.stk := rfl
@[simp] theorem State.updChan_siv (s : State) (c : Nat) (f : Chan → Chan) : (s.updChan c f).siv = s.siv := rfl
@[simp] theorem State.updChan_med (s : State) (c : Nat) (f : Chan → Chan) : (s.updChan c f).med = s.med := rfl
@[simp] theorem State.updChan_dies (s : State) (c : Nat) (f : Chan → Chan) : (s.updChan c f).dies = s.dies := rfl
@[simp] theorem State.updChan_burners (s : State) (c : Nat) (f : Chan → Chan) : (s.updChan c f).burners = s.burners := rfl
@[simp] theorem State.updChan_upk (s : State) (c : Nat) (f : Chan → Chan) : (s.updChan c f).upk = s.upk := rfl
@[simp] theorem State.updChan_pass (s : State) (c : Nat) (f : Chan → Chan) : (s.updChan c f).pass = s.pass := rfl
@[simp] theorem State.updChan_ladles (s : State) (c : Nat) (f : Chan → Chan) : (s.updChan c f).ladles = s.ladles := rfl
@[simp] theorem State.updChan_spr (s : State) (c : Nat) (f : Chan → Chan) : (s.updChan c f).spr = s.spr := rfl
@[simp] theorem State.updChan_ctxs (s : State) (c : Nat) (f : Chan → Chan) : (s.updChan c f).ctxs = s.ctxs := rfl
@[simp] theorem State.updChan_tly (s : State) (c : Nat) (f : Chan → Chan) : (s.updChan c f).tly = s.tly := rfl
@[simp] theorem State.updChan_spk (s : State) (c : Nat) (f : Chan → Chan) : (s.updChan c f).spk = s.spk := rfl
@[simp] theorem State.updChan_clk (s : State) (c : Nat) (f : Chan → Chan) : (s.updChan c f).clk = s.clk := rfl
@[simp] theorem State.updChan_thm (s : State) (c : Nat) (f : Chan → Chan) : (s.updChan c f).thm = s.thm := rfl
@[simp] theorem State.updChan_flt (s : State) (c : Nat) (f : Chan → Chan) : (s.updChan c f).flt = s.flt := rfl
@[simp] theorem State.updChan_reports (s : State) (c : Nat) (f : Chan → Chan) : (s.updChan c f).reports = s.reports := rfl
@[simp] theorem State.updChan_slots (s : State) (c : Nat) (f : Chan → Chan) : (s.updChan c f).slots = s.slots := rfl
@[simp] theorem State.updChan_prot (s : State) (c : Nat) (f : Chan → Chan) : (s.updChan c f).prot = s.prot := rfl
@[simp] theorem State.updChan_pwrState (s : State) (c : Nat) (f : Chan → Chan) : (s.updChan c f).pwrState = s.pwrState := rfl
@[simp] theorem State.updChan_recovery (s : State) (c : Nat) (f : Chan → Chan) : (s.updChan c f).recovery = s.recovery := rfl
@[simp] theorem State.updChan_hooks (s : State) (c : Nat) (f : Chan → Chan) : (s.updChan c f).hooks = s.hooks := rfl
@[simp] theorem State.updChan_cmt (s : State) (c : Nat) (f : Chan → Chan) : (s.updChan c f).cmt = s.cmt := rfl
@[simp] theorem State.updChan_mbx (s : State) (c : Nat) (f : Chan → Chan) : (s.updChan c f).mbx = s.mbx := rfl
@[simp] theorem State.updChan_mec (s : State) (c : Nat) (f : Chan → Chan) : (s.updChan c f).mec = s.mec := rfl
@[simp] theorem State.updChan_pwr (s : State) (c : Nat) (f : Chan → Chan) : (s.updChan c f).pwr = s.pwr := rfl
@[simp] theorem State.updChan_nor (s : State) (c : Nat) (f : Chan → Chan) : (s.updChan c f).nor = s.nor := rfl
@[simp] theorem State.updChan_boot (s : State) (c : Nat) (f : Chan → Chan) : (s.updChan c f).boot = s.boot := rfl
@[simp] theorem State.updChan_stw (s : State) (c : Nat) (f : Chan → Chan) : (s.updChan c f).stw = s.stw := rfl

/-! ### record -/

@[simp] theorem State.record_rails (s : State) (code p0 p1 p2 p3 : Nat) : (s.record code p0 p1 p2 p3).rails =
    let e : Ev := ⟨code, BitVec.ofNat 64 p0, BitVec.ofNat 64 p1, BitVec.ofNat 64 p2, BitVec.ofNat 64 p3⟩
    { s.rails with event := s.rails.event.push 1024 e 0 } := rfl
@[simp] theorem State.record_pending (s : State) (code p0 p1 p2 p3 : Nat) :
    (s.record code p0 p1 p2 p3).pending = s.pending := rfl
@[simp] theorem State.record_now (s : State) (code p0 p1 p2 p3 : Nat) : (s.record code p0 p1 p2 p3).now = s.now := rfl
@[simp] theorem State.record_free (s : State) (code p0 p1 p2 p3 : Nat) : (s.record code p0 p1 p2 p3).free = s.free := rfl
@[simp] theorem State.record_out (s : State) (code p0 p1 p2 p3 : Nat) : (s.record code p0 p1 p2 p3).out = s.out := rfl
@[simp] theorem State.record_fuses (s : State) (code p0 p1 p2 p3 : Nat) : (s.record code p0 p1 p2 p3).fuses = s.fuses := rfl
@[simp] theorem State.record_regs (s : State) (code p0 p1 p2 p3 : Nat) : (s.record code p0 p1 p2 p3).regs = s.regs := rfl
@[simp] theorem State.record_ports (s : State) (code p0 p1 p2 p3 : Nat) : (s.record code p0 p1 p2 p3).ports = s.ports := rfl
@[simp] theorem State.record_loads (s : State) (code p0 p1 p2 p3 : Nat) : (s.record code p0 p1 p2 p3).loads = s.loads := rfl
@[simp] theorem State.record_nextLoad (s : State) (code p0 p1 p2 p3 : Nat) :
    (s.record code p0 p1 p2 p3).nextLoad = s.nextLoad := rfl
@[simp] theorem State.record_stk (s : State) (code p0 p1 p2 p3 : Nat) : (s.record code p0 p1 p2 p3).stk = s.stk := rfl
@[simp] theorem State.record_siv (s : State) (code p0 p1 p2 p3 : Nat) : (s.record code p0 p1 p2 p3).siv = s.siv := rfl
@[simp] theorem State.record_med (s : State) (code p0 p1 p2 p3 : Nat) : (s.record code p0 p1 p2 p3).med = s.med := rfl
@[simp] theorem State.record_dies (s : State) (code p0 p1 p2 p3 : Nat) : (s.record code p0 p1 p2 p3).dies = s.dies := rfl
@[simp] theorem State.record_burners (s : State) (code p0 p1 p2 p3 : Nat) :
    (s.record code p0 p1 p2 p3).burners = s.burners := rfl
@[simp] theorem State.record_upk (s : State) (code p0 p1 p2 p3 : Nat) : (s.record code p0 p1 p2 p3).upk = s.upk := rfl
@[simp] theorem State.record_pass (s : State) (code p0 p1 p2 p3 : Nat) : (s.record code p0 p1 p2 p3).pass = s.pass := rfl
@[simp] theorem State.record_ladles (s : State) (code p0 p1 p2 p3 : Nat) :
    (s.record code p0 p1 p2 p3).ladles = s.ladles := rfl
@[simp] theorem State.record_spr (s : State) (code p0 p1 p2 p3 : Nat) : (s.record code p0 p1 p2 p3).spr = s.spr := rfl
@[simp] theorem State.record_ctxs (s : State) (code p0 p1 p2 p3 : Nat) : (s.record code p0 p1 p2 p3).ctxs = s.ctxs := rfl
@[simp] theorem State.record_chans (s : State) (code p0 p1 p2 p3 : Nat) : (s.record code p0 p1 p2 p3).chans = s.chans := rfl
@[simp] theorem State.record_tly (s : State) (code p0 p1 p2 p3 : Nat) : (s.record code p0 p1 p2 p3).tly = s.tly := rfl
@[simp] theorem State.record_spk (s : State) (code p0 p1 p2 p3 : Nat) : (s.record code p0 p1 p2 p3).spk = s.spk := rfl
@[simp] theorem State.record_clk (s : State) (code p0 p1 p2 p3 : Nat) : (s.record code p0 p1 p2 p3).clk = s.clk := rfl
@[simp] theorem State.record_thm (s : State) (code p0 p1 p2 p3 : Nat) : (s.record code p0 p1 p2 p3).thm = s.thm := rfl
@[simp] theorem State.record_flt (s : State) (code p0 p1 p2 p3 : Nat) : (s.record code p0 p1 p2 p3).flt = s.flt := rfl
@[simp] theorem State.record_reports (s : State) (code p0 p1 p2 p3 : Nat) :
    (s.record code p0 p1 p2 p3).reports = s.reports := rfl
@[simp] theorem State.record_slots (s : State) (code p0 p1 p2 p3 : Nat) : (s.record code p0 p1 p2 p3).slots = s.slots := rfl
@[simp] theorem State.record_prot (s : State) (code p0 p1 p2 p3 : Nat) : (s.record code p0 p1 p2 p3).prot = s.prot := rfl
@[simp] theorem State.record_pwrState (s : State) (code p0 p1 p2 p3 : Nat) :
    (s.record code p0 p1 p2 p3).pwrState = s.pwrState := rfl
@[simp] theorem State.record_recovery (s : State) (code p0 p1 p2 p3 : Nat) :
    (s.record code p0 p1 p2 p3).recovery = s.recovery := rfl
@[simp] theorem State.record_hooks (s : State) (code p0 p1 p2 p3 : Nat) : (s.record code p0 p1 p2 p3).hooks = s.hooks := rfl
@[simp] theorem State.record_cmt (s : State) (code p0 p1 p2 p3 : Nat) : (s.record code p0 p1 p2 p3).cmt = s.cmt := rfl
@[simp] theorem State.record_mbx (s : State) (code p0 p1 p2 p3 : Nat) : (s.record code p0 p1 p2 p3).mbx = s.mbx := rfl
@[simp] theorem State.record_mec (s : State) (code p0 p1 p2 p3 : Nat) : (s.record code p0 p1 p2 p3).mec = s.mec := rfl
@[simp] theorem State.record_pwr (s : State) (code p0 p1 p2 p3 : Nat) : (s.record code p0 p1 p2 p3).pwr = s.pwr := rfl
@[simp] theorem State.record_nor (s : State) (code p0 p1 p2 p3 : Nat) : (s.record code p0 p1 p2 p3).nor = s.nor := rfl
@[simp] theorem State.record_boot (s : State) (code p0 p1 p2 p3 : Nat) : (s.record code p0 p1 p2 p3).boot = s.boot := rfl
@[simp] theorem State.record_stw (s : State) (code p0 p1 p2 p3 : Nat) : (s.record code p0 p1 p2 p3).stw = s.stw := rfl

/-! ### report -/

@[simp] theorem State.report_reports (s : State) (source utype uid : Nat) : (s.report source utype uid).reports =
    s.reports ++ [⟨source, utype, uid⟩] := rfl
@[simp] theorem State.report_pending (s : State) (source utype uid : Nat) :
    (s.report source utype uid).pending = s.pending := rfl
@[simp] theorem State.report_now (s : State) (source utype uid : Nat) : (s.report source utype uid).now = s.now := rfl
@[simp] theorem State.report_free (s : State) (source utype uid : Nat) : (s.report source utype uid).free = s.free := rfl
@[simp] theorem State.report_out (s : State) (source utype uid : Nat) : (s.report source utype uid).out = s.out := rfl
@[simp] theorem State.report_fuses (s : State) (source utype uid : Nat) : (s.report source utype uid).fuses = s.fuses := rfl
@[simp] theorem State.report_regs (s : State) (source utype uid : Nat) : (s.report source utype uid).regs = s.regs := rfl
@[simp] theorem State.report_ports (s : State) (source utype uid : Nat) : (s.report source utype uid).ports = s.ports := rfl
@[simp] theorem State.report_loads (s : State) (source utype uid : Nat) : (s.report source utype uid).loads = s.loads := rfl
@[simp] theorem State.report_nextLoad (s : State) (source utype uid : Nat) :
    (s.report source utype uid).nextLoad = s.nextLoad := rfl
@[simp] theorem State.report_rails (s : State) (source utype uid : Nat) : (s.report source utype uid).rails = s.rails := rfl
@[simp] theorem State.report_stk (s : State) (source utype uid : Nat) : (s.report source utype uid).stk = s.stk := rfl
@[simp] theorem State.report_siv (s : State) (source utype uid : Nat) : (s.report source utype uid).siv = s.siv := rfl
@[simp] theorem State.report_med (s : State) (source utype uid : Nat) : (s.report source utype uid).med = s.med := rfl
@[simp] theorem State.report_dies (s : State) (source utype uid : Nat) : (s.report source utype uid).dies = s.dies := rfl
@[simp] theorem State.report_burners (s : State) (source utype uid : Nat) :
    (s.report source utype uid).burners = s.burners := rfl
@[simp] theorem State.report_upk (s : State) (source utype uid : Nat) : (s.report source utype uid).upk = s.upk := rfl
@[simp] theorem State.report_pass (s : State) (source utype uid : Nat) : (s.report source utype uid).pass = s.pass := rfl
@[simp] theorem State.report_ladles (s : State) (source utype uid : Nat) :
    (s.report source utype uid).ladles = s.ladles := rfl
@[simp] theorem State.report_spr (s : State) (source utype uid : Nat) : (s.report source utype uid).spr = s.spr := rfl
@[simp] theorem State.report_ctxs (s : State) (source utype uid : Nat) : (s.report source utype uid).ctxs = s.ctxs := rfl
@[simp] theorem State.report_chans (s : State) (source utype uid : Nat) : (s.report source utype uid).chans = s.chans := rfl
@[simp] theorem State.report_tly (s : State) (source utype uid : Nat) : (s.report source utype uid).tly = s.tly := rfl
@[simp] theorem State.report_spk (s : State) (source utype uid : Nat) : (s.report source utype uid).spk = s.spk := rfl
@[simp] theorem State.report_clk (s : State) (source utype uid : Nat) : (s.report source utype uid).clk = s.clk := rfl
@[simp] theorem State.report_thm (s : State) (source utype uid : Nat) : (s.report source utype uid).thm = s.thm := rfl
@[simp] theorem State.report_flt (s : State) (source utype uid : Nat) : (s.report source utype uid).flt = s.flt := rfl
@[simp] theorem State.report_slots (s : State) (source utype uid : Nat) : (s.report source utype uid).slots = s.slots := rfl
@[simp] theorem State.report_prot (s : State) (source utype uid : Nat) : (s.report source utype uid).prot = s.prot := rfl
@[simp] theorem State.report_pwrState (s : State) (source utype uid : Nat) :
    (s.report source utype uid).pwrState = s.pwrState := rfl
@[simp] theorem State.report_recovery (s : State) (source utype uid : Nat) :
    (s.report source utype uid).recovery = s.recovery := rfl
@[simp] theorem State.report_hooks (s : State) (source utype uid : Nat) : (s.report source utype uid).hooks = s.hooks := rfl
@[simp] theorem State.report_cmt (s : State) (source utype uid : Nat) : (s.report source utype uid).cmt = s.cmt := rfl
@[simp] theorem State.report_mbx (s : State) (source utype uid : Nat) : (s.report source utype uid).mbx = s.mbx := rfl
@[simp] theorem State.report_mec (s : State) (source utype uid : Nat) : (s.report source utype uid).mec = s.mec := rfl
@[simp] theorem State.report_pwr (s : State) (source utype uid : Nat) : (s.report source utype uid).pwr = s.pwr := rfl
@[simp] theorem State.report_nor (s : State) (source utype uid : Nat) : (s.report source utype uid).nor = s.nor := rfl
@[simp] theorem State.report_boot (s : State) (source utype uid : Nat) : (s.report source utype uid).boot = s.boot := rfl
@[simp] theorem State.report_stw (s : State) (source utype uid : Nat) : (s.report source utype uid).stw = s.stw := rfl

/-! ### translate -/

@[simp] theorem State.translate_rails (s : State) (i : Nat) (q : TReq) (prio : Nat) : (s.translate i q prio).rails =
    let rs := s.rails.translate.upd .empty i (fun r => r.push 512 q prio)
    { s.rails with translate := rs } := rfl
@[simp] theorem State.translate_pending (s : State) (i : Nat) (q : TReq) (prio : Nat) :
    (s.translate i q prio).pending = s.pending := rfl
@[simp] theorem State.translate_now (s : State) (i : Nat) (q : TReq) (prio : Nat) : (s.translate i q prio).now = s.now := rfl
@[simp] theorem State.translate_free (s : State) (i : Nat) (q : TReq) (prio : Nat) :
    (s.translate i q prio).free = s.free := rfl
@[simp] theorem State.translate_out (s : State) (i : Nat) (q : TReq) (prio : Nat) : (s.translate i q prio).out = s.out := rfl
@[simp] theorem State.translate_fuses (s : State) (i : Nat) (q : TReq) (prio : Nat) :
    (s.translate i q prio).fuses = s.fuses := rfl
@[simp] theorem State.translate_regs (s : State) (i : Nat) (q : TReq) (prio : Nat) :
    (s.translate i q prio).regs = s.regs := rfl
@[simp] theorem State.translate_ports (s : State) (i : Nat) (q : TReq) (prio : Nat) :
    (s.translate i q prio).ports = s.ports := rfl
@[simp] theorem State.translate_loads (s : State) (i : Nat) (q : TReq) (prio : Nat) :
    (s.translate i q prio).loads = s.loads := rfl
@[simp] theorem State.translate_nextLoad (s : State) (i : Nat) (q : TReq) (prio : Nat) :
    (s.translate i q prio).nextLoad = s.nextLoad := rfl
@[simp] theorem State.translate_stk (s : State) (i : Nat) (q : TReq) (prio : Nat) : (s.translate i q prio).stk = s.stk := rfl
@[simp] theorem State.translate_siv (s : State) (i : Nat) (q : TReq) (prio : Nat) : (s.translate i q prio).siv = s.siv := rfl
@[simp] theorem State.translate_med (s : State) (i : Nat) (q : TReq) (prio : Nat) : (s.translate i q prio).med = s.med := rfl
@[simp] theorem State.translate_dies (s : State) (i : Nat) (q : TReq) (prio : Nat) :
    (s.translate i q prio).dies = s.dies := rfl
@[simp] theorem State.translate_burners (s : State) (i : Nat) (q : TReq) (prio : Nat) :
    (s.translate i q prio).burners = s.burners := rfl
@[simp] theorem State.translate_upk (s : State) (i : Nat) (q : TReq) (prio : Nat) : (s.translate i q prio).upk = s.upk := rfl
@[simp] theorem State.translate_pass (s : State) (i : Nat) (q : TReq) (prio : Nat) :
    (s.translate i q prio).pass = s.pass := rfl
@[simp] theorem State.translate_ladles (s : State) (i : Nat) (q : TReq) (prio : Nat) :
    (s.translate i q prio).ladles = s.ladles := rfl
@[simp] theorem State.translate_spr (s : State) (i : Nat) (q : TReq) (prio : Nat) : (s.translate i q prio).spr = s.spr := rfl
@[simp] theorem State.translate_ctxs (s : State) (i : Nat) (q : TReq) (prio : Nat) :
    (s.translate i q prio).ctxs = s.ctxs := rfl
@[simp] theorem State.translate_chans (s : State) (i : Nat) (q : TReq) (prio : Nat) :
    (s.translate i q prio).chans = s.chans := rfl
@[simp] theorem State.translate_tly (s : State) (i : Nat) (q : TReq) (prio : Nat) : (s.translate i q prio).tly = s.tly := rfl
@[simp] theorem State.translate_spk (s : State) (i : Nat) (q : TReq) (prio : Nat) : (s.translate i q prio).spk = s.spk := rfl
@[simp] theorem State.translate_clk (s : State) (i : Nat) (q : TReq) (prio : Nat) : (s.translate i q prio).clk = s.clk := rfl
@[simp] theorem State.translate_thm (s : State) (i : Nat) (q : TReq) (prio : Nat) : (s.translate i q prio).thm = s.thm := rfl
@[simp] theorem State.translate_flt (s : State) (i : Nat) (q : TReq) (prio : Nat) : (s.translate i q prio).flt = s.flt := rfl
@[simp] theorem State.translate_reports (s : State) (i : Nat) (q : TReq) (prio : Nat) :
    (s.translate i q prio).reports = s.reports := rfl
@[simp] theorem State.translate_slots (s : State) (i : Nat) (q : TReq) (prio : Nat) :
    (s.translate i q prio).slots = s.slots := rfl
@[simp] theorem State.translate_prot (s : State) (i : Nat) (q : TReq) (prio : Nat) :
    (s.translate i q prio).prot = s.prot := rfl
@[simp] theorem State.translate_pwrState (s : State) (i : Nat) (q : TReq) (prio : Nat) :
    (s.translate i q prio).pwrState = s.pwrState := rfl
@[simp] theorem State.translate_recovery (s : State) (i : Nat) (q : TReq) (prio : Nat) :
    (s.translate i q prio).recovery = s.recovery := rfl
@[simp] theorem State.translate_hooks (s : State) (i : Nat) (q : TReq) (prio : Nat) :
    (s.translate i q prio).hooks = s.hooks := rfl
@[simp] theorem State.translate_cmt (s : State) (i : Nat) (q : TReq) (prio : Nat) : (s.translate i q prio).cmt = s.cmt := rfl
@[simp] theorem State.translate_mbx (s : State) (i : Nat) (q : TReq) (prio : Nat) : (s.translate i q prio).mbx = s.mbx := rfl
@[simp] theorem State.translate_mec (s : State) (i : Nat) (q : TReq) (prio : Nat) : (s.translate i q prio).mec = s.mec := rfl
@[simp] theorem State.translate_pwr (s : State) (i : Nat) (q : TReq) (prio : Nat) : (s.translate i q prio).pwr = s.pwr := rfl
@[simp] theorem State.translate_nor (s : State) (i : Nat) (q : TReq) (prio : Nat) : (s.translate i q prio).nor = s.nor := rfl
@[simp] theorem State.translate_boot (s : State) (i : Nat) (q : TReq) (prio : Nat) :
    (s.translate i q prio).boot = s.boot := rfl
@[simp] theorem State.translate_stw (s : State) (i : Nat) (q : TReq) (prio : Nat) : (s.translate i q prio).stw = s.stw := rfl

/-! ### setIrqStat -/

@[simp] theorem State.setIrqStat_regs (s : State) (p : RPage) (v : W32) : (s.setIrqStat p v).regs =
    { s.regs with live := s.regs.live.set 0 (p.base + 0x14) v } := rfl
@[simp] theorem State.setIrqStat_pending (s : State) (p : RPage) (v : W32) : (s.setIrqStat p v).pending = s.pending := rfl
@[simp] theorem State.setIrqStat_now (s : State) (p : RPage) (v : W32) : (s.setIrqStat p v).now = s.now := rfl
@[simp] theorem State.setIrqStat_free (s : State) (p : RPage) (v : W32) : (s.setIrqStat p v).free = s.free := rfl
@[simp] theorem State.setIrqStat_out (s : State) (p : RPage) (v : W32) : (s.setIrqStat p v).out = s.out := rfl
@[simp] theorem State.setIrqStat_fuses (s : State) (p : RPage) (v : W32) : (s.setIrqStat p v).fuses = s.fuses := rfl
@[simp] theorem State.setIrqStat_ports (s : State) (p : RPage) (v : W32) : (s.setIrqStat p v).ports = s.ports := rfl
@[simp] theorem State.setIrqStat_loads (s : State) (p : RPage) (v : W32) : (s.setIrqStat p v).loads = s.loads := rfl
@[simp] theorem State.setIrqStat_nextLoad (s : State) (p : RPage) (v : W32) : (s.setIrqStat p v).nextLoad = s.nextLoad := rfl
@[simp] theorem State.setIrqStat_rails (s : State) (p : RPage) (v : W32) : (s.setIrqStat p v).rails = s.rails := rfl
@[simp] theorem State.setIrqStat_stk (s : State) (p : RPage) (v : W32) : (s.setIrqStat p v).stk = s.stk := rfl
@[simp] theorem State.setIrqStat_siv (s : State) (p : RPage) (v : W32) : (s.setIrqStat p v).siv = s.siv := rfl
@[simp] theorem State.setIrqStat_med (s : State) (p : RPage) (v : W32) : (s.setIrqStat p v).med = s.med := rfl
@[simp] theorem State.setIrqStat_dies (s : State) (p : RPage) (v : W32) : (s.setIrqStat p v).dies = s.dies := rfl
@[simp] theorem State.setIrqStat_burners (s : State) (p : RPage) (v : W32) : (s.setIrqStat p v).burners = s.burners := rfl
@[simp] theorem State.setIrqStat_upk (s : State) (p : RPage) (v : W32) : (s.setIrqStat p v).upk = s.upk := rfl
@[simp] theorem State.setIrqStat_pass (s : State) (p : RPage) (v : W32) : (s.setIrqStat p v).pass = s.pass := rfl
@[simp] theorem State.setIrqStat_ladles (s : State) (p : RPage) (v : W32) : (s.setIrqStat p v).ladles = s.ladles := rfl
@[simp] theorem State.setIrqStat_spr (s : State) (p : RPage) (v : W32) : (s.setIrqStat p v).spr = s.spr := rfl
@[simp] theorem State.setIrqStat_ctxs (s : State) (p : RPage) (v : W32) : (s.setIrqStat p v).ctxs = s.ctxs := rfl
@[simp] theorem State.setIrqStat_chans (s : State) (p : RPage) (v : W32) : (s.setIrqStat p v).chans = s.chans := rfl
@[simp] theorem State.setIrqStat_tly (s : State) (p : RPage) (v : W32) : (s.setIrqStat p v).tly = s.tly := rfl
@[simp] theorem State.setIrqStat_spk (s : State) (p : RPage) (v : W32) : (s.setIrqStat p v).spk = s.spk := rfl
@[simp] theorem State.setIrqStat_clk (s : State) (p : RPage) (v : W32) : (s.setIrqStat p v).clk = s.clk := rfl
@[simp] theorem State.setIrqStat_thm (s : State) (p : RPage) (v : W32) : (s.setIrqStat p v).thm = s.thm := rfl
@[simp] theorem State.setIrqStat_flt (s : State) (p : RPage) (v : W32) : (s.setIrqStat p v).flt = s.flt := rfl
@[simp] theorem State.setIrqStat_reports (s : State) (p : RPage) (v : W32) : (s.setIrqStat p v).reports = s.reports := rfl
@[simp] theorem State.setIrqStat_slots (s : State) (p : RPage) (v : W32) : (s.setIrqStat p v).slots = s.slots := rfl
@[simp] theorem State.setIrqStat_prot (s : State) (p : RPage) (v : W32) : (s.setIrqStat p v).prot = s.prot := rfl
@[simp] theorem State.setIrqStat_pwrState (s : State) (p : RPage) (v : W32) : (s.setIrqStat p v).pwrState = s.pwrState := rfl
@[simp] theorem State.setIrqStat_recovery (s : State) (p : RPage) (v : W32) : (s.setIrqStat p v).recovery = s.recovery := rfl
@[simp] theorem State.setIrqStat_hooks (s : State) (p : RPage) (v : W32) : (s.setIrqStat p v).hooks = s.hooks := rfl
@[simp] theorem State.setIrqStat_cmt (s : State) (p : RPage) (v : W32) : (s.setIrqStat p v).cmt = s.cmt := rfl
@[simp] theorem State.setIrqStat_mbx (s : State) (p : RPage) (v : W32) : (s.setIrqStat p v).mbx = s.mbx := rfl
@[simp] theorem State.setIrqStat_mec (s : State) (p : RPage) (v : W32) : (s.setIrqStat p v).mec = s.mec := rfl
@[simp] theorem State.setIrqStat_pwr (s : State) (p : RPage) (v : W32) : (s.setIrqStat p v).pwr = s.pwr := rfl
@[simp] theorem State.setIrqStat_nor (s : State) (p : RPage) (v : W32) : (s.setIrqStat p v).nor = s.nor := rfl
@[simp] theorem State.setIrqStat_boot (s : State) (p : RPage) (v : W32) : (s.setIrqStat p v).boot = s.boot := rfl
@[simp] theorem State.setIrqStat_stw (s : State) (p : RPage) (v : W32) : (s.setIrqStat p v).stw = s.stw := rfl

/-! ### setHook -/

@[simp] theorem State.setHook_hooks (s : State) (h : Nat) (k : Hook) : (s.setHook h k).hooks = s.hooks.set .fresh h k := rfl
@[simp] theorem State.setHook_pending (s : State) (h : Nat) (k : Hook) : (s.setHook h k).pending = s.pending := rfl
@[simp] theorem State.setHook_now (s : State) (h : Nat) (k : Hook) : (s.setHook h k).now = s.now := rfl
@[simp] theorem State.setHook_free (s : State) (h : Nat) (k : Hook) : (s.setHook h k).free = s.free := rfl
@[simp] theorem State.setHook_out (s : State) (h : Nat) (k : Hook) : (s.setHook h k).out = s.out := rfl
@[simp] theorem State.setHook_fuses (s : State) (h : Nat) (k : Hook) : (s.setHook h k).fuses = s.fuses := rfl
@[simp] theorem State.setHook_regs (s : State) (h : Nat) (k : Hook) : (s.setHook h k).regs = s.regs := rfl
@[simp] theorem State.setHook_ports (s : State) (h : Nat) (k : Hook) : (s.setHook h k).ports = s.ports := rfl
@[simp] theorem State.setHook_loads (s : State) (h : Nat) (k : Hook) : (s.setHook h k).loads = s.loads := rfl
@[simp] theorem State.setHook_nextLoad (s : State) (h : Nat) (k : Hook) : (s.setHook h k).nextLoad = s.nextLoad := rfl
@[simp] theorem State.setHook_rails (s : State) (h : Nat) (k : Hook) : (s.setHook h k).rails = s.rails := rfl
@[simp] theorem State.setHook_stk (s : State) (h : Nat) (k : Hook) : (s.setHook h k).stk = s.stk := rfl
@[simp] theorem State.setHook_siv (s : State) (h : Nat) (k : Hook) : (s.setHook h k).siv = s.siv := rfl
@[simp] theorem State.setHook_med (s : State) (h : Nat) (k : Hook) : (s.setHook h k).med = s.med := rfl
@[simp] theorem State.setHook_dies (s : State) (h : Nat) (k : Hook) : (s.setHook h k).dies = s.dies := rfl
@[simp] theorem State.setHook_burners (s : State) (h : Nat) (k : Hook) : (s.setHook h k).burners = s.burners := rfl
@[simp] theorem State.setHook_upk (s : State) (h : Nat) (k : Hook) : (s.setHook h k).upk = s.upk := rfl
@[simp] theorem State.setHook_pass (s : State) (h : Nat) (k : Hook) : (s.setHook h k).pass = s.pass := rfl
@[simp] theorem State.setHook_ladles (s : State) (h : Nat) (k : Hook) : (s.setHook h k).ladles = s.ladles := rfl
@[simp] theorem State.setHook_spr (s : State) (h : Nat) (k : Hook) : (s.setHook h k).spr = s.spr := rfl
@[simp] theorem State.setHook_ctxs (s : State) (h : Nat) (k : Hook) : (s.setHook h k).ctxs = s.ctxs := rfl
@[simp] theorem State.setHook_chans (s : State) (h : Nat) (k : Hook) : (s.setHook h k).chans = s.chans := rfl
@[simp] theorem State.setHook_tly (s : State) (h : Nat) (k : Hook) : (s.setHook h k).tly = s.tly := rfl
@[simp] theorem State.setHook_spk (s : State) (h : Nat) (k : Hook) : (s.setHook h k).spk = s.spk := rfl
@[simp] theorem State.setHook_clk (s : State) (h : Nat) (k : Hook) : (s.setHook h k).clk = s.clk := rfl
@[simp] theorem State.setHook_thm (s : State) (h : Nat) (k : Hook) : (s.setHook h k).thm = s.thm := rfl
@[simp] theorem State.setHook_flt (s : State) (h : Nat) (k : Hook) : (s.setHook h k).flt = s.flt := rfl
@[simp] theorem State.setHook_reports (s : State) (h : Nat) (k : Hook) : (s.setHook h k).reports = s.reports := rfl
@[simp] theorem State.setHook_slots (s : State) (h : Nat) (k : Hook) : (s.setHook h k).slots = s.slots := rfl
@[simp] theorem State.setHook_prot (s : State) (h : Nat) (k : Hook) : (s.setHook h k).prot = s.prot := rfl
@[simp] theorem State.setHook_pwrState (s : State) (h : Nat) (k : Hook) : (s.setHook h k).pwrState = s.pwrState := rfl
@[simp] theorem State.setHook_recovery (s : State) (h : Nat) (k : Hook) : (s.setHook h k).recovery = s.recovery := rfl
@[simp] theorem State.setHook_cmt (s : State) (h : Nat) (k : Hook) : (s.setHook h k).cmt = s.cmt := rfl
@[simp] theorem State.setHook_mbx (s : State) (h : Nat) (k : Hook) : (s.setHook h k).mbx = s.mbx := rfl
@[simp] theorem State.setHook_mec (s : State) (h : Nat) (k : Hook) : (s.setHook h k).mec = s.mec := rfl
@[simp] theorem State.setHook_pwr (s : State) (h : Nat) (k : Hook) : (s.setHook h k).pwr = s.pwr := rfl
@[simp] theorem State.setHook_nor (s : State) (h : Nat) (k : Hook) : (s.setHook h k).nor = s.nor := rfl
@[simp] theorem State.setHook_boot (s : State) (h : Nat) (k : Hook) : (s.setHook h k).boot = s.boot := rfl
@[simp] theorem State.setHook_stw (s : State) (h : Nat) (k : Hook) : (s.setHook h k).stw = s.stw := rfl

/-! ### setLane -/

@[simp] theorem State.setLane_pass (s : State) (b : Nat) (l : List MReq) : (s.setLane b l).pass =
    { s.pass with lanes := s.pass.lanes.set [] b l } := rfl
@[simp] theorem State.setLane_pending (s : State) (b : Nat) (l : List MReq) : (s.setLane b l).pending = s.pending := rfl
@[simp] theorem State.setLane_now (s : State) (b : Nat) (l : List MReq) : (s.setLane b l).now = s.now := rfl
@[simp] theorem State.setLane_free (s : State) (b : Nat) (l : List MReq) : (s.setLane b l).free = s.free := rfl
@[simp] theorem State.setLane_out (s : State) (b : Nat) (l : List MReq) : (s.setLane b l).out = s.out := rfl
@[simp] theorem State.setLane_fuses (s : State) (b : Nat) (l : List MReq) : (s.setLane b l).fuses = s.fuses := rfl
@[simp] theorem State.setLane_regs (s : State) (b : Nat) (l : List MReq) : (s.setLane b l).regs = s.regs := rfl
@[simp] theorem State.setLane_ports (s : State) (b : Nat) (l : List MReq) : (s.setLane b l).ports = s.ports := rfl
@[simp] theorem State.setLane_loads (s : State) (b : Nat) (l : List MReq) : (s.setLane b l).loads = s.loads := rfl
@[simp] theorem State.setLane_nextLoad (s : State) (b : Nat) (l : List MReq) : (s.setLane b l).nextLoad = s.nextLoad := rfl
@[simp] theorem State.setLane_rails (s : State) (b : Nat) (l : List MReq) : (s.setLane b l).rails = s.rails := rfl
@[simp] theorem State.setLane_stk (s : State) (b : Nat) (l : List MReq) : (s.setLane b l).stk = s.stk := rfl
@[simp] theorem State.setLane_siv (s : State) (b : Nat) (l : List MReq) : (s.setLane b l).siv = s.siv := rfl
@[simp] theorem State.setLane_med (s : State) (b : Nat) (l : List MReq) : (s.setLane b l).med = s.med := rfl
@[simp] theorem State.setLane_dies (s : State) (b : Nat) (l : List MReq) : (s.setLane b l).dies = s.dies := rfl
@[simp] theorem State.setLane_burners (s : State) (b : Nat) (l : List MReq) : (s.setLane b l).burners = s.burners := rfl
@[simp] theorem State.setLane_upk (s : State) (b : Nat) (l : List MReq) : (s.setLane b l).upk = s.upk := rfl
@[simp] theorem State.setLane_ladles (s : State) (b : Nat) (l : List MReq) : (s.setLane b l).ladles = s.ladles := rfl
@[simp] theorem State.setLane_spr (s : State) (b : Nat) (l : List MReq) : (s.setLane b l).spr = s.spr := rfl
@[simp] theorem State.setLane_ctxs (s : State) (b : Nat) (l : List MReq) : (s.setLane b l).ctxs = s.ctxs := rfl
@[simp] theorem State.setLane_chans (s : State) (b : Nat) (l : List MReq) : (s.setLane b l).chans = s.chans := rfl
@[simp] theorem State.setLane_tly (s : State) (b : Nat) (l : List MReq) : (s.setLane b l).tly = s.tly := rfl
@[simp] theorem State.setLane_spk (s : State) (b : Nat) (l : List MReq) : (s.setLane b l).spk = s.spk := rfl
@[simp] theorem State.setLane_clk (s : State) (b : Nat) (l : List MReq) : (s.setLane b l).clk = s.clk := rfl
@[simp] theorem State.setLane_thm (s : State) (b : Nat) (l : List MReq) : (s.setLane b l).thm = s.thm := rfl
@[simp] theorem State.setLane_flt (s : State) (b : Nat) (l : List MReq) : (s.setLane b l).flt = s.flt := rfl
@[simp] theorem State.setLane_reports (s : State) (b : Nat) (l : List MReq) : (s.setLane b l).reports = s.reports := rfl
@[simp] theorem State.setLane_slots (s : State) (b : Nat) (l : List MReq) : (s.setLane b l).slots = s.slots := rfl
@[simp] theorem State.setLane_prot (s : State) (b : Nat) (l : List MReq) : (s.setLane b l).prot = s.prot := rfl
@[simp] theorem State.setLane_pwrState (s : State) (b : Nat) (l : List MReq) : (s.setLane b l).pwrState = s.pwrState := rfl
@[simp] theorem State.setLane_recovery (s : State) (b : Nat) (l : List MReq) : (s.setLane b l).recovery = s.recovery := rfl
@[simp] theorem State.setLane_hooks (s : State) (b : Nat) (l : List MReq) : (s.setLane b l).hooks = s.hooks := rfl
@[simp] theorem State.setLane_cmt (s : State) (b : Nat) (l : List MReq) : (s.setLane b l).cmt = s.cmt := rfl
@[simp] theorem State.setLane_mbx (s : State) (b : Nat) (l : List MReq) : (s.setLane b l).mbx = s.mbx := rfl
@[simp] theorem State.setLane_mec (s : State) (b : Nat) (l : List MReq) : (s.setLane b l).mec = s.mec := rfl
@[simp] theorem State.setLane_pwr (s : State) (b : Nat) (l : List MReq) : (s.setLane b l).pwr = s.pwr := rfl
@[simp] theorem State.setLane_nor (s : State) (b : Nat) (l : List MReq) : (s.setLane b l).nor = s.nor := rfl
@[simp] theorem State.setLane_boot (s : State) (b : Nat) (l : List MReq) : (s.setLane b l).boot = s.boot := rfl
@[simp] theorem State.setLane_stw (s : State) (b : Nat) (l : List MReq) : (s.setLane b l).stw = s.stw := rfl

/-! ### bumpEpoch -/

@[simp] theorem State.bumpEpoch_flt (s : State) (o : Nat) : (s.bumpEpoch o).flt =
    { s.flt with epochs := s.flt.epochs.upd 0 o (· + 1) } := rfl
@[simp] theorem State.bumpEpoch_pending (s : State) (o : Nat) : (s.bumpEpoch o).pending = s.pending := rfl
@[simp] theorem State.bumpEpoch_now (s : State) (o : Nat) : (s.bumpEpoch o).now = s.now := rfl
@[simp] theorem State.bumpEpoch_free (s : State) (o : Nat) : (s.bumpEpoch o).free = s.free := rfl
@[simp] theorem State.bumpEpoch_out (s : State) (o : Nat) : (s.bumpEpoch o).out = s.out := rfl
@[simp] theorem State.bumpEpoch_fuses (s : State) (o : Nat) : (s.bumpEpoch o).fuses = s.fuses := rfl
@[simp] theorem State.bumpEpoch_regs (s : State) (o : Nat) : (s.bumpEpoch o).regs = s.regs := rfl
@[simp] theorem State.bumpEpoch_ports (s : State) (o : Nat) : (s.bumpEpoch o).ports = s.ports := rfl
@[simp] theorem State.bumpEpoch_loads (s : State) (o : Nat) : (s.bumpEpoch o).loads = s.loads := rfl
@[simp] theorem State.bumpEpoch_nextLoad (s : State) (o : Nat) : (s.bumpEpoch o).nextLoad = s.nextLoad := rfl
@[simp] theorem State.bumpEpoch_rails (s : State) (o : Nat) : (s.bumpEpoch o).rails = s.rails := rfl
@[simp] theorem State.bumpEpoch_stk (s : State) (o : Nat) : (s.bumpEpoch o).stk = s.stk := rfl
@[simp] theorem State.bumpEpoch_siv (s : State) (o : Nat) : (s.bumpEpoch o).siv = s.siv := rfl
@[simp] theorem State.bumpEpoch_med (s : State) (o : Nat) : (s.bumpEpoch o).med = s.med := rfl
@[simp] theorem State.bumpEpoch_dies (s : State) (o : Nat) : (s.bumpEpoch o).dies = s.dies := rfl
@[simp] theorem State.bumpEpoch_burners (s : State) (o : Nat) : (s.bumpEpoch o).burners = s.burners := rfl
@[simp] theorem State.bumpEpoch_upk (s : State) (o : Nat) : (s.bumpEpoch o).upk = s.upk := rfl
@[simp] theorem State.bumpEpoch_pass (s : State) (o : Nat) : (s.bumpEpoch o).pass = s.pass := rfl
@[simp] theorem State.bumpEpoch_ladles (s : State) (o : Nat) : (s.bumpEpoch o).ladles = s.ladles := rfl
@[simp] theorem State.bumpEpoch_spr (s : State) (o : Nat) : (s.bumpEpoch o).spr = s.spr := rfl
@[simp] theorem State.bumpEpoch_ctxs (s : State) (o : Nat) : (s.bumpEpoch o).ctxs = s.ctxs := rfl
@[simp] theorem State.bumpEpoch_chans (s : State) (o : Nat) : (s.bumpEpoch o).chans = s.chans := rfl
@[simp] theorem State.bumpEpoch_tly (s : State) (o : Nat) : (s.bumpEpoch o).tly = s.tly := rfl
@[simp] theorem State.bumpEpoch_spk (s : State) (o : Nat) : (s.bumpEpoch o).spk = s.spk := rfl
@[simp] theorem State.bumpEpoch_clk (s : State) (o : Nat) : (s.bumpEpoch o).clk = s.clk := rfl
@[simp] theorem State.bumpEpoch_thm (s : State) (o : Nat) : (s.bumpEpoch o).thm = s.thm := rfl
@[simp] theorem State.bumpEpoch_reports (s : State) (o : Nat) : (s.bumpEpoch o).reports = s.reports := rfl
@[simp] theorem State.bumpEpoch_slots (s : State) (o : Nat) : (s.bumpEpoch o).slots = s.slots := rfl
@[simp] theorem State.bumpEpoch_prot (s : State) (o : Nat) : (s.bumpEpoch o).prot = s.prot := rfl
@[simp] theorem State.bumpEpoch_pwrState (s : State) (o : Nat) : (s.bumpEpoch o).pwrState = s.pwrState := rfl
@[simp] theorem State.bumpEpoch_recovery (s : State) (o : Nat) : (s.bumpEpoch o).recovery = s.recovery := rfl
@[simp] theorem State.bumpEpoch_hooks (s : State) (o : Nat) : (s.bumpEpoch o).hooks = s.hooks := rfl
@[simp] theorem State.bumpEpoch_cmt (s : State) (o : Nat) : (s.bumpEpoch o).cmt = s.cmt := rfl
@[simp] theorem State.bumpEpoch_mbx (s : State) (o : Nat) : (s.bumpEpoch o).mbx = s.mbx := rfl
@[simp] theorem State.bumpEpoch_mec (s : State) (o : Nat) : (s.bumpEpoch o).mec = s.mec := rfl
@[simp] theorem State.bumpEpoch_pwr (s : State) (o : Nat) : (s.bumpEpoch o).pwr = s.pwr := rfl
@[simp] theorem State.bumpEpoch_nor (s : State) (o : Nat) : (s.bumpEpoch o).nor = s.nor := rfl
@[simp] theorem State.bumpEpoch_boot (s : State) (o : Nat) : (s.bumpEpoch o).boot = s.boot := rfl
@[simp] theorem State.bumpEpoch_stw (s : State) (o : Nat) : (s.bumpEpoch o).stw = s.stw := rfl

/-! ### updRail -/

@[simp] theorem State.updRail_pwr (s : State) (i : Nat) (f : PRail → PRail) : (s.updRail i f).pwr =
    { s.pwr with rails := s.pwr.rails.upd .off i f } := rfl
@[simp] theorem State.updRail_pending (s : State) (i : Nat) (f : PRail → PRail) : (s.updRail i f).pending = s.pending := rfl
@[simp] theorem State.updRail_now (s : State) (i : Nat) (f : PRail → PRail) : (s.updRail i f).now = s.now := rfl
@[simp] theorem State.updRail_free (s : State) (i : Nat) (f : PRail → PRail) : (s.updRail i f).free = s.free := rfl
@[simp] theorem State.updRail_out (s : State) (i : Nat) (f : PRail → PRail) : (s.updRail i f).out = s.out := rfl
@[simp] theorem State.updRail_fuses (s : State) (i : Nat) (f : PRail → PRail) : (s.updRail i f).fuses = s.fuses := rfl
@[simp] theorem State.updRail_regs (s : State) (i : Nat) (f : PRail → PRail) : (s.updRail i f).regs = s.regs := rfl
@[simp] theorem State.updRail_ports (s : State) (i : Nat) (f : PRail → PRail) : (s.updRail i f).ports = s.ports := rfl
@[simp] theorem State.updRail_loads (s : State) (i : Nat) (f : PRail → PRail) : (s.updRail i f).loads = s.loads := rfl
@[simp] theorem State.updRail_nextLoad (s : State) (i : Nat) (f : PRail → PRail) :
    (s.updRail i f).nextLoad = s.nextLoad := rfl
@[simp] theorem State.updRail_rails (s : State) (i : Nat) (f : PRail → PRail) : (s.updRail i f).rails = s.rails := rfl
@[simp] theorem State.updRail_stk (s : State) (i : Nat) (f : PRail → PRail) : (s.updRail i f).stk = s.stk := rfl
@[simp] theorem State.updRail_siv (s : State) (i : Nat) (f : PRail → PRail) : (s.updRail i f).siv = s.siv := rfl
@[simp] theorem State.updRail_med (s : State) (i : Nat) (f : PRail → PRail) : (s.updRail i f).med = s.med := rfl
@[simp] theorem State.updRail_dies (s : State) (i : Nat) (f : PRail → PRail) : (s.updRail i f).dies = s.dies := rfl
@[simp] theorem State.updRail_burners (s : State) (i : Nat) (f : PRail → PRail) : (s.updRail i f).burners = s.burners := rfl
@[simp] theorem State.updRail_upk (s : State) (i : Nat) (f : PRail → PRail) : (s.updRail i f).upk = s.upk := rfl
@[simp] theorem State.updRail_pass (s : State) (i : Nat) (f : PRail → PRail) : (s.updRail i f).pass = s.pass := rfl
@[simp] theorem State.updRail_ladles (s : State) (i : Nat) (f : PRail → PRail) : (s.updRail i f).ladles = s.ladles := rfl
@[simp] theorem State.updRail_spr (s : State) (i : Nat) (f : PRail → PRail) : (s.updRail i f).spr = s.spr := rfl
@[simp] theorem State.updRail_ctxs (s : State) (i : Nat) (f : PRail → PRail) : (s.updRail i f).ctxs = s.ctxs := rfl
@[simp] theorem State.updRail_chans (s : State) (i : Nat) (f : PRail → PRail) : (s.updRail i f).chans = s.chans := rfl
@[simp] theorem State.updRail_tly (s : State) (i : Nat) (f : PRail → PRail) : (s.updRail i f).tly = s.tly := rfl
@[simp] theorem State.updRail_spk (s : State) (i : Nat) (f : PRail → PRail) : (s.updRail i f).spk = s.spk := rfl
@[simp] theorem State.updRail_clk (s : State) (i : Nat) (f : PRail → PRail) : (s.updRail i f).clk = s.clk := rfl
@[simp] theorem State.updRail_thm (s : State) (i : Nat) (f : PRail → PRail) : (s.updRail i f).thm = s.thm := rfl
@[simp] theorem State.updRail_flt (s : State) (i : Nat) (f : PRail → PRail) : (s.updRail i f).flt = s.flt := rfl
@[simp] theorem State.updRail_reports (s : State) (i : Nat) (f : PRail → PRail) : (s.updRail i f).reports = s.reports := rfl
@[simp] theorem State.updRail_slots (s : State) (i : Nat) (f : PRail → PRail) : (s.updRail i f).slots = s.slots := rfl
@[simp] theorem State.updRail_prot (s : State) (i : Nat) (f : PRail → PRail) : (s.updRail i f).prot = s.prot := rfl
@[simp] theorem State.updRail_pwrState (s : State) (i : Nat) (f : PRail → PRail) :
    (s.updRail i f).pwrState = s.pwrState := rfl
@[simp] theorem State.updRail_recovery (s : State) (i : Nat) (f : PRail → PRail) :
    (s.updRail i f).recovery = s.recovery := rfl
@[simp] theorem State.updRail_hooks (s : State) (i : Nat) (f : PRail → PRail) : (s.updRail i f).hooks = s.hooks := rfl
@[simp] theorem State.updRail_cmt (s : State) (i : Nat) (f : PRail → PRail) : (s.updRail i f).cmt = s.cmt := rfl
@[simp] theorem State.updRail_mbx (s : State) (i : Nat) (f : PRail → PRail) : (s.updRail i f).mbx = s.mbx := rfl
@[simp] theorem State.updRail_mec (s : State) (i : Nat) (f : PRail → PRail) : (s.updRail i f).mec = s.mec := rfl
@[simp] theorem State.updRail_nor (s : State) (i : Nat) (f : PRail → PRail) : (s.updRail i f).nor = s.nor := rfl
@[simp] theorem State.updRail_boot (s : State) (i : Nat) (f : PRail → PRail) : (s.updRail i f).boot = s.boot := rfl
@[simp] theorem State.updRail_stw (s : State) (i : Nat) (f : PRail → PRail) : (s.updRail i f).stw = s.stw := rfl

/-! ### updMec -/

@[simp] theorem State.updMec_mec (s : State) (domain inst : Nat) (f : MecCount → MecCount) : (s.updMec domain inst f).mec =
    { s.mec with counts := s.mec.counts.upd .zero (mecKey domain inst) f } := rfl
@[simp] theorem State.updMec_pending (s : State) (domain inst : Nat) (f : MecCount → MecCount) :
    (s.updMec domain inst f).pending = s.pending := rfl
@[simp] theorem State.updMec_now (s : State) (domain inst : Nat) (f : MecCount → MecCount) :
    (s.updMec domain inst f).now = s.now := rfl
@[simp] theorem State.updMec_free (s : State) (domain inst : Nat) (f : MecCount → MecCount) :
    (s.updMec domain inst f).free = s.free := rfl
@[simp] theorem State.updMec_out (s : State) (domain inst : Nat) (f : MecCount → MecCount) :
    (s.updMec domain inst f).out = s.out := rfl
@[simp] theorem State.updMec_fuses (s : State) (domain inst : Nat) (f : MecCount → MecCount) :
    (s.updMec domain inst f).fuses = s.fuses := rfl
@[simp] theorem State.updMec_regs (s : State) (domain inst : Nat) (f : MecCount → MecCount) :
    (s.updMec domain inst f).regs = s.regs := rfl
@[simp] theorem State.updMec_ports (s : State) (domain inst : Nat) (f : MecCount → MecCount) :
    (s.updMec domain inst f).ports = s.ports := rfl
@[simp] theorem State.updMec_loads (s : State) (domain inst : Nat) (f : MecCount → MecCount) :
    (s.updMec domain inst f).loads = s.loads := rfl
@[simp] theorem State.updMec_nextLoad (s : State) (domain inst : Nat) (f : MecCount → MecCount) :
    (s.updMec domain inst f).nextLoad = s.nextLoad := rfl
@[simp] theorem State.updMec_rails (s : State) (domain inst : Nat) (f : MecCount → MecCount) :
    (s.updMec domain inst f).rails = s.rails := rfl
@[simp] theorem State.updMec_stk (s : State) (domain inst : Nat) (f : MecCount → MecCount) :
    (s.updMec domain inst f).stk = s.stk := rfl
@[simp] theorem State.updMec_siv (s : State) (domain inst : Nat) (f : MecCount → MecCount) :
    (s.updMec domain inst f).siv = s.siv := rfl
@[simp] theorem State.updMec_med (s : State) (domain inst : Nat) (f : MecCount → MecCount) :
    (s.updMec domain inst f).med = s.med := rfl
@[simp] theorem State.updMec_dies (s : State) (domain inst : Nat) (f : MecCount → MecCount) :
    (s.updMec domain inst f).dies = s.dies := rfl
@[simp] theorem State.updMec_burners (s : State) (domain inst : Nat) (f : MecCount → MecCount) :
    (s.updMec domain inst f).burners = s.burners := rfl
@[simp] theorem State.updMec_upk (s : State) (domain inst : Nat) (f : MecCount → MecCount) :
    (s.updMec domain inst f).upk = s.upk := rfl
@[simp] theorem State.updMec_pass (s : State) (domain inst : Nat) (f : MecCount → MecCount) :
    (s.updMec domain inst f).pass = s.pass := rfl
@[simp] theorem State.updMec_ladles (s : State) (domain inst : Nat) (f : MecCount → MecCount) :
    (s.updMec domain inst f).ladles = s.ladles := rfl
@[simp] theorem State.updMec_spr (s : State) (domain inst : Nat) (f : MecCount → MecCount) :
    (s.updMec domain inst f).spr = s.spr := rfl
@[simp] theorem State.updMec_ctxs (s : State) (domain inst : Nat) (f : MecCount → MecCount) :
    (s.updMec domain inst f).ctxs = s.ctxs := rfl
@[simp] theorem State.updMec_chans (s : State) (domain inst : Nat) (f : MecCount → MecCount) :
    (s.updMec domain inst f).chans = s.chans := rfl
@[simp] theorem State.updMec_tly (s : State) (domain inst : Nat) (f : MecCount → MecCount) :
    (s.updMec domain inst f).tly = s.tly := rfl
@[simp] theorem State.updMec_spk (s : State) (domain inst : Nat) (f : MecCount → MecCount) :
    (s.updMec domain inst f).spk = s.spk := rfl
@[simp] theorem State.updMec_clk (s : State) (domain inst : Nat) (f : MecCount → MecCount) :
    (s.updMec domain inst f).clk = s.clk := rfl
@[simp] theorem State.updMec_thm (s : State) (domain inst : Nat) (f : MecCount → MecCount) :
    (s.updMec domain inst f).thm = s.thm := rfl
@[simp] theorem State.updMec_flt (s : State) (domain inst : Nat) (f : MecCount → MecCount) :
    (s.updMec domain inst f).flt = s.flt := rfl
@[simp] theorem State.updMec_reports (s : State) (domain inst : Nat) (f : MecCount → MecCount) :
    (s.updMec domain inst f).reports = s.reports := rfl
@[simp] theorem State.updMec_slots (s : State) (domain inst : Nat) (f : MecCount → MecCount) :
    (s.updMec domain inst f).slots = s.slots := rfl
@[simp] theorem State.updMec_prot (s : State) (domain inst : Nat) (f : MecCount → MecCount) :
    (s.updMec domain inst f).prot = s.prot := rfl
@[simp] theorem State.updMec_pwrState (s : State) (domain inst : Nat) (f : MecCount → MecCount) :
    (s.updMec domain inst f).pwrState = s.pwrState := rfl
@[simp] theorem State.updMec_recovery (s : State) (domain inst : Nat) (f : MecCount → MecCount) :
    (s.updMec domain inst f).recovery = s.recovery := rfl
@[simp] theorem State.updMec_hooks (s : State) (domain inst : Nat) (f : MecCount → MecCount) :
    (s.updMec domain inst f).hooks = s.hooks := rfl
@[simp] theorem State.updMec_cmt (s : State) (domain inst : Nat) (f : MecCount → MecCount) :
    (s.updMec domain inst f).cmt = s.cmt := rfl
@[simp] theorem State.updMec_mbx (s : State) (domain inst : Nat) (f : MecCount → MecCount) :
    (s.updMec domain inst f).mbx = s.mbx := rfl
@[simp] theorem State.updMec_pwr (s : State) (domain inst : Nat) (f : MecCount → MecCount) :
    (s.updMec domain inst f).pwr = s.pwr := rfl
@[simp] theorem State.updMec_nor (s : State) (domain inst : Nat) (f : MecCount → MecCount) :
    (s.updMec domain inst f).nor = s.nor := rfl
@[simp] theorem State.updMec_boot (s : State) (domain inst : Nat) (f : MecCount → MecCount) :
    (s.updMec domain inst f).boot = s.boot := rfl
@[simp] theorem State.updMec_stw (s : State) (domain inst : Nat) (f : MecCount → MecCount) :
    (s.updMec domain inst f).stw = s.stw := rfl

/-! ### updSpr -/

@[simp] theorem State.updSpr_spr (s : State) (f : Spice → Spice) : (s.updSpr f).spr = f s.spr := rfl
@[simp] theorem State.updSpr_pending (s : State) (f : Spice → Spice) : (s.updSpr f).pending = s.pending := rfl
@[simp] theorem State.updSpr_now (s : State) (f : Spice → Spice) : (s.updSpr f).now = s.now := rfl
@[simp] theorem State.updSpr_free (s : State) (f : Spice → Spice) : (s.updSpr f).free = s.free := rfl
@[simp] theorem State.updSpr_out (s : State) (f : Spice → Spice) : (s.updSpr f).out = s.out := rfl
@[simp] theorem State.updSpr_fuses (s : State) (f : Spice → Spice) : (s.updSpr f).fuses = s.fuses := rfl
@[simp] theorem State.updSpr_regs (s : State) (f : Spice → Spice) : (s.updSpr f).regs = s.regs := rfl
@[simp] theorem State.updSpr_ports (s : State) (f : Spice → Spice) : (s.updSpr f).ports = s.ports := rfl
@[simp] theorem State.updSpr_loads (s : State) (f : Spice → Spice) : (s.updSpr f).loads = s.loads := rfl
@[simp] theorem State.updSpr_nextLoad (s : State) (f : Spice → Spice) : (s.updSpr f).nextLoad = s.nextLoad := rfl
@[simp] theorem State.updSpr_rails (s : State) (f : Spice → Spice) : (s.updSpr f).rails = s.rails := rfl
@[simp] theorem State.updSpr_stk (s : State) (f : Spice → Spice) : (s.updSpr f).stk = s.stk := rfl
@[simp] theorem State.updSpr_siv (s : State) (f : Spice → Spice) : (s.updSpr f).siv = s.siv := rfl
@[simp] theorem State.updSpr_med (s : State) (f : Spice → Spice) : (s.updSpr f).med = s.med := rfl
@[simp] theorem State.updSpr_dies (s : State) (f : Spice → Spice) : (s.updSpr f).dies = s.dies := rfl
@[simp] theorem State.updSpr_burners (s : State) (f : Spice → Spice) : (s.updSpr f).burners = s.burners := rfl
@[simp] theorem State.updSpr_upk (s : State) (f : Spice → Spice) : (s.updSpr f).upk = s.upk := rfl
@[simp] theorem State.updSpr_pass (s : State) (f : Spice → Spice) : (s.updSpr f).pass = s.pass := rfl
@[simp] theorem State.updSpr_ladles (s : State) (f : Spice → Spice) : (s.updSpr f).ladles = s.ladles := rfl
@[simp] theorem State.updSpr_ctxs (s : State) (f : Spice → Spice) : (s.updSpr f).ctxs = s.ctxs := rfl
@[simp] theorem State.updSpr_chans (s : State) (f : Spice → Spice) : (s.updSpr f).chans = s.chans := rfl
@[simp] theorem State.updSpr_tly (s : State) (f : Spice → Spice) : (s.updSpr f).tly = s.tly := rfl
@[simp] theorem State.updSpr_spk (s : State) (f : Spice → Spice) : (s.updSpr f).spk = s.spk := rfl
@[simp] theorem State.updSpr_clk (s : State) (f : Spice → Spice) : (s.updSpr f).clk = s.clk := rfl
@[simp] theorem State.updSpr_thm (s : State) (f : Spice → Spice) : (s.updSpr f).thm = s.thm := rfl
@[simp] theorem State.updSpr_flt (s : State) (f : Spice → Spice) : (s.updSpr f).flt = s.flt := rfl
@[simp] theorem State.updSpr_reports (s : State) (f : Spice → Spice) : (s.updSpr f).reports = s.reports := rfl
@[simp] theorem State.updSpr_slots (s : State) (f : Spice → Spice) : (s.updSpr f).slots = s.slots := rfl
@[simp] theorem State.updSpr_prot (s : State) (f : Spice → Spice) : (s.updSpr f).prot = s.prot := rfl
@[simp] theorem State.updSpr_pwrState (s : State) (f : Spice → Spice) : (s.updSpr f).pwrState = s.pwrState := rfl
@[simp] theorem State.updSpr_recovery (s : State) (f : Spice → Spice) : (s.updSpr f).recovery = s.recovery := rfl
@[simp] theorem State.updSpr_hooks (s : State) (f : Spice → Spice) : (s.updSpr f).hooks = s.hooks := rfl
@[simp] theorem State.updSpr_cmt (s : State) (f : Spice → Spice) : (s.updSpr f).cmt = s.cmt := rfl
@[simp] theorem State.updSpr_mbx (s : State) (f : Spice → Spice) : (s.updSpr f).mbx = s.mbx := rfl
@[simp] theorem State.updSpr_mec (s : State) (f : Spice → Spice) : (s.updSpr f).mec = s.mec := rfl
@[simp] theorem State.updSpr_pwr (s : State) (f : Spice → Spice) : (s.updSpr f).pwr = s.pwr := rfl
@[simp] theorem State.updSpr_nor (s : State) (f : Spice → Spice) : (s.updSpr f).nor = s.nor := rfl
@[simp] theorem State.updSpr_boot (s : State) (f : Spice → Spice) : (s.updSpr f).boot = s.boot := rfl
@[simp] theorem State.updSpr_stw (s : State) (f : Spice → Spice) : (s.updSpr f).stw = s.stw := rfl

/-! ### updSlave -/

@[simp] theorem State.updSlave_pwr (s : State) (a : Nat) (f : YvSlave → YvSlave) : (s.updSlave a f).pwr =
    { s.pwr with slaves := s.pwr.slaves.upd .none a f } := rfl
@[simp] theorem State.updSlave_pending (s : State) (a : Nat) (f : YvSlave → YvSlave) :
    (s.updSlave a f).pending = s.pending := rfl
@[simp] theorem State.updSlave_now (s : State) (a : Nat) (f : YvSlave → YvSlave) : (s.updSlave a f).now = s.now := rfl
@[simp] theorem State.updSlave_free (s : State) (a : Nat) (f : YvSlave → YvSlave) : (s.updSlave a f).free = s.free := rfl
@[simp] theorem State.updSlave_out (s : State) (a : Nat) (f : YvSlave → YvSlave) : (s.updSlave a f).out = s.out := rfl
@[simp] theorem State.updSlave_fuses (s : State) (a : Nat) (f : YvSlave → YvSlave) : (s.updSlave a f).fuses = s.fuses := rfl
@[simp] theorem State.updSlave_regs (s : State) (a : Nat) (f : YvSlave → YvSlave) : (s.updSlave a f).regs = s.regs := rfl
@[simp] theorem State.updSlave_ports (s : State) (a : Nat) (f : YvSlave → YvSlave) : (s.updSlave a f).ports = s.ports := rfl
@[simp] theorem State.updSlave_loads (s : State) (a : Nat) (f : YvSlave → YvSlave) : (s.updSlave a f).loads = s.loads := rfl
@[simp] theorem State.updSlave_nextLoad (s : State) (a : Nat) (f : YvSlave → YvSlave) :
    (s.updSlave a f).nextLoad = s.nextLoad := rfl
@[simp] theorem State.updSlave_rails (s : State) (a : Nat) (f : YvSlave → YvSlave) : (s.updSlave a f).rails = s.rails := rfl
@[simp] theorem State.updSlave_stk (s : State) (a : Nat) (f : YvSlave → YvSlave) : (s.updSlave a f).stk = s.stk := rfl
@[simp] theorem State.updSlave_siv (s : State) (a : Nat) (f : YvSlave → YvSlave) : (s.updSlave a f).siv = s.siv := rfl
@[simp] theorem State.updSlave_med (s : State) (a : Nat) (f : YvSlave → YvSlave) : (s.updSlave a f).med = s.med := rfl
@[simp] theorem State.updSlave_dies (s : State) (a : Nat) (f : YvSlave → YvSlave) : (s.updSlave a f).dies = s.dies := rfl
@[simp] theorem State.updSlave_burners (s : State) (a : Nat) (f : YvSlave → YvSlave) :
    (s.updSlave a f).burners = s.burners := rfl
@[simp] theorem State.updSlave_upk (s : State) (a : Nat) (f : YvSlave → YvSlave) : (s.updSlave a f).upk = s.upk := rfl
@[simp] theorem State.updSlave_pass (s : State) (a : Nat) (f : YvSlave → YvSlave) : (s.updSlave a f).pass = s.pass := rfl
@[simp] theorem State.updSlave_ladles (s : State) (a : Nat) (f : YvSlave → YvSlave) :
    (s.updSlave a f).ladles = s.ladles := rfl
@[simp] theorem State.updSlave_spr (s : State) (a : Nat) (f : YvSlave → YvSlave) : (s.updSlave a f).spr = s.spr := rfl
@[simp] theorem State.updSlave_ctxs (s : State) (a : Nat) (f : YvSlave → YvSlave) : (s.updSlave a f).ctxs = s.ctxs := rfl
@[simp] theorem State.updSlave_chans (s : State) (a : Nat) (f : YvSlave → YvSlave) : (s.updSlave a f).chans = s.chans := rfl
@[simp] theorem State.updSlave_tly (s : State) (a : Nat) (f : YvSlave → YvSlave) : (s.updSlave a f).tly = s.tly := rfl
@[simp] theorem State.updSlave_spk (s : State) (a : Nat) (f : YvSlave → YvSlave) : (s.updSlave a f).spk = s.spk := rfl
@[simp] theorem State.updSlave_clk (s : State) (a : Nat) (f : YvSlave → YvSlave) : (s.updSlave a f).clk = s.clk := rfl
@[simp] theorem State.updSlave_thm (s : State) (a : Nat) (f : YvSlave → YvSlave) : (s.updSlave a f).thm = s.thm := rfl
@[simp] theorem State.updSlave_flt (s : State) (a : Nat) (f : YvSlave → YvSlave) : (s.updSlave a f).flt = s.flt := rfl
@[simp] theorem State.updSlave_reports (s : State) (a : Nat) (f : YvSlave → YvSlave) :
    (s.updSlave a f).reports = s.reports := rfl
@[simp] theorem State.updSlave_slots (s : State) (a : Nat) (f : YvSlave → YvSlave) : (s.updSlave a f).slots = s.slots := rfl
@[simp] theorem State.updSlave_prot (s : State) (a : Nat) (f : YvSlave → YvSlave) : (s.updSlave a f).prot = s.prot := rfl
@[simp] theorem State.updSlave_pwrState (s : State) (a : Nat) (f : YvSlave → YvSlave) :
    (s.updSlave a f).pwrState = s.pwrState := rfl
@[simp] theorem State.updSlave_recovery (s : State) (a : Nat) (f : YvSlave → YvSlave) :
    (s.updSlave a f).recovery = s.recovery := rfl
@[simp] theorem State.updSlave_hooks (s : State) (a : Nat) (f : YvSlave → YvSlave) : (s.updSlave a f).hooks = s.hooks := rfl
@[simp] theorem State.updSlave_cmt (s : State) (a : Nat) (f : YvSlave → YvSlave) : (s.updSlave a f).cmt = s.cmt := rfl
@[simp] theorem State.updSlave_mbx (s : State) (a : Nat) (f : YvSlave → YvSlave) : (s.updSlave a f).mbx = s.mbx := rfl
@[simp] theorem State.updSlave_mec (s : State) (a : Nat) (f : YvSlave → YvSlave) : (s.updSlave a f).mec = s.mec := rfl
@[simp] theorem State.updSlave_nor (s : State) (a : Nat) (f : YvSlave → YvSlave) : (s.updSlave a f).nor = s.nor := rfl
@[simp] theorem State.updSlave_boot (s : State) (a : Nat) (f : YvSlave → YvSlave) : (s.updSlave a f).boot = s.boot := rfl
@[simp] theorem State.updSlave_stw (s : State) (a : Nat) (f : YvSlave → YvSlave) : (s.updSlave a f).stw = s.stw := rfl

/-! ### addPage -/

@[simp] theorem State.addPage_stk (s : State) (p : Page) : (s.addPage p).stk =
    { s.stk with pages := s.stk.pages.put s.stk.nextPage p, nextPage := s.stk.nextPage + 1 } := rfl
@[simp] theorem State.addPage_pending (s : State) (p : Page) : (s.addPage p).pending = s.pending := rfl
@[simp] theorem State.addPage_now (s : State) (p : Page) : (s.addPage p).now = s.now := rfl
@[simp] theorem State.addPage_free (s : State) (p : Page) : (s.addPage p).free = s.free := rfl
@[simp] theorem State.addPage_out (s : State) (p : Page) : (s.addPage p).out = s.out := rfl
@[simp] theorem State.addPage_fuses (s : State) (p : Page) : (s.addPage p).fuses = s.fuses := rfl
@[simp] theorem State.addPage_regs (s : State) (p : Page) : (s.addPage p).regs = s.regs := rfl
@[simp] theorem State.addPage_ports (s : State) (p : Page) : (s.addPage p).ports = s.ports := rfl
@[simp] theorem State.addPage_loads (s : State) (p : Page) : (s.addPage p).loads = s.loads := rfl
@[simp] theorem State.addPage_nextLoad (s : State) (p : Page) : (s.addPage p).nextLoad = s.nextLoad := rfl
@[simp] theorem State.addPage_rails (s : State) (p : Page) : (s.addPage p).rails = s.rails := rfl
@[simp] theorem State.addPage_siv (s : State) (p : Page) : (s.addPage p).siv = s.siv := rfl
@[simp] theorem State.addPage_med (s : State) (p : Page) : (s.addPage p).med = s.med := rfl
@[simp] theorem State.addPage_dies (s : State) (p : Page) : (s.addPage p).dies = s.dies := rfl
@[simp] theorem State.addPage_burners (s : State) (p : Page) : (s.addPage p).burners = s.burners := rfl
@[simp] theorem State.addPage_upk (s : State) (p : Page) : (s.addPage p).upk = s.upk := rfl
@[simp] theorem State.addPage_pass (s : State) (p : Page) : (s.addPage p).pass = s.pass := rfl
@[simp] theorem State.addPage_ladles (s : State) (p : Page) : (s.addPage p).ladles = s.ladles := rfl
@[simp] theorem State.addPage_spr (s : State) (p : Page) : (s.addPage p).spr = s.spr := rfl
@[simp] theorem State.addPage_ctxs (s : State) (p : Page) : (s.addPage p).ctxs = s.ctxs := rfl
@[simp] theorem State.addPage_chans (s : State) (p : Page) : (s.addPage p).chans = s.chans := rfl
@[simp] theorem State.addPage_tly (s : State) (p : Page) : (s.addPage p).tly = s.tly := rfl
@[simp] theorem State.addPage_spk (s : State) (p : Page) : (s.addPage p).spk = s.spk := rfl
@[simp] theorem State.addPage_clk (s : State) (p : Page) : (s.addPage p).clk = s.clk := rfl
@[simp] theorem State.addPage_thm (s : State) (p : Page) : (s.addPage p).thm = s.thm := rfl
@[simp] theorem State.addPage_flt (s : State) (p : Page) : (s.addPage p).flt = s.flt := rfl
@[simp] theorem State.addPage_reports (s : State) (p : Page) : (s.addPage p).reports = s.reports := rfl
@[simp] theorem State.addPage_slots (s : State) (p : Page) : (s.addPage p).slots = s.slots := rfl
@[simp] theorem State.addPage_prot (s : State) (p : Page) : (s.addPage p).prot = s.prot := rfl
@[simp] theorem State.addPage_pwrState (s : State) (p : Page) : (s.addPage p).pwrState = s.pwrState := rfl
@[simp] theorem State.addPage_recovery (s : State) (p : Page) : (s.addPage p).recovery = s.recovery := rfl
@[simp] theorem State.addPage_hooks (s : State) (p : Page) : (s.addPage p).hooks = s.hooks := rfl
@[simp] theorem State.addPage_cmt (s : State) (p : Page) : (s.addPage p).cmt = s.cmt := rfl
@[simp] theorem State.addPage_mbx (s : State) (p : Page) : (s.addPage p).mbx = s.mbx := rfl
@[simp] theorem State.addPage_mec (s : State) (p : Page) : (s.addPage p).mec = s.mec := rfl
@[simp] theorem State.addPage_pwr (s : State) (p : Page) : (s.addPage p).pwr = s.pwr := rfl
@[simp] theorem State.addPage_nor (s : State) (p : Page) : (s.addPage p).nor = s.nor := rfl
@[simp] theorem State.addPage_boot (s : State) (p : Page) : (s.addPage p).boot = s.boot := rfl
@[simp] theorem State.addPage_stw (s : State) (p : Page) : (s.addPage p).stw = s.stw := rfl

/-! ### startRun -/

@[simp] theorem State.startRun_mbx (s : State) (p : Path) (opcode : Nat) (args : List Nat) (rest : List Byte) : (s.startRun p opcode args rest).mbx =
    { s.mbx with runs := s.mbx.runs ++ [⟨p, opcode, s.now, false, args, rest⟩] } := rfl
@[simp] theorem State.startRun_pending (s : State) (p : Path) (opcode : Nat) (args : List Nat) (rest : List Byte) :
    (s.startRun p opcode args rest).pending = s.pending := rfl
@[simp] theorem State.startRun_now (s : State) (p : Path) (opcode : Nat) (args : List Nat) (rest : List Byte) :
    (s.startRun p opcode args rest).now = s.now := rfl
@[simp] theorem State.startRun_free (s : State) (p : Path) (opcode : Nat) (args : List Nat) (rest : List Byte) :
    (s.startRun p opcode args rest).free = s.free := rfl
@[simp] theorem State.startRun_out (s : State) (p : Path) (opcode : Nat) (args : List Nat) (rest : List Byte) :
    (s.startRun p opcode args rest).out = s.out := rfl
@[simp] theorem State.startRun_fuses (s : State) (p : Path) (opcode : Nat) (args : List Nat) (rest : List Byte) :
    (s.startRun p opcode args rest).fuses = s.fuses := rfl
@[simp] theorem State.startRun_regs (s : State) (p : Path) (opcode : Nat) (args : List Nat) (rest : List Byte) :
    (s.startRun p opcode args rest).regs = s.regs := rfl
@[simp] theorem State.startRun_ports (s : State) (p : Path) (opcode : Nat) (args : List Nat) (rest : List Byte) :
    (s.startRun p opcode args rest).ports = s.ports := rfl
@[simp] theorem State.startRun_loads (s : State) (p : Path) (opcode : Nat) (args : List Nat) (rest : List Byte) :
    (s.startRun p opcode args rest).loads = s.loads := rfl
@[simp] theorem State.startRun_nextLoad (s : State) (p : Path) (opcode : Nat) (args : List Nat) (rest : List Byte) :
    (s.startRun p opcode args rest).nextLoad = s.nextLoad := rfl
@[simp] theorem State.startRun_rails (s : State) (p : Path) (opcode : Nat) (args : List Nat) (rest : List Byte) :
    (s.startRun p opcode args rest).rails = s.rails := rfl
@[simp] theorem State.startRun_stk (s : State) (p : Path) (opcode : Nat) (args : List Nat) (rest : List Byte) :
    (s.startRun p opcode args rest).stk = s.stk := rfl
@[simp] theorem State.startRun_siv (s : State) (p : Path) (opcode : Nat) (args : List Nat) (rest : List Byte) :
    (s.startRun p opcode args rest).siv = s.siv := rfl
@[simp] theorem State.startRun_med (s : State) (p : Path) (opcode : Nat) (args : List Nat) (rest : List Byte) :
    (s.startRun p opcode args rest).med = s.med := rfl
@[simp] theorem State.startRun_dies (s : State) (p : Path) (opcode : Nat) (args : List Nat) (rest : List Byte) :
    (s.startRun p opcode args rest).dies = s.dies := rfl
@[simp] theorem State.startRun_burners (s : State) (p : Path) (opcode : Nat) (args : List Nat) (rest : List Byte) :
    (s.startRun p opcode args rest).burners = s.burners := rfl
@[simp] theorem State.startRun_upk (s : State) (p : Path) (opcode : Nat) (args : List Nat) (rest : List Byte) :
    (s.startRun p opcode args rest).upk = s.upk := rfl
@[simp] theorem State.startRun_pass (s : State) (p : Path) (opcode : Nat) (args : List Nat) (rest : List Byte) :
    (s.startRun p opcode args rest).pass = s.pass := rfl
@[simp] theorem State.startRun_ladles (s : State) (p : Path) (opcode : Nat) (args : List Nat) (rest : List Byte) :
    (s.startRun p opcode args rest).ladles = s.ladles := rfl
@[simp] theorem State.startRun_spr (s : State) (p : Path) (opcode : Nat) (args : List Nat) (rest : List Byte) :
    (s.startRun p opcode args rest).spr = s.spr := rfl
@[simp] theorem State.startRun_ctxs (s : State) (p : Path) (opcode : Nat) (args : List Nat) (rest : List Byte) :
    (s.startRun p opcode args rest).ctxs = s.ctxs := rfl
@[simp] theorem State.startRun_chans (s : State) (p : Path) (opcode : Nat) (args : List Nat) (rest : List Byte) :
    (s.startRun p opcode args rest).chans = s.chans := rfl
@[simp] theorem State.startRun_tly (s : State) (p : Path) (opcode : Nat) (args : List Nat) (rest : List Byte) :
    (s.startRun p opcode args rest).tly = s.tly := rfl
@[simp] theorem State.startRun_spk (s : State) (p : Path) (opcode : Nat) (args : List Nat) (rest : List Byte) :
    (s.startRun p opcode args rest).spk = s.spk := rfl
@[simp] theorem State.startRun_clk (s : State) (p : Path) (opcode : Nat) (args : List Nat) (rest : List Byte) :
    (s.startRun p opcode args rest).clk = s.clk := rfl
@[simp] theorem State.startRun_thm (s : State) (p : Path) (opcode : Nat) (args : List Nat) (rest : List Byte) :
    (s.startRun p opcode args rest).thm = s.thm := rfl
@[simp] theorem State.startRun_flt (s : State) (p : Path) (opcode : Nat) (args : List Nat) (rest : List Byte) :
    (s.startRun p opcode args rest).flt = s.flt := rfl
@[simp] theorem State.startRun_reports (s : State) (p : Path) (opcode : Nat) (args : List Nat) (rest : List Byte) :
    (s.startRun p opcode args rest).reports = s.reports := rfl
@[simp] theorem State.startRun_slots (s : State) (p : Path) (opcode : Nat) (args : List Nat) (rest : List Byte) :
    (s.startRun p opcode args rest).slots = s.slots := rfl
@[simp] theorem State.startRun_prot (s : State) (p : Path) (opcode : Nat) (args : List Nat) (rest : List Byte) :
    (s.startRun p opcode args rest).prot = s.prot := rfl
@[simp] theorem State.startRun_pwrState (s : State) (p : Path) (opcode : Nat) (args : List Nat) (rest : List Byte) :
    (s.startRun p opcode args rest).pwrState = s.pwrState := rfl
@[simp] theorem State.startRun_recovery (s : State) (p : Path) (opcode : Nat) (args : List Nat) (rest : List Byte) :
    (s.startRun p opcode args rest).recovery = s.recovery := rfl
@[simp] theorem State.startRun_hooks (s : State) (p : Path) (opcode : Nat) (args : List Nat) (rest : List Byte) :
    (s.startRun p opcode args rest).hooks = s.hooks := rfl
@[simp] theorem State.startRun_cmt (s : State) (p : Path) (opcode : Nat) (args : List Nat) (rest : List Byte) :
    (s.startRun p opcode args rest).cmt = s.cmt := rfl
@[simp] theorem State.startRun_mec (s : State) (p : Path) (opcode : Nat) (args : List Nat) (rest : List Byte) :
    (s.startRun p opcode args rest).mec = s.mec := rfl
@[simp] theorem State.startRun_pwr (s : State) (p : Path) (opcode : Nat) (args : List Nat) (rest : List Byte) :
    (s.startRun p opcode args rest).pwr = s.pwr := rfl
@[simp] theorem State.startRun_nor (s : State) (p : Path) (opcode : Nat) (args : List Nat) (rest : List Byte) :
    (s.startRun p opcode args rest).nor = s.nor := rfl
@[simp] theorem State.startRun_boot (s : State) (p : Path) (opcode : Nat) (args : List Nat) (rest : List Byte) :
    (s.startRun p opcode args rest).boot = s.boot := rfl
@[simp] theorem State.startRun_stw (s : State) (p : Path) (opcode : Nat) (args : List Nat) (rest : List Byte) :
    (s.startRun p opcode args rest).stw = s.stw := rfl

end Sys2Proof.Machine
end

