-- ==== Sys2Proof/Laws/Tables.lean ====
section
/-!
SUPPORT. Laws of the sparse tables: what a write leaves to be read, and that every operation keeps the canonical form.
-/

namespace Sys2Proof.Machine

/-! ### Keys below a table -/

/-- In a table with rising keys, a key below its first is below all of them. -/
theorem SMap.below_mono {α : Type} {m : SMap α} {j k : Nat} (h : m.below k = true) (hj : j ≤ k) : m.below j = true := by
  cases m with
  | nil => rfl
  | cons e m => simp only [SMap.below, decide_eq_true_eq] at h ⊢; omega

/-- A key below a table with rising keys is not listed. -/
theorem SMap.find_below {α : Type} {m : SMap α} {k : Nat} (hw : m.wf = true) (h : m.below k = true) : m.find k = none := by
  induction m with
  | nil => rfl
  | cons e m ih =>
    simp only [SMap.below, decide_eq_true_eq, SMap.wf, Bool.and_eq_true] at h hw
    rw [SMap.find, if_neg (by omega), ih hw.2 (SMap.below_mono hw.1 (by omega))]

/-! ### Writing one key -/

theorem SMap.find_put_self {α : Type} (m : SMap α) (k : Nat) (v : α) : (m.put k v).find k = some v := by
  induction m with
  | nil => simp [SMap.put, SMap.find]
  | cons e m ih =>
    rw [SMap.put]
    split
    · simp [SMap.find]
    · split
      · simp [SMap.find]
      · rw [SMap.find, if_neg (by omega), ih]

theorem SMap.find_put_of_ne {α : Type} (m : SMap α) {j k : Nat} (v : α) (h : j ≠ k) : (m.put k v).find j = m.find j := by
  induction m with
  | nil => simp [SMap.put, SMap.find, Ne.symm h]
  | cons e m ih =>
    rw [SMap.put]
    split
    · rw [SMap.find, if_neg (Ne.symm h)]
    · split
      · rename_i _ hk
        simp [SMap.find, ← hk, Ne.symm h]
      · simp [SMap.find, ih]

theorem SMap.find_del_self {α : Type} (m : SMap α) (k : Nat) : (m.del k).find k = none := by
  induction m with
  | nil => rfl
  | cons e m ih =>
    rw [SMap.del, List.filter_cons]
    split
    · rename_i h
      rw [SMap.find, if_neg (by simpa using h)]
      exact ih
    · exact ih

theorem SMap.find_del_of_ne {α : Type} (m : SMap α) {j k : Nat} (h : j ≠ k) : (m.del k).find j = m.find j := by
  induction m with
  | nil => rfl
  | cons e m ih =>
    rw [SMap.del, List.filter_cons]
    split
    · simp only [SMap.find]
      rw [← ih]
      rfl
    · rename_i hk
      have hk : e.1 = k := by simpa using hk
      rw [SMap.find, if_neg (by omega)]
      exact ih

/-- What a key reads as after a write: the value written at that key, what it read as before at any other. -/
theorem SMap.getD_set {α : Type} [DecidableEq α] (m : SMap α) (d : α) (j k : Nat) (v : α) :
    (m.set d k v).getD j d = if j = k then v else m.getD j d := by
  unfold SMap.set SMap.getD
  split
  · rename_i hv
    by_cases h : j = k
    · simp [h, SMap.find_del_self, hv]
    · simp [h, SMap.find_del_of_ne]
  · by_cases h : j = k
    · simp [h, SMap.find_put_self]
    · simp [h, SMap.find_put_of_ne]

/-- What a key reads as after one key is changed. -/
theorem SMap.getD_upd {α : Type} [DecidableEq α] (m : SMap α) (d : α) (j k : Nat) (f : α → α) :
    (m.upd d k f).getD j d = if j = k then f (m.getD k d) else m.getD j d := SMap.getD_set m d j k _

/-! ### The canonical form -/

theorem SMap.below_put {α : Type} {m : SMap α} {j k : Nat} (v : α) (h : m.below j = true) (hk : j < k) :
    (m.put k v).below j = true := by
  cases m with
  | nil => simpa [SMap.put, SMap.below] using hk
  | cons e m =>
    simp only [SMap.below, decide_eq_true_eq] at h
    rw [SMap.put]
    split
    · simpa [SMap.below] using hk
    · split
      · simpa [SMap.below] using hk
      · simpa [SMap.below] using h

theorem SMap.wf_put {α : Type} {m : SMap α} (k : Nat) (v : α) (h : m.wf = true) : (m.put k v).wf = true := by
  induction m with
  | nil => rfl
  | cons e m ih =>
    simp only [SMap.wf, Bool.and_eq_true] at h
    rw [SMap.put]
    split
    · rename_i hk
      simpa only [SMap.wf, Bool.and_eq_true, SMap.below, decide_eq_true_eq] using And.intro hk h
    · split
      · rename_i _ hk
        simp [SMap.wf, hk, h]
      · have hb := SMap.below_put (k := k) v h.1 (by omega)
        simp [SMap.wf, ih h.2, hb]

/-- A part of a table with rising keys, taken in order, has rising keys. -/
theorem SMap.wf_filter {α : Type} {m : SMap α} (p : Nat × α → Bool) (h : m.wf = true) : SMap.wf (m.filter p) = true := by
  induction m with
  | nil => rfl
  | cons e m ih =>
    simp only [SMap.wf, Bool.and_eq_true] at h
    have hb : ∀ (l : SMap α), l.wf = true → l.below e.1 = true → SMap.below e.1 (l.filter p) = true := by
      intro l
      induction l with
      | nil => intros; rfl
      | cons x l ihl =>
        intro hw hx
        simp only [SMap.wf, SMap.below, Bool.and_eq_true, decide_eq_true_eq] at hw hx
        rw [List.filter_cons]
        split
        · simpa [SMap.below] using hx
        · exact ihl hw.2 (SMap.below_mono hw.1 (by omega))
    rw [List.filter_cons]
    split
    · simp [SMap.wf, ih h.2, hb m h.2 h.1]
    · exact ih h.2

theorem SMap.all_put {α : Type} {m : SMap α} {p : Nat × α → Bool} (k : Nat) (v : α) (h : m.all p = true) (hv : p (k, v) = true) :
    (m.put k v).all p = true := by
  induction m with
  | nil => simp [SMap.put, hv]
  | cons e m ih =>
    simp only [List.all_cons, Bool.and_eq_true] at h
    rw [SMap.put]
    split
    · simp [hv, h.1, h.2]
    · split
      · simp [hv, h.2]
      · simp [h.1, ih h.2]

/-- A write keeps the canonical form over its default. -/
theorem SMap.wfD_set {α : Type} [DecidableEq α] {m : SMap α} {d : α} (k : Nat) (v : α) (h : m.wfD d = true) :
    (m.set d k v).wfD d = true := by
  simp only [SMap.wfD, Bool.and_eq_true] at h ⊢
  unfold SMap.set
  split
  · refine ⟨SMap.wf_filter _ h.1, ?_⟩
    rw [List.all_eq_true] at h ⊢
    exact fun e he => h.2 e (List.mem_of_mem_filter he)
  · rename_i hv
    exact ⟨SMap.wf_put k v h.1, SMap.all_put k v h.2 (by simpa using hv)⟩

/-- So does a change of one key. -/
theorem SMap.wfD_upd {α : Type} [DecidableEq α] {m : SMap α} {d : α} (k : Nat) (f : α → α) (h : m.wfD d = true) :
    (m.upd d k f).wfD d = true := SMap.wfD_set k _ h

/-- And keeping some of its entries. -/
theorem SMap.wfD_keep {α : Type} [DecidableEq α] {m : SMap α} {d : α} (p : Nat → α → Bool) (h : m.wfD d = true) :
    (m.keep p).wfD d = true := by
  simp only [SMap.wfD, Bool.and_eq_true] at h ⊢
  refine ⟨SMap.wf_filter _ h.1, ?_⟩
  rw [List.all_eq_true] at h ⊢
  exact fun e he => h.2 e (List.mem_of_mem_filter he)

/-! ### Reset -/

/-- Right after reset the memories of the device are in canonical form: media, map, block table, frames, registers. -/
theorem State.reset_tables_wf : State.reset.med.sectors.wf = true ∧ State.reset.med.table.wfD .blank = true ∧
    State.reset.siv.loafs.wfD .unmapped = true ∧ State.reset.siv.slices.wf = true ∧ State.reset.stk.frames.wfD .free = true ∧
    SMap.wf State.reset.regs.live = true ∧ SMap.wf State.reset.regs.shadow = true := by decide +kernel

end Sys2Proof.Machine
end

