-- ==== Sys2Proof/Laws/Notes.lean ====
section
/-!
SUPPORT. What the operations that only note something can do: a message, an interrupt flag, an event, a report, a count. Each
leaves every other part of the state, and every register but interrupt status, as it was.
-/

namespace Sys2Proof.Laws

open Sys2Proof Sys2Proof.Machine Sys2Proof.Safety

theorem noted_refl (s : State) : Noted s s :=
  ⟨s.tly, s.regs.live, [], s.rails.event, [], by simp, fun _ _ => rfl⟩

theorem noted_trans {s t u : State} (h : Noted s t) (h' : Noted t u) : Noted s u := by
  obtain ⟨tly, live, out, ev, reports, rfl, hl⟩ := h
  obtain ⟨tly', live', out', ev', reports', rfl, hl'⟩ := h'
  exact ⟨tly', live', out ++ out', ev', reports ++ reports', by simp, fun k hk => (hl' k hk).trans (hl k hk)⟩

/-- A run of operations that each only note something only notes something. -/
theorem noted_foldl {α : Type} {f : State → α → State} (hf : ∀ t x, Noted t (f t x)) (xs : List α) (s : State) :
    Noted s (xs.foldl f s) := by
  induction xs generalizing s with
  | nil => exact noted_refl s
  | cons x xs ih => exact noted_trans (hf s x) (ih (f s x))

theorem noted_emit (s : State) (o : Output) : Noted s (s.emit o) :=
  ⟨s.tly, s.regs.live, [o], s.rails.event, [], by simp [State.emit], fun _ _ => rfl⟩

theorem noted_record (s : State) (code p0 p1 p2 p3 : Nat) : Noted s (s.record code p0 p1 p2 p3) :=
  ⟨s.tly, s.regs.live, [], (s.record code p0 p1 p2 p3).rails.event, [], by simp [State.record], fun _ _ => rfl⟩

theorem noted_report (s : State) (source utype uid : Nat) : Noted s (s.report source utype uid) :=
  ⟨s.tly, s.regs.live, [], s.rails.event, [⟨source, utype, uid⟩], by simp [State.report], fun _ _ => rfl⟩

/-- The pages of the control window begin at multiples of 4 KiB (19 R517). -/
theorem base_aligned (p : RPage) : p.base % 4096 = 0 := by
  cases p <;> simp [RPage.base] <;> omega

theorem SMap_find_set_of_ne {α : Type} [DecidableEq α] (m : SMap α) (d : α) {j k : Nat} (v : α) (h : j ≠ k) :
    (m.set d k v).find j = m.find j := by
  unfold SMap.set
  split
  · exact SMap.find_del_of_ne m h
  · exact SMap.find_put_of_ne m v h

theorem noted_setIrqStat (s : State) (p : RPage) (v : W32) : Noted s (s.setIrqStat p v) := by
  refine ⟨s.tly, (s.setIrqStat p v).regs.live, [], s.rails.event, [], by simp [State.setIrqStat], fun k hk => ?_⟩
  have := base_aligned p
  exact SMap_find_set_of_ne _ _ _ (by omega)

theorem noted_sendMsix (s : State) (p : RPage) : Noted s (s.sendMsix p) := by
  unfold State.sendMsix
  dsimp only
  split
  · exact noted_emit s _
  · exact noted_refl s

/-- An event only notes itself. -/
theorem noted_raise (s : State) (p : RPage) (i : Nat) : Noted s (s.raise p i) := by
  unfold State.raise
  dsimp only
  split
  · exact noted_trans (noted_setIrqStat s p _) (noted_sendMsix _ p)
  · exact noted_setIrqStat s p _

@[simp] theorem sendMsix_regs (s : State) (p : RPage) : (s.sendMsix p).regs = s.regs := by
  unfold State.sendMsix
  dsimp only
  split <;> rfl

/-- What IRQ_STAT of a page reads after an event: that bit of that page is set, and nothing else changes (19 R520). -/
theorem irqStat_raise (s : State) (p q : RPage) (i : Nat) :
    (s.raise p i).irqStat q = if q.base = p.base then s.irqStat q ||| bit32 true i else s.irqStat q := by
  have h : (s.raise p i).regs = (s.setIrqStat p (s.irqStat p ||| bit32 true i)).regs := by
    unfold State.raise
    dsimp only
    split <;> simp
  unfold State.irqStat
  rw [h]
  simp only [State.setIrqStat, SMap.getD_set, State.irqStat]
  by_cases hb : q.base = p.base
  · simp [hb]
  · simp [hb]

theorem noted_tallies (s : State) (x : Tallies) : Noted s { s with tly := x } :=
  ⟨x, s.regs.live, [], s.rails.event, [], by simp, fun _ _ => rfl⟩

/-- A count adds to a counter and to its parents, and may raise their flag (18 R494). -/
theorem noted_bump (k fuel n : Nat) (s : State) : Noted s (s.bump k fuel n) := by
  induction fuel generalizing n s with
  | zero => exact noted_refl s
  | succ fuel ih =>
    unfold State.bump
    dsimp only
    split
    · exact noted_refl s
    · split <;> split
      · exact noted_trans (noted_trans (noted_tallies s _) (noted_raise _ _ _)) (ih _ _)
      · exact noted_trans (noted_tallies s _) (ih _ _)
      · exact noted_trans (noted_tallies s _) (noted_raise _ _ _)
      · exact noted_tallies s _

theorem noted_tally (s : State) (e : TEv) (k : Nat) : Noted s (s.tally e k) := by
  unfold State.tally
  refine noted_foldl (fun t n => ?_) _ s
  split
  · exact noted_bump _ _ _ t
  · exact noted_refl t

end Sys2Proof.Laws
end

