-- ==== Sys2Proof/Laws/Parts.lean ====
section
/-!
SUPPORT. One law per shared operation on a part of the device: what the part reads as after it, at every index; what a rail
holds after a push.
-/

namespace Sys2Proof.Machine

/-! ### Parts read back -/

theorem State.link_setLink (s : State) (n m : Nat) (f : Link → Link) :
    (s.setLink n f).link m = if m = n then f (s.link n) else s.link m := SMap.getD_upd _ _ _ _ _

theorem State.frame_setFrame (s : State) (f g : Nat) (x : Frame) :
    (s.setFrame f x).frame g = if g = f then x else s.frame g := SMap.getD_set _ _ _ _ _

theorem State.frame_updFrame (s : State) (f g : Nat) (h : Frame → Frame) :
    (s.updFrame f h).frame g = if g = f then h (s.frame f) else s.frame g := SMap.getD_set _ _ _ _ _

theorem State.loaf_setLoaf (s : State) (l k : Nat) (e : LoafE) :
    (s.setLoaf l e).loaf k = if k = l then e else s.loaf k := SMap.getD_set _ _ _ _ _

/-- A slice block has 256 entries (04 R121). -/
theorem State.sliceE_setSliceE (s : State) (b k b' k' : Nat) (e : SliceE) (h : k < 256) (h' : k' < 256) :
    (s.setSliceE b k e).sliceE b' k' = if b' = b ∧ k' = k then e else s.sliceE b' k' := by
  rw [State.sliceE, State.setSliceE_siv, SMap.getD_set]
  have : b' * 256 + k' = b * 256 + k ↔ b' = b ∧ k' = k := by omega
  simp only [this, State.sliceE]

theorem State.blk_updBlk (s : State) (x y : Nat) (f : Block → Block) :
    (s.updBlk x f).blk y = if y = x then f (s.blk x) else s.blk y := SMap.getD_upd _ _ _ _ _

/-- A burner has ten chip enables (06 R178). -/
theorem State.die_updDie (s : State) (b ce b' ce' : Nat) (f : Die → Die) (h : ce < 10) (h' : ce' < 10) :
    (s.updDie b ce f).die b' ce' = if b' = b ∧ ce' = ce then f (s.die b ce) else s.die b' ce' := by
  rw [State.die, State.updDie_dies, SMap.getD_upd]
  have : b' * 10 + ce' = b * 10 + ce ↔ b' = b ∧ ce' = ce := by omega
  simp only [this, State.die]

theorem State.burner_updBurner (s : State) (b c : Nat) (f : Burner → Burner) :
    (s.updBurner b f).burner c = if c = b then f (s.burner b) else s.burner c := SMap.getD_upd _ _ _ _ _

theorem State.ladle_updLadle (s : State) (p q : Nat) (f : Ladle → Ladle) :
    (s.updLadle p f).ladle q = if q = p then f (s.ladle p) else s.ladle q := SMap.getD_upd _ _ _ _ _

theorem State.slot_updSlot (s : State) (n m : Nat) (f : KeySlot → KeySlot) :
    (s.updSlot n f).slot m = if m = n then f (s.slot n) else s.slot m := SMap.getD_upd _ _ _ _ _

theorem State.ctx_updCtx (s : State) (n m : Nat) (f : Ctx → Ctx) :
    (s.updCtx n f).ctx m = if m = n then f (s.ctx n) else s.ctx m := SMap.getD_upd _ _ _ _ _

theorem State.chan_updChan (s : State) (c d : Nat) (f : Chan → Chan) :
    (s.updChan c f).chan d = if d = c then f (s.chan c) else s.chan d := SMap.getD_upd _ _ _ _ _

theorem State.hook_setHook (s : State) (h k : Nat) (x : Hook) :
    (s.setHook h x).hook k = if k = h then x else s.hook k := SMap.getD_set _ _ _ _ _

theorem State.rail_updRail (s : State) (i j : Nat) (f : PRail → PRail) :
    (s.updRail i f).rail j = if j = i then f (s.rail i) else s.rail j := SMap.getD_upd _ _ _ _ _

/-- A register that is written reads as written, and a register elsewhere as before. -/
theorem State.getLive_setLive (s : State) (p q : RPage) (o u : Nat) (v : W32) :
    (s.setLive p o v).getLive q u =
      if q.base + u = p.base + o then (if v = p.house s.fuses.grade o then q.house s.fuses.grade u else v) else s.getLive q u := by
  unfold State.getLive State.setLive SMap.set SMap.getD
  dsimp only
  by_cases h : q.base + u = p.base + o
  · rw [if_pos h, h]
    split
    · simp [SMap.find_del_self]
    · simp [SMap.find_put_self]
  · rw [if_neg h]
    split
    · rw [SMap.find_del_of_ne _ h]
    · rw [SMap.find_put_of_ne _ _ h]

/-! ### Rails -/

/-- A push adds the command at the end, whether the rail holds it or its producer is stalled with it (03 R82). -/
theorem Rail.waiting_push {α : Type} (n : Nat) (r : Rail α) (c : α) (prio : Nat) :
    (r.push n c prio).waiting = r.waiting ++ [c] := by
  unfold Rail.push
  split
  · simp [Rail.waiting]
  · rename_i h
    have : r.stalled = [] := by simp_all
    simp [Rail.waiting, Rail.stage, Rail.commit, this]

/-- A stalled producer that commits what it holds changes neither what waits nor its order. -/
theorem Rail.waiting_refill {α : Type} (n : Nat) (es : List (Slot α)) (r : Rail α) (h : r.stalled = []) :
    (Rail.refill n es r).waiting = r.waiting ++ (es.filter (fun e => !e.used)).map (·.cmd) := by
  induction es generalizing r with
  | nil => simp [Rail.refill, Rail.waiting, h]
  | cons e es ih =>
    rw [Rail.refill]
    split
    · simp [Rail.waiting, h]
    · have hs : ((r.stage n).commit e).stalled = [] := h
      rw [ih _ hs]
      simp only [Rail.waiting, Rail.stage, Rail.commit, h, List.append_nil, List.filter_append, List.map_append, List.filter_cons,
        List.filter_nil]
      split <;> simp

end Sys2Proof.Machine
end

