-- ==== Sys2Proof/WellFormed.lean ====
section
/-!
DEFINITION. Which commands are well formed: operands that the message or the access they come in can carry. A meaning is
total, so an ill-formed command is no fault; it is one that no sender can send.
-/

namespace Sys2Proof

/-- Whether a list has at most `n` entries. -/
def atMost {α : Type} (n : Nat) (xs : List α) : Bool := decide (xs.length ≤ n)

/-- Whether a list has exactly `n` entries. -/
def exactly {α : Type} (n : Nat) (xs : List α) : Bool := decide (xs.length = n)

/-- Whether an HPA or a DPA names a line (00_scope.md R4): 64-byte aligned. -/
def lineAligned (a : BitVec 64) : Bool := decide (a.toNat % 64 = 0)

/-- Whether a command is well formed. -/
def Instr.wf : Instr → Bool
  -- requests on a link carry line addresses (02_host_ports.md R46)
  | .memRd _ _ hpa _ _ => lineAligned hpa
  | .memRdData _ _ hpa _ => lineAligned hpa
  | .memWr _ _ hpa _ _ _ => lineAligned hpa
  | .memWrPtl _ _ hpa _ _ _ _ => lineAligned hpa
  | .memInv _ _ hpa _ => lineAligned hpa
  | .memInvNt _ _ hpa _ => lineAligned hpa
  | .memClnEvct _ _ hpa => lineAligned hpa
  | .memSpecRd _ hpa => lineAligned hpa
  -- register accesses: whole words of a request of at most 4 KiB (19 R521)
  | .registerWrite _ off words => decide (off.val % 4 = 0) && !words.isEmpty && atMost 1024 words
  | .loRegisterRead _ off words => decide (off.val % 4 = 0) && decide (1 ≤ words.val)
  -- the count of a vendor command is a byte (19 R523)
  | .mctpWrite _ words => atMost 255 words
  -- a quick trim or a full training answers per die, at most ten to a burner (06 R178)
  | .fullTraining _ _ res => atMost 10 res
  | .readLevelCalibration _ _ _ best _ => atMost 16 best && best.all (exactly 3)
  | .alertN _ words temps => atMost 10 words && atMost 10 temps
  -- a parameter page is 3,072 bytes or nothing; an owner record 64, a training pattern 512 (06 R183, R198,
  -- R199)
  | .parameterPage _ _ bytes => bytes.isEmpty || exactly 3072 bytes
  | .ownerRead _ _ _ bytes => bytes.isEmpty || exactly 64 bytes
  | .trainWrite _ _ pattern => exactly 512 pattern
  -- the sensors of a round: 64, 16 and 320 (17 R476), and the answers of 15 slaves (15 R446)
  | .housekeepingRound ctl stack media _ _ answers _ =>
    exactly 64 ctl && exactly 16 stack && exactly 320 media && atMost 15 answers
  | .yvCmdGo _ _ _ _ _ _ payload => atMost 255 payload
  -- a mailbox payload has at most 64 KiB (02 R63)
  | .clearAlarmResume _ blk => atMost 0x10000 blk
  | .clearAlarmReformat _ _ blk => atMost 0x10000 blk
  | .clearSpike _ blk => atMost 0x10000 blk
  | .fabricOwnerTransfer _ _ blk => atMost 0x10000 blk
  | .setOwnerSecret _ input => atMost 0x10000 input
  | .setLsa _ _ data => atMost 0x10000 data
  | .transferFw _ _ _ _ data _ _ => atMost 0x10000 data
  | .setAlertConfiguration _ bytes => exactly 12 bytes
  | .setEventInterruptPolicy _ bytes => atMost 5 bytes
  | .clearEventRecords _ _ _ handles => atMost 255 handles
  | _ => true

end Sys2Proof
end

