-- ==== Sys2Proof/Tests/Slice0.lean ====
section
/-!
SUPPORT. Tests: the well-formedness smoke, values worked out in the spec, and for every claim with hypotheses a state and
operands that meet them, each clause at a value of its own.
-/

namespace Sys2Proof.Tests

open Sys2Proof Sys2Proof.Machine Sys2Proof.Safety

set_option Elab.async false

/-- A device that runs, with 10 dies per burner known and no link up. -/
def base : State :=
  { State.reset with
    pwrState := .boil, med := { State.reset.med with dies := 10, formatted := true }
    stk := { State.reset.stk with frozen := false }, siv := { State.reset.siv with ready := true }
    boot := { State.reset.boot with ready := true, seq := .idle, running := 1 } }

/-- The same with a link up and memory-active. -/
def upOn (n : Nat) : State := base.setLink n (fun l => { l with up := true, memActive := true, flit256 := true, width := 5, rate := 6 })

/-! ### Well-formed commands: one term that each check refuses -/

theorem test_illFormed_requests : ∀ c ∈ [Instr.memRd 0 0 1 .inv false, .memRdData 0 0 2 true, .memWr 0 0 4 0 false .inv,
    .memWrPtl 0 0 8 0 0 false .inv, .memInv 0 0 16 .inv, .memInvNt 0 0 32 .inv, .memClnEvct 0 0 63, .memSpecRd 0 65], c.wf = false := by
  decide +kernel

theorem test_illFormed_accesses : ∀ c ∈ [Instr.registerWrite .mctp 2 [.part], .registerWrite .mctp 4 [],
    .registerWrite .mctp 4 (List.replicate 1025 .skipped), .loRegisterRead .mctp 3 1, .loRegisterRead .mctp 4 0,
    .mctpWrite 0 (List.replicate 256 0)], c.wf = false := by decide +kernel

theorem test_illFormed_operations : ∀ c ∈ [Instr.fullTraining .internal 0 (List.replicate 11 ⟨0, 0, 0, 0, true⟩),
    .readLevelCalibration .internal 0 0 (List.replicate 17 [0, 0, 0]) 0, .readLevelCalibration .internal 0 0 [[0]] 0,
    .alertN 0 (List.replicate 11 0) [], .alertN 0 [] (List.replicate 11 0), .parameterPage 0 0 [1], .ownerRead 0 0 false [1],
    .trainWrite 0 0 [], .housekeepingRound [] (List.replicate 16 none) (List.replicate 320 none) 0 0 [] false,
    .yvCmdGo .mctp 0 0 0 0 0 (List.replicate 256 0)], c.wf = false := by decide +kernel

theorem test_illFormed_payloads : ∀ c ∈ [Instr.setAlertConfiguration .mctp [], .setEventInterruptPolicy .mctp (List.replicate 6 0),
    .clearEventRecords .mctp 0 false (List.replicate 256 0)], c.wf = false := by decide +kernel

theorem test_illFormed_longPayload (b : List Byte) (h : 0x10000 < b.length) : ∀ c ∈ [Instr.clearAlarmResume .mctp b,
    .clearAlarmReformat .mctp 0 b, .clearSpike .mctp b, .fabricOwnerTransfer .mctp 0 b, .setOwnerSecret .mctp b, .setLsa .mctp 0 b,
    .transferFw .mctp 0 0 0 b 0 true], c.wf = false := by
  simp [Instr.wf, atMost, h]

theorem test_wellFormed : ∀ c ∈ [Instr.memRd 0 0 64 .inv false, .registerWrite .mctp 4 [.part], .mctpWrite 0 [], .commit .mctp,
    .setAlertConfiguration .mctp (List.replicate 12 0), .ownerRead 0 0 true []], c.wf = true := by decide +kernel

/-! ### Values worked out in the spec -/

/-- R338: the nine bytes "123456789" leave 0x1CF9_6D7C in the register, which is the standard check value 0xE306_9283. -/
theorem test_crc32c_checkValue : crcRun 0xFFFFFFFF [0x31, 0x32, 0x33, 0x34, 0x35, 0x36, 0x37, 0x38, 0x39] = 0x1CF96D7C ∧
    crc32c [0x31, 0x32, 0x33, 0x34, 0x35, 0x36, 0x37, 0x38, 0x39] = 0xE3069283 := by decide +kernel

/-- R427, R428: the bank of the example discharges in 120.1 ms, which is 11,400 µF, and its hold threshold is 27.01 V. -/
theorem test_kettle_example : kettleC 120110 = 11400 ∧ (base.setLive .pwr 0x48 0x000205F0).vHold 11400 = 0x0A8D := by decide +kernel

/-- The worked example of 02_host_ports.md: window 5 of port 3, keyed in key group 3, with decoder 5 of link 13 over it. -/
def keyedWindow : State :=
  ((((((upOn 13).setLive (.port 3) 0x1A0 0x400).setLive (.port 3) 0x1A4 0x100).setLive (.port 3) 0x1A8 0x8000001C).setLive
    (.port 3) 0x1AC 2)).setLink 13 (fun l => { l with decoders := [(5, ⟨2 ^ 52, 2 ^ 52, 1, 256, true, false⟩)] })

/-- R50, R51: it decodes to DPA 0x40_1234_5680 with key slot 236; with offset bit 45 set, or past the size, it is out of range. -/
theorem test_keyedWindow_example :
    keyedWindow.hostDecode 13 0x001B000012345680 = .hit 5 (0x4012345680 / 64) 236 44 .priv ∧
    keyedWindow.hostDecode 13 0x0010200012345680 = .miss 5 1 ∧ keyedWindow.hostDecode 13 0x0010001000000000 = .miss 5 2 := by
  decide +kernel

/-! ### The machine, tables and rails -/

theorem wit_StepRunsFront : ({ base with pending := [Instr.nop 3, .vauxLoss true] } : State).pending =
    .nop 3 :: [.vauxLoss true] := rfl

theorem wit_IdleStepRuns : base.pending = [] := rfl

theorem wit_FusesKept : FusesKept base base := ⟨rfl, rfl, rfl, Nat.le_refl _, Nat.le_refl _⟩

theorem wit_CanonicalTablesAreEqual : SMap.wfD [(1, 5), (4, 7)] 0 = true := by decide

theorem wit_SectorAddressFields : (31 < 32 ∧ 9 < 16 ∧ 2047 < 2048 ∧ 1023 < 1024 ∧ 3 < 4 ∧ 63 < 64) ∧ 2 ^ 38 - 1 < 2 ^ 38 := by decide

/-- Loaf 0 at quad 5. -/
def onMedia : State := { base with siv := { base.siv with loafs := [(0, ⟨1, 5, 0, false⟩)] } }

theorem wit_LoafQuadPlaces : (onMedia.loaf 0).fmt = 1 ∧ (onMedia.loaf 0).loc < 2 ^ 30 := by decide +kernel

theorem wit_RailGivesHighestThenOldest :
    ((⟨[⟨1, 2, false⟩, ⟨2, 5, false⟩, ⟨3, 5, true⟩], 0, 0, 0, 0, 0, []⟩ : Rail Nat).take 4).map Prod.fst = some 2 ∧
    (⟨[⟨1, 2, true⟩], 0, 0, 0, 0, 0, []⟩ : Rail Nat).take 4 = none := by decide +kernel

theorem wit_MessageFieldsReadBack : 65535 < 256 ^ 2 := by decide

theorem wit_ChunkEndsAtBoundary : 4095 < (⟨1, true, 0, 0, 0, 0, 64, 8192, 0, 0, 0, 0⟩ : WDesc).length := by decide

/-! ### Mailbox commands -/

theorem wit_IdentifyAnswers : base.mailboxUp .mctp = true ∧ Serves (upOn 9) (.link 9) anyone := by
  unfold Serves; decide +kernel

theorem wit_CapacityIsPersistent :
    (Serves (upOn 9) (.link 9) anyone ∧ (upOn 9).windowUnits 9 < 2 ^ 64) ∧ Serves base .mctp anyone ∧ base.capacity / 2 ^ 28 = 131072 := by
  unfold Serves; decide +kernel

theorem wit_DeviceStateReport : (upOn 9).mailboxUp (.link 9) = true ∧ (upOn 9).clk.cycles < 2 ^ 24 := by decide +kernel

/-- With alerts configured, a command in the background on one link, an ended one on another, and an event on link 9. -/
def mail : State :=
  { upOn 9 with mbx := { base.mbx with
    alerts := List.replicate 12 1, runs := [⟨.link 9, 0x4304, 0, true, [], []⟩, ⟨.mctp, 0x4400, 5, false, [], []⟩]
    done := [⟨.link 3, 0xFFFF, 0xFFFF⟩] } }.setLink 3 (fun l => { l with up := true, events := [⟨2, 5, []⟩] })

theorem wit_SettingsReadBack : Serves mail (.link 9) anyone ∧ mail.mbx.alerts.length = 12 ∧
    ((65536#32).toNat ≤ 65536 ∧ celUuid = celUuid) ∧ 65536 < (65537#32).toNat := by
  unfold Serves; decide +kernel

theorem wit_HealthAndFirmwareReport : Serves base .mctp anyone ∧ Serves base .mctp (base.fwAccess true) ∧ base.boot.running < 8 ∧
    base.boot.state.pendingFw < 8 := by
  unfold Serves; decide +kernel

theorem wit_BackgroundStatusReport :
    (Serves mail (.link 9) anyone ∧ mail.mbx.runs.find? (fun r => decide (r.path = .link 9) && r.bg) = some ⟨.link 9, 0x4304, 0, true, [], []⟩) ∧
    (Serves mail (.link 3) anyone ∧ mail.mbx.runs.find? (fun r => decide (r.path = .link 3) && r.bg) = none ∧
      mail.mbx.done.find? (fun x => decide (x.path = .link 3)) = some ⟨.link 3, 0xFFFF, 0xFFFF⟩) ∧
    (Serves mail .mctp anyone ∧ mail.mbx.runs.find? (fun r => decide (r.path = .mctp) && r.bg) = none ∧
      mail.mbx.done.find? (fun x => decide (x.path = .mctp)) = none) := by
  unfold Serves; decide +kernel

theorem wit_EventsOfTheIssuingLink : Serves mail (.link 3) anyone ∧
    (∀ e ∈ mail.logOf (mail.pathLink (.link 3)) 2, e.handle % 2 ^ 16 ≠ (6#16).toNat) ∧ (List.replicate 5 (1 : Byte)).length = 5 := by
  unfold Serves; decide +kernel

theorem wit_SettingsAreRecorded : Serves base .mctp ownerOnly ∧
    (upOn 9).mailboxUp (.link 9) = true ∧ (upOn 9).recovery = false ∧ (upOn 9).pwrState ≠ .simmer ∧ (upOn 9).isFo (.link 9) = false := by
  unfold Serves; decide +kernel

theorem wit_LabelStorageReadsBack : Serves base .mctp ownerOnly ∧ (0#32).toNat + ([] : List Byte).length ≤ Config.lsaSize ∧
    Config.lsaSize < (0#32).toNat + (List.replicate (Config.lsaSize + 1) (0 : Byte)).length ∧
    ((0#32).toNat + (0#32).toNat ≤ Config.lsaSize ∧ (0#32).toNat ≤ 65536) := by
  refine ⟨by unfold Serves; decide +kernel, Nat.zero_le _, ?_, Nat.zero_le _, by decide⟩
  simp

theorem wit_RefusedAndLongCommands : Serves base .mctp ownerOnly ∧ (base.mailboxUp .mctp = true ∧ base.pwrState ≠ .simmer) ∧
    mail.mbx.runs.find? (fun r => decide (r.path = .mctp) && !r.bg) = some ⟨.mctp, 0x4400, 5, false, [], []⟩ := by
  unfold Serves; decide +kernel

/-- Link 0 up, its hooks open to it, hook 7 free and hook 8 held by it with serial 3. -/
def hooked : State :=
  (((upOn 0).setLive .spr 0x800 1).setHook 7 { Hook.fresh with state := 0 }).setHook 8 { Hook.fresh with state := 1, owner := 0, serial := 3 }

theorem wit_SetHookLease : Serves base .mctp ownerOnly ∧ ((4095 < 4096 ∧ 1 ≤ 1 ∧ 4095 + 1 ≤ 4096 ∧ (10 ≤ 4194303 ∧ 4194303 ≤ 4194303)) ∧
    ¬ (4095 < 4096 ∧ 1 ≤ 2 ∧ 4095 + 2 ≤ 4096)) ∧
    ((hooked.hook 8).set = 0 ∧ hooked.fenceAdmits 0 (by decide) false = true ∧ (hooked.link 0).blocked = [] ∧
      hooked.hookWritable 8 0 = true ∧ hooked.hookActs 8 0 3 = true) ∧
    (hooked.fenceAdmits 0 (by decide) true = true ∧ hooked.hookOpen 7 0 = true ∧ (hooked.hook 7).state = 0) := by
  unfold Serves; decide +kernel

/-- A firmware transfer under way to slot 2, slot 2 valid and pending, and running. -/
def firm : State :=
  { base with
    mbx := { base.mbx with xferSlot := 2, xfer := List.replicate 128 0 }
    nor := { base.nor with fw2 := some ⟨[], 1, 0, true⟩ }
    boot := { base.boot with running := 2, state := { base.boot.state with pendingFw := 2 } } }

theorem wit_FirmwareArrivesInOrder : (Serves base .mctp (base.fwAccess false) ∧ base.boot.running ≠ 2 ∧ base.mbx.xferSlot = 0) ∧
    (Serves firm .mctp (firm.fwAccess false) ∧ firm.mbx.xferSlot ≠ 0 ∧ (1#32).toNat * 128 = firm.mbx.xfer.length) ∧
    (2#32).toNat * 128 ≠ firm.mbx.xfer.length := by
  unfold Serves; decide +kernel

theorem wit_FirmwareBecomesActive : Serves firm .mctp (firm.fwAccess false) ∧ firm.fwValid 1 = false ∧ firm.fwValid 2 = true ∧
    firm.recovery = false ∧ firm.pwrState = .boil ∧ firm.boot.ready = true ∧ firm.boot.state.pendingFw ≠ 0 ∧
    firm.boot.state.pendingFw = firm.boot.running ∧ firm.boot.seq ≠ .preReset := by
  unfold Serves; decide +kernel

/-! ### Dynamic capacity, discard, poison -/

/-- Link 3 has an extent of region 2, and another offered. -/
def dcd : State :=
  { (upOn 3).setLink 3 (fun l => { l with up := true, extents := [⟨8, 1, 2, 0, 0⟩], offered := [⟨9, 1, 2, 0, 0⟩] }) with
    ports := { ((upOn 3).setLink 3 (fun l => { l with extents := [⟨8, 1, 2, 0, 0⟩], offered := [⟨9, 1, 2, 0, 0⟩] })).ports with
      regions := [(2, ⟨8, 4⟩)] } }

theorem wit_RegionsAndExtentsReadBack : (Serves dcd .mctp ownerOnly ∧
    (∀ e ∈ dcd.ports.links, ∀ x ∈ e.2.extents ++ e.2.offered, x.region ≠ 7) ∧ (131071#32).toNat + (1#32).toNat ≤ 2 ^ 17) ∧
    (∃ e ∈ dcd.ports.links, ∃ x ∈ e.2.extents ++ e.2.offered, x.region = 2) ∧ Serves dcd (.link 3) anyone ∧
    (dcd.region 2).base < 2 ^ 17 ∧ (dcd.region 2).len < 2 ^ 18 := by
  unfold Serves; decide +kernel

theorem wit_ExtentsAreOfferedAndAccepted : (Serves dcd .mctp ownerOnly ∧ (dcd.region 2).base ≤ 11 ∧
      11 + 1 ≤ (dcd.region 2).base + (dcd.region 2).len ∧ (dcd.link 3).extents.length + (dcd.link 3).offered.length < 1024) ∧
    (dcd.region 2).base + (dcd.region 2).len < 12 + 1 ∧
    (Serves dcd (.link 3) anyone ∧ (dcd.link (dcd.pathLink (.link 3))).offered = [⟨9, 1, 2, 0, 0⟩]) ∧
    (⟨8, 1, 2, 0, 0⟩ : Extent) ∈ (dcd.link 3).extents := by
  unfold Serves; decide +kernel

theorem wit_DiscardedLoavesReadZero : Serves base .mctp anyone ∧ (65536#64).toNat % 65536 = 0 ∧
    base.mayRange .mctp ((65536#64).toNat / 256) ((65536#64).toNat / 256) = true ∧
    (∀ e ∈ base.stk.frames, inSpan 256 256 e.2.slice = true → e.2.redirty = false) ∧
    (∀ e ∈ base.spr.dir, inSpan 256 256 (e.2.line / 4) = false) ∧ base.inFlush 256 256 = false ∧ base.stagingRoom 1 = true ∧
    ((128#64).toNat % 256 ≠ 0) := by
  unfold Serves; decide +kernel

theorem wit_ReleasedExtentsReadZero :
    let s := dcd
    (s.link 3).extents = [⟨8, 1, 2, 0, 0⟩] ∧ s.stk.frames = [] ∧ s.spr.dir = [] ∧ s.inFlush (8 * 2 ^ 20) (2 ^ 20) = false ∧
      s.stagingRoom 1 = true ∧ s.writesWait (some 3) [(8 * 2 ^ 20, 2 ^ 20)] = false ∧
      (Serves s (.link 3) anyone ∧ s.pathLink (.link 3) = 3) ∧ Serves s .mctp ownerOnly := by
  unfold Serves; decide +kernel

theorem wit_PoisonCommands : (Serves base .mctp anyone ∧ base.mayRange .mctp ((0xFFFFFFFFF00#64).toNat / 256) 1 = true) ∧
    ((64#64).toNat % 64 = 0 ∧ (64#64).toNat < base.capacity ∧ (base.stewardWrite 1 5 false).isSome = true) ∧
    (({ base with stk := { base.stk with frozen := true } } : State).stewardWrite 1 5 false = none) ∧
    ((1#64).toNat % 64 ≠ 0 ∧ base.capacity ≤ (BitVec.ofNat 64 (2 ^ 45)).toNat) := by
  unfold Serves; decide +kernel

theorem wit_ScanMediaCommands : Serves base .mctp anyone ∧
    base.mayRange .mctp 0 (((0#64).toNat / 64 + (4#64).toNat + 3) / 4 - (0#64).toNat / 256) = true ∧ base.mbx.runs = [] ∧
    base.mbx.scan = [] := by
  unfold Serves; decide +kernel

/-! ### Protection -/

/-- Slot 5 loaded, the others empty; a nonce outstanding, a lockout. -/
def keyed : State :=
  { base.updSlot 5 (fun k => { k with state := 1, keyId := 9 }) with
    prot := { base.prot with nonce := some (List.replicate 16 7), lockedUntil := some 99 } }

theorem wit_KeyInfoLayout : Serves keyed .mctp anyone ∧ (15#8).toNat < 16 ∧ keyed.ownsGroup .mctp 15 = true ∧
    (keyed.slot (15 * 64 + 63)).state < 2 ^ 16 ∧ 16 ≤ (16#8).toNat ∧ (Serves (upOn 9) (.link 9) anyone ∧ (upOn 9).ownsGroup (.link 9) 0 = false) := by
  unfold Serves; decide +kernel

theorem wit_GeneratedKeyLoadsWhenDurable : Serves keyed .mctp anyone ∧ (1023#16).toNat < 1024 ∧ keyed.ownsGroup .mctp (1023 / 64) = true ∧
    keyed.prot.jobs = [] ∧ keyed.mbx.runs = [] ∧ (keyed.slot 1023).state = 0 ∧ (keyed.slot 5).state ≠ 0 := by
  unfold Serves; decide +kernel

theorem wit_ErasedKeyIsEmptyAtOnce : Serves keyed .mctp anyone ∧ keyed.ownsGroup .mctp (5 / 64) = true ∧
    keyed.prot.jobs = [] ∧ keyed.mbx.runs = [] ∧ (keyed.slot 5).state ≠ 0 ∧ (keyed.slot 1023).state = 0 := by
  unfold Serves; decide +kernel

theorem wit_EraseAllEmptiesEverySlot : Serves keyed .mctp ownerOnly ∧ keyed.prot.jobs = [] ∧ keyed.mbx.runs = [] := by
  unfold Serves; decide +kernel

theorem wit_NonceAndLockout : Serves keyed .mctp ownerOnly ∧ keyed.prot.nonce = some (List.replicate 16 7) ∧
    keyed.prot.lockedUntil = some 99 := by
  unfold Serves; decide +kernel

/-- The fabric owner's link with a secure stream, and with an owner secret whose third block fails. -/
def owner : State := (upOn 0).setLink 0 (fun l => { l with ideIo := true })
def guarded : State := { owner with prot := { owner.prot with secret := some [], authFails := 2 } }

theorem wit_OwnerSecretIsSet : Serves owner (.link 0) ownerOnly ∧ ([] : List Byte).length < 64 ∧ 64 ≤ (List.replicate 64 (0 : Byte)).length ∧
    owner.prot.secret = none ∧ owner.ideSecurePath .mctp = false ∧ owner.ideSecurePath (.link 0) = true ∧ owner.prot.jobs = [] ∧
    owner.mbx.runs = [] ∧
    (Serves guarded .mctp ownerOnly ∧ guarded.prot.secret = some [] ∧ guarded.prot.lockedUntil = none ∧
      guarded.blockPasses [] 0xC014 (List.replicate 32 0) (List.replicate 32 0) = false ∧ guarded.prot.authFails = 2) := by
  unfold Serves; decide +kernel

/-- In lid down, with a usable vault. -/
def lidded : State := { base with prot := { base.prot with lid := true, vaultA := true } }

theorem wit_ForcedLidTakesEveryLinkDown : Writes base .mctp .key ∧ base.prot.lid = false ∧ Writes lidded .mctp .key ∧ lidded.prot.lid = true := by
  unfold Writes Clear; decide +kernel

theorem wit_ClearAlarmOutcomes : (Serves base .mctp ownerOnly ∧ 32 ≤ (List.replicate 32 (0 : Byte)).length ∧ base.prot.secret = none ∧
    2 ≤ (2#8).toNat ∧ base.prot.lid = false) ∧
    (Serves lidded .mctp ownerOnly ∧ lidded.prot.lid = true ∧ lidded.vaultUsable = true ∧ lidded.prot.jobs = [] ∧ lidded.mbx.runs = []) := by
  unfold Serves; decide +kernel

/-- A keyed window over the first 256 MiB, slice 2^20 held whole in the stockpot, a sector of host data. -/
def raws : State :=
  let s := ((base.setLive (.port 0) 0x104 1).setLive (.port 0) 0x108 0x80000004)
  let t := s.setFrame 0 { Frame.free with slice := 2 ^ 20, valid := 15, state := .resident }
  { t with med := { t.med with sectors := t.med.sectors.put 77 { padSector with kind := 2 } } }

theorem wit_RawAccessNeverShowsKeyedData : raws.keyedLine (2 ^ 22 - 1) = true ∧
    (raws.keyedLine (2 ^ 22 + 3) = false ∧ raws.resident ((2 ^ 22 + 3) / 4) = some 0 ∧
      (raws.frame 0).valid.getLsbD ((2 ^ 22 + 3) % 4) = true ∧ (raws.frame 0).poison.getLsbD ((2 ^ 22 + 3) % 4) = false) ∧
    (raws.sector 77 = some { padSector with kind := 2 }) := by
  decide +kernel

/-! ### Sessions and link keys -/

/-- Link 0 up and inside a session, with a key of stream 1, set 0, transmit, programmed; link 1 up and Insecure on stream 5. -/
def session : State :=
  { (upOn 0).setLink 1 (fun l => { l with up := true, insecure := [5] }) with
    prot := { base.prot with doe := [(0, 5)], ideKeys := [(0, [ideCode 1 0 true])] } }

theorem wit_SessionsAreSetUpInOrder : (session.link 0).up = true ∧ (5 ≤ session.prot.doe.getD 0 0 ∧ session.prot.doe.getD 0 0 ≤ 5) ∧
    (session.link 1).up = true ∧ session.prot.doe.getD 1 0 < 5 ∧ 0 ≤ session.prot.doe.getD 1 0 := by decide +kernel

theorem wit_SessionQueriesAnswer : (session.link 0).up = true ∧ (session.link 1).up = true := by decide +kernel

theorem wit_IdeKeysComeIntoUse : (session.link 0).up = true ∧ session.prot.doe.getD 0 0 = 5 ∧
    ideCode 1 0 true ∈ session.prot.ideKeys.getD 0 [] := by decide +kernel

theorem wit_FailedCheckMakesStreamInsecure : ((session.link 0).up = true ∧ (session.link 0).insecure.contains 5 = false) ∧
    (session.link 2).up = false ∧ (session.link 1).insecure.contains 5 = true := by decide +kernel

/-! ### Links -/

/-- Port 1 has the alternate's link up while the primary's is down. -/
def alternate : State := upOn 4

theorem wit_LinkTrains : base.pwrState ≠ .simmer ∧ ((base.setLink 31 (fun l => { l with held := false })).link 31).up = false ∧
    (let s := (base.setLink 0 (fun l => { l with held := false }))
     (s.link 0).held = false ∧ s.mayTrain 0 = true ∧ 0 < (s.goodLanes 0).2 ∧ 5 ≤ widthCode (s.goodLanes 0).2) ∧
    (base.link 0).held = true ∧ widthCode (base.goodLanes 0).2 < 6 := by decide +kernel

theorem wit_LinkGoesDown : ((upOn 31).link 31).up = true ∧
    ((base.setLink 2 (fun l => { l with retraining := true })).link 2).retraining = true ∧
    ((upOn 31).link 30).up = false ∧ ((upOn 31).link 30).retraining = false := by decide +kernel

theorem wit_GpfPhasesAnswer : ((upOn 9).link 9).up = true ∧ (upOn 9).pwrState ≠ .flush ∧ (∀ k < 32, ((upOn 9).link k).iwq = []) ∧
    ({ upOn 9 with pwrState := .flush } : State).pwrState = .flush := by decide +kernel

theorem wit_ViralAndDecoders : ((upOn 9).link 9).up = true ∧ ((upOn 9).link 9).insecure.contains 1 = false := by decide +kernel

theorem wit_AlternateTakesTheRole : (alternate.ports.foPort = alternate.rolePort 0 ∧ alternate.rolePort 1 ≠ alternate.rolePort 0 ∧
      (alternate.link (alternate.rolePort 0 * 4)).up = false ∧ (alternate.link (alternate.rolePort 1 * 4)).up = true) ∧
    ((upOn 0).link ((upOn 0).rolePort 0 * 4)).up = true := by decide +kernel

/-- Link 0, the fabric owner's, is up; link 9 is disabled. -/
def disabled : State := (upOn 0).setLink 9 (fun l => { l with disabled := true })

theorem wit_LinkControlActions : Serves disabled .mctp ownerOnly ∧ Path.mctp ≠ .link 9 ∧ Serves disabled (.link 0) ownerOnly ∧
    (disabled.link 9).disabled = true ∧ (disabled.link 0).up = true := by
  unfold Serves; decide +kernel

theorem wit_FabricOwnerTransferMovesTheRole : Serves (upOn 28) .mctp ownerOnly ∧ 32 ≤ (List.replicate 32 (0 : Byte)).length ∧
    (upOn 28).prot.secret = none ∧ (7#8).toNat < 8 ∧ ((upOn 28).link ((7#8).toNat * 4)).up = true ∧ 8 ≤ (8#8).toNat ∧
    ((upOn 28).link ((6#8).toNat * 4)).up = false ∧ ([] : List Byte).length < 32 := by
  unfold Serves; decide +kernel

theorem wit_NoMemoryIsOutOfRange :
    let s := (upOn 31).setLink 31 (fun l => { l with memActive := false })
    Takes s 31 ∧ s.quiesced 31 = false ∧ (s.link 31).memActive = false ∧ 0 < (s.link 31).credits := by
  unfold Takes; decide +kernel

/-- Link 9 up, with decoder 0 committed over an open-shelf window of 1 GiB at DPA 0, and one write in its queue. -/
def window (queue : List IwqEntry) : State :=
  ((((upOn 9).setLive (.port 2) 0x104 4).setLive (.port 2) 0x108 0x80000001).setLive (.port 2) 0x10C 15).setLink 9 (fun l =>
    { l with decoders := [(0, ⟨0, 0x40000000, 1, 256, true, false⟩)], iwq := queue })
def queued : IwqEntry :=
  { seq := 1, line := 3, data := 5, mask := fullMask, keyslot := 0, wtype := .openShelf, poison := false, committed := true
    metaVal := 0, tag := 0, sent := true, at' := 0, arr := 0, heldAt := false }

theorem wit_RequestsInPlainWindows :
    Takes (window []) 9 ∧ (window []).quiesced 9 = false ∧ (window []).hostDecode 9 0x3FFFFFC0 = .hit 0 0xFFFFFF 0 0 .openShelf ∧
      WinType.openShelf ≠ .coherent ∧ ((window []).link 9).iwq = [] ∧ 0 < ((window []).link 9).credits ∧
      ((window [queued]).hostDecode 9 192 = .hit 0 3 0 0 .openShelf ∧ ((window [queued]).link 9).iwq = [queued] ∧ queued.line = 3 ∧
        queued.mask = fullMask ∧ queued.poison = false) := by
  unfold Takes; decide +kernel

/-! ### Coherence -/

/-- One snoop of a tracker under way on link 9, of one kind. -/
def snooped (kind : Nat) : State :=
  { upOn 9 with spr := { base.spr with
    trackers := [⟨4, 100, .abandon, [], false, none⟩], snoops := [⟨4, 9, 9, kind, 100, 0, some 7, 0, none, []⟩]
    dir := [(4, ⟨100, .exclusive, false, [9], 0, 0⟩)] } }

theorem wit_SnoopAnswers : ∀ kind ∈ ([0, 1, 2] : List Nat),
    let s := snooped kind
    let x : Snp := ⟨4, 9, 9, kind, 100, 0, some 7, 0, none, []⟩
    Takes s 9 ∧ s.spr.trackers = [⟨4, 100, .abandon, [], false, none⟩] ∧ s.spr.snoops = [x] ∧ x.tracker = 4 ∧
      x.tag = some (7#12).toNat ∧ x.link / 4 = 9 / 4 ∧ x.answer = none ∧ x.line = 100 ∧ s.spr.queue = [] ∧ s.spr.flushTodo = [] ∧
      (s.link 9).iwq = [] ∧ s.spr.dir = [(4, ⟨100, .exclusive, false, [9], 0, 0⟩)] ∧ ([9] : List Nat) = [x.holder] := by
  unfold Takes; decide +kernel

theorem wit_SnoopTimeoutAndFlush : (Clocked (snooped 2) ∧
      ((snooped 2).spr.snoops.find? (fun x => decide (x.link = 9) && x.tag.isSome && !(snooped 2).answered x)).isSome = true ∧
      ((snooped 2).link 9).up = true) ∧
    (Writes base .mctp .spr ∧ base.spr.flushing = false ∧ base.spr.dir = [] ∧ base.spr.trackers = [] ∧ base.spr.snoops = [] ∧
      base.spr.flushTodo = []) ∧
    (Writes { base with spr := { base.spr with flushing := true } } .mctp .spr) ∧
    (Clocked base ∧ base.heard .mctp = true ∧ base.view .mctp .spr ≠ .hidden) := by
  unfold Writes Clear Clocked; decide +kernel

/-! ### Ladles, translation, the pass -/

/-- Ladle 7 with an invalidation and a zero run under way, a line on its Invalidate rail. -/
def ladled : State :=
  { base.updLadle 7 (fun l => { l with invBusy := true, zeroBusy := true, enabled := true }) with
    rails := { base.rails with invalidate := [(7, Rail.empty.push 256 5 0), (6, Rail.empty.push 256 5 0)] } }

theorem wit_LadleControls : Writes ladled .mctp (.ldl 7) ∧ (ladled.ladle 7).invBusy = true ∧ Clocked ladled ∧ ladled.mbx.runs = [] ∧
    (Writes base .mctp (.ldl 7) ∧ (base.ladle 7).invBusy = false ∧ base.liveFld (.ldl 7) 0x44 29 0 = 0) := by
  unfold Writes Clear Clocked; decide +kernel

theorem wit_ZeroRunsAndInvalidations : (Writes ladled .mctp (.ldl 7) ∧ (ladled.ladle 7).zeroBusy = true) ∧
    (Writes base .mctp (.ldl 0) ∧ (base.ladle 0).zeroBusy = false ∧ base.zeroRefused 0 1 = false ∧ base.zeroRefused 0 4097 = true) ∧
    (Clocked ladled ∧ ((ladled.rails.invalidate.getD 7 .empty).take 256).isSome = true ∧ (ladled.ladle 7).enabled = true ∧
      (ladled.ladle 6).enabled = false) := by
  unfold Writes Clear Clocked; decide +kernel

/-- A loaf on media at quad 5 (sector 1280 and up), a load of its slice 1 with its lookup on Translate rail 1, and one for frame 0 with
HOME unknown on rail 0. -/
def aLoad : Load :=
  { link := 9, tag := 3, line := 4, keyslot := 0, keyId := 0, wtype := .openShelf, metaVal := 0, stage := .translate, started := 0
    fill := none, respE := 0 }
def looked (locked : List Nat) : State :=
  let s := (upOn 9).setFrame 0 { Frame.free with slice := 0, state := .resident, valid := 1 }
  { s with
    siv := { s.siv with loafs := [(0, ⟨1, 5, 0, false⟩)] }, mec := { s.mec with locked := locked }
    loads := [(2, aLoad)]
    rails := { s.rails with translate := [(0, Rail.empty.push 512 (.home 0) 0), (1, Rail.empty.push 512 (.load 2) 7)] } }

theorem wit_LookupsResolve :
    (Clocked (looked []) ∧ ((((looked []).rails.translate.getD 1 .empty).take 512).map (·.1) = some (.load 2)) ∧
      (looked []).loads.find 2 = some aLoad ∧ aLoad.stage ≠ .masked ∧ (looked []).lockedUnit 1 = false ∧
      (looked []).lookup 1 0 = .sector 1281 ∧ (looked []).readsLost 1281 = false) ∧
    ((((looked []).rails.translate.getD 0 .empty).take 512).map (·.1) = some (.home 0) ∧ ((looked []).frame 0).state ≠ .free ∧
      (looked []).lockedUnit 0 = false ∧ ((looked []).frame 0).home = .unknown ∧ (looked []).homeOf 0 ≠ .noCopy) ∧
    ((looked [loafOff 0 / 64]).lookupLocked (.load 2) = true) ∧
    (((looked []).rails.translate.getD 3 .empty).take 512).isNone = true := by
  unfold Clocked; decide +kernel

/-- A read for the load above, on burner 0's request rail, in its lane, or as a result on its result rail. -/
def aRead : MReq :=
  { id := 1, op := .read, addr := 1281, requester := .link 9, epoch := 0, cls := .hostRead, purpose := .load 2, stamp := 0
    entered := 0, retry := false, clamped := false, soft := false, job := none }
def reading (res : MRes) : State :=
  let s := looked []
  { s with
    loads := [(2, { aLoad with stage := .media })], pass := { s.pass with lanes := [(0, [aRead])], maskBrn := 0, maskLink := 0 }
    slots := [(0, { KeySlot.empty with state := 1 })]
    med := { s.med with sectors := [(1281, { padSector with kind := 1, unit := 1, keyslot := 0 })] }
    rails := { s.rails with mediaReq := [(0, Rail.empty.push 256 aRead 0)], mediaRes := [(0, Rail.empty.push 256 res 0)] } }

theorem wit_LanesGrant : let s := reading (.read aRead (.classA 3))
    (Clocked s ∧ ((s.rails.mediaReq.getD 0 .empty).take 256).map (·.1) = some aRead ∧ s.stale aRead = false ∧ s.gone aRead = false ∧
      s.unitLost 1281 = false) ∧
    (s.lane 0 = [aRead] ∧ s.eligible 0 aRead = true ∧ s.over aRead = false ∧ aRead.op = .read) := by
  unfold Clocked; decide +kernel

theorem wit_MediaReadsAnswer :
    (let s := reading (.read aRead (.classA 3))
     Clocked s ∧ ((s.rails.mediaRes.getD 0 .empty).take 256).map (·.1) = some (.read aRead (.classA 3)) ∧ aRead.job = none ∧
      aRead.purpose = .load 2 ∧ (s.loads.find 2).map (fun l => (l.stage, l.fill)) = some (.media, none) ∧ s.upk.repairs = [] ∧
      s.sector 1281 = some { padSector with kind := 1, unit := 1, keyslot := 0 } ∧ s.loaded 0 = true ∧ (s.slot 0).keyId = 0 ∧
      s.storedBad 1281 = 0) ∧
    (let q := { aRead with soft := true }
     let s := reading (.read q .fail)
     ((s.rails.mediaRes.getD 0 .empty).take 256).map (·.1) = some (.read q .fail) ∧
      s.rowSealed (s.stripeAt q.addr) (saPage q.addr) = false) := by
  unfold Clocked; decide +kernel

/-! ### The stockpot -/

/-- A write of link 9 at the head of its Accept rail, to a slice that frame 0 holds under the loaded slot 0. -/
def accepting : State :=
  let s := (window [{ queued with committed := true }]).setFrame 0 { Frame.free with slice := 0, state := .resident }
  { s.updSlot 0 (fun k => { k with state := 1 }) with
    rails := { s.rails with accept := [(9, Rail.empty.push 64 1 0)] } }

theorem wit_AcceptedWritesStand : State.reset.isFrozen = true ∧
    (Clocked accepting ∧ accepting.isFrozen = false ∧ ((accepting.rails.accept.getD 9 .empty).take 64).map (·.1) = some 1 ∧
      (accepting.link 9).iwq = [queued] ∧ queued.seq = 1 ∧ seqLater 1 (accepting.link 9).lastAck = true ∧ queued.mask = fullMask ∧
      queued.wtype ≠ .coherent ∧ accepting.loaded 0 = true ∧ accepting.upk.pantry = false ∧ accepting.pwr.writeHold = false ∧
      accepting.resident (3 / 4) = some 0 ∧ (accepting.frame 0).state = .resident ∧ accepting.myTurn 9 = true ∧ accepting.loads = [] ∧
      accepting.ctxs = [] ∧ accepting.spr.trackers = [] ∧ accepting.spr.queue = [] ∧ accepting.spr.snoops = [] ∧
      accepting.spr.flushTodo = []) := by
  unfold Clocked; decide +kernel

/-- A page of a stream in a stage, and an open stripe of the stream on burners 0 to 3. -/
def paged (q : Stream) (p : Page) : State :=
  { base with
    stk := { base.stk with pages := [(3, p)], nextPage := 4 }
    med := { base.med with openStripes := [⟨46, q, 4, [0, 1, 2, 3], [], [], [], [], []⟩] } }
def journalPage : Page := { Page.blank .journal 0 with stage := .target, items := [.sector (metaSector 4 0 .zero) none] }

/-- A checkpoint under way, aged frames, an aligned page that waits while 8 stripes are open. -/
def assembling : State :=
  let s := (base.setFrame 0 { Frame.free with slice := 7, state := .resident, home := .noCopy }).setFrame 393216 { Frame.free with state := .resident }
  { s with
    now := 2 ^ 40
    siv := { s.siv with ckptActive := true, ckptPages := 2, ckptNext := 1, ckptImage := some ⟨1, [], [], [], [], 0, 0, 0, 0, 0, []⟩ }
    med := { s.med with openStripes := (List.range 8).map (fun k => ⟨46 + k, .host, 32, [], [], [], [], [], []⟩) }
    stk := { s.stk with pages := [(5, { Page.blank .rebuild 0 with stage := .assembling }), (6, { Page.blank .upkeep 0 with stage := .alignedWait, aligned := some 0 })] } }

theorem wit_PagesAssemble : (assembling.halted = false ∧ assembling.siv.ckptNext < assembling.siv.ckptPages ∧
      assembling.siv.ckptImage = some ⟨1, [], [], [], [], 0, 0, 0, 0, 0, []⟩ ∧ assembling.metaRoom = true) ∧
    ((∀ e ∈ assembling.stk.pages, ¬ (e.2.stream = .host ∧ e.2.stage = .assembling)) ∧ assembling.drainReady .host = [0]) ∧
    State.reset.isFrozen = true ∧
    ((assembling.stk.pages.find? (fun e => decide (e.2.stream = .rebuild) && decide (e.2.stage = .assembling))).map (·.1) = some 5) ∧
    ((assembling.oldestPage .alignedWait).map (·.1) = some 6 ∧ (∀ o ∈ assembling.med.openStripes, o.stream ≠ .upkeep) ∧
      8 ≤ assembling.med.openStripes.length) ∧
    (Clocked assembling ∧ hostRegion.has 0 = true ∧ (assembling.frame 0).state = .resident) := by
  unfold Clocked; decide +kernel

theorem wit_PagesAreTargeted :
    (let s := paged .journal journalPage
     s.stk.pages.find 3 = some journalPage ∧ s.halted = false ∧ (s.singlePos .journal).isSome = true ∧
      s.oldestPage .target = some (3, journalPage) ∧ (∀ x ∈ journalPage.items, x = .sector (metaSector 4 0 .zero) none)) ∧
    (let p := { Page.blank .upkeep 0 with stage := .sliceWait, items := [] }
     let s := paged .upkeep p
     s.stk.pages.find 3 = some p ∧ (s.singlePos .upkeep).isSome = true ∧ s.oldestPage .sliceWait = some (3, p) ∧ 0 < s.freeBlocks ∧
      (∀ e ∈ s.stk.pages, e.2.stage ≠ .passed) ∧ s.pageLoaves p = [] ∧ s.hostPaced .upkeep = false ∧ s.stagingRoom 0 = true) := by
  decide +kernel

/-- The program of page 3 that has run, and the one open row of a stripe. -/
def programmed : State :=
  let p := { journalPage with stage := .programming, addr := some 64 }
  let r := { aRead with op := .program 3, addr := 64 }
  let s := paged .journal p
  { s with
    rails := { s.rails with mediaRes := [(0, Rail.empty.push 256 (.program r 0) 0), (1, Rail.empty.push 256 (.program r 2) 0)] }
    med := { s.med with openStripes := [⟨46, .journal, 4, [0, 1, 2, 3], [], [(5, 100)], [], [], [5]⟩] } }

theorem wit_ProgramsStand :
    (Clocked programmed ∧ ((programmed.rails.mediaRes.getD 0 .empty).take 256).isSome = true ∧ (programmed.stk.pages.find 3).isSome = true ∧
      (0#4).getLsbD (saPlane 64) = false) ∧
    (((programmed.rails.mediaRes.getD 1 .empty).take 256).isSome = true ∧ (2#4).getLsbD (saPlane 64) = true) ∧
    (programmed.halted = false ∧ programmed.med.openStripes.map (fun o => (o.rows, o.issued.contains 5, o.started.contains 5)) =
      [([(5, 100)], false, true)]) := by
  unfold Clocked; decide +kernel

theorem wit_FreezeForTest : (Writes base .mctp .stk ∧ ∀ e ∈ base.ports.links, e.2.memActive = false) ∧
    (Writes (upOn 9) .mctp .stk ∧ ∃ e ∈ (upOn 9).ports.links, e.2.memActive = true) := by
  unfold Writes Clear; decide +kernel

/-- Two loaves queued for demotion, the first of slices and the second not. -/
def demoting : State := { base with siv := { base.siv with demote := [1, 2], loafs := [(1, ⟨2, 0, 0, false⟩)] } }
def checkpointing : State := { base with siv := { base.siv with ckptActive := true } }

theorem wit_MetadataGoesOut : (demoting.halted = false ∧ demoting.siv.demote = [1, 2] ∧
      (if demoting.siv.foldWindow = demoting.now / Config.ms then demoting.siv.foldCount else 0) < max 1 (demoting.liveFld .siv 0x48 7 0) ∧
      demoting.used upkeepRegion + 256 ≤ upkeepRegion.size ∧ (demoting.loaf 1).fmt = 2 ∧ (demoting.loaf 2).fmt ≠ 2) ∧
    (Clocked base ∧ base.deckEmpty = true) ∧
    (32 * 2 ^ 20 ≤ ({ base with siv := { base.siv with recordsSinceMark := 2 ^ 21 } } : State).siv.recordsSinceMark * 16) ∧
    (Writes base .mctp .siv ∧ base.siv.ckptActive = false) ∧ checkpointing.siv.ckptActive = true := by
  unfold Writes Clear Clocked; decide +kernel

/-! ### Upkeep -/

/-- Stripe 50 forced, for the scraper's first choice, with a valid sector in it; block 9 waits for its seal scan. -/
def upkept : State :=
  let s := base.updBlk (pbOfAddr (base.memberAddr 50 0 0 0)) (fun b => { b with valid := 1 })
  let s := s.updBlk 9 (fun b => { b with cursor := 1 })
  { s with upk := { s.upk with forced := [⟨3, 50⟩], sealQueue := [(9, 0)] } }

theorem wit_StripesGoOnDeck : Clocked base ∧ countIf base.userStripe base.med.onDeck + countIf (fun e => base.userStripe e.1) base.med.resetting < 8 ∧
    base.nextFree = some 46 ∧
    (let s : State := { base with med := { base.med with onDeck := [46, 47, 48, 49, 50, 51, 52, 53] } }
     8 ≤ countIf s.userStripe s.med.onDeck + countIf (fun e => s.userStripe e.1) s.med.resetting) := by
  unfold Clocked; decide +kernel

theorem wit_UpkeepTicks : lidded.prot.lid = true ∧
    (base.prot.lid = false ∧ base.upk.victim = none ∧ base.pwrState ≠ .simmer ∧ base.upk.rebuildState = 0 ∧ base.upk.forced = [] ∧
      base.liveFld .upk 0x44 15 0 < base.freeStripes) ∧
    (let s := base.setLive .upk 0x44 0xFFFF
     s.freeStripes ≤ s.liveFld .upk 0x44 15 0 ∧ s.greedyVictim.1 = none) ∧
    (upkept.prot.lid = false ∧ upkept.upk.victim = none ∧ upkept.pwrState ≠ .simmer ∧ upkept.upk.forced = [⟨3, 50⟩] ∧
      upkept.mayForce ⟨3, 50⟩ = true ∧ upkept.drained 50 = false) ∧ Clocked base := by
  unfold Clocked; decide +kernel

/-- Every burner's member of stripe 0 verified, so that its rows are sealed. -/
def patrolled : State :=
  { (List.range 4).foldl (fun (s : State) pl => s.updBlk (pbOf 0 (s.stripeCe 0) (s.stripeBlock 0) pl) (fun b => { b with state := .verified, width := 32 })) base with
    upk := { upkept.upk with sealQueue := [(9, 0)] } }

theorem wit_TasterReads : lidded.tasterRuns = false ∧
    (patrolled.tasterRuns = true ∧ patrolled.upk.patrolRestart = false ∧ (patrolled.patrolAddr patrolled.upk.patrolStripe patrolled.upk.patrolPos).isSome = true ∧
      patrolled.readsLost ((patrolled.patrolAddr 0 0).getD 0) = false) ∧
    (upkept.tasterRuns = true ∧ upkept.upk.sealQueue = [(9, 0)] ∧ upkept.upk.seals.getD 9 0 < 4 * (upkept.blk 9).cursor) ∧
    (Writes base .mctp .upk ∧ base.tasterRuns = true) ∧ Writes lidded .mctp .upk := by
  unfold Writes Clear; decide +kernel

theorem wit_UpkeepReports : Serves base .mctp ownerOnly ∧ base.freeStripes < 2 ^ 32 ∧ base.upk.withdrawn < 2 ^ 32 ∧
    base.upk.rebuildState < 256 ∧ base.upk.lastRetired < 256 ∧ base.upk.rebuildLeft < 2 ^ 32 ∧ base.upk.rebuildBytes < 2 ^ 64 := by
  unfold Serves; decide +kernel

/-- Burners retired: none, one, two; a rebuild running; a stripe with two members lost already. -/
def retired (m : BitVec 32) (rebuild : Nat) : State := { base with upk := { base.upk with retiredMask := m, rebuildState := rebuild } }
def thin : State :=
  let s := [3, 4].foldl (fun (s : State) b => s.updDie b (s.stripeCe 46) (fun d => { d with present := true, failed := true })) base
  (List.range 32).foldl (fun (s : State) b => s.updBlk (pbOf b (s.stripeCe 46) (s.stripeBlock 46) 0) (fun x => { x with state := .closed, valid := 1, width := 32 })) s

theorem wit_UnitsAreRetired : (Serves base .mctp ownerOnly ∧ 32 ≤ (32#8).toNat ∧ (31#8).toNat < 32) ∧
    (Serves (retired 1 0) .mctp ownerOnly ∧ (retired 1 0).upk.retiredMask.getLsbD 0 = true) ∧
    ((retired 3 0).upk.retiredMask.getLsbD 2 = false ∧
      2 ≤ ((List.range 32).filter (fun k => (retired 3 0).upk.retiredMask.getLsbD k)).length) ∧
    ((retired 1 1).upk.rebuildState ≠ 0 ∧ ¬ 2 ≤ ((List.range 32).filter (fun k => (retired 1 1).upk.retiredMask.getLsbD k)).length) ∧
    (thin.tooManyLost (fun _ x => decide (x = 5)) = true ∧ base.tooManyLost (fun _ x => decide (x = 5)) = false) ∧
    (base.dieCount ≤ (10#8).toNat ∧ (9#8).toNat < base.dieCount) ∧ (thin.die 3 (thin.stripeCe 46)).failed = true ∧
    ((base.die 31 9).retired = false ∧ (base.die 31 9).failed = false) := by
  unfold Serves; decide +kernel

/-! ### Fences and hooks -/

/-- A fence of link 0 that waits for a held write to a dead target, and a hook's release with its own; hook 8 held with serial 3. -/
def aFence (holds : List Nat) : Fence := ⟨1, true, 0, some 0, 3, [], holds, 0, [], false, 0⟩
def fenced (holds : List Nat) (off : Nat) : State :=
  let s := hooked.setLink 0 (fun l => { l with fences := [aFence holds], holds := [⟨6, .link 0, off, 1⟩] })
  (s.updBurner 2 (fun b => { b with retired := true })).setHook 9 { Hook.fresh with state := 3, fence := some (aFence holds) }

theorem wit_FencesRun : (hooked.fenceAdmits 0 (by decide) true = true ∧ (hooked.link 0).blocked = [] ∧ (hooked.link 0).fences = [] ∧
      (hooked.link 0).memActive = true) ∧
    ((upOn 1).setLink 1 (fun l => { l with memActive := false })).fenceAdmits 1 (by decide) false = true ∧
    (((fenced [] 0x320000).link 0).fences = [aFence []] ∧ (fenced [] 0x320000).fenceDone 0 (aFence []) = true) ∧
    (fenced [6] 0x320000).fenceDone 0 (aFence [6]) = false := by decide +kernel

theorem wit_HeldWritesEnd : (((fenced [6] 0x320000).link 0).fences = [aFence [6]] ∧ (aFence [6]).started = some 0) ∧
    ((fenced [6] 0x320000).hook 9).fence = some (aFence [6]) ∧
    (Clocked (fenced [6] 0x330000) ∧ ((fenced [6] 0x330000).link 0).holds.find? (fenced [6] 0x330000).revived = some ⟨6, .link 0, 0x330000, 1⟩ ∧
      ((fenced [6] 0x330000).link 0).blocked = []) ∧
    ((fenced [6] 0x320000).link 0).holds.find? (fenced [6] 0x320000).revived = none := by
  unfold Clocked; decide +kernel

theorem wit_HooksAreGranted : hooked.fenceAdmits 0 (by decide) true = true ∧ (hooked.hookOpen 7 0 = true ∧ (hooked.hook 7).state = 0) ∧
    (hooked.hook 63).state = 2 ∧ (hooked.hookOpen 8 0 = true ∧ (hooked.hook 8).state ≠ 0 ∧ (hooked.hook 8).state ≠ 2) ∧
    hooked.hookOpen 64 0 = false := by decide +kernel

theorem wit_HooksAreReleased : (hooked.fenceAdmits 0 (by decide) false = true ∧ (hooked.link 0).blocked = [] ∧ hooked.hookWritable 8 0 = true ∧
      hooked.hookActs 8 0 3 = true ∧ hooked.hookActs 8 0 4 = false) ∧
    (Clocked (fenced [] 0x320000) ∧ ((fenced [] 0x320000).hook 9).fence = some (aFence []) ∧
      (fenced [] 0x320000).fenceDone ((fenced [] 0x320000).hook 9).link (aFence []) = true) ∧
    (fenced [6] 0x320000).fenceDone ((fenced [6] 0x320000).hook 9).link (aFence [6]) = false ∧
    (Clocked hooked ∧ (hooked.hook 8).state = 1 ∧ (hooked.hook 7).state ≠ 1) ∧ Writes hooked .mctp .spr := by
  unfold Writes Clear Clocked; decide +kernel

/-! ### Whisk engines -/

/-- Context 0 of channel 0 READY, its first descriptor a line of frame 0, the page's translation cached. -/
def ctxBase : State :=
  let s := ((base.setLive (.wsk 0) 0x118 1).setLive (.wsk 0) 0x108 1).setLive (.wsk 0) 0x124 1
  let s := s.updChan 0 (fun c => { c with tlb := [(0, 0, 7)] })
  s.updCtx 0 (fun c => { c with state := 2, tail := 1 })
def ctxOf (d : Line) : State :=
  (ctxBase.setFrame 0 { Frame.free with slice := 0, state := .resident, valid := 15, data := { Four.zero with l0 := d } }).updSlot 0
    (fun k => { k with state := 1 })
/-- The same with the descriptor's slice on media. -/
def ctxMedia : State := { ctxBase with siv := { ctxBase.siv with loafs := [(0, ⟨1, 5, 0, false⟩)] } }

/-- What a fetch answers. -/
def fetched (s : State) : Option (List Byte) := match (s.fetchDesc 0).1 with
  | .got b => some b
  | _ => none
def fetchWaits (s : State) : Bool := match (s.fetchDesc 0).1 with
  | .waits => true
  | _ => false

theorem wit_DescriptorsBegin : ((∀ e ∈ (ctxOf 0).ctxs, e.2.bells = []) ∧ ((ctxOf 0).ctx 0).head ≠ ((ctxOf 0).ctx 0).tail ∧
      ((ctxOf 0).ctx 0).desc = none ∧ ((ctxOf 0).ctx 0).done = none ∧ (ctxOf 0).mayRun 0 = true ∧ Clocked (ctxOf 0)) ∧
    (fetched (ctxOf 0) = some (List.replicate 64 0) ∧ descOk (List.replicate 64 0) = true ∧ field (List.replicate 64 0) 0 1 % 16 = 0) ∧
    (fetched (ctxOf 0x20) = some (32 :: List.replicate 63 0) ∧ descOk (32 :: List.replicate 63 0) = false) ∧
    (ctxMedia.mayRun 0 = true ∧ fetchWaits ctxMedia = true) := by
  unfold Clocked; decide +kernel

/-- A context that runs a copy of one line: its chunk's read has returned, or it is asked to pause, or its completion word is posted. -/
def aCopy : WDesc := { op := 1, irq := true, width := 0, pred := 0, fieldOff := 0, src := 0, dst := 64, length := 64, value := 0, mask := 0, stride := 0, listMax := 0 }
def running (f : Ctx → Ctx) : State := base.updCtx 0 (fun c => f { c with state := 3, desc := some aCopy, tail := 1 })

theorem wit_ChunksAndCompletions :
    (let s := running (fun c => { c with pausing := true })
     Clocked s ∧ (∀ e ∈ s.ctxs, e.2.bells = []) ∧ (s.ctx 0).state = 3 ∧ (s.ctx 0).desc = some aCopy ∧ (s.ctx 0).done = none ∧
      (s.chan 0).halted = false ∧ (s.chan 0).held = false ∧ (s.ctx 0).issued = false ∧ (s.ctx 0).writes = [] ∧ (s.ctx 0).pausing = true) ∧
    (let s := running (fun c => { c with issued := true, got := [(0, 5)] })
     (s.ctx 0).issued = true ∧ (s.ctx 0).need = [] ∧ (s.ctx 0).bad = 0 ∧
      ∀ w ∈ ((s.ctx 0).run aCopy (s.ctx 0).began (aCopy.chunk (s.ctx 0).began)).writes, s.isCoherent w.line = false) ∧
    (let s := running (fun c => { c with done := some (1, 0), posted := true })
     (s.ctx 0).done = some (1, 0) ∧ (s.ctx 0).writes = [] ∧ s.marksApplied (s.ctx 0) = true ∧ (s.ctx 0).posted = true) := by
  unfold Clocked; decide +kernel

def ctxIn (k : Nat) (f : Ctx → Ctx) : State := base.updCtx 255 (fun c => f { c with state := k })

theorem wit_ContextControls : WritesChannel (ctxIn 1 id) .mctp (255 / 4) ∧ (∀ e ∈ (ctxIn 1 id).ctxs, e.2.bells = []) ∧
    ((ctxIn 5 id).chan 63).halted = false ∧ ((ctxIn 5 id).ctx 255).state = 5 ∧ ((ctxIn 5 id).ctx 255).saveErr = false ∧
    ((ctxIn 2 id).ctx 255).state = 2 ∧ (((ctxIn 3 id).ctx 255).state = 3 ∧ ((ctxIn 3 id).ctx 255).boundary = true) ∧
    ((ctxIn 3 (fun c => { c with issued := true })).ctx 255).boundary = false ∧
    ((ctxIn 4 (fun c => { c with tail := 1 })).ctx 255).head ≠ ((ctxIn 4 (fun c => { c with tail := 1 })).ctx 255).tail ∧
    ((ctxIn 6 id).ctx 255).state = 6 := by
  unfold WritesChannel Clear; decide +kernel

/-! ### Memory integrity -/

theorem wit_IntegrityEvents : base.liveFld .mec (0x80 + 8 * 4) 15 8 ≠ 0 ∧
    (base.setLive .mec 0x80 0).liveFld .mec (0x80 + 0 * 4) 15 8 = 0 ∧ Clocked base ∧
    (let s : State := { base with mec := { base.mec with locked := [3, 4] } }
     Clocked s ∧ s.mec.locked = [3, 4] ∧ s.siv.ckptDone = none ∧ s.ckptLineLost 3 = false) := by
  unfold Clocked; decide +kernel

/-- Test mode on, domain 1 selected, a word planted with one bit in error. -/
def testing (w : BitVec 78) : State :=
  let s := (base.setLive .mec 0x0C 3).setLive .mec 0x40 1
  { s with mec := { s.mec with words := [(s.testKey false, w)] } }

theorem wit_TestAccess : Writes (testing 0) .mctp .mec ∧ (testing 0).testOk false = true ∧
    (77 < 78 ∧ (testing (bchEncode 5 ^^^ BitVec.ofNat 78 (2 ^ 77))).mec.words.find ((testing 0).testKey false) =
      some (bchEncode 5 ^^^ BitVec.ofNat 78 (2 ^ 77))) ∧
    (testing (bchEncode 5)).mec.words.find ((testing 0).testKey false) = some (bchEncode 5) ∧ base.testOk false = false := by
  unfold Writes Clear; decide +kernel

/-- A scrub under way for a mailbox command. -/
def scrubbing : State :=
  { base with mec := { base.mec with scrub := { base.mec.scrub with busy := true, path := some .mctp, len := 64 } }
              mbx := { base.mbx with runs := [⟨.mctp, 0xC070, 0, false, [], []⟩] } }

theorem wit_ScrubsRun : (Writes scrubbing .mctp .mec ∧ scrubbing.mec.scrub.busy = true) ∧ (Writes base .mctp .mec ∧ base.mec.scrub.busy = false) ∧
    (scrubOk 8 0 0 64 = true ∧ scrubOk 7 0 0 64 = false ∧ scrubOk 8 0 1 64 = false) ∧ (Serves scrubbing .mctp ownerOnly ∧
      Serves base .mctp ownerOnly ∧ base.mbx.runs = []) ∧
    (Clocked scrubbing ∧ scrubbing.plantedErrs = [] ∧ scrubbing.mbx.runs = [⟨.mctp, 0xC070, 0, false, [], []⟩]) := by
  unfold Writes Clear Clocked Serves; decide +kernel

/-! ### The ledger and the stewards -/

theorem wit_ReportsAreTaken : base.reports = [] ∧ ({ base with reports := [⟨17, 7, 9⟩] } : State).reports = [⟨17, 7, 9⟩] := by
  decide +kernel

theorem wit_BackoffsAndLanes :
    (let d := { Die.absent with present := true, retryAt := some 5 }
     let s : State := { base with dies := [(319, d)] }
     Clocked s ∧ s.dies = [(319, d)] ∧ d.retryAt = some 5 ∧ s.flt.laneRetry = []) ∧
    (let s : State := { base with flt := { base.flt with laneRetry := [(9, (2, 7))] } }
     Clocked s ∧ (∀ e ∈ s.dies, e.2.retryAt = none) ∧ s.flt.laneRetry = [(9, (2, 7))] ∧ (s.link 9).up = false) ∧
    Writes base .mctp .flt := by
  unfold Writes Clear Clocked; decide +kernel

theorem wit_StewardsRestart : ({ base with flt := { base.flt with stwRetired := 0x800 } } : State).flt.stwRetired.getLsbD 11 = true ∧
    (Clocked base ∧ base.flt.stwRetired.getLsbD 11 = false ∧ (base.stwRecent 11).length < max 1 (base.liveFld .flt 0x48 3 0)) := by
  unfold Clocked; decide +kernel

/-! ### Tallies and the spike -/

theorem wit_TalliesAreRead : (Writes base .mctp .tly ∧ (0x80000000#32).getLsbD 31 = true ∧ (0x80000000#32).getLsbD 20 = false ∧
      (0x80100000#32).getLsbD 20 = true) ∧
    (base.heard .mctp = true ∧ base.view .mctp .tly = .full ∧ Clear base .mctp) ∧
    ((upOn 9).view (.link 9) .tly = .tenant) ∧ (Serves base .mctp anyone ∧ 768 < (768#16).toNat + (1#16).toNat ∧ (767#16).toNat + (1#16).toNat ≤ 768) := by
  unfold Writes Clear Serves; decide +kernel

def eventful (ok : Bool) : State :=
  { base with rails := { base.rails with event := Rail.empty.push 1024 ⟨1, 0, 0, 0, 0⟩ 0 }, spk := { base.spk with ringOk := ok } }

theorem wit_EventsAreStaged : (Clocked (eventful false) ∧ ((eventful false).rails.event.take 1024).map (·.1) = some ⟨1, 0, 0, 0, 0⟩ ∧
      (eventful false).spk.ringOk = false) ∧
    (((eventful true).rails.event.take 1024).map (·.1) = some ⟨1, 0, 0, 0, 0⟩ ∧ (eventful true).spk.ringOk = true ∧
      Ev.limited ⟨1, 0, 0, 0, 0⟩ = false ∧ (eventful true).spk.staged.length < 4096) := by
  unfold Clocked; decide +kernel

theorem wit_SpikeIsReadAndCleared : (Serves base .mctp ownerOnly ∧ (0#16).toNat = 0 ∧ 1023 < (1024#16).toNat ∧ 1 ≤ (1023#16).toNat ∧
      (1023#16).toNat ≤ 1023) ∧
    (32 ≤ (List.replicate 32 (0 : Byte)).length ∧ base.prot.secret = none ∧ base.prot.lid = false) ∧
    (Serves lidded .mctp ownerOnly ∧ lidded.prot.lid = true) ∧ Writes base .mctp .spk := by
  unfold Writes Clear Serves; decide +kernel

/-! ### Dies -/

/-- Die 4 of burner 3, live, with granted requests of its burner and page 3 loaded for its program. -/
def died (f : Die → Die) (granted : List MReq) : State :=
  let s := paged .journal { journalPage with stage := .loaded, addr := some (saOf 3 4 5 0 1 0) }
  (s.updDie 3 4 (fun _ => f { Die.absent with present := true })).updBurner 3 (fun b => { b with granted := granted, ready := true })
def readAt34 : MReq := { aRead with addr := saOf 3 4 5 0 1 0 }
def programAt34 : MReq := { readAt34 with id := 2, op := .program 3 }
def resetAt34 : MReq := { readAt34 with id := 3, op := .reset }

/-- What kind of bus use comes next on burner 3. -/
def useKind (s : State) : Nat := match s.nextUse 3 with
  | none => 0
  | some (.set _) => 1
  | some (.sense _) => 2
  | some (.out 4 1 _) => 3
  | some (.out _ _ _) => 4
  | some (.load _) => 5
  | some (.confirm 4 _ _) => 6
  | some (.confirm _ _ _) => 7
  | some (.reset _) => 8

/-- The levels of a read stand on record. -/
def levelled : State := let s := died id [readAt34]; died (fun d => { d with levels := [(1, s.levelsOf readAt34)] }) [readAt34]

theorem wit_DiesAreRead : Clocked levelled ∧ useKind (died (fun d => { d with levels := [(1, [])] }) [readAt34]) = 1 ∧ useKind levelled = 2 ∧
    useKind (died (fun d => { d with sensing := [(1, readAt34)], drdy := 2 }) []) = 3 := by
  unfold Clocked; decide +kernel

theorem wit_DiesAreProgrammed : useKind (died id [programAt34]) = 5 ∧
    useKind (died (fun d => { d with latches := [(1, 3)] }) [programAt34]) = 6 ∧
    (let s := died (fun d => { d with latches := [(1, 3)] }) [programAt34]
     let s : State := { s with upk := { s.upk with govSpent := s.programBudget } }
     Clocked s ∧ s.loadedReqs 3 4 ≠ [] ∧ s.mayConfirm 3 4 = true ∧
      s.programBudget < s.upk.govSpent + 16384 * (s.loadedReqs 3 4).length) ∧
    useKind (died id [resetAt34]) = 8 := by
  unfold Clocked; decide +kernel

/-- A reset under way since time 0, its deadline far, with a granted read that has a nearer one. -/
def busyDie (f : Die → Die) : State :=
  died (fun d => f { d with op := .reset, opReqs := [{ resetAt34 with stamp := 0x10000000 }] }) [readAt34]

theorem wit_OperationsAreSuspended :
    (Clocked (busyDie id) ∧ (busyDie id).wantsSuspend 3 4 = true ∧ ((busyDie id).die 3 4).runSince + (busyDie id).minRun 3 = 24000 ∧
      (busyDie id).now = 0 ∧ ((busyDie id).reach 24000).wantsSuspend 3 4 = true ∧
      ({ busyDie id with now := 24000 } : State).wantsSuspend 3 4 = true) ∧
    (busyDie (fun d => { d with suspended := true })).wantsSuspend 3 4 = false ∧
    (let s := died (fun d => { d with op := .reset, opReqs := [resetAt34], suspended := true, status := 2 }) []
     s.mustResume 3 4 = true ∧ (s.die 3 4).suspended = true ∧ (s.die 3 4).op ≠ .none ∧ s.pwrState ≠ .flush) ∧
    (busyDie id).mustResume 3 4 = false ∧
    (let s : State := { busyDie id with pwrState := .flush }
     Clocked s ∧ (s.die 3 4).op = .reset) := by
  unfold Clocked; decide +kernel

theorem wit_DiesAnswer : (Clocked (died id []) ∧ Live (died id []) 3 4 ∧ (0#32).getLsbD 4 = false ∧ (0#32).getLsbD 0 = false) ∧
    (let s := died (fun d => { d with op := .program, opReqs := [programAt34] }) []
     Live s 3 4 ∧ (s.die 3 4).op = .program ∧ (s.die 3 4).opReqs = [programAt34] ∧ (1#32).getLsbD 0 = true ∧ (1#32).getLsbD 1 = false ∧
      (1#32).extractLsb' 5 2 = 0) ∧
    (((List.replicate 10 (0 : W32)).getD 4 0).getLsbD 4 = false ∧ ((died id []).die 3 4).op = .none ∧
      (∀ k < 10, k ≠ 4 → ((died id []).die 3 k).present = false)) := by
  unfold Clocked Live; decide +kernel

theorem wit_DiesAreReset : (Clocked (busyDie id) ∧ (busyDie id).ceUsed 3 4 = true ∧ ((busyDie id).die 3 4).op ≠ .program) ∧
    (({ busyDie id with med := { base.med with dies := 4 } } : State).ceUsed 3 4 = false) ∧
    (Live (busyDie id) 3 4 ∧ ((busyDie id).die 3 4).sensing = [] ∧ ((busyDie id).die 3 4).op = .reset ∧
      ((busyDie id).die 3 4).suspended = false) ∧
    (Live (died id []) 3 4 ∧ ((died id []).die 3 4).sensing = [] ∧ ((died id []).die 3 4).op = .none) := by
  unfold Clocked Live; decide +kernel

/-- A parameter page with a good CRC whose signature is wrong, and no defect; die 31 of the discovery, unformatted. -/
def pageBody : List Byte := List.replicate 64 0 ++ List.replicate 956 0xFF
def badPage : List Byte := pageBody ++ leBytes 4 (crc32c pageBody).toNat
def unformatted : State :=
  { died id [] with med := { base.med with dies := 8, formatted := false } }

theorem wit_DiesAreDiscovered :
    (Clocked unformatted ∧ (unformatted.die 3 4).ready = true ∧ unformatted.ceUsed 3 4 = true ∧ validCopy [] = none ∧
      validCopy badPage = some badPage ∧ (∀ k < 64, 2048 ≤ field badPage (64 + 2 * k) 2) ∧ pageOk badPage = false) ∧
    ((unformatted.die 3 4).present = true ∧ unformatted.classify 3 4 true [] ≠ .ok ∧
      unformatted.classify 3 4 false (ownerRecord 0 3 4 5 1) = .ok ∧
      (∀ e ∈ unformatted.dies, e.2.present = true → e.1 % 10 < field (ownerRecord 0 3 4 5 1) 10 1) ∧ unformatted.dieCount ≠ 5) ∧
    (Live unformatted 3 4 ∧ unformatted.med.formatted = false ∧ unformatted.dieCount ≠ 0 ∧ (unformatted.die 3 4).busyUntil ≤ unformatted.now) ∧
    base.med.formatted = true := by
  unfold Clocked Live
  exact ⟨⟨by decide +kernel, by decide +kernel, by decide +kernel, by decide +kernel,
    Laws.validCopy_framed pageBody (by decide +kernel), by decide +kernel, by decide +kernel⟩,
    by decide +kernel, by decide +kernel, by decide +kernel⟩

theorem wit_ScratchIsTrained : Clocked (died id []) ∧ (died id []).mayTrainDie 3 4 = true ∧ (List.replicate 512 (7 : Byte)).length = 512 ∧
    ((died id []).die 3 4).dbi = false := by
  unfold Clocked; decide +kernel

/-! ### Trims, training, tests, rounds -/

/-- Die 34 with a warning count at CAL, and queued for a quick trim. -/
def trimmed : State :=
  let s := died id []
  { s with upk := { s.upk with warnCounts := [(34 * 16 + 15, 255)] }, thm := { s.thm with trimQueue := [34] } }

theorem wit_TrimsAreAdded : Clocked trimmed ∧ trimmed.tasterRuns = true ∧ Live trimmed (34 / 10) (34 % 10) ∧
    0 < trimmed.upk.warnCounts.getD (34 * 16 + 15) 0 ∧ trimmed.liveFld .upk 0x68 31 24 ≤ trimmed.upk.warnCounts.getD (34 * 16 + 15) 0 := by
  unfold Clocked Live; decide +kernel

theorem wit_DiesAreTrimmed : Writes trimmed .mctp (.brn 3) ∧ trimmed.dieLive 3 4 = true ∧
    (Clocked trimmed ∧ trimmed.thm.trimQueue.contains (3 * 10 + 4) = true ∧ Live trimmed 3 4 ∧ (⟨1, 2, 3, 4, true⟩ : TrainRes).ok = true) ∧
    trimmed.thm.trimQueue.contains 35 = false := by
  unfold Writes Clear Clocked Live; decide +kernel

theorem wit_BurnersAreTrained :
    let s := (died id []).updBurner 3 (fun b => { b with fullBusy := true, training := true, trainState := 1 })
    Clocked s ∧ (s.burner 3).retired = false ∧ (s.burner 3).fullBusy = true ∧ Live s 3 4 ∧
      (∀ k < 10, k ≠ 4 → s.dieLive 3 k = false) ∧
      (List.replicate 10 (⟨1, 2, 3, 4, true⟩ : TrainRes)).getD 4 ⟨0, 0, 0, 0, false⟩ = ⟨1, 2, 3, 4, true⟩ ∧
      (List.replicate 10 (⟨1, 2, 3, 4, false⟩ : TrainRes)).getD 4 ⟨0, 0, 0, 0, false⟩ = ⟨1, 2, 3, 4, false⟩ := by
  unfold Clocked Live; decide +kernel

/-- A test running. -/
def testBusy (test : Nat) : State := { base with thm := { base.thm with testState := 1, test := test } }

theorem wit_SensorsAndCodecsAreTested : (Serves base .mctp ownerOnly ∧ base.thm.testState ≠ 1 ∧ base.thm.sensors = [] ∧
      base.liveBurners.contains 31 = true ∧ base.liveBurners.contains 32 = false) ∧
    (Serves (testBusy 1) .mctp ownerOnly ∧ (testBusy 1).thm.testState = 1) ∧ (1#8) ≠ 0 := by
  unfold Serves; decide +kernel

/-- Memory active, with an empty and a full queue of disruptive tests. -/
def deferred (n : Nat) : State := { upOn 9 with thm := { base.thm with deferred := List.replicate n (0x11, 0) } }

theorem wit_DisruptiveTestsStartOrWait : (Serves base .mctp ownerOnly ∧ base.ports.links.any (fun e => e.2.memActive) = false ∧
      base.thm.testState ≠ 1) ∧
    (Serves (deferred 15) .mctp ownerOnly ∧ (deferred 15).ports.links.any (fun e => e.2.memActive) = true ∧
      (deferred 15).thm.deferred.contains (0x10, 0xFF) = false ∧ (deferred 15).thm.deferred.contains (0x12, 0xFF) = false ∧
      (deferred 15).thm.deferred.length < 16) ∧
    (Serves (deferred 16) .mctp ownerOnly ∧ (deferred 16).thm.deferred.contains (0x10, 0xFF) = false ∧
      (deferred 16).thm.deferred.contains (0x12, 0xFF) = false ∧ 16 ≤ (deferred 16).thm.deferred.length) := by
  unfold Serves; decide +kernel

theorem wit_MapStackTrainingEnds : ((testBusy 0x12).thm.test = 0x12 ∧ (testBusy 0x12).thm.testState = 1 ∧ (testBusy 0x12).mec.locked = []) ∧
    (State.reset.pwrState = .starting ∧ State.reset.thm.test ≠ 0x12) := by decide +kernel

theorem wit_RoundsAreCounted : (base.pwrState = .boil ∧ base.thm.trips = 0) ∧
    (({ base with pwrState := .cold } : State).pwrState ≠ .starting ∧ ({ base with pwrState := .cold } : State).pwrState ≠ .boil ∧
      ({ base with pwrState := .cold } : State).pwrState ≠ .simmer) := by decide +kernel

/-! ### Power and the Yulvoga bus -/

/-- A device in a power state, VAUX good, with rails as given. -/
def power (st : PState) (rails : SMap PRail) : State :=
  { base with pwrState := st, pwr := { base.pwr with vaux := true, latched := false, offHeld := false, flushReq := false, rails := rails } }

/-- A rail that is enabled, and one that is up. -/
def ramping : PRail := { PRail.off with enabled := true, good := true, goodAt := 10 }
def risen : PRail := { ramping with qualified := true }

/-- Rails 0 to 2 enabled and the first two up. -/
def half : State := power .ramping [(0, risen), (1, risen), (2, ramping)]

/-- Every rail up, Flush armed. -/
def powered (armed : Bool) : State :=
  let s := power .boil ((List.range 8).map (fun k => (k, risen)))
  { s with pwr := { s.pwr with armed := armed } }

def unpowered : State := { base with pwr := { base.pwr with vaux := false } }

theorem wit_VauxComesAndGoes : unpowered.pwr.vaux = false ∧ half.pwr.vaux = true ∧ ((0 : Fin 16).val = 0) := by decide +kernel

theorem wit_RailsComeUp :
    (let s := power .cold []
     s.pwrState = .cold ∧ s.pwr.vaux = true ∧ s.pwr.flushReq = false ∧ s.pwr.latched = false ∧ s.pwr.offHeld = false ∧
      s.pwr.yvAddr = 0 ∧ s.liveFld .pwr 0x40 15 8 * 25 ≤ (5000#16).toNat) ∧
    (let s := power .cold []
     ({ s with pwr := { s.pwr with latched := true } } : State).pwr.latched = true) ∧
    (half.pwrState = .ramping ∧ (half.rail 2).qualified = false ∧ (∀ k, k < 8 → (half.rail k).enabled = decide (k ≤ 2)) ∧
      (∀ k, k < 2 → (half.rail k).qualified = true) ∧
      max half.now ((half.rail 2).goodAt + 50 * Config.us) ≤ (half.rail 2).since + 10 * Config.ms ∧ (half.rail 2).requal ≠ 3) ∧
    (let s := power .ramping [(0, { ramping with requal := 3 })]
     (s.rail 0).requal = 3 ∧ (s.rail 0).qualified = false ∧ (∀ k, k < 8 → (s.rail k).enabled = decide (k ≤ 0))) := by decide +kernel

/-- Rail 7 off and running down, with rails 0 and 1 still enabled or none. -/
def falling (more : Bool) : State :=
  power .shutdown ((7, { PRail.off with dropping := true }) :: if more then [(0, risen), (1, risen)] else [])

theorem wit_RailsGoDown :
    (∀ more ∈ [false, true], (falling more).pwrState = .shutdown ∧ ((falling more).rail 7).dropping = true ∧
      ((falling more).rail 7).enabled = false ∧ (∀ j, j < 8 → j ≠ 7 → ((falling more).rail j).dropping = false)) ∧
    (falling false).enabledRails = [] ∧ (falling true).enabledRails = [1, 0] ∧ ((falling true).rail 3).dropping = false ∧
    ((powered true).pwrState.flushable = true ∧ (powered true).pwr.armed = true) ∧
    ((powered false).pwr.armed = false ∧ (powered false).enabledRails ≠ []) := by decide +kernel

theorem wit_RegulatorsAreRead :
    (∀ page ∈ [0x12, 0xFF], ((powered true).setLive .pwr (0x100 + 8 * 5) (BitVec.ofNat 32 (page * 256))).pmbLive = true ∧
      ((powered true).setLive .pwr (0x100 + 8 * 5) (BitVec.ofNat 32 (page * 256))).liveFld .pwr (0x100 + 5 * 8) 15 8 = page) ∧
    (let s := power .boil [(5, { risen with status := 0xFFFF })]
     s.pmbLive = true ∧ (s.rail 5).status.getLsbD 15 = true) ∧
    ((powered true).rail 5).status.getLsbD 15 = false ∧ (power .cold []).pmbLive = false := by decide +kernel

/-- The kettle charging toward READY with a test due, under test, and holding writes. -/
def charging : State := { powered true with pwr := { (powered true).pwr with charging := true, testReq := true } }
def discharging : State := { powered true with pwr := { (powered true).pwr with testing := true, v0 := 4000 } }

theorem wit_KettleIsMeasured :
    (charging.pwr.charging = true ∧ charging.pwr.testing = false ∧ charging.pwr.testReq = true ∧
      charging.kettleReady * 25 ≤ (6000#16).toNat) ∧
    (discharging.pwr.testing = true ∧ (117000#32).toNat ≤ 400000 ∧ 400000 < (400001#32).toNat) ∧
    (let s : State := { powered true with pwr := { (powered true).pwr with supply := 4800, hold := 2701 } }
     s.pwr.armed = true ∧ s.pwrState.flushable = true ∧ s.pwr.writeHold = false ∧ s.liveFld .pwr 0x40 7 0 * 25 ≤ s.pwr.supply ∧
      (2700#16).toNat < s.pwr.hold) ∧
    (let s : State := { powered true with pwr := { (powered true).pwr with writeHold := true, hold := 2701 } }
     s.pwr.writeHold = true ∧ s.pwr.hold + 50 ≤ (2751#16).toNat) := by decide +kernel

theorem wit_FlushIsTriggered : ((powered true).pwrState.flushable = true ∧ (powered true).pwr.armed = true) ∧
    (powered false).pwr.armed = false ∧ (power .flush []).pwrState = .flush ∧ (powered true).pwrState ≠ .flush := by decide +kernel

/-- A link up in an idle device, and a device in Simmer with and without a test running. -/
def idling : State := { powered true with ports := (upOn 9).ports }
def simmering (test : Nat) : State := { idling with pwrState := .simmer, thm := { base.thm with testState := test } }

theorem wit_SimmerIsEnteredAndLeft :
    (Serves idling .mctp idling.powerAccess ∧ idling.pwrState = .boil ∧ idling.boot.seq = .idle ∧ idling.simmerBusy = false ∧
      ((9 : Byte).toNat < 32 ∧ (idling.link 9).up = true) ∧ (idling.link 8).up = false) ∧
    (∀ test ∈ [0, 1], Serves (simmering test) .mctp (simmering test).powerAccess ∧ (simmering test).pwrState = .simmer ∧
      (simmering test).thm.testState = test ∧ (simmering test).mbx.runs = []) ∧
    (let s : State := { idling with boot := { idling.boot with seq := .preReset } }
     Serves s .mctp s.powerAccess ∧ s.pwrState ≠ .simmer ∧ s.boot.seq ≠ .idle) ∧
    (let s : State := { idling with pwrState := .starting }
     Serves s .mctp s.powerAccess ∧ s.pwrState ≠ .simmer ∧ s.pwrState ≠ .boil) := by
  unfold Serves; decide +kernel

/-- Slave 3, cold, in fault, or running; held off or with its fault latched. -/
def slave (st : PState) (latched held : Bool) : State :=
  let s := power st []
  { s with pwr := { s.pwr with yvAddr := 3, latched := latched, offHeld := held, armed := true } }

theorem wit_SlavesAnswer : ((slave .cold false false).isSlave = true ∧ (slave .cold false false).pwr.latched = false) ∧
    ((slave .fault true false).isSlave = true ∧ (slave .fault true false).pwr.latched = true) ∧
    ((slave .boil false false).isSlave = true ∧ (slave .boil false false).pwrState ≠ .cold ∧ (slave .boil false false).pwrState ≠ .fault ∧
      (slave .boil false false).pwrState.flushable = true ∧ (slave .boil false false).pwr.armed = true) ∧
    (power .cold []).isSlave = false := by decide +kernel

theorem wit_SlavesFallBack : (slave .cold false false).isSlave = true ∧ (slave .cold false false).pwrState = .cold ∧
    (slave .cold false false).pwr.offHeld = false ∧ (slave .cold false true).pwr.offHeld = true := by decide +kernel

theorem wit_MasterSends : Writes (powered true) .mctp .pwr ∧ (powered true).pwr.yvAddr = 0 ∧
    Writes (slave .boil false false) .mctp .pwr ∧ (slave .boil false false).pwr.yvAddr ≠ 0 := by
  unfold Writes Clear; decide +kernel

/-! ### Resets, commits, registers -/

/-- The pre-reset phase, and a frame held in pantry bare. -/
def resetting : State := { powered true with boot := { base.boot with seq := .preReset } }
def holding : State := { powered true with stk := { base.stk with frames := [(5, { Frame.free with slice := 7, state := .resident, held := true })] } }

theorem wit_WarmResetBegins :
    (Writes (powered true) .mctp .boot ∧ (powered true).recovery = false ∧ (powered true).boot.ready = true ∧
      (powered true).boot.seq ≠ .preReset ∧ (powered true).pwrState = .boil ∧ (powered true).heldFrames = false) ∧
    (Writes holding .mctp .boot ∧ holding.recovery = false ∧ holding.boot.ready = true ∧ holding.heldFrames = true ∧ holding.pwr.armed = true) ∧
    (Writes resetting .mctp .boot ∧ resetting.boot.seq = .preReset) := by
  unfold Writes Clear; decide +kernel

theorem wit_WarmResetTimesOut : (resetting.boot.seq = .preReset ∧ resetting.pwrState.flushable = true ∧ resetting.pwr.armed = true) ∧
    (powered true).boot.seq ≠ .preReset := by decide +kernel

/-- One staged change of a pass register, one that a rule refuses (a Yulvoga threshold out of order), and a pending commit. -/
def staged (p : RPage) (o : Nat) (v : W32) : State := { base with regs := { base.regs with shadow := [(p.base + o, v)] } }
def pendingOn (ports : List Nat) : State :=
  { base with cmt := { base.cmt with pending := true, changes := [(RPage.pas.base + 0x40, 7)], ports := ports, since := 100 } }

theorem wit_CommitsAreJudged :
    (Writes base .mctp .glb ∧ base.cmt.pending = false ∧ base.changes = [] ∧ ∀ n, (base.link n).memActive = false) ∧
    ((pendingOn []).cmt.pending = true ∧ Writes (pendingOn []) .mctp .glb) := by
  unfold Writes Clear
  exact ⟨⟨by decide +kernel, by decide +kernel, by decide +kernel, fun _ => rfl⟩, by decide +kernel⟩

theorem wit_CommitsApply :
    ((pendingOn []).cmt.pending = true ∧ (pendingOn []).cmt.waiting = [] ∧ (pendingOn []).cmt.requests = [] ∧
      (pendingOn []).cmt.changes = [(RPage.pas.base + 0x40, 7)] ∧ (pendingOn []).cmt.ports = []) ∧
    ((pendingOn [2]).cmt.ports ≠ [] ∧ (pendingOn [2]).quiescent = true ∧ (pendingOn [2]).now ≤ (pendingOn [2]).cmt.since + 20 * Config.us) ∧
    (let s : State := { pendingOn [2] with ports := { base.ports with links := [(9, { (base.link 9) with iwq := [queued] })] } }
     s.cmt.ports ≠ [] ∧ s.quiescent = false) := by decide +kernel

theorem wit_RegistersAreAccessed :
    let off : Fin 0x4000000 := Fin.ofNat _ (RPage.pas.base + 0x40)
    (locate off.val = some (.pas, 0x40) ∧ locate (RPage.pas.base + 0x14) = some (.pas, 0x14) ∧
      locate (RPage.pas.base + 0x1C) = some (.pas, 0x1C) ∧ Writes base .mctp .pas) ∧
    (off.val % 4 = 0 ∧ RPage.pas.base + 0x40 = off.val ∧ (RPage.pas.row 0x40).isSome = true ∧
      base.special .mctp .pas 0x40 0 = none ∧ base.cmt.pending = false ∧ base.windowLocked .pas 0x40 0 = false) ∧
    (∀ k, k < 3 → base.readSide .mctp (off.val + 4 * k) = base) := by
  unfold Writes Clear; decide +kernel

theorem wit_VendorCommandsAnswer : (power .flush []).pwrState = .flush ∧ (base.heard .mctp = true ∧ (4#32).toNat % 4 = 0 ∧
      (1 : Byte).toNat ≤ 16 ∧ (∀ k, k < (1 : Byte).toNat → base.readSide .mctp ((4#32).toNat + 4 * k) = base) ∧ base.deadWord 4 = false) ∧
    (let s := { base with burners := [(3, { base.burner 3 with retired := true })] }
     s.deadWord ((RPage.brn 3).base + 0x40) = true) := by decide +kernel

theorem wit_TapLoads :
    (let s := { powered true with ports := (upOn 9).ports }
     s.pwr.vaux = true ∧ (s.rail 4).qualified = true ∧ s.pwrState ≠ .flush ∧ ∃ e ∈ s.ports.links, e.2.memActive = true) ∧
    ((∀ e ∈ (powered true).ports.links, e.2.memActive = false) ∧ (powered true).stk.frames = [] ∧ (powered true).stk.pages = []) ∧
    unpowered.pwr.vaux = false := by decide +kernel

/-! ### Rules stated whole -/

theorem wit_SummaryBitsFollowThePages : base.heard .mctp = true ∧ base.view .mctp .glb = .full := by decide +kernel

end Sys2Proof.Tests
end

section
/-!
SUPPORT. What the operations of the device leave as it was: the fuses and the commands that wait. `State.fixed` is that part of the state;
one law per operation says that it is as it was, and the laws are simp lemmas, so that the law of an operation follows from those of
the operations it is made of. An operation that may give no state has a law `OnSome`, a command a law `Answers`, which says that it
is answered with a next state as well. Some laws are proved by `(rfl)` and not by `rfl`: simp takes a law proved by `rfl` as a
computation step and leaves no proof, and then cannot show the hypothesis of `fixed_foldl`.

Two operations do change the fuses, `State.applyRecipe` and `execFwConfirmation`, as `FusesKept` lets them; they and what contains
them (the start, with it the idle step) have laws `Kept`, from which every step follows.
-/

namespace Sys2Proof.Machine

open Sys2Proof Sys2Proof.Safety Sys2Proof.Laws

/-- What nearly every operation leaves as it was: the fuses, and the commands that wait. -/
def State.fixed (s : State) : Fuses × List Instr := (s.fuses, s.pending)

@[simp] theorem State.fixed_mk (pending now free out fuses regs ports loads nextLoad rails stk siv med dies burners upk pass ladles
    spr ctxs chans tly spk clk thm flt reports slots prot pwrState recovery hooks cmt mbx mec pwr nor boot stw) :
    (State.mk pending now free out fuses regs ports loads nextLoad rails stk siv med dies burners upk pass ladles spr ctxs chans tly
      spk clk thm flt reports slots prot pwrState recovery hooks cmt mbx mec pwr nor boot stw).fixed = (fuses, pending) := (rfl)

@[simp] theorem State.fixed_fold (t : State) : (t.fuses, t.pending) = t.fixed := (rfl)

@[simp] theorem fixed_ite (c : Prop) [Decidable c] (a b : State) :
    (if c then a else b).fixed = if c then a.fixed else b.fixed := apply_ite _ _ _ _

@[simp] theorem fixed_fst_ite {β : Type} (c : Prop) [Decidable c] (a b : State × β) :
    (if c then a else b).1.fixed = if c then a.1.fixed else b.1.fixed := apply_ite (fun x : State × β => x.1.fixed) _ _ _

@[simp] theorem fixed_snd_ite {β : Type} (c : Prop) [Decidable c] (a b : β × State) :
    (if c then a else b).2.fixed = if c then a.2.fixed else b.2.fixed := apply_ite (fun x : β × State => x.2.fixed) _ _ _

/-- A run of operations leaves what each of them leaves. -/
theorem foldl_keeps {σ α β : Type} (g : σ → β) {f : σ → α → σ} (hf : ∀ a x, g (f a x) = g a) (xs : List α) (a : σ) :
    g (xs.foldl f a) = g a := by
  rw [← List.foldl_hom g (g₂ := fun b _ => b) fun a x => (hf a x).symm, List.foldl_fixed]

@[simp] theorem fixed_foldl {α : Type} {f : State → α → State} (hf : ∀ t x, (f t x).fixed = t.fixed) (xs : List α) (s : State) :
    (xs.foldl f s).fixed = s.fixed := foldl_keeps State.fixed hf xs s

@[simp] theorem fixed_foldl_fst {α β : Type} {f : State × β → α → State × β} (hf : ∀ a x, (f a x).1.fixed = a.1.fixed)
    (xs : List α) (a : State × β) : (xs.foldl f a).1.fixed = a.1.fixed :=
  foldl_keeps (fun a : State × β => a.1.fixed) hf xs a

@[simp] theorem fixed_foldl_snd {α β : Type} {f : β × State → α → β × State} (hf : ∀ a x, (f a x).2.fixed = a.2.fixed)
    (xs : List α) (a : β × State) : (xs.foldl f a).2.fixed = a.2.fixed :=
  foldl_keeps (fun a : β × State => a.2.fixed) hf xs a

theorem fixed_of_noted {s t : State} (h : Noted s t) : t.fixed = s.fixed := by
  obtain ⟨_, _, _, _, _, rfl, _⟩ := h
  rfl

/-- A command is answered with a next state that leaves what is fixed as it was. -/
def Answers (s : State) (o : Host.Outcome State Fault Refusal) : Prop := ∃ t, o = .next t ∧ t.fixed = s.fixed

@[simp] theorem answers_next (s t : State) : Answers s (.next t) ↔ t.fixed = s.fixed := by
  simp [Answers]

/-- The state that an operation gives, if it gives one, has what is fixed as it was. -/
def OnSome (s : State) (o : Option State) : Prop := ∀ t, o = some t → t.fixed = s.fixed

@[simp] theorem onSome_none (s : State) : OnSome s none := by simp [OnSome]
@[simp] theorem onSome_some (s t : State) : OnSome s (some t) ↔ t.fixed = s.fixed := by simp [OnSome]

@[simp] theorem onSome_map {α : Type} (s : State) (o : Option α) {f : α → State} (hf : ∀ x, (f x).fixed = s.fixed) :
    OnSome s (o.map f) := by
  cases o <;> simp [hf]

@[simp] theorem onSome_map_state {s : State} {o : Option State} (ho : OnSome s o) {f : State → State}
    (hf : ∀ t, (f t).fixed = t.fixed) : OnSome s (o.map f) := by
  cases o with
  | none => simp
  | some t => simpa [hf] using ho t rfl

@[simp] theorem getD_fixed {s : State} {o : Option State} (ho : OnSome s o) : (o.getD s).fixed = s.fixed := by
  cases o with
  | none => rfl
  | some t => exact ho t rfl

theorem OnSome.bind {s : State} {o : Option State} {f : State → Option State} (ho : OnSome s o) (hf : ∀ t, OnSome t (f t)) :
    OnSome s (o.bind f) := by
  cases o with
  | none => simp
  | some t => exact fun u hu => (hf t u hu).trans (ho t rfl)

theorem OnSome.fixed {s t : State} {o : Option State} (ho : OnSome s o) (h : o = some t) : t.fixed = s.fixed := ho t h

/-! ### Machine/Ops -/

@[simp] theorem State.emit_fixed (s : State) (o : Output) : (s.emit o).fixed = s.fixed := (rfl)
@[simp] theorem State.draw_fixed (s : State) : s.draw.2.fixed = s.fixed := (rfl)
@[simp] theorem State.reach_fixed (s : State) (due : Nat) : (s.reach due).fixed = s.fixed := (rfl)
@[simp] theorem State.rootStop_fixed (s : State) : s.rootStop.fixed = s.fixed := (rfl)
@[simp] theorem State.rootStart_fixed (s : State) : s.rootStart.fixed = s.fixed := (rfl)
@[simp] theorem State.setLive_fixed (s : State) (p : RPage) (o : Nat) (v : W32) : (s.setLive p o v).fixed = s.fixed := (rfl)
@[simp] theorem State.setShadow_fixed (s : State) (p : RPage) (o : Nat) (v : W32) : (s.setShadow p o v).fixed = s.fixed := (rfl)
@[simp] theorem State.setLink_fixed (s : State) (n : Nat) (f : Link → Link) : (s.setLink n f).fixed = s.fixed := (rfl)
@[simp] theorem State.setFrame_fixed (s : State) (f : Nat) (x : Frame) : (s.setFrame f x).fixed = s.fixed := (rfl)
@[simp] theorem State.updFrame_fixed (s : State) (f : Nat) (g : Frame → Frame) : (s.updFrame f g).fixed = s.fixed := (rfl)

@[simp] theorem State.landingMove_fixed (s : State) : s.landingMove.fixed = s.fixed := by
  unfold State.landingMove
  split <;> simp

@[simp] theorem State.landAll_fixed (n : Nat) (s : State) : (State.landAll n s).fixed = s.fixed := by
  induction n generalizing s with
  | zero => rfl
  | succ n ih => simp [State.landAll, ih]

@[simp] theorem State.freeFrame_fixed (s : State) (f : Nat) : (s.freeFrame f).fixed = s.fixed := by simp [State.freeFrame]
@[simp] theorem State.setLoaf_fixed (s : State) (l : Nat) (e : LoafE) : (s.setLoaf l e).fixed = s.fixed := (rfl)
@[simp] theorem State.setSliceE_fixed (s : State) (b k : Nat) (e : SliceE) : (s.setSliceE b k e).fixed = s.fixed := (rfl)
@[simp] theorem State.updBlk_fixed (s : State) (x : Nat) (f : Block → Block) : (s.updBlk x f).fixed = s.fixed := (rfl)
@[simp] theorem State.updBlock4_fixed (s : State) (burner ce block : Nat) (f : Block → Block) :
    (s.updBlock4 burner ce block f).fixed = s.fixed := by simp [State.updBlock4]
@[simp] theorem State.addValid_fixed (s : State) (a : Nat) : (s.addValid a).fixed = s.fixed := (rfl)
@[simp] theorem State.dropValid_fixed (s : State) (a : Nat) : (s.dropValid a).fixed = s.fixed := (rfl)
@[simp] theorem State.addInflight_fixed (s : State) (a : Nat) : (s.addInflight a).fixed = s.fixed := (rfl)
@[simp] theorem State.dropInflight_fixed (s : State) (a : Nat) : (s.dropInflight a).fixed = s.fixed := (rfl)
@[simp] theorem State.updDie_fixed (s : State) (b ce : Nat) (f : Die → Die) : (s.updDie b ce f).fixed = s.fixed := (rfl)
@[simp] theorem State.updBurner_fixed (s : State) (b : Nat) (f : Burner → Burner) : (s.updBurner b f).fixed = s.fixed := (rfl)
@[simp] theorem State.updLadle_fixed (s : State) (p : Nat) (f : Ladle → Ladle) : (s.updLadle p f).fixed = s.fixed := (rfl)
@[simp] theorem State.record_fixed (s : State) (code p0 p1 p2 p3 : Nat) : (s.record code p0 p1 p2 p3).fixed = s.fixed := (rfl)
@[simp] theorem State.updSlot_fixed (s : State) (n : Nat) (f : KeySlot → KeySlot) : (s.updSlot n f).fixed = s.fixed := (rfl)
@[simp] theorem State.updCtx_fixed (s : State) (n : Nat) (f : Ctx → Ctx) : (s.updCtx n f).fixed = s.fixed := (rfl)
@[simp] theorem State.updChan_fixed (s : State) (c : Nat) (f : Chan → Chan) : (s.updChan c f).fixed = s.fixed := (rfl)
@[simp] theorem State.report_fixed (s : State) (source utype uid : Nat) : (s.report source utype uid).fixed = s.fixed := (rfl)
@[simp] theorem State.translate_fixed (s : State) (i : Nat) (q : TReq) (prio : Nat) :
    (s.translate i q prio).fixed = s.fixed := (rfl)

/-! ### Machine/Flags -/

@[simp] theorem State.setIrqStat_fixed (s : State) (p : RPage) (v : W32) : (s.setIrqStat p v).fixed = s.fixed := (rfl)
@[simp] theorem State.sendMsix_fixed (s : State) (p : RPage) : (s.sendMsix p).fixed = s.fixed := by simp [State.sendMsix]
@[simp] theorem State.raise_fixed (s : State) (p : RPage) (i : Nat) : (s.raise p i).fixed = s.fixed := by simp [State.raise]
@[simp] theorem State.resendMsix_fixed (s : State) (n : Nat) : (s.resendMsix n).fixed = s.fixed := by simp [State.resendMsix]

@[simp] theorem State.bump_fixed (k fuel n : Nat) (s : State) : (s.bump k fuel n).fixed = s.fixed :=
  fixed_of_noted (noted_bump k fuel n s)

@[simp] theorem State.tally_fixed (s : State) (e : TEv) (k : Nat) : (s.tally e k).fixed = s.fixed := by simp [State.tally]
@[simp] theorem State.sample_fixed (s : State) (source : Nat) (e : TEv) (elapsed : Nat) :
    (s.sample source e elapsed).fixed = s.fixed := by simp [State.sample]

/-! ### Machine/Runs -/

@[simp] theorem State.reply_fixed (s : State) (p : Path) (opcode rc : Nat) (payload : List Byte) :
    (s.reply p opcode rc payload).fixed = s.fixed := (rfl)
@[simp] theorem State.outcome_fixed (s : State) (p : Path) (opcode k : Nat) : (s.outcome p opcode k).fixed = s.fixed := (rfl)
@[simp] theorem State.fail_fixed (s : State) (p : Path) (opcode rc : Nat) : (s.fail p opcode rc).fixed = s.fixed := (rfl)
@[simp] theorem State.startRun_fixed (s : State) (p : Path) (opcode : Nat) (args : List Nat) (rest : List Byte) :
    (s.startRun p opcode args rest).fixed = s.fixed := (rfl)
@[simp] theorem State.toBackground_fixed (s : State) (r : MbxRun) :
    (s.toBackground r).fixed = s.fixed := by simp [State.toBackground]
@[simp] theorem State.endRun_fixed (s : State) (r : MbxRun) (rc : Nat) (payload : List Byte) :
    (s.endRun r rc payload).fixed = s.fixed := by simp [State.endRun]

@[simp] theorem State.endRuns_fixed (s : State) (p : MbxRun → Bool) (rc : Nat) (payload : List Byte) :
    (s.endRuns p rc payload).fixed = s.fixed := by
  unfold State.endRuns
  refine fixed_foldl (fun t r => ?_) _ s
  split <;> simp

/-! ### Machine/Spike -/

@[simp] theorem State.postEvent_fixed (s : State) (n log : Nat) (bytes : List Byte) :
    (s.postEvent n log bytes).fixed = s.fixed := by
  unfold State.postEvent
  dsimp only
  split <;> simp

@[simp] theorem State.postRecord_fixed (s : State) (r : SpikeRec) :
    (s.postRecord r).fixed = s.fixed := by simp [State.postRecord]
@[simp] theorem State.stageRec_fixed (s : State) (e : Ev) (suppressed : Nat) :
    (s.stageRec e suppressed).fixed = s.fixed := by simp [State.stageRec]
@[simp] theorem State.stageLost_fixed (s : State) : s.stageLost.fixed = s.fixed := by simp [State.stageLost]
@[simp] theorem State.setLimit_fixed (s : State) (l : Limit) : (s.setLimit l).fixed = s.fixed := (rfl)
@[simp] theorem State.dropEvent_fixed (s : State) : s.dropEvent.fixed = s.fixed := by simp [State.dropEvent]

@[simp] theorem State.takeEvent_fixed (s : State) (e : Ev) : (s.takeEvent e).fixed = s.fixed := by
  unfold State.takeEvent
  dsimp only
  split <;> simp

@[simp] theorem execSpikeEvent_answers (s : State) : Answers s (execSpikeEvent s) := by
  unfold execSpikeEvent
  dsimp only
  repeat' split
  all_goals simp

@[simp] theorem State.padSpike_fixed (s : State) : s.padSpike.fixed = s.fixed := by simp [State.padSpike]
@[simp] theorem State.ringPassed_fixed (s : State) (first : Nat) :
    (s.ringPassed first).fixed = s.fixed := by simp [State.ringPassed]
@[simp] theorem State.findRing_fixed (s : State) (replayed : List SpikeRec) :
    (s.findRing replayed).fixed = s.fixed := by simp [State.findRing]

/-! ### Machine/Alarms -/

@[simp] theorem State.alarm_fixed (s : State) (kind : Nat) (a : Access) :
    (s.alarm kind a).fixed = s.fixed := by simp [State.alarm]

/-! ### Machine/Ladles -/

@[simp] theorem State.heldIrq_fixed (before : Nat) (p : Nat) (s : State) :
    (s.heldIrq before p).fixed = s.fixed := by simp [State.heldIrq]
@[simp] theorem State.ladleInvalidate_fixed (s : State) (p line : Nat) :
    (s.ladleInvalidate p line).fixed = s.fixed := by simp [State.ladleInvalidate]
@[simp] theorem State.ladleUpdate_fixed (s : State) (p line keyslot : Nat) (data : Line) (mask : Mask) (poison : Bool) :
    (s.ladleUpdate p line keyslot data mask poison).fixed = s.fixed := by simp [State.ladleUpdate]
@[simp] theorem State.openFill_fixed (s : State) (p line keyslot : Nat) :
    (s.openFill p line keyslot).1.fixed = s.fixed := by simp [State.openFill]

@[simp] theorem State.closeFill_fixed (s : State) (p i : Nat) (data : Option Line) :
    (s.closeFill p i data).fixed = s.fixed := by
  unfold State.closeFill
  dsimp only
  split <;> simp

@[simp] theorem State.allocLine_fixed (s : State) (p line keyslot : Nat) (data : Line) :
    (s.allocLine p line keyslot data).fixed = s.fixed := by simp [State.allocLine]
@[simp] theorem State.ladleRange_fixed (s : State) (p base size : Nat) :
    (s.ladleRange p base size).fixed = s.fixed := by simp [State.ladleRange]
@[simp] theorem State.ladleRelock_fixed (s : State) (p old : Nat) :
    (s.ladleRelock p old).fixed = s.fixed := by simp [State.ladleRelock]

@[simp] theorem execLadleInvalidate_answers (p : Fin 8) (s : State) : Answers s (execLadleInvalidate p s) := by
  unfold execLadleInvalidate
  repeat' split
  all_goals simp

/-! ### Machine/Map -/

@[simp] theorem State.stage_fixed (s : State) (r : JRec) : (s.stage r).fixed = s.fixed := (rfl)
@[simp] theorem State.nextSeq_fixed (s : State) : s.nextSeq.2.fixed = s.fixed := (rfl)
@[simp] theorem State.cacheLine_fixed (s : State) (off : Nat) : (s.cacheLine off).fixed = s.fixed := (rfl)
@[simp] theorem State.cacheLookup_fixed (s : State) (slice : Nat) :
    (s.cacheLookup slice).fixed = s.fixed := by simp [State.cacheLookup]
@[simp] theorem State.retireAddr_fixed (s : State) (a : Nat) : (s.retireAddr a).fixed = s.fixed := (rfl)
@[simp] theorem State.retireEntry_fixed (s : State) (e : SliceE) :
    (s.retireEntry e).fixed = s.fixed := by simp [State.retireEntry]
@[simp] theorem State.retireQuad_fixed (s : State) (quad : Nat) :
    (s.retireQuad quad).fixed = s.fixed := by simp [State.retireQuad]
@[simp] theorem State.retireLoaf_fixed (s : State) (l : Nat) : (s.retireLoaf l).fixed = s.fixed := by simp [State.retireLoaf]
@[simp] theorem State.queueDemotions_fixed (s : State) : s.queueDemotions.fixed = s.fixed := by simp [State.queueDemotions]
@[simp] theorem State.allocBlock_fixed (s : State) : s.allocBlock.2.fixed = s.fixed := by simp [State.allocBlock]
@[simp] theorem State.freeBlock_fixed (s : State) (b : Nat) : (s.freeBlock b).fixed = s.fixed := (rfl)
@[simp] theorem State.promote_fixed (s : State) (l : Nat) : (s.promote l).fixed = s.fixed := by simp [State.promote]

@[simp] theorem State.toSlices_onSome (s : State) (l : Nat) : OnSome s (s.toSlices l) := by
  unfold State.toSlices
  split_ifs <;> simp

@[simp] theorem State.mapSlice_fixed (s : State) (slice addr : Nat) (seq : BitVec 48) :
    (s.mapSlice slice addr seq).fixed = s.fixed := by simp [State.mapSlice]
@[simp] theorem State.mapLoaf_fixed (s : State) (l quad : Nat) (seq : BitVec 48) (keepHeat : Bool) :
    (s.mapLoaf l quad seq keepHeat).fixed = s.fixed := by simp [State.mapLoaf]
@[simp] theorem State.poisonSlice_fixed (s : State) (slice : Nat) (mask : BitVec 4) :
    (s.poisonSlice slice mask).fixed = s.fixed := by simp [State.poisonSlice]
@[simp] theorem State.discardSlice_fixed (s : State) (slice : Nat) :
    (s.discardSlice slice).fixed = s.fixed := by simp [State.discardSlice]
@[simp] theorem State.discardLoaf_fixed (s : State) (l : Nat) : (s.discardLoaf l).fixed = s.fixed := by simp [State.discardLoaf]

/-! ### Machine/Stockpot -/

@[simp] theorem State.postInvalidates_fixed (s : State) (port : Option Nat) (line : Nat) :
    (s.postInvalidates port line).fixed = s.fixed := by simp [State.postInvalidates]
@[simp] theorem State.invalidateOthers_fixed (s : State) (port : Option Nat) (line : Nat) :
    (s.invalidateOthers port line).fixed = s.fixed := by simp [State.invalidateOthers]
@[simp] theorem State.occIrq_fixed (before s : State) : (before.occIrq s).fixed = s.fixed := by simp [State.occIrq]

@[simp] theorem State.pantryWrite_onSome (s : State) (w : WriteIn) : OnSome s (s.pantryWrite w) := by
  unfold State.pantryWrite
  dsimp only
  split
  · simp
  · split
    · next h => simpa using (s.toSlices_onSome _).fixed h
    · split <;> simp

@[simp] theorem State.acceptData_onSome (s : State) (w : WriteIn) : OnSome s (s.acceptData w) := by
  unfold State.acceptData
  dsimp only
  repeat' split
  all_goals simp

@[simp] theorem State.writeAlarm_fixed (s : State) (w : WriteIn) :
    (s.writeAlarm w).fixed = s.fixed := by simp [State.writeAlarm]

@[simp] theorem State.accept_onSome (s : State) (w : WriteIn) : OnSome s (s.accept w) := by
  unfold State.accept
  dsimp only
  split
  · simp
  · next t h =>
    have ht : t.fixed = s.fixed := by
      split at h
      · exact (s.pantryWrite_onSome _).fixed h
      · exact (s.acceptData_onSome _).fixed h
    cases (s.keyWrite w).port <;> simp [ht]

@[simp] theorem State.feedAccept_fixed (s : State) (n : Nat) : (s.feedAccept n).fixed = s.fixed := by simp [State.feedAccept]
@[simp] theorem State.freeEntry_fixed (s : State) (n : Nat) (q : BitVec 16) :
    (s.freeEntry n q).fixed = s.fixed := by simp [State.freeEntry]
@[simp] theorem State.acknowledge_fixed (s : State) (n : Nat) (q : BitVec 16) :
    (s.acknowledge n q).fixed = s.fixed := by simp [State.acknowledge]
@[simp] theorem State.noteAccepted_fixed (s : State) (n arr : Nat) :
    (s.noteAccepted n arr).fixed = s.fixed := by simp [State.noteAccepted]
@[simp] theorem State.freezeWrite_fixed (s : State) (v : Bool) :
    (s.freezeWrite v).fixed = s.fixed := by simp [State.freezeWrite]
@[simp] theorem State.countUnavail_fixed (s : State) (from_ : Nat) :
    (s.countUnavail from_).fixed = s.fixed := by simp [State.countUnavail]

@[simp] theorem State.account_fixed (s : State) : s.account.fixed = s.fixed := by
  unfold State.account
  split <;> simp

@[simp] theorem State.noteWait_fixed (s : State) (started : Nat) :
    (s.noteWait started).fixed = s.fixed := by simp [State.noteWait]
@[simp] theorem State.presentMemory_fixed (s : State) : s.presentMemory.fixed = s.fixed := by simp [State.presentMemory]

/-! ### Machine/Stripes -/

@[simp] theorem State.updStripe_fixed (s : State) (S : Nat) (f : Block → Block) :
    (s.updStripe S f).fixed = s.fixed := by simp [State.updStripe]
@[simp] theorem State.place_fixed (s : State) (q : MReq) : (s.place_ q).fixed = s.fixed := by simp [State.place_]
@[simp] theorem State.request_fixed (s : State) (op : MOp) (addr : Nat) (rq : Requester) (cls : DlClass) (pu : Purpose) :
    (s.request op addr rq cls pu).fixed = s.fixed := by simp [State.request]
@[simp] theorem State.requestFor_fixed (s : State) (q : MReq) (addr : Nat) (soft : Bool) (job : Option Nat) :
    (s.requestFor q addr soft job).fixed = s.fixed := by simp [State.requestFor]

@[simp] theorem State.updPage_fixed (s : State) (i : Nat) (f : Page → Page) : (s.updPage i f).fixed = s.fixed := by
  unfold State.updPage
  split <;> simp

@[simp] theorem State.addPage_fixed (s : State) (p : Page) : (s.addPage p).fixed = s.fixed := (rfl)
@[simp] theorem State.startRow_fixed (s : State) (a : Nat) : (s.startRow a).fixed = s.fixed := by simp [State.startRow]

@[simp] theorem State.issueProgram_fixed (s : State) (i : Nat) : (s.issueProgram i).fixed = s.fixed := by
  unfold State.issueProgram
  repeat' split
  all_goals simp

@[simp] theorem State.issueReady_fixed (s : State) : s.issueReady.fixed = s.fixed := by simp [State.issueReady]

@[simp] theorem State.openStripe_onSome (s : State) (q : Stream) : OnSome s (s.openStripe q) := by
  unfold State.openStripe
  split <;> simp

@[simp] theorem State.takePos_fixed (s : State) (S p r pl : Nat) :
    (s.takePos S p r pl).fixed = s.fixed := by simp [State.takePos]

@[simp] theorem State.aim_fixed (s : State) (i addr : Nat) : (s.aim i addr).fixed = s.fixed := by
  unfold State.aim
  split <;> simp

@[simp] theorem State.targetPage_onSome (s : State) (i : Nat) (q : Stream) (aboveFloor : Bool) :
    OnSome s (s.targetPage i q aboveFloor) := by
  unfold State.targetPage
  dsimp only
  split
  · next h => rw [← h]; simp
  · split
    · exact (s.openStripe_onSome q).bind fun t => by simp
    · simp

@[simp] theorem State.padPos_fixed (s : State) (o : OpenStripe) (page r pl : Nat) :
    (s.padPos o page r pl).fixed = s.fixed := by simp [State.padPos]
@[simp] theorem State.levelMember_fixed (s : State) (o : OpenStripe) (r p : Nat) :
    (s.levelMember o r p).fixed = s.fixed := by simp [State.levelMember]

@[simp] theorem State.targetQuad_onSome (s : State) (is : List Nat) (q : Stream) (aboveFloor : Bool) :
    OnSome s (s.targetQuad is q aboveFloor) := by
  unfold State.targetQuad
  dsimp only
  split
  · next h => rw [← h]; simp
  · split
    · exact (s.openStripe_onSome q).bind fun t => by simp
    · simp

@[simp] theorem State.addParity_fixed (s : State) (a : Nat) (dom : List Byte) :
    (s.addParity a dom).fixed = s.fixed := by simp [State.addParity]
@[simp] theorem State.issueParity_fixed (s : State) (o : OpenStripe) (p : Nat) :
    (s.issueParity o p).fixed = s.fixed := by simp [State.issueParity]

@[simp] theorem State.fillRows_fixed (s : State) : s.fillRows.fixed = s.fixed := by
  unfold State.fillRows
  refine fixed_foldl (fun t o => fixed_foldl (fun u e => ?_) _ t) _ s
  split
  · split <;> simp
  · rfl

@[simp] theorem State.dueMirrors_fixed (s : State) (xs : List Nat) :
    (s.dueMirrors xs).fixed = s.fixed := by simp [State.dueMirrors]
@[simp] theorem State.sealRows_fixed (s : State) : s.sealRows.fixed = s.fixed := by simp [State.sealRows]
@[simp] theorem State.queueForced_fixed (s : State) (prec S : Nat) :
    (s.queueForced prec S).fixed = s.fixed := by simp [State.queueForced]
@[simp] theorem State.urgentRefresh_fixed (s : State) (S : Nat) :
    (s.urgentRefresh S).fixed = s.fixed := by simp [State.urgentRefresh]

/-! ### Machine/Drain -/

@[simp] theorem State.postCapacity_fixed (s : State) (n type : Nat) (e : Extent) :
    (s.postCapacity n type e).fixed = s.fixed := by simp [State.postCapacity]
@[simp] theorem State.judgeCapacity_fixed (s : State) : s.judgeCapacity.fixed = s.fixed := by simp [State.judgeCapacity]

@[simp] theorem State.completeFrame_fixed (s : State) (f : Nat) (rq : Requester) (cls : DlClass) :
    (s.completeFrame f rq cls).fixed = s.fixed := by
  unfold State.completeFrame
  dsimp only
  repeat' split
  all_goals simp

@[simp] theorem State.completePage_fixed (s : State) (i : Nat) : (s.completePage i).fixed = s.fixed := by
  unfold State.completePage
  split <;> simp

@[simp] theorem State.chooseFrame_fixed (s : State) (f : Nat) : (s.chooseFrame f).fixed = s.fixed := (rfl)
@[simp] theorem State.choose_fixed (s : State) (fs : List Nat) : (s.choose fs).fixed = s.fixed := by simp [State.choose]

@[simp] theorem State.assembleData_fixed (s : State) (q : Stream) : (s.assembleData q).fixed = s.fixed := by
  unfold State.assembleData
  dsimp only
  split <;> simp

@[simp] theorem State.takeRecs_fixed (n : Nat) (s : State) : (State.takeRecs n s).2.fixed = s.fixed := by
  induction n generalizing s with
  | zero => rfl
  | succ n ih =>
    unfold State.takeRecs
    split <;> simp [ih]

@[simp] theorem State.metaFrame_fixed (s : State) (x : Sector) : (s.metaFrame x).1.fixed = s.fixed := by
  unfold State.metaFrame
  split <;> simp

@[simp] theorem State.addMeta_fixed (s : State) (p : Page) (secs : List Sector) :
    (s.addMeta p secs).fixed = s.fixed := by simp [State.addMeta]
@[simp] theorem State.assembleJournal_fixed (s : State) : s.assembleJournal.fixed = s.fixed := by simp [State.assembleJournal]
@[simp] theorem State.assembleCkpt_fixed (s : State) (img : Nat → Four) :
    (s.assembleCkpt img).fixed = s.fixed := by simp [State.assembleCkpt]
@[simp] theorem State.assembleSpike_fixed (s : State) : s.assembleSpike.fixed = s.fixed := by simp [State.assembleSpike]
@[simp] theorem State.setHeat_fixed (s : State) (l h : Nat) : (s.setHeat l h).fixed = s.fixed := (rfl)

@[simp] theorem State.foldFrame_fixed (s : State) (r : Region) (quota slice : Nat) :
    (s.foldFrame r quota slice).1.fixed = s.fixed := by
  unfold State.foldFrame
  split <;> simp

@[simp] theorem State.backToResident_fixed (s : State) (f : Nat) :
    (s.backToResident f).fixed = s.fixed := by simp [State.backToResident]
@[simp] theorem State.dissolve_fixed (s : State) (i : Nat) (p : Page) :
    (s.dissolve i p).fixed = s.fixed := by simp [State.dissolve]
@[simp] theorem State.dissolveLoaf_fixed (s : State) (l : Nat) :
    (s.dissolveLoaf l).fixed = s.fixed := by simp [State.dissolveLoaf]

@[simp] theorem State.foldLoaf_fixed (s : State) (l : Nat) (demotion : Bool) : (s.foldLoaf l demotion).fixed = s.fixed := by
  unfold State.foldLoaf
  simp only [fixed_foldl, State.addPage_fixed, State.completeFrame_fixed, State.setLoaf_fixed, implies_true]
  refine fixed_foldl_fst (fun a e => ?_) _ _
  split <;> simp

@[simp] theorem State.spendCredit_fixed (s : State) (q : Stream) (n : Nat) : (s.spendCredit q n).fixed = s.fixed := by
  unfold State.spendCredit
  repeat' split
  all_goals simp

@[simp] theorem State.askRails_fixed (s : State) (q : Nat → TReq) (prio : Nat) (slices : List Nat) :
    (s.askRails q prio slices).fixed = s.fixed := by simp [State.askRails]

@[simp] theorem State.placePartial_fixed (s : State) (i : Nat) (p : Page) : (s.placePartial i p).fixed = s.fixed := by
  unfold State.placePartial
  extract_lets u js folds t v
  have hu : u.fixed = s.fixed := s.askRails_fixed _ _ _
  have hv : v.fixed = s.fixed := by simp [v, hu]
  split_ifs
  · exact hu
  · simp [t, hu]
  · simp [hu]
  · exact hu
  · split
    · next h => simp [(v.targetPage_onSome i _ _).fixed h, hv]
    · exact hu

@[simp] theorem State.targetSpike_fixed (s : State) (i : Nat) : (s.targetSpike i).fixed = s.fixed := by simp [State.targetSpike]

@[simp] theorem State.judgePage_fixed (s : State) (i : Nat) (p : Page) : (s.judgePage i p).fixed = s.fixed := by
  unfold State.judgePage
  split
  case h_4 =>
    dsimp only
    split_ifs
    · rfl
    · exact getD_fixed (by simp)
    · simp
  all_goals simp

@[simp] theorem State.releaseFrame_fixed (s : State) (f : Nat) :
    (s.releaseFrame f).fixed = s.fixed := by simp [State.releaseFrame]
@[simp] theorem State.dropFrame_fixed (s : State) (f : Nat) : (s.dropFrame f).fixed = s.fixed := by simp [State.dropFrame]

@[simp] theorem State.switchOne_onSome (s : State) (addr : Nat) (seq : BitVec 48) (f : Nat) :
    OnSome s (s.switchOne addr seq f) := by
  unfold State.switchOne
  dsimp only
  split_ifs <;> simp

@[simp] theorem State.dropPage_fixed (s : State) (i : Nat) : (s.dropPage i).fixed = s.fixed := by
  unfold State.dropPage
  split <;> simp

@[simp] theorem State.askSwitch_fixed (s : State) (fs : List Nat) :
    (s.askSwitch fs).fixed = s.fixed := by simp [State.askSwitch]

@[simp] theorem State.switchSlices_fixed (s : State) (i : Nat) (p : Page) : (s.switchSlices i p).fixed = s.fixed := by
  unfold State.switchSlices
  extract_lets a r left
  have hr : r.1.fixed = s.fixed := by
    refine (fixed_foldl_fst (fun acc e => ?_) _ _).trans (s.askSwitch_fixed _)
    split
    · split
      · next h => exact (acc.1.switchOne_onSome _ _ _).fixed h
      · rfl
    · rfl
  simp [hr]

@[simp] theorem State.switchQuad_fixed (s : State) (q : Nat) (is : List (Nat × Page)) :
    (s.switchQuad q is).fixed = s.fixed := by simp [State.switchQuad]
@[simp] theorem State.reassemble_fixed (s : State) (i : Nat) (p : Page) :
    (s.reassemble i p).fixed = s.fixed := by simp [State.reassemble]
@[simp] theorem State.settleQuad_fixed (s : State) (q : Nat) : (s.settleQuad q).fixed = s.fixed := by simp [State.settleQuad]
@[simp] theorem State.endRetires_fixed (s : State) (ckpt : Nat) :
    (s.endRetires ckpt).fixed = s.fixed := by simp [State.endRetires]

@[simp] theorem State.durableRecs_fixed (s : State) (p : Page) : (s.durableRecs p).fixed = s.fixed := by
  unfold State.durableRecs
  refine fixed_foldl (fun t x => ?_) _ _
  split <;> simp

@[simp] theorem State.settleJournal_fixed (k : Nat) (s : State) : (State.settleJournal k s).fixed = s.fixed := by
  induction k generalizing s with
  | zero => rfl
  | succ k ih =>
    unfold State.settleJournal
    split
    · split <;> simp [ih]
    · rfl

@[simp] theorem State.countUnknown_fixed (s : State) : s.countUnknown.fixed = s.fixed := by simp [State.countUnknown]

@[simp] theorem State.settlePage_fixed (s : State) (i : Nat) (p : Page) : (s.settlePage i p).fixed = s.fixed := by
  unfold State.settlePage
  split
  · simp
  split
  · cases p.mark <;> simp
  split
  · simp
  split
  case h_4 =>
    split
    · rfl
    · split <;> simp
  all_goals simp

@[simp] theorem State.settle_fixed (s : State) : s.settle.fixed = s.fixed := by
  unfold State.settle
  refine fixed_foldl (fun t e => ?_) _ s
  split
  · split <;> simp
  · rfl

@[simp] theorem State.mirror_fixed (s : State) (x : Nat) : (s.mirror x).fixed = s.fixed := by simp [State.mirror]
@[simp] theorem State.pumpMirrors_fixed (s : State) : s.pumpMirrors.fixed = s.fixed := by simp [State.pumpMirrors]

@[simp] theorem State.storePage_fixed (s : State) (p : Page) : (s.storePage p).fixed = s.fixed := by
  unfold State.storePage
  split <;> simp

@[simp] theorem State.programPassed_fixed (s : State) (i : Nat) (p : Page) :
    (s.programPassed i p).fixed = s.fixed := by simp [State.programPassed]

@[simp] theorem State.remapMember_fixed (s : State) (S b p0 : Nat) : (s.remapMember S b p0).fixed = s.fixed := by
  unfold State.remapMember
  split <;> simp

@[simp] theorem State.recall_fixed (s : State) (i : Nat) : (s.recall i).fixed = s.fixed := by simp [State.recall]
@[simp] theorem State.takeOut_fixed (s : State) (p : Page) : (s.takeOut p).fixed = s.fixed := by simp [State.takeOut]

@[simp] theorem State.retarget_fixed (s : State) (i : Nat) (p : Page) : (s.retarget i p).fixed = s.fixed := by
  unfold State.retarget
  repeat' split
  all_goals simp

@[simp] theorem State.closeFailed_fixed (s : State) (o : OpenStripe) (a : Nat) (parity : Bool) :
    (s.closeFailed o a parity).fixed = s.fixed := by simp [State.closeFailed]

@[simp] theorem State.reissueParity_fixed (s : State) (S b p : Nat) : (s.reissueParity S b p).fixed = s.fixed := by
  unfold State.reissueParity
  repeat' split
  all_goals simp

@[simp] theorem State.programFailed_fixed (s : State) (i : Nat) (p : Page) (charge : Bool) :
    (s.programFailed i p charge).fixed = s.fixed := by
  unfold State.programFailed
  dsimp only
  repeat' split
  all_goals simp

@[simp] theorem State.writeMark_fixed (s : State) : s.writeMark.fixed = s.fixed := by simp [State.writeMark]
@[simp] theorem State.cool_fixed (s : State) : s.cool.fixed = s.fixed := by simp [State.cool]
@[simp] theorem State.startCkpt_fixed (s : State) (early : Bool) :
    (s.startCkpt early).fixed = s.fixed := by simp [State.startCkpt]
@[simp] theorem State.withdraw_fixed (s : State) (S : Nat) : (s.withdraw S).fixed = s.fixed := by simp [State.withdraw]
@[simp] theorem State.rebuiltOne_fixed (s : State) (S : Nat) : (s.rebuiltOne S).fixed = s.fixed := by simp [State.rebuiltOne]
@[simp] theorem State.dropSlots_fixed (s : State) (xs : List Nat) : (s.dropSlots xs).fixed = s.fixed := (rfl)
@[simp] theorem State.freeStripe_fixed (s : State) (S : Nat) : (s.freeStripe S).fixed = s.fixed := by simp [State.freeStripe]
@[simp] theorem State.freeEmptied_fixed (s : State) : s.freeEmptied.fixed = s.fixed := by simp [State.freeEmptied]
@[simp] theorem State.judgeRebuild_fixed (s : State) : s.judgeRebuild.fixed = s.fixed := by simp [State.judgeRebuild]

@[simp] theorem State.scrape_fixed (n : Nat) (s : State) : (State.scrape n s).fixed = s.fixed := by
  induction n generalizing s with
  | zero => rfl
  | succ n ih =>
    unfold State.scrape
    split
    · dsimp only
      split <;> simp [ih]
    · rfl

@[simp] theorem State.afterPrograms_fixed (s : State) : s.afterPrograms.fixed = s.fixed := by simp [State.afterPrograms]

/-! ### Machine/Visibility -/

@[simp] theorem State.deferWrite_fixed (s : State) (n off : Nat) (path : Path) (data : W32) :
    (s.deferWrite n off path data).fixed = s.fixed := (rfl)

@[simp] theorem State.holdWrite_fixed (s : State) (path : Path) (off : Nat) (data : W32) :
    (s.holdWrite path off data).fixed = s.fixed := by
  unfold State.holdWrite
  split <;> simp

@[simp] theorem State.portWrite_fixed (s : State) (path : Path) (off : Nat) (data : W32) (body : State → State)
    (h : ∀ t, (body t).fixed = t.fixed) :
    (s.portWrite path off data body).fixed = s.fixed := by
  unfold State.portWrite
  repeat' split
  all_goals simp [h]

/-! ### Machine/DrainCommands -/

@[simp] theorem execPageAssembly_answers (q : Stream) (s : State) : Answers s (execPageAssembly q s) := by
  unfold execPageAssembly
  repeat' split
  all_goals simp

@[simp] theorem execPadFillExpiry_answers (q : Stream) (s : State) : Answers s (execPadFillExpiry q s) := by
  unfold execPadFillExpiry
  repeat' split
  all_goals simp

@[simp] theorem execAgeMaxExpiry_answers (s : State) : Answers s (execAgeMaxExpiry s) := by
  unfold execAgeMaxExpiry
  dsimp only
  repeat' split
  all_goals simp

@[simp] theorem execPageTargeting_answers (s : State) : Answers s (execPageTargeting s) := by
  unfold execPageTargeting
  repeat' split
  all_goals simp

@[simp] theorem execAlignedPageWaitExpiry_answers (s : State) : Answers s (execAlignedPageWaitExpiry s) := by
  unfold execAlignedPageWaitExpiry
  repeat' split
  all_goals simp

@[simp] theorem execSliceWaitRejudge_answers (s : State) : Answers s (execSliceWaitRejudge s) := by
  unfold execSliceWaitRejudge
  dsimp only
  repeat' split
  all_goals simp

@[simp] theorem State.programResult_fixed (s : State) (r : MReq) (pfail : BitVec 4) :
    (s.programResult r pfail).fixed = s.fixed := by
  unfold State.programResult
  repeat' split
  all_goals simp

@[simp] theorem State.blockBlank_fixed (s : State) (a : Nat) (st : BState) :
    (s.blockBlank a st).fixed = s.fixed := by simp [State.blockBlank]
@[simp] theorem State.resetPassed_fixed (s : State) (r : MReq) (S : Nat) :
    (s.resetPassed r S).fixed = s.fixed := by simp [State.resetPassed]
@[simp] theorem State.ringResetPassed_fixed (s : State) (a : Nat) :
    (s.ringResetPassed a).fixed = s.fixed := by simp [State.ringResetPassed]

@[simp] theorem State.pumpArea_fixed (s : State) : s.pumpArea.fixed = s.fixed := by
  unfold State.pumpArea
  repeat' split
  all_goals simp

@[simp] theorem State.areaResetPassed_fixed (s : State) (a : Nat) :
    (s.areaResetPassed a).fixed = s.fixed := by simp [State.areaResetPassed]

@[simp] theorem State.resetResult_fixed (s : State) (r : MReq) (passed : Bool) : (s.resetResult r passed).fixed = s.fixed := by
  unfold State.resetResult
  split <;> simp

@[simp] theorem State.lostResult_fixed (s : State) (r : MReq) : (s.lostResult r).fixed = s.fixed := by
  unfold State.lostResult
  repeat' split
  all_goals simp

@[simp] theorem execProgramResult_answers (b : Fin 32) (s : State) : Answers s (execProgramResult b s) := by
  unfold execProgramResult
  repeat' split
  all_goals simp

@[simp] theorem State.padRow_fixed (s : State) (o : OpenStripe) (page : Nat) :
    (s.padRow o page).fixed = s.fixed := by simp [State.padRow]

@[simp] theorem execRowPadExpiry_answers (s : State) : Answers s (execRowPadExpiry s) := by
  unfold execRowPadExpiry
  dsimp only
  repeat' split
  all_goals simp

@[simp] theorem execDemotionFold_answers (s : State) : Answers s (execDemotionFold s) := by
  unfold execDemotionFold
  dsimp only
  repeat' split
  all_goals simp

@[simp] theorem execFlushMark_answers (s : State) : Answers s (execFlushMark s) := by
  unfold execFlushMark
  repeat' split
  all_goals simp

@[simp] theorem execCheckpointStart_answers (s : State) : Answers s (execCheckpointStart s) := by
  unfold execCheckpointStart
  repeat' split
  all_goals simp

@[simp] theorem execCkptNow_answers (path : Path) (s : State) : Answers s (execCkptNow path s) := by
  unfold execCkptNow
  split <;> simp

@[simp] theorem execFreeze_answers (path : Path) (v : Bool) (s : State) :
    Answers s (execFreeze path v s) := by simp [execFreeze]

/-! ### Machine/Pass -/

@[simp] theorem State.setLane_fixed (s : State) (b : Nat) (l : List MReq) : (s.setLane b l).fixed = s.fixed := (rfl)

@[simp] theorem State.failRequest_fixed (s : State) (q : MReq) : (s.failRequest q).fixed = s.fixed := by
  unfold State.failRequest
  split <;> simp

@[simp] theorem execMediaRequestEntry_answers (b : Fin 32) (s : State) : Answers s (execMediaRequestEntry b s) := by
  unfold execMediaRequestEntry
  repeat' split
  all_goals simp

@[simp] theorem State.clampLane_fixed (s : State) (b : Nat) : (s.clampLane b).fixed = s.fixed := by simp [State.clampLane]
@[simp] theorem State.snapshot_fixed (s : State) (i : Nat) (p : Page) :
    (s.snapshot i p).fixed = s.fixed := by simp [State.snapshot]

@[simp] theorem State.grant_fixed (s : State) (b : Nat) (q : MReq) : (s.grant b q).fixed = s.fixed := by
  unfold State.grant
  dsimp only
  repeat' split
  all_goals simp

@[simp] theorem execPassGrant_answers (b : Fin 32) (s : State) : Answers s (execPassGrant b s) := by
  unfold execPassGrant
  dsimp only
  repeat' split
  all_goals simp

@[simp] theorem State.setMask_fixed (s : State) (r : Requester) (v : Bool) : (s.setMask r v).fixed = s.fixed := by
  unfold State.setMask
  split <;> simp

@[simp] theorem State.maskLane_fixed (s : State) (b : Nat) (v : Bool) :
    (s.maskLane b v).fixed = s.fixed := by simp [State.maskLane]
@[simp] theorem State.dropRequests_fixed (s : State) (gone : MReq → Bool) :
    (s.dropRequests gone).fixed = s.fixed := by simp [State.dropRequests]
@[simp] theorem State.dropEpoch_fixed (s : State) (r : Requester) (e : Nat) :
    (s.dropEpoch r e).fixed = s.fixed := by simp [State.dropEpoch]
@[simp] theorem State.bumpEpoch_fixed (s : State) (o : Nat) : (s.bumpEpoch o).fixed = s.fixed := (rfl)
@[simp] theorem State.revert_fixed (s : State) (r : Requester) : (s.revert r).fixed = s.fixed := by simp [State.revert]

@[simp] theorem execRequesterMask_answers (r : Requester) (v : Bool) (s : State) : Answers s (execRequesterMask r v s) := by
  unfold execRequesterMask
  split <;> simp

/-! ### Machine/Dies -/

@[simp] theorem State.frameTo_fixed (s : State) (b ce opcode planes : Nat) (rest : List Nat) :
    (s.frameTo b ce opcode planes rest).fixed = s.fixed := (rfl)
@[simp] theorem State.sendData_fixed (s : State) (b ce : Nat) (bytes : List Byte) :
    (s.sendData b ce bytes).fixed = s.fixed := by simp [State.sendData]
@[simp] theorem State.ungrant_fixed (s : State) (b : Nat) (q : MReq) : (s.ungrant b q).fixed = s.fixed := (rfl)
@[simp] theorem State.regrant_fixed (s : State) (b : Nat) (qs : List MReq) : (s.regrant b qs).fixed = s.fixed := (rfl)
@[simp] theorem State.postResult_fixed (s : State) (b : Nat) (q : MReq) (r : MRes) :
    (s.postResult b q r).fixed = s.fixed := by simp [State.postResult]

@[simp] theorem execReadLevelSet_answers (b : Fin 32) (s : State) : Answers s (execReadLevelSet b s) := by
  unfold execReadLevelSet
  repeat' split
  all_goals simp

@[simp] theorem execSectorRead_answers (b : Fin 32) (s : State) : Answers s (execSectorRead b s) := by
  unfold execSectorRead
  repeat' split
  all_goals simp

@[simp] theorem execDataOut_answers (b : Fin 32) (iters : Option (Fin 64)) (corrected : Fin 1024) (s : State) :
    Answers s (execDataOut b iters corrected s) := by
  unfold execDataOut
  repeat' split
  all_goals simp

@[simp] theorem State.issued_fixed (s : State) (i : Nat) : (s.issued i).fixed = s.fixed := by
  unfold State.issued
  split <;> simp

@[simp] theorem execProgramLoad_answers (b : Fin 32) (s : State) : Answers s (execProgramLoad b s) := by
  unfold execProgramLoad
  repeat' split
  all_goals simp

@[simp] theorem execProgramConfirm_answers (b : Fin 32) (ce : Fin 10) (s : State) : Answers s (execProgramConfirm b ce s) := by
  unfold execProgramConfirm
  dsimp only
  repeat' split
  all_goals simp

@[simp] theorem execBlockReset_answers (b : Fin 32) (s : State) : Answers s (execBlockReset b s) := by
  unfold execBlockReset
  repeat' split
  all_goals simp

@[simp] theorem State.suspend_fixed (s : State) (b ce : Nat) : (s.suspend b ce).fixed = s.fixed := by simp [State.suspend]

@[simp] theorem execSuspend_answers (b : Fin 32) (ce : Fin 10) (s : State) : Answers s (execSuspend b ce s) := by
  unfold execSuspend
  repeat' split
  all_goals simp

@[simp] theorem execMinRunExpiry_answers (b : Fin 32) (ce : Fin 10) (s : State) : Answers s (execMinRunExpiry b ce s) := by
  unfold execMinRunExpiry
  dsimp only
  repeat' split
  all_goals simp

@[simp] theorem State.resume_fixed (s : State) (b ce : Nat) : (s.resume b ce).fixed = s.fixed := (rfl)

@[simp] theorem execResume_answers (b : Fin 32) (ce : Fin 10) (s : State) : Answers s (execResume b ce s) := by
  unfold execResume
  repeat' split
  all_goals simp

@[simp] theorem execSuspendWindowExpiry_answers (b : Fin 32) (ce : Fin 10) (s : State) :
    Answers s (execSuspendWindowExpiry b ce s) := by
  unfold execSuspendWindowExpiry
  dsimp only
  repeat' split
  all_goals simp

@[simp] theorem State.endOp_fixed (s : State) (b ce : Nat) (w : W32) : (s.endOp b ce w).fixed = s.fixed := by simp [State.endOp]
@[simp] theorem State.dieFault_fixed (s : State) (b ce source : Nat) :
    (s.dieFault b ce source).fixed = s.fixed := by simp [State.dieFault]
@[simp] theorem State.takeStatus_fixed (s : State) (b ce : Nat) (w : W32) :
    (s.takeStatus b ce w).fixed = s.fixed := by simp [State.takeStatus]

@[simp] theorem execStatus_answers (b : Fin 32) (ce : Fin 10) (w : W32) (s : State) : Answers s (execStatus b ce w s) := by
  unfold execStatus
  repeat' split
  all_goals simp

@[simp] theorem State.takeTemp_fixed (s : State) (b ce : Nat) (raw : BitVec 16) : (s.takeTemp b ce raw).fixed = s.fixed := (rfl)

@[simp] theorem execTemperature_answers (b : Fin 32) (ce : Fin 10) (raw : BitVec 16) (s : State) :
    Answers s (execTemperature b ce raw s) := by
  unfold execTemperature
  repeat' split
  all_goals simp

@[simp] theorem execAlertN_answers (b : Fin 32) (words : List W32) (temps : List (BitVec 16)) (s : State) :
    Answers s (execAlertN b words temps s) := by
  unfold execAlertN
  split <;> simp

@[simp] theorem State.dieReset_fixed (s : State) (b ce : Nat) : (s.dieReset b ce).fixed = s.fixed := by simp [State.dieReset]

@[simp] theorem execDieReset_answers (b : Fin 32) (ce : Fin 10) (s : State) : Answers s (execDieReset b ce s) := by
  unfold execDieReset
  repeat' split
  all_goals simp

@[simp] theorem execDieTimeout_answers (b : Fin 32) (ce : Fin 10) (s : State) : Answers s (execDieTimeout b ce s) := by
  unfold execDieTimeout
  dsimp only
  repeat' split
  all_goals simp

@[simp] theorem State.mediaConfig_fixed (s : State) (b ce : Nat) : (s.mediaConfig b ce).fixed = s.fixed := (rfl)
@[simp] theorem State.configFault_fixed (s : State) (b ce : Nat) :
    (s.configFault b ce).fixed = s.fixed := by simp [State.configFault]

@[simp] theorem execParameterPage_answers (b : Fin 32) (ce : Fin 10) (bytes : List Byte) (s : State) :
    Answers s (execParameterPage b ce bytes s) := by
  unfold execParameterPage
  repeat' split
  all_goals simp

@[simp] theorem State.setDieCount_fixed (s : State) (n : Nat) : (s.setDieCount n).fixed = s.fixed := by simp [State.setDieCount]

@[simp] theorem execOwnerRead_answers (b : Fin 32) (ce : Fin 10) (blank : Bool) (bytes : List Byte) (s : State) :
    Answers s (execOwnerRead b ce blank bytes s) := by
  unfold execOwnerRead
  dsimp only
  repeat' split
  all_goals simp

@[simp] theorem execOwnerWrite_answers (b : Fin 32) (ce : Fin 10) (s : State) : Answers s (execOwnerWrite b ce s) := by
  unfold execOwnerWrite
  dsimp only
  repeat' split
  all_goals simp

@[simp] theorem execTrainRead_answers (b : Fin 32) (ce : Fin 10) (s : State) : Answers s (execTrainRead b ce s) := by
  unfold execTrainRead
  repeat' split
  all_goals simp

@[simp] theorem execTrainWrite_answers (b : Fin 32) (ce : Fin 10) (pattern : List Byte) (s : State) :
    Answers s (execTrainWrite b ce pattern s) := by
  unfold execTrainWrite
  repeat' split
  all_goals simp

@[simp] theorem execTrainReadback_answers (b : Fin 32) (ce : Fin 10) (s : State) : Answers s (execTrainReadback b ce s) := by
  unfold execTrainReadback
  repeat' split
  all_goals simp

/-! ### Machine/Windows -/

@[simp] theorem State.latchSelector_fixed (s : State) (n : Nat) (hpa : BitVec 64) :
    (s.latchSelector n hpa).fixed = s.fixed := by
  unfold State.latchSelector
  split <;> simp

@[simp] theorem State.outOfRange_fixed (s : State) (n : Nat) (hpa : BitVec 64) (window reason : Nat) :
    (s.outOfRange n hpa window reason).fixed = s.fixed := by simp [State.outOfRange]

/-! ### Machine/Spice -/

@[simp] theorem State.updSpr_fixed (s : State) (f : Spice → Spice) : (s.updSpr f).fixed = s.fixed := (rfl)

@[simp] theorem State.updDir_fixed (s : State) (line : Nat) (f : DirE → Option DirE) : (s.updDir line f).fixed = s.fixed := by
  unfold State.updDir
  split <;> simp

@[simp] theorem State.removeHolder_fixed (s : State) (line g : Nat) :
    (s.removeHolder line g).fixed = s.fixed := by simp [State.removeHolder]
@[simp] theorem State.dirDrop_fixed (s : State) (line : Nat) : (s.dirDrop line).fixed = s.fixed := by simp [State.dirDrop]

@[simp] theorem State.dirPut_fixed (s : State) (line : Nat) (st : DState) (ptrs : List Nat) (bcast : Bool) (keyId : Nat) :
    (s.dirPut line st ptrs bcast keyId).fixed = s.fixed := by
  unfold State.dirPut
  split <;> simp

@[simp] theorem State.dirTouch_fixed (s : State) (line : Nat) : (s.dirTouch line).fixed = s.fixed := by simp [State.dirTouch]

@[simp] theorem State.addSharer_fixed (s : State) (line g keyId : Nat) : (s.addSharer line g keyId).fixed = s.fixed := by
  unfold State.addSharer
  split <;> simp

@[simp] theorem State.setOwner_fixed (s : State) (line g keyId : Nat) (st : DState) :
    (s.setOwner line g keyId st).fixed = s.fixed := by simp [State.setOwner]

@[simp] theorem State.sendSnoops_fixed (s : State) : s.sendSnoops.fixed = s.fixed := by
  unfold State.sendSnoops
  refine fixed_foldl (fun t x => ?_) _ _
  dsimp only
  repeat' split
  all_goals simp

@[simp] theorem State.openTracker_fixed (s : State) (line : Nat) (act : TAct) (kind keyId : Nat) (hs : List Nat) :
    (s.openTracker line act kind keyId hs).fixed = s.fixed := by simp [State.openTracker]
@[simp] theorem State.evict_fixed (s : State) (e : DirE) (act : TAct) : (s.evict e act).fixed = s.fixed := by simp [State.evict]
@[simp] theorem State.waitQueue_fixed (s : State) (r : CReq) : (s.waitQueue r).fixed = s.fixed := by simp [State.waitQueue]

@[simp] theorem State.grantReq_fixed (s : State) (r : CReq) : (s.grantReq r).1.fixed = s.fixed := by
  unfold State.grantReq
  repeat' split
  all_goals simp

@[simp] theorem State.tryReq_fixed (s : State) (r : CReq) : (s.tryReq r).1.fixed = s.fixed := by
  unfold State.tryReq
  repeat' split
  all_goals simp

@[simp] theorem State.applyAnswer_fixed (s : State) (x : Snp) : (s.applyAnswer x).fixed = s.fixed := by
  unfold State.applyAnswer
  split <;> simp

@[simp] theorem State.takeAnswer_fixed (s : State) (n tag ans : Nat) : (s.takeAnswer n tag ans).fixed = s.fixed := by
  unfold State.takeAnswer
  split <;> simp

/-! ### Machine/Loads -/

@[simp] theorem State.answerLoad_fixed (s : State) (id : Nat) (l : Load) (data : Line) (poison media : Bool) :
    (s.answerLoad id l data poison media).fixed = s.fixed := by simp [State.answerLoad]

@[simp] theorem State.answer_fixed (s : State) (id : Nat) (data : Line) (poison media : Bool) :
    (s.answer id data poison media).fixed = s.fixed := by
  unfold State.answer
  split <;> simp

@[simp] theorem State.finishLoad_fixed (s : State) (id : Nat) (data : Line) (poison media : Bool) :
    (s.finishLoad id data poison media).fixed = s.fixed := by
  unfold State.finishLoad
  repeat' split
  all_goals simp

@[simp] theorem State.potLookup_fixed (s : State) (line keyslot requester : Nat) :
    (s.potLookup line keyslot requester).2.fixed = s.fixed := by
  unfold State.potLookup
  repeat' split
  all_goals simp

@[simp] theorem State.parkLookup_fixed (s : State) (q : TReq) : (s.parkLookup q).fixed = s.fixed := (rfl)

@[simp] theorem State.pathLoad_fixed (s : State) (id : Nat) (l : Load) : (s.pathLoad id l).fixed = s.fixed := by
  unfold State.pathLoad
  dsimp only
  repeat' split
  all_goals simp

@[simp] theorem State.commitWrite_fixed (s : State) (n : Nat) (u : UWrite) (wt : WinType) :
    (s.commitWrite n u wt).fixed = s.fixed := by simp [State.commitWrite]

@[simp] theorem State.serveGranted_fixed (s : State) (r : CReq) (m : Nat) : (s.serveGranted r m).fixed = s.fixed := by
  unfold State.serveGranted
  repeat' split
  all_goals simp

@[simp] theorem State.submit_fixed (s : State) (r : CReq) : (s.submit r).fixed = s.fixed := by
  unfold State.submit
  dsimp only
  split <;> simp

@[simp] theorem State.applyMeta_fixed (s : State) (n line keyId m : Nat) (heldAt : Bool) :
    (s.applyMeta n line keyId m heldAt).fixed = s.fixed := by
  unfold State.applyMeta
  repeat' split
  all_goals simp

@[simp] theorem State.metaAtAccept_fixed (s : State) (n : Nat) (e : IwqEntry) : (s.metaAtAccept n e).fixed = s.fixed := by
  unfold State.metaAtAccept
  repeat' split
  all_goals simp

@[simp] theorem State.retrySet_fixed (s : State) (set : Nat) : (s.retrySet set).fixed = s.fixed := by
  unfold State.retrySet
  refine fixed_foldl (fun t x => ?_) _ _
  dsimp only
  split <;> simp

@[simp] theorem State.closeTracker_fixed (s : State) (k : Tracker) : (s.closeTracker k).fixed = s.fixed := by
  unfold State.closeTracker
  dsimp only
  split <;> simp

@[simp] theorem State.forwardTrackers_fixed (s : State) : s.forwardTrackers.fixed = s.fixed := by
  unfold State.forwardTrackers
  split
  · rfl
  · refine fixed_foldl (fun t k => ?_) _ s
    split
    · dsimp only
      repeat' split
      all_goals simp
    · rfl

@[simp] theorem State.settleSpice_fixed (n : Nat) (s : State) : (State.settleSpice n s).fixed = s.fixed := by
  induction n generalizing s with
  | zero => rfl
  | succ n ih =>
    unfold State.settleSpice
    split <;> simp [ih]

@[simp] theorem State.pumpFlush_fixed (s : State) : s.pumpFlush.fixed = s.fixed := by
  unfold State.pumpFlush
  refine fixed_foldl (fun t x => ?_) _ _
  repeat' split
  all_goals simp

@[simp] theorem State.spice_fixed (s : State) : s.spice.fixed = s.fixed := by simp [State.spice]
@[simp] theorem State.goOn_fixed (s : State) (id : Nat) (l : Load) : (s.goOn id l).fixed = s.fixed := by simp [State.goOn]

@[simp] theorem State.resumeLoads_fixed (s : State) (n : Nat) : (s.resumeLoads n).fixed = s.fixed := by
  unfold State.resumeLoads
  refine fixed_foldl (fun t x => ?_) _ _
  split <;> simp

@[simp] theorem State.afterAccept_fixed (s : State) (n : Nat) (e : IwqEntry) :
    (s.afterAccept n e).fixed = s.fixed := by simp [State.afterAccept]

theorem State.acceptHead_fixed {s : State} {n : Nat} {landing : Bool} {x : Option IwqEntry × State}
    (h : s.acceptHead n landing = some x) : x.2.fixed = s.fixed := by
  unfold State.acceptHead at h
  split at h
  · cases h
  · dsimp only at h
    split at h
    · cases h
      simp
    · split at h
      · cases h
        simp
      · obtain ⟨t, ht, rfl⟩ := Option.map_eq_some_iff.1 h
        simpa using (State.accept_onSome _ _).fixed ht

@[simp] theorem State.drainLoop_fixed (n k : Nat) (s : State) : (State.drainLoop n k s).fixed = s.fixed := by
  induction k generalizing s with
  | zero => rfl
  | succ k ih =>
    unfold State.drainLoop
    split
    · rfl
    · next h => simpa [ih] using State.acceptHead_fixed h
    · next h => simpa [ih] using State.acceptHead_fixed h

@[simp] theorem State.drainIngress_fixed (s : State) (n : Nat) :
    (s.drainIngress n).fixed = s.fixed := by simp [State.drainIngress]

/-! ### Machine/Fences -/

@[simp] theorem State.startFence_fixed (s : State) (n : Nat) : (s.startFence n).fixed = s.fixed := by simp [State.startFence]
@[simp] theorem State.fence_fixed (s : State) (n : Fin 32) (scope : Nat) (read : Bool) :
    (s.fence n scope read).fixed = s.fixed := by simp [State.fence]
@[simp] theorem State.fenceAccess_fixed (s : State) (n : Fin 32) (scope : Nat) (read : Bool) :
    (s.fenceAccess n scope read).fixed = s.fixed := by simp [State.fenceAccess]
@[simp] theorem execFenceLink_answers (n : Fin 32) (read : Bool) (s : State) :
    Answers s (execFenceLink n read s) := by simp [execFenceLink]
@[simp] theorem execFencePort_answers (n : Fin 32) (read : Bool) (s : State) :
    Answers s (execFencePort n read s) := by simp [execFencePort]
@[simp] theorem execFenceDev_answers (n : Fin 32) (read : Bool) (s : State) :
    Answers s (execFenceDev n read s) := by simp [execFenceDev]
@[simp] theorem State.endFence_fixed (s : State) (n : Nat) (f : Fence) :
    (s.endFence n f).fixed = s.fixed := by simp [State.endFence]

@[simp] theorem execFenceComplete_answers (n : Fin 32) (s : State) : Answers s (execFenceComplete n s) := by
  unfold execFenceComplete
  repeat' split
  all_goals simp

@[simp] theorem State.discardHeld_fixed (s : State) (n : Nat) (f : Fence) (serial : Nat) :
    (s.discardHeld n f serial).1.fixed = s.fixed := by
  unfold State.discardHeld
  dsimp only
  split <;> simp

@[simp] theorem execFenceDiscardExpiry_answers (n : Fin 32) (h : Option (Fin 4096)) (s : State) :
    Answers s (execFenceDiscardExpiry n h s) := by
  unfold execFenceDiscardExpiry
  dsimp only
  repeat' split
  all_goals simp

@[simp] theorem State.abortFences_fixed (s : State) (n : Nat) : (s.abortFences n).fixed = s.fixed := by simp [State.abortFences]
@[simp] theorem State.setHook_fixed (s : State) (h : Nat) (k : Hook) : (s.setHook h k).fixed = s.fixed := (rfl)

@[simp] theorem execHookAcquire_answers (n : Fin 32) (h : Fin 4096) (s : State) : Answers s (execHookAcquire n h s) := by
  unfold execHookAcquire
  dsimp only
  repeat' split
  all_goals simp

@[simp] theorem execHookRelease_answers (n : Fin 32) (h : Fin 4096) (serial : BitVec 16) (s : State) :
    Answers s (execHookRelease n h serial s) := by simp [execHookRelease]
@[simp] theorem execHookRenew_answers (n : Fin 32) (h : Fin 4096) (serial : BitVec 16) (s : State) :
    Answers s (execHookRenew n h serial s) := by simp [execHookRenew]

@[simp] theorem execHookReleaseFenceComplete_answers (h : Fin 4096) (s : State) :
    Answers s (execHookReleaseFenceComplete h s) := by
  unfold execHookReleaseFenceComplete
  dsimp only
  repeat' split
  all_goals simp

@[simp] theorem execHookLeaseExpiry_answers (h : Fin 4096) (s : State) : Answers s (execHookLeaseExpiry h s) := by
  unfold execHookLeaseExpiry
  dsimp only
  repeat' split
  all_goals simp

@[simp] theorem execHookBreak_answers (path : Path) (h : Fin 4096) (s : State) :
    Answers s (execHookBreak path h s) := by simp [execHookBreak]
@[simp] theorem State.breakHooks_fixed (s : State) (owner link : Nat) (epoch : Bool) :
    (s.breakHooks owner link epoch).fixed = s.fixed := by simp [State.breakHooks]

/-! ### Machine/HostCommands -/

@[simp] theorem State.load_fixed (s : State) (l : Load) : (s.load l).fixed = s.fixed := by
  unfold State.load
  split <;> simp

@[simp] theorem State.missRead_fixed (s : State) (n tag : Nat) (hpa : BitVec 64) (window reason : Nat) :
    (s.missRead n tag hpa window reason).fixed = s.fixed := by simp [State.missRead]
@[simp] theorem State.judgeUnowned_fixed (s : State) : s.judgeUnowned.fixed = s.fixed := by simp [State.judgeUnowned]
@[simp] theorem State.store_fixed (s : State) (n tag line keyslot keyId : Nat) (wt : WinType) (data : Line) (mask : Mask)
    (poison : Bool) (m : Nat) :
    (s.store n tag line keyslot keyId wt data mask poison m).fixed = s.fixed := by simp [State.store]

@[simp] theorem State.serve_fixed (s : State) (r : MemReq) : (s.serve r).fixed = s.fixed := by
  unfold State.serve
  repeat' split
  all_goals simp

@[simp] theorem State.arrive_fixed (s : State) (r : MemReq) : (s.arrive r).fixed = s.fixed := by
  unfold State.arrive
  split <;> simp

@[simp] theorem execMemRd_answers (n : Fin 32) (tag : BitVec 16) (hpa : BitVec 64) (m : MetaV) (other : Bool) (s : State) :
    Answers s (execMemRd n tag hpa m other s) := by simp [execMemRd]
@[simp] theorem execMemRdData_answers (n : Fin 32) (tag : BitVec 16) (hpa : BitVec 64) (noOp : Bool) (s : State) :
    Answers s (execMemRdData n tag hpa noOp s) := by simp [execMemRdData]
@[simp] theorem execMemWr_answers (n : Fin 32) (tag : BitVec 16) (hpa : BitVec 64) (data : Line) (poison : Bool) (m : MetaV)
    (s : State) :
    Answers s (execMemWr n tag hpa data poison m s) := by simp [execMemWr]
@[simp] theorem execMemWrPtl_answers (n : Fin 32) (tag : BitVec 16) (hpa : BitVec 64) (data : Line) (mask : Mask)
    (poison : Bool) (m : MetaV) (s : State) :
    Answers s (execMemWrPtl n tag hpa data mask poison m s) := by simp [execMemWrPtl]
@[simp] theorem execMemInv_answers (n : Fin 32) (tag : BitVec 16) (hpa : BitVec 64) (m : MetaV) (s : State) :
    Answers s (execMemInv n tag hpa m s) := by simp [execMemInv]
@[simp] theorem execMemInvNt_answers (n : Fin 32) (tag : BitVec 16) (hpa : BitVec 64) (m : MetaV) (s : State) :
    Answers s (execMemInvNt n tag hpa m s) := by simp [execMemInvNt]
@[simp] theorem execMemClnEvct_answers (n : Fin 32) (tag : BitVec 16) (hpa : BitVec 64) (s : State) :
    Answers s (execMemClnEvct n tag hpa s) := by simp [execMemClnEvct]
@[simp] theorem execMemSpecRd_answers (_n : Fin 32) (_hpa : BitVec 64) (s : State) :
    Answers s (execMemSpecRd _n _hpa s) := by simp [execMemSpecRd]

@[simp] theorem State.snoopAnswer_fixed (s : State) (n tag ans : Nat) : (s.snoopAnswer n tag ans).fixed = s.fixed := by
  unfold State.snoopAnswer
  dsimp only
  repeat' split
  all_goals simp

@[simp] theorem execBiRspI_answers (n : Fin 32) (tag : BitVec 12) (s : State) :
    Answers s (execBiRspI n tag s) := by simp [execBiRspI]
@[simp] theorem execBiRspS_answers (n : Fin 32) (tag : BitVec 12) (s : State) :
    Answers s (execBiRspS n tag s) := by simp [execBiRspS]
@[simp] theorem execBiRspE_answers (n : Fin 32) (tag : BitVec 12) (s : State) :
    Answers s (execBiRspE n tag s) := by simp [execBiRspE]

@[simp] theorem execBiConflict_answers (n : Fin 32) (tag : BitVec 12) (s : State) : Answers s (execBiConflict n tag s) := by
  unfold execBiConflict
  split <;> simp

/-! ### Machine/Links -/

@[simp] theorem State.dropLoad_fixed (s : State) (id : Nat) : (s.dropLoad id).fixed = s.fixed := by
  unfold State.dropLoad
  repeat' split
  all_goals simp

@[simp] theorem State.dropLoads_fixed (s : State) (n : Nat) : (s.dropLoads n).fixed = s.fixed := by simp [State.dropLoads]
@[simp] theorem State.stopCtx_fixed (s : State) (i cause : Nat) : (s.stopCtx i cause).fixed = s.fixed := by simp [State.stopCtx]
@[simp] theorem State.stopChannel_fixed (s : State) (c cause : Nat) :
    (s.stopChannel c cause).fixed = s.fixed := by simp [State.stopChannel]
@[simp] theorem State.stopGranted_fixed (s : State) (n : Nat) : (s.stopGranted n).fixed = s.fixed := by simp [State.stopGranted]
@[simp] theorem State.forgetHolder_fixed (s : State) (g : Nat) :
    (s.forgetHolder g).fixed = s.fixed := by simp [State.forgetHolder]
@[simp] theorem State.resendSnoops_fixed (s : State) (n : Nat) :
    (s.resendSnoops n).fixed = s.fixed := by simp [State.resendSnoops]
@[simp] theorem State.ownerGone_fixed (s : State) (n : Nat) : (s.ownerGone n).fixed = s.fixed := by simp [State.ownerGone]
@[simp] theorem State.linkDown_fixed (s : State) (n reason : Nat) :
    (s.linkDown n reason).fixed = s.fixed := by simp [State.linkDown]
@[simp] theorem State.retrain_fixed (s : State) (n : Nat) : (s.retrain n).fixed = s.fixed := by simp [State.retrain]
@[simp] theorem State.holdLink_fixed (s : State) (n reason : Nat) :
    (s.holdLink n reason).fixed = s.fixed := by simp [State.holdLink]
@[simp] theorem State.releaseLinks_fixed (s : State) : s.releaseLinks.fixed = s.fixed := by simp [State.releaseLinks]
@[simp] theorem execLinkDown_answers (n : Fin 32) (surprise : Bool) (s : State) :
    Answers s (execLinkDown n surprise s) := by simp [execLinkDown]

@[simp] theorem execLinkUp_answers (n : Fin 32) (width rate : Fin 7) (flit256 msix : Bool) (s : State) :
    Answers s (execLinkUp n width rate flit256 msix s) := by
  unfold execLinkUp
  dsimp only
  repeat' split
  all_goals simp

@[simp] theorem State.moveOwner_fixed (s : State) (p how : Nat) :
    (s.moveOwner p how).fixed = s.fixed := by simp [State.moveOwner]

@[simp] theorem execFoFailover_answers (s : State) : Answers s (execFoFailover s) := by
  unfold execFoFailover
  dsimp only
  split <;> simp

@[simp] theorem execPerstAssert_answers (p : Fin 8) (s : State) : Answers s (execPerstAssert p s) := by simp [execPerstAssert]
@[simp] theorem execPerstDeassert_answers (p : Fin 8) (s : State) :
    Answers s (execPerstDeassert p s) := by simp [execPerstDeassert]

@[simp] theorem execGpfPhase1_answers (n : Fin 32) (s : State) : Answers s (execGpfPhase1 n s) := by
  unfold execGpfPhase1
  split <;> simp

@[simp] theorem execGpfPhase2_answers (n : Fin 32) (s : State) : Answers s (execGpfPhase2 n s) := by
  unfold execGpfPhase2
  repeat' split
  all_goals simp

@[simp] theorem execViralReceived_answers (n : Fin 32) (s : State) :
    Answers s (execViralReceived n s) := by simp [execViralReceived]
@[simp] theorem State.setIdeKeys_fixed (s : State) (n : Nat) (ks : List Nat) : (s.setIdeKeys n ks).fixed = s.fixed := (rfl)

@[simp] theorem execIdeCheckFail_answers (n : Fin 32) (stream : Fin 6) (s : State) :
    Answers s (execIdeCheckFail n stream s) := by
  unfold execIdeCheckFail
  split <;> simp

@[simp] theorem execHdmDecoderCommit_answers (n : Fin 32) (k : Fin 16) (set : Bool) (base size : BitVec 64) (ways gran : Nat)
    (s : State) :
    Answers s (execHdmDecoderCommit n k set base size ways gran s) := by
  unfold execHdmDecoderCommit
  split <;> simp

@[simp] theorem State.disableLink_fixed (s : State) (n : Nat) : (s.disableLink n).fixed = s.fixed := by simp [State.disableLink]

@[simp] theorem execSnoopTimeout_answers (n : Fin 32) (s : State) : Answers s (execSnoopTimeout n s) := by
  unfold execSnoopTimeout
  repeat' split
  all_goals simp

@[simp] theorem State.startFlush_fixed (s : State) (base size : Nat) (link : Option Nat) :
    (s.startFlush base size link).fixed = s.fixed := by simp [State.startFlush]
@[simp] theorem execDirectoryFlush_answers (path : Path) (s : State) :
    Answers s (execDirectoryFlush path s) := by simp [execDirectoryFlush]

@[simp] theorem execDirectoryFlushEnd_answers (s : State) : Answers s (execDirectoryFlushEnd s) := by
  unfold execDirectoryFlushEnd
  repeat' split
  all_goals simp

@[simp] theorem State.vaultJob_fixed (s : State) (j : VaultJob) : (s.vaultJob j).fixed = s.fixed := (rfl)
@[simp] theorem State.lidDown_fixed (s : State) (cause : Nat) : (s.lidDown cause).fixed = s.fixed := by simp [State.lidDown]
@[simp] theorem State.countFailure_fixed (s : State) (slice : Nat) :
    (s.countFailure slice).fixed = s.fixed := by simp [State.countFailure]
@[simp] theorem execForceLid_answers (path : Path) (s : State) : Answers s (execForceLid path s) := by simp [execForceLid]

/-! ### Machine/Mailbox -/

@[simp] theorem State.command_fixed (s : State) (p : Path) (opcode : Nat) (a : Access') (body : State → State)
    (h : ∀ t, (body t).fixed = t.fixed) :
    (s.command p opcode a body).fixed = s.fixed := by
  unfold State.command
  repeat' split
  all_goals simp [h]

@[simp] theorem execBackgroundCommandStarted_answers (p : Path) (s : State) : Answers s (execBackgroundCommandStarted p s) := by
  unfold execBackgroundCommandStarted
  split <;> simp

@[simp] theorem State.authorise_fixed (s : State) (opcode : Nat) (payload blk : List Byte) :
    (s.authorise opcode payload blk).2.fixed = s.fixed := by
  unfold State.authorise
  repeat' split
  all_goals simp

@[simp] theorem State.authorised_fixed (s : State) (p : Path) (opcode : Nat) (payload blk : List Byte) (body : State → State)
    (h : ∀ t, (body t).fixed = t.fixed) :
    (s.authorised p opcode payload blk body).fixed = s.fixed := by
  unfold State.authorised
  dsimp only
  split <;> simp [h]

@[simp] theorem execAuthLockoutEnd_answers (s : State) : Answers s (execAuthLockoutEnd s) := by
  unfold execAuthLockoutEnd
  split <;> simp

@[simp] theorem execNonceExpiry_answers (s : State) : Answers s (execNonceExpiry s) := by
  unfold execNonceExpiry
  split <;> simp

@[simp] theorem execGetAuthNonce_answers (p : Path) (s : State) : Answers s (execGetAuthNonce p s) := by simp [execGetAuthNonce]
@[simp] theorem execSetHookLease_answers (p : Path) (first count lease : Nat) (s : State) :
    Answers s (execSetHookLease p first count lease s) := by simp [execSetHookLease]
@[simp] theorem execUnsupportedCommand_answers (p : Path) (opcode : BitVec 16) (s : State) :
    Answers s (execUnsupportedCommand p opcode s) := by simp [execUnsupportedCommand]
@[simp] theorem State.linkReply_fixed (s : State) (p : Path) (n : Nat) : (s.linkReply p n).fixed = s.fixed := (rfl)
@[simp] theorem execLinkStatus_answers (p : Path) (n : Fin 32) (s : State) :
    Answers s (execLinkStatus p n s) := by simp [execLinkStatus]
@[simp] theorem execLinkDisable_answers (p : Path) (n : Fin 32) (s : State) :
    Answers s (execLinkDisable p n s) := by simp [execLinkDisable]
@[simp] theorem execLinkEnable_answers (p : Path) (n : Fin 32) (s : State) :
    Answers s (execLinkEnable p n s) := by simp [execLinkEnable]
@[simp] theorem execLinkRetrain_answers (p : Path) (n : Fin 32) (s : State) :
    Answers s (execLinkRetrain p n s) := by simp [execLinkRetrain]

@[simp] theorem execFabricOwnerTransfer_answers (p : Path) (port : Byte) (blk : List Byte) (s : State) :
    Answers s (execFabricOwnerTransfer p port blk s) := by
  unfold execFabricOwnerTransfer
  refine (answers_next _ _).2 (State.command_fixed _ _ _ _ _ fun t => ?_)
  dsimp only
  split <;> simp

/-! ### Machine/Bells -/

@[simp] theorem State.takeTail_fixed (s : State) (i : Nat) (v : BitVec 32) :
    (s.takeTail i v).fixed = s.fixed := by simp [State.takeTail]
@[simp] theorem State.takeResume_fixed (s : State) (i : Nat) : (s.takeResume i).fixed = s.fixed := by simp [State.takeResume]
@[simp] theorem State.takeTlbInv_fixed (s : State) (i : Nat) : (s.takeTlbInv i).fixed = s.fixed := (rfl)

@[simp] theorem State.ring_fixed (s : State) (i : Nat) (b : Bell) : (s.ring i b).fixed = s.fixed := by
  unfold State.ring
  split <;> simp

@[simp] theorem State.ringBells_fixed (n i : Nat) (s : State) : (State.ringBells n i s).fixed = s.fixed := by
  induction n generalizing s with
  | zero => rfl
  | succ n ih =>
    unfold State.ringBells
    split
    · rfl
    · split <;> simp [ih]

@[simp] theorem State.settleBells_fixed (s : State) : s.settleBells.fixed = s.fixed := by simp [State.settleBells]
@[simp] theorem State.addBell_fixed (s : State) (path : Path) (i kind : Nat) (v : BitVec 32) :
    (s.addBell path i kind v).fixed = s.fixed := by simp [State.addBell]

/-! ### Machine/Deliver -/

@[simp] theorem State.noteRetry_fixed (s : State) (a : Nat) : (s.noteRetry a).fixed = s.fixed := by simp [State.noteRetry]

@[simp] theorem State.noteClass_fixed (s : State) (q : MReq) (o : CwOut) : (s.noteClass q o).fixed = s.fixed := by
  unfold State.noteClass
  dsimp only
  split <;> simp

@[simp] theorem State.dataLoss_fixed (s : State) (a slice : Nat) : (s.dataLoss a slice).fixed = s.fixed := (rfl)

@[simp] theorem State.poisonAll_fixed (s : State) (slice : Nat) : (s.poisonAll slice).fixed = s.fixed := by
  unfold State.poisonAll
  split
  · next h => simpa using (s.toSlices_onSome _).fixed h
  · rfl

@[simp] theorem State.tagFailure_fixed (s : State) (a : Nat) (x : Sector) (slot requester : Nat) (record : Bool) :
    (s.tagFailure a x slot requester record).fixed = s.fixed := by simp [State.tagFailure]
@[simp] theorem State.miscorrect_fixed (s : State) (a : Nat) (x : Sector) (slot requester : Nat) :
    (s.miscorrect a x slot requester).fixed = s.fixed := by simp [State.miscorrect]
@[simp] theorem State.freeFour_fixed (s : State) : s.freeFour.2.fixed = s.fixed := (rfl)
@[simp] theorem State.plain_fixed (s : State) (x : Sector) : (s.plain x).2.fixed = s.fixed := by simp [State.plain]
@[simp] theorem State.checkSector_fixed (s : State) (a slot requester : Nat) (o : CwOut) (x : Sector) (record : Bool) :
    (s.checkSector a slot requester o x record).2.fixed = s.fixed := by simp [State.checkSector]

@[simp] theorem State.deliverMasked_fixed (s : State) (l : Load) (r : SecAns) (tagFail : Bool) :
    (s.deliverMasked l r tagFail).fixed = s.fixed := by
  unfold State.deliverMasked
  dsimp only
  split
  · simp
  · refine (fixed_foldl (fun u e => ?_) _ _).trans (s.updFrame_fixed _ _)
    split <;> simp

@[simp] theorem State.deliverLoad_fixed (s : State) (id : Nat) (q : MReq) (o : CwOut) :
    (s.deliverLoad id q o).fixed = s.fixed := by
  unfold State.deliverLoad
  dsimp only
  repeat' split
  all_goals simp

@[simp] theorem State.completeFrom_fixed (s : State) (f : Nat) (o : CwOut) : (s.completeFrom f o).fixed = s.fixed := by
  unfold State.completeFrom
  dsimp only
  split <;> simp

@[simp] theorem State.recomplete_fixed (s : State) : s.recomplete.fixed = s.fixed := by simp [State.recomplete]
@[simp] theorem State.deliverCompletion_fixed (s : State) (q : MReq) (o : CwOut) :
    (s.deliverCompletion q o).fixed = s.fixed := by simp [State.deliverCompletion]
@[simp] theorem State.whiskLine_fixed (s : State) (i line : Nat) (data : Option Line) (fault : Nat) :
    (s.whiskLine i line data fault).fixed = s.fixed := by simp [State.whiskLine]

@[simp] theorem State.lookLine_fixed (s : State) (i line slot : Nat) : (s.lookLine i line slot).fixed = s.fixed := by
  unfold State.lookLine
  dsimp only
  split <;> simp

@[simp] theorem State.whiskMedia_fixed (s : State) (i line slot : Nat) (d : Four) (poison : BitVec 4) :
    (s.whiskMedia i line slot d poison).fixed = s.fixed := by
  unfold State.whiskMedia
  dsimp only
  repeat' split
  all_goals simp

@[simp] theorem State.deliverWhisk_fixed (s : State) (i : Nat) (q : MReq) (o : CwOut) :
    (s.deliverWhisk i q o).fixed = s.fixed := by
  unfold State.deliverWhisk
  refine fixed_foldl (fun t x => ?_) _ _
  dsimp only
  repeat' split
  all_goals simp

@[simp] theorem State.moveFrame_fixed (s : State) (r : Region × Nat) (a : Nat) (x : Sector) (quad : Bool) :
    (s.moveFrame r a x quad).fixed = s.fixed := by
  unfold State.moveFrame
  split <;> simp

@[simp] theorem State.moveSector_fixed (s : State) (r : Region × Nat) (a : Nat) (x : Sector) :
    (s.moveSector r a x).fixed = s.fixed := by simp [State.moveSector]

@[simp] theorem State.gatherQuads_fixed (s : State) : s.gatherQuads.fixed = s.fixed := by
  unfold State.gatherQuads
  refine fixed_foldl (fun t x => ?_) _ _
  dsimp only
  split <;> simp

@[simp] theorem State.deliverMove_fixed (s : State) (S : Nat) (q : MReq) (o : CwOut) : (s.deliverMove S q o).fixed = s.fixed := by
  unfold State.deliverMove
  simp only [State.judgeCapacity_fixed, State.freeEmptied_fixed, State.scrape_fixed, State.gatherQuads_fixed]
  refine fixed_foldl (fun t i => ?_) _ s
  split <;> simp

/-! ### Machine/Taster -/

@[simp] theorem State.notePatrol_fixed (s : State) (q : MReq) (d : Decode) (o : CwOut) :
    (s.notePatrol q d o).fixed = s.fixed := by simp [State.notePatrol]

@[simp] theorem State.tasterSectors_fixed (s : State) (q : MReq) (o : CwOut) : (s.tasterSectors q o).fixed = s.fixed := by
  unfold State.tasterSectors
  refine fixed_foldl (fun t x => ?_) _ _
  dsimp only
  split <;> simp

@[simp] theorem State.releaseSlots_fixed (s : State) : s.releaseSlots.fixed = s.fixed := (rfl)

@[simp] theorem State.relocatePage_fixed (s : State) (a : Nat) (x : List Byte) : (s.relocatePage a x).fixed = s.fixed := by
  unfold State.relocatePage
  extract_lets cw t quad
  have ht : t.fixed = s.fixed := by
    refine fixed_foldl (fun t i => ?_) _ s
    split <;> simp
  simp [ht]

@[simp] theorem State.repairPage_onSome (s : State) (a : Nat) (slot : Bool) : OnSome s (s.repairPage a slot) := by
  unfold State.repairPage
  dsimp only
  repeat' split
  all_goals simp

@[simp] theorem State.pumpRepairs_fixed (s : State) : s.pumpRepairs.fixed = s.fixed := by
  unfold State.pumpRepairs
  refine (State.releaseSlots_fixed _).trans (fixed_foldl (fun t e => ?_) _ s)
  split
  · next h => simpa using (t.repairPage_onSome _ _).fixed h
  · rfl

@[simp] theorem State.settleSeals_fixed (s : State) (x : Nat) : (s.settleSeals x).fixed = s.fixed := by simp [State.settleSeals]
@[simp] theorem State.sealFailed_fixed (s : State) (x : Nat) (q : MReq) :
    (s.sealFailed x q).fixed = s.fixed := by simp [State.sealFailed]
@[simp] theorem State.deliverScan_fixed (s : State) (q : MReq) (o : CwOut) :
    (s.deliverScan q o).fixed = s.fixed := by simp [State.deliverScan]

@[simp] theorem State.deliver_fixed (s : State) (q : MReq) (d : Decode) (o : CwOut) : (s.deliver q d o).fixed = s.fixed := by
  unfold State.deliver
  split <;> simp

@[simp] theorem State.rebuildLost_fixed (s : State) (q : MReq) (tagged : Bool) (bad : BitVec 16) :
    (s.rebuildLost q tagged bad).fixed = s.fixed := by simp [State.rebuildLost]
@[simp] theorem State.rebuilt_fixed (s : State) (j : Nat) (r : Rebuild) :
    (s.rebuilt j r).fixed = s.fixed := by simp [State.rebuilt]

@[simp] theorem State.rebuildStep_fixed (s : State) (j : Nat) : (s.rebuildStep j).fixed = s.fixed := by
  unfold State.rebuildStep
  split <;> simp

@[simp] theorem State.startRebuild_fixed (s : State) (q : MReq) (tagged : Bool) (bad : BitVec 16) :
    (s.startRebuild q tagged bad).fixed = s.fixed := by simp [State.startRebuild]

@[simp] theorem State.memberDone_fixed (s : State) (j b : Nat) (lost : Bool) (spoiled : BitVec 16) :
    (s.memberDone j b lost spoiled).fixed = s.fixed := by
  unfold State.memberDone
  split <;> simp

@[simp] theorem State.retryRead_fixed (s : State) (q : MReq) : (s.retryRead q).fixed = s.fixed := by simp [State.retryRead]

@[simp] theorem State.readLost_fixed (s : State) (q : MReq) : (s.readLost q).fixed = s.fixed := by
  unfold State.readLost
  split <;> simp

@[simp] theorem State.readBlank_fixed (s : State) (q : MReq) : (s.readBlank q).fixed = s.fixed := by
  unfold State.readBlank
  repeat' split
  all_goals simp

@[simp] theorem State.readResult_fixed (s : State) (q : MReq) (d : Decode) (bad : BitVec 16) :
    (s.readResult q d bad).fixed = s.fixed := by
  unfold State.readResult
  repeat' split
  all_goals simp

@[simp] theorem execMediaResult_answers (b : Fin 32) (bad : BitVec 16) (s : State) : Answers s (execMediaResult b bad s) := by
  unfold execMediaResult
  repeat' split
  all_goals simp

/-! ### Machine/WordCode -/

@[simp] theorem State.updMec_fixed (s : State) (domain inst : Nat) (f : MecCount → MecCount) :
    (s.updMec domain inst f).fixed = s.fixed := (rfl)
@[simp] theorem State.noteSat_fixed (s : State) (full : Bool) : (s.noteSat full).fixed = s.fixed := by simp [State.noteSat]
@[simp] theorem State.countCorrected_fixed (s : State) (domain inst off pos0 pos1 : Nat) :
    (s.countCorrected domain inst off pos0 pos1).fixed = s.fixed := by simp [State.countCorrected]
@[simp] theorem State.countBad_fixed (s : State) (domain inst off action : Nat) :
    (s.countBad domain inst off action).fixed = s.fixed := by simp [State.countBad]

@[simp] theorem State.plantEntry_fixed (s : State) (off : Nat) (w : BitVec 78) : (s.plantEntry off w).fixed = s.fixed := by
  unfold State.plantEntry
  dsimp only
  split <;> simp

@[simp] theorem State.readPlanted_fixed (s : State) (off : Nat) : (s.readPlanted off).fixed = s.fixed := by
  unfold State.readPlanted
  dsimp only
  repeat' split
  all_goals simp

@[simp] theorem State.readEntries_fixed (s : State) (slice : Nat) :
    (s.readEntries slice).fixed = s.fixed := by simp [State.readEntries]

/-! ### Machine/Results -/

@[simp] theorem State.reportEntry_fixed (s : State) (slice : Nat) :
    (s.reportEntry slice).fixed = s.fixed := by simp [State.reportEntry]

@[simp] theorem State.lookupLoad_fixed (s : State) (id : Nat) (l : Load) : (s.lookupLoad id l).fixed = s.fixed := by
  unfold State.lookupLoad
  split <;> simp

@[simp] theorem State.lookupWhisk_fixed (s : State) (i line : Nat) : (s.lookupWhisk i line).fixed = s.fixed := by
  unfold State.lookupWhisk
  repeat' split
  all_goals simp

@[simp] theorem State.readMasked_fixed (s : State) (id : Nat) (l : Load) : (s.readMasked id l).fixed = s.fixed := by
  unfold State.readMasked
  split <;> simp

@[simp] theorem State.resolveLookup_fixed (s : State) (q : TReq) : (s.resolveLookup q).fixed = s.fixed := by
  unfold State.resolveLookup
  split
  · split <;> simp
  all_goals simp

@[simp] theorem State.wakeLookups_fixed (s : State) : s.wakeLookups.fixed = s.fixed := by simp [State.wakeLookups]

@[simp] theorem State.readFor_fixed (s : State) (q : TReq) : (s.readFor q).fixed = s.fixed := by
  unfold State.readFor
  split
  · split <;> simp
  all_goals simp

@[simp] theorem execTranslateLookup_answers (i : Fin 4) (s : State) : Answers s (execTranslateLookup i s) := by
  unfold execTranslateLookup
  repeat' split
  all_goals simp

@[simp] theorem State.acceptLink_fixed (s : State) (n : Nat) : (s.acceptLink n).fixed = s.fixed := by
  unfold State.acceptLink
  dsimp only
  split
  · rfl
  · split
    · simp
    · next h => exact State.acceptHead_fixed h
    · next h =>
      split
      · simp
      · simpa using State.acceptHead_fixed h

@[simp] theorem State.acceptWhisk_fixed (s : State) (c : Nat) : (s.acceptWhisk c).fixed = s.fixed := by
  unfold State.acceptWhisk
  split
  · rfl
  · split
    · rfl
    · split
      · rfl
      · dsimp only
        split
        · rfl
        · next h => simpa using (s.accept_onSome _).fixed h

@[simp] theorem State.acceptZero_fixed (s : State) (p : Nat) : (s.acceptZero p).fixed = s.fixed := by
  unfold State.acceptZero
  dsimp only
  split
  · rfl
  · split
    · rfl
    · next h => simp [(s.accept_onSome _).fixed h]

@[simp] theorem State.acceptBefore_fixed (s : State) (src : AcceptSrc) : (s.acceptBefore src).fixed = s.fixed := by
  cases src <;> simp [State.acceptBefore]

@[simp] theorem execAcceptance_answers (src : AcceptSrc) (s : State) : Answers s (execAcceptance src s) := by
  unfold execAcceptance
  repeat' split
  all_goals simp

/-! ### Machine/Resets -/

@[simp] theorem State.updRail_fixed (s : State) (i : Nat) (f : PRail → PRail) : (s.updRail i f).fixed = s.fixed := (rfl)
@[simp] theorem State.lowerRail_fixed (s : State) (i : Nat) : (s.lowerRail i).fixed = s.fixed := (rfl)
@[simp] theorem State.spoilVault_fixed (s : State) : s.spoilVault.fixed = s.fixed := by simp [State.spoilVault]
@[simp] theorem State.abandonNor_fixed (s : State) : s.abandonNor.fixed = s.fixed := by simp [State.abandonNor]
@[simp] theorem State.darken_fixed (s : State) : s.darken.fixed = s.fixed := (rfl)
@[simp] theorem State.kettleOff_fixed (s : State) (testing : Bool) :
    (s.kettleOff testing).fixed = s.fixed := by simp [State.kettleOff]

@[simp] theorem State.powerDown_fixed (s : State) : s.powerDown.fixed = s.fixed := by
  unfold State.powerDown
  dsimp only
  split <;> simp

@[simp] theorem State.cutRails_fixed (s : State) : s.cutRails.fixed = s.fixed := by simp [State.cutRails]
@[simp] theorem State.stopWhisks_fixed (s : State) : s.stopWhisks.fixed = s.fixed := by simp [State.stopWhisks]
@[simp] theorem State.holdLinks_fixed (s : State) : s.holdLinks.fixed = s.fixed := by simp [State.holdLinks]
@[simp] theorem State.flushDie_fixed (s : State) (b ce : Nat) : (s.flushDie b ce).fixed = s.fixed := by simp [State.flushDie]
@[simp] theorem State.flushBurners_fixed (s : State) : s.flushBurners.fixed = s.fixed := by simp [State.flushBurners]
@[simp] theorem State.flush_fixed (s : State) (cause : Nat) : (s.flush cause).fixed = s.fixed := by simp [State.flush]
@[simp] theorem State.warmReset_fixed (s : State) (trap : Bool) :
    (s.warmReset trap).fixed = s.fixed := by simp [State.warmReset]

/-! ### Machine/Retire -/

@[simp] theorem State.failRequests_fixed (s : State) (p : MReq → Bool) :
    (s.failRequests p).fixed = s.fixed := by simp [State.failRequests]
@[simp] theorem State.queueRebuild_fixed (s : State) (Ss : List Nat) :
    (s.queueRebuild Ss).fixed = s.fixed := by simp [State.queueRebuild]
@[simp] theorem State.judgeSpares_fixed (s : State) : s.judgeSpares.fixed = s.fixed := by simp [State.judgeSpares]
@[simp] theorem State.countBlock_fixed (s : State) (b ce : Nat) : (s.countBlock b ce).fixed = s.fixed := (rfl)
@[simp] theorem State.retireBlock_fixed (s : State) (b ce k : Nat) :
    (s.retireBlock b ce k).fixed = s.fixed := by simp [State.retireBlock]
@[simp] theorem State.retireBlocks_fixed (s : State) (b ce : Nat) :
    (s.retireBlocks b ce).fixed = s.fixed := by simp [State.retireBlocks]
@[simp] theorem State.retireDie_fixed (s : State) (b ce : Nat) : (s.retireDie b ce).fixed = s.fixed := by simp [State.retireDie]
@[simp] theorem State.settleDie_fixed (s : State) (b ce : Nat) : (s.settleDie b ce).fixed = s.fixed := by simp [State.settleDie]
@[simp] theorem State.markRetired_fixed (s : State) (b : Nat) : (s.markRetired b).fixed = s.fixed := by simp [State.markRetired]
@[simp] theorem State.judgeRebuilt_fixed (s : State) (b : Nat) :
    (s.judgeRebuilt b).fixed = s.fixed := by simp [State.judgeRebuilt]
@[simp] theorem State.silence_fixed (s : State) (b : Nat) : (s.silence b).fixed = s.fixed := by simp [State.silence]
@[simp] theorem State.retireBurner_fixed (s : State) (b : Nat) :
    (s.retireBurner b).fixed = s.fixed := by simp [State.retireBurner]
@[simp] theorem State.writeLedger_fixed (s : State) : s.writeLedger.fixed = s.fixed := (rfl)
@[simp] theorem State.ledgerEntry_fixed (s : State) (utype uid : Nat) :
    (s.ledgerEntry utype uid).fixed = s.fixed := by simp [State.ledgerEntry]
@[simp] theorem State.spareUnit_fixed (s : State) (utype uid : Nat) :
    (s.spareUnit utype uid).fixed = s.fixed := by simp [State.spareUnit]
@[simp] theorem State.capture_fixed (s : State) (r : Report) (outcome count : Nat) :
    (s.capture r outcome count).fixed = s.fixed := (rfl)
@[simp] theorem State.noteRetire_fixed (s : State) (r : Report) (outcome : Nat) :
    (s.noteRetire r outcome).fixed = s.fixed := by simp [State.noteRetire]
@[simp] theorem State.failInPlace_fixed (s : State) (r : Report) :
    (s.failInPlace r).fixed = s.fixed := by simp [State.failInPlace]
@[simp] theorem State.decideBurner_fixed (s : State) (r : Report) (b : Nat) :
    (s.decideBurner r b).fixed = s.fixed := by simp [State.decideBurner]
@[simp] theorem State.decideDie_fixed (s : State) (r : Report) (b ce : Nat) :
    (s.decideDie r b ce).fixed = s.fixed := by simp [State.decideDie]
@[simp] theorem State.retireLane_fixed (s : State) (uid : Nat) :
    (s.retireLane uid).fixed = s.fixed := by simp [State.retireLane]
@[simp] theorem State.judgeDie_fixed (s : State) (r : Report) (b ce : Nat) :
    (s.judgeDie r b ce).fixed = s.fixed := by simp [State.judgeDie]
@[simp] theorem State.decideBlock_fixed (s : State) (r : Report) (b ce k : Nat) :
    (s.decideBlock r b ce k).fixed = s.fixed := by simp [State.decideBlock]

@[simp] theorem State.retireUnit_fixed (s : State) (r : Report) : (s.retireUnit r).fixed = s.fixed := by
  unfold State.retireUnit
  split <;> simp

@[simp] theorem State.makeRoom_fixed (s : State) (key : Nat) : (s.makeRoom key).fixed = s.fixed := by
  unfold State.makeRoom
  dsimp only
  repeat' split
  all_goals simp

@[simp] theorem State.countTransient_fixed (s : State) (r : Report) :
    (s.countTransient r).2.fixed = s.fixed := by simp [State.countTransient]
@[simp] theorem State.planRetry_fixed (s : State) (r : Report) : (s.planRetry r).2.fixed = s.fixed := by simp [State.planRetry]
@[simp] theorem State.takeReport_fixed (s : State) (r : Report) : (s.takeReport r).fixed = s.fixed := by simp [State.takeReport]

@[simp] theorem execRetryBackoffExpiry_answers (s : State) : Answers s (execRetryBackoffExpiry s) := by
  unfold execRetryBackoffExpiry
  dsimp only
  repeat' split
  all_goals simp

@[simp] theorem execClrLanes_answers (path : Path) (s : State) : Answers s (execClrLanes path s) := by simp [execClrLanes]
@[simp] theorem State.retireSteward_fixed (s : State) (c : Nat) :
    (s.retireSteward c).fixed = s.fixed := by simp [State.retireSteward]
@[simp] theorem State.noteRestart_fixed (s : State) (c cause : Nat) (ts : List Nat) :
    (s.noteRestart c cause ts).fixed = s.fixed := by simp [State.noteRestart]
@[simp] theorem State.stewardRestart_fixed (s : State) (c cause : Nat) :
    (s.stewardRestart c cause).fixed = s.fixed := by simp [State.stewardRestart]

@[simp] theorem execWatchdogExpiry_answers (c : Fin 12) (s : State) : Answers s (execWatchdogExpiry c s) := by
  unfold execWatchdogExpiry
  split <;> simp

@[simp] theorem execFirmwareFault_answers (c : Fin 12) (s : State) :
    Answers s (execFirmwareFault c s) := by simp [execFirmwareFault]

/-! ### Machine/Mec -/

@[simp] theorem State.corrected_fixed (s : State) (domain inst off pos0 pos1 : Nat) :
    (s.corrected domain inst off pos0 pos1).fixed = s.fixed := by simp [State.corrected]

@[simp] theorem execBucketLeak_answers (d : Fin 9) (s : State) : Answers s (execBucketLeak d s) := by
  unfold execBucketLeak
  dsimp only
  split <;> simp

@[simp] theorem State.resetAccept_fixed (s : State) (n : Nat) : (s.resetAccept n).fixed = s.fixed := by simp [State.resetAccept]

@[simp] theorem State.resetResults_fixed (s : State) (b : Nat) : (s.resetResults b).fixed = s.fixed := by
  unfold State.resetResults
  refine fixed_foldl (fun t x => ?_) _ _
  repeat' split
  all_goals simp

@[simp] theorem State.resetInvalidate_fixed (s : State) (p : Nat) : (s.resetInvalidate p).fixed = s.fixed := (rfl)
@[simp] theorem State.resetJournal_fixed (s : State) : s.resetJournal.fixed = s.fixed := by simp [State.resetJournal]
@[simp] theorem State.resetEvent_fixed (s : State) : s.resetEvent.fixed = s.fixed := by simp [State.resetEvent]

@[simp] theorem State.recoverRail_fixed (s : State) (r : RailId) : (s.recoverRail r).fixed = s.fixed := by
  cases r <;> simp [State.recoverRail]

@[simp] theorem State.resetRail_fixed (s : State) (r : RailId) : (s.resetRail r).fixed = s.fixed := by simp [State.resetRail]

@[simp] theorem execRailReset_answers (r : RailId) (s : State) : Answers s (execRailReset r s) := by
  unfold execRailReset
  split <;> simp

@[simp] theorem State.loseProgress_fixed (s : State) : s.loseProgress.fixed = s.fixed := by
  unfold State.loseProgress
  dsimp only
  split <;> simp

@[simp] theorem State.leavePage_fixed (s : State) (f : Nat) : (s.leavePage f).fixed = s.fixed := by
  unfold State.leavePage
  split <;> simp

@[simp] theorem State.loseFrame_fixed (s : State) (f : Nat) : (s.loseFrame f).fixed = s.fixed := by simp [State.loseFrame]
@[simp] theorem State.renew_fixed (s : State) (r : Requester) : (s.renew r).fixed = s.fixed := by simp [State.renew]
@[simp] theorem State.requeueSeals_fixed (s : State) : s.requeueSeals.fixed = s.fixed := (rfl)

@[simp] theorem State.abandonMoves_fixed (s : State) (r : Region) (rebuild : Bool) :
    (s.abandonMoves r rebuild).fixed = s.fixed := by
  unfold State.abandonMoves
  dsimp only
  split <;> simp

@[simp] theorem State.loseEngine_fixed (s : State) (e : Nat) : (s.loseEngine e).fixed = s.fixed := by
  unfold State.loseEngine
  split <;> simp

@[simp] theorem State.poisonLine_fixed (s : State) (f line : Nat) (mask : Bool) :
    (s.poisonLine f line mask).fixed = s.fixed := by simp [State.poisonLine]
@[simp] theorem State.sweepSet_fixed (s : State) (set : Nat) : (s.sweepSet set).fixed = s.fixed := by simp [State.sweepSet]
@[simp] theorem State.faultCtx_fixed (s : State) (i kind : Nat) :
    (s.faultCtx i kind).fixed = s.fixed := by simp [State.faultCtx]
@[simp] theorem State.haltChannel_fixed (s : State) (c : Nat) : (s.haltChannel c).fixed = s.fixed := by simp [State.haltChannel]

@[simp] theorem State.loseRow_fixed (s : State) (stripe page : Nat) : (s.loseRow stripe page).fixed = s.fixed := by
  unfold State.loseRow
  split <;> simp

@[simp] theorem State.loseBlockParity_fixed (s : State) (pb : Nat) :
    (s.loseBlockParity pb).fixed = s.fixed := by simp [State.loseBlockParity]

@[simp] theorem State.incomplete_fixed (fuel n : Nat) (s : State) : (State.incomplete fuel n s).fixed = s.fixed := by
  induction fuel generalizing n s with
  | zero => rfl
  | succ fuel ih =>
    unfold State.incomplete
    dsimp only
    split <;> simp [ih]

@[simp] theorem State.loseCounter_fixed (s : State) (n : Nat) : (s.loseCounter n).fixed = s.fixed := by simp [State.loseCounter]
@[simp] theorem State.damageRecord_fixed (s : State) (slot : Nat) :
    (s.damageRecord slot).fixed = s.fixed := by simp [State.damageRecord]
@[simp] theorem State.poisonIngress_fixed (s : State) (n : Nat) (q : BitVec 16) :
    (s.poisonIngress n q).fixed = s.fixed := by simp [State.poisonIngress]

@[simp] theorem State.loseIngress_fixed (s : State) (n : Nat) (q : BitVec 16) : (s.loseIngress n q).fixed = s.fixed := by
  unfold State.loseIngress
  split <;> simp

@[simp] theorem State.lockLine_fixed (s : State) (off : Nat) : (s.lockLine off).fixed = s.fixed := (rfl)

@[simp] theorem State.badWord_fixed (s : State) (off : Nat) (w : BadWord) : (s.badWord off w).fixed = s.fixed := by
  unfold State.badWord
  split <;> simp

@[simp] theorem State.uncorrectable_fixed (s : State) (domain inst off : Nat) (w : BadWord) :
    (s.uncorrectable domain inst off w).2.fixed = s.fixed := by
  unfold State.uncorrectable
  cases badAction w <;> simp

@[simp] theorem execFaultReport_answers (x : FaultIn) (s : State) : Answers s (execFaultReport x s) := by
  unfold execFaultReport
  repeat' split
  all_goals simp

@[simp] theorem State.rebuildBlock_fixed (s : State) (pb : Nat) :
    (s.rebuildBlock pb).fixed = s.fixed := by simp [State.rebuildBlock]
@[simp] theorem State.zeroUnowned_fixed (s : State) (line : Nat) :
    (s.zeroUnowned line).fixed = s.fixed := by simp [State.zeroUnowned]

@[simp] theorem execMapStackReconstruction_answers (s : State) : Answers s (execMapStackReconstruction s) := by
  unfold execMapStackReconstruction
  repeat' split
  all_goals simp

@[simp] theorem State.testWord_fixed (s : State) (row : Bool) : (s.testWord row).2.fixed = s.fixed := by
  unfold State.testWord
  split <;> simp

@[simp] theorem State.testAccess_fixed (s : State) (path : Path) (row : Bool) (body : State → State)
    (h : ∀ t, (body t).fixed = t.fixed) :
    (s.testAccess path row body).fixed = s.fixed := by simp [State.testAccess, h]
@[simp] theorem execRawWrite_answers (path : Path) (row : Bool) (s : State) :
    Answers s (execRawWrite path row s) := by simp [execRawWrite]
@[simp] theorem State.loadTest_fixed (s : State) (w : BitVec 78) : (s.loadTest w).fixed = s.fixed := (rfl)
@[simp] theorem execRawRead_answers (path : Path) (row : Bool) (s : State) :
    Answers s (execRawRead path row s) := by simp [execRawRead]

@[simp] theorem execCheckedRead_answers (path : Path) (row : Bool) (s : State) : Answers s (execCheckedRead path row s) := by
  unfold execCheckedRead
  refine (answers_next _ _).2 (State.portWrite_fixed _ _ _ _ _ fun t => State.testAccess_fixed _ _ _ _ fun u => ?_)
  dsimp only
  split <;> simp

@[simp] theorem State.startScrub_fixed (s : State) (p : Option Path) (domain inst start len : Nat) :
    (s.startScrub p domain inst start len).fixed = s.fixed := (rfl)
@[simp] theorem execScrubGo_answers (path : Path) (domain : Fin 16) (inst : Fin 8) (s : State) :
    Answers s (execScrubGo path domain inst s) := by simp [execScrubGo]
@[simp] theorem execScrubRange_answers (p : Path) (domain inst : Byte) (start len : BitVec 64) (s : State) :
    Answers s (execScrubRange p domain inst start len s) := by simp [execScrubRange]

@[simp] theorem State.scrubWord_fixed (s : State) (w : WordErr) : (s.scrubWord w).fixed = s.fixed := by
  cases w <;> simp [State.scrubWord]

@[simp] theorem State.endScrub_fixed (s : State) (words : Nat) (aborted : Bool) :
    (s.endScrub words aborted).fixed = s.fixed := by simp [State.endScrub]

@[simp] theorem execScrubEnd_answers (found : List WordErr) (s : State) : Answers s (execScrubEnd found s) := by
  unfold execScrubEnd
  repeat' split
  all_goals simp

/-! ### Machine/Upkeep -/

@[simp] theorem State.swapSpare_fixed (s : State) (S b sp : Nat) :
    (s.swapSpare S b sp).fixed = s.fixed := by simp [State.swapSpare]

@[simp] theorem State.rotate_fixed (s : State) (S b : Nat) : (s.rotate S b).fixed = s.fixed := by
  unfold State.rotate
  repeat' split
  all_goals simp

@[simp] theorem State.putOnDeck_fixed (s : State) (S : Nat) : (s.putOnDeck S).fixed = s.fixed := by simp [State.putOnDeck]

@[simp] theorem execOnDeck_answers (q : Stream) (s : State) : Answers s (execOnDeck q s) := by
  unfold execOnDeck
  dsimp only
  repeat' split
  all_goals simp

@[simp] theorem State.greedyVictim_fixed (s : State) : s.greedyVictim.2.fixed = s.fixed := by simp [State.greedyVictim]
@[simp] theorem State.startVictim_fixed (s : State) (S prec : Nat) :
    (s.startVictim S prec).fixed = s.fixed := by simp [State.startVictim]

@[simp] theorem execVictimChoice_answers (s : State) : Answers s (execVictimChoice s) := by
  unfold execVictimChoice
  dsimp only
  repeat' split
  all_goals simp

@[simp] theorem execGovernorWindow_answers (s : State) : Answers s (execGovernorWindow s) := by
  unfold execGovernorWindow
  split <;> simp

@[simp] theorem execDriftClockTick_answers (s : State) : Answers s (execDriftClockTick s) := by
  unfold execDriftClockTick
  split <;> simp

@[simp] theorem State.nextPatrol_fixed (s : State) : s.nextPatrol.fixed = s.fixed := by
  unfold State.nextPatrol
  dsimp only
  repeat' split
  all_goals simp

@[simp] theorem State.restartPatrol_fixed (s : State) : s.restartPatrol.fixed = s.fixed := (rfl)

@[simp] theorem execPatrolRead_answers (s : State) : Answers s (execPatrolRead s) := by
  unfold execPatrolRead
  dsimp only
  repeat' split
  all_goals simp

@[simp] theorem execPatrolRestart_answers (path : Path) (s : State) : Answers s (execPatrolRestart path s) := by
  unfold execPatrolRestart
  split <;> simp

@[simp] theorem execSealScan_answers (s : State) : Answers s (execSealScan s) := by
  unfold execSealScan
  dsimp only
  repeat' split
  all_goals simp

@[simp] theorem execUpkeepStatus_answers (p : Path) (s : State) : Answers s (execUpkeepStatus p s) := by simp [execUpkeepStatus]
@[simp] theorem execRebuildStatus_answers (p : Path) (s : State) :
    Answers s (execRebuildStatus p s) := by simp [execRebuildStatus]
@[simp] theorem execRetireBurner_answers (p : Path) (b : Byte) (s : State) :
    Answers s (execRetireBurner p b s) := by simp [execRetireBurner]
@[simp] theorem execRetireDie_answers (p : Path) (b ce : Byte) (s : State) :
    Answers s (execRetireDie p b ce s) := by simp [execRetireDie]

/-! ### Machine/Observe -/

@[simp] theorem State.clearCounter_fixed (s : State) (n : Nat) : (s.clearCounter n).fixed = s.fixed := (rfl)
@[simp] theorem State.clearUnit_fixed (s : State) (u : Nat) : (s.clearUnit u).fixed = s.fixed := (rfl)
@[simp] theorem State.tallyClear_fixed (s : State) (v : W32) : (s.tallyClear v).fixed = s.fixed := by simp [State.tallyClear]
@[simp] theorem execTallyClear_answers (path : Path) (v : BitVec 32) (s : State) :
    Answers s (execTallyClear path v s) := by simp [execTallyClear]
@[simp] theorem State.tallySnapshot_fixed (s : State) : s.tallySnapshot.fixed = s.fixed := (rfl)

@[simp] theorem execSnapshot_answers (path : Path) (s : State) : Answers s (execSnapshot path s) := by
  unfold execSnapshot
  refine (answers_next _ _).2 (State.portWrite_fixed _ _ _ _ _ fun t => ?_)
  split
  · rfl
  · split <;> simp

@[simp] theorem execTallySnapshot_answers (p : Path) (first count : BitVec 16) (units : Bool) (s : State) :
    Answers s (execTallySnapshot p first count units s) := by simp [execTallySnapshot]
@[simp] theorem execReadSpike_answers (p : Path) (start : BitVec 32) (count : BitVec 16) (older : Bool) (s : State) :
    Answers s (execReadSpike p start count older s) := by simp [execReadSpike]
@[simp] theorem State.clearSpike_fixed (s : State) : s.clearSpike.fixed = s.fixed := by simp [State.clearSpike]
@[simp] theorem execClearSpike_answers (p : Path) (blk : List Byte) (s : State) :
    Answers s (execClearSpike p blk s) := by simp [execClearSpike]
@[simp] theorem State.spikeLoad_fixed (s : State) : s.spikeLoad.fixed = s.fixed := (rfl)
@[simp] theorem execSpikeReadGo_answers (path : Path) (s : State) :
    Answers s (execSpikeReadGo path s) := by simp [execSpikeReadGo]

/-! ### Machine/LadleCommands -/

@[simp] theorem execLadleEnable_answers (path : Path) (p : Fin 8) (s : State) :
    Answers s (execLadleEnable path p s) := by simp [execLadleEnable]
@[simp] theorem execLadleDisable_answers (path : Path) (p : Fin 8) (s : State) :
    Answers s (execLadleDisable path p s) := by simp [execLadleDisable]
@[simp] theorem State.startInvalidation_fixed (s : State) (p base size : Nat) :
    (s.startInvalidation p base size).fixed = s.fixed := by simp [State.startInvalidation]
@[simp] theorem execRangeInvalidation_answers (path : Path) (p : Fin 8) (s : State) :
    Answers s (execRangeInvalidation path p s) := by simp [execRangeInvalidation]
@[simp] theorem State.endInvalidation_fixed (s : State) (p : Nat) :
    (s.endInvalidation p).fixed = s.fixed := by simp [State.endInvalidation]
@[simp] theorem execZeroALine_answers (path : Path) (p : Fin 8) (lines : Fin 8192) (keyslot : Fin 1024) (s : State) :
    Answers s (execZeroALine path p lines keyslot s) := by simp [execZeroALine]

/-! ### Machine/Whisk -/

@[simp] theorem State.issueAside_fixed (s : State) (i line slot : Nat) :
    (s.issueAside i line slot).fixed = s.fixed := by simp [State.issueAside]
@[simp] theorem State.readGranted_fixed (s : State) (i : Nat) : (s.readGranted i).fixed = s.fixed := by simp [State.readGranted]

@[simp] theorem State.readAside_fixed (s : State) (i line slot : Nat) : (s.readAside i line slot).2.fixed = s.fixed := by
  unfold State.readAside
  dsimp only
  split <;> simp

@[simp] theorem State.tableEntry_fixed (s : State) (i page : Nat) : (s.tableEntry i page).2.fixed = s.fixed := by
  unfold State.tableEntry
  dsimp only
  repeat' split
  all_goals simp

@[simp] theorem State.transPage_fixed (s : State) (i cwa : Nat) (rd wr : Bool) :
    (s.transPage i cwa rd wr).2.fixed = s.fixed := by
  unfold State.transPage
  dsimp only
  repeat' split
  all_goals simp

@[simp] theorem State.transAll_fixed (i : Nat) (as : List (Nat × Bool × Bool)) (s : State) :
    (State.transAll i as s).2.fixed = s.fixed := by
  induction as generalizing s with
  | nil => rfl
  | cons a as ih =>
    obtain ⟨a, rd, wr⟩ := a
    unfold State.transAll
    dsimp only
    split
    · simp
    · simp
    · split <;> simp [ih]

@[simp] theorem State.whiskFault_fixed (s : State) (i : Nat) (f : WFault) (ring : Bool) :
    (s.whiskFault i f ring).fixed = s.fixed := by simp [State.whiskFault]
@[simp] theorem State.takeChannel_fixed (s : State) (i : Nat) : (s.takeChannel i).fixed = s.fixed := by simp [State.takeChannel]

@[simp] theorem State.fetchDesc_fixed (s : State) (i : Nat) : (s.fetchDesc i).2.fixed = s.fixed := by
  unfold State.fetchDesc
  dsimp only
  repeat' split
  all_goals simp

@[simp] theorem State.fetchStep_fixed (s : State) (i op : Nat) : (s.fetchStep i op).fixed = s.fixed := by
  unfold State.fetchStep
  dsimp only
  split <;> simp

@[simp] theorem State.begin_fixed (s : State) (i op : Nat) : (s.begin i op).fixed = s.fixed := by simp [State.begin]
@[simp] theorem execNop_answers (i : Fin 256) (s : State) : Answers s (execNop i s) := by simp [execNop]
@[simp] theorem execCopy_answers (i : Fin 256) (s : State) : Answers s (execCopy i s) := by simp [execCopy]
@[simp] theorem execFill_answers (i : Fin 256) (s : State) : Answers s (execFill i s) := by simp [execFill]
@[simp] theorem execZero_answers (i : Fin 256) (s : State) : Answers s (execZero i s) := by simp [execZero]
@[simp] theorem execCompare_answers (i : Fin 256) (s : State) : Answers s (execCompare i s) := by simp [execCompare]
@[simp] theorem execCrc32c_answers (i : Fin 256) (s : State) : Answers s (execCrc32c i s) := by simp [execCrc32c]
@[simp] theorem execScan_answers (i : Fin 256) (s : State) : Answers s (execScan i s) := by simp [execScan]
@[simp] theorem State.askLine_fixed (s : State) (i line slot : Nat) (kind : RKind) :
    (s.askLine i line slot kind).fixed = s.fixed := by simp [State.askLine]
@[simp] theorem State.issueReads_fixed (s : State) (i : Nat) (ls : List (Nat × Nat)) :
    (s.issueReads i ls).fixed = s.fixed := by simp [State.issueReads]
@[simp] theorem State.queueWrites_fixed (s : State) (i : Nat) (ws : List WWrite) :
    (s.queueWrites i ws).fixed = s.fixed := by simp [State.queueWrites]
@[simp] theorem State.endChunk_fixed (s : State) (i : Nat) (d : WDesc) (p n : Nat) :
    (s.endChunk i d p n).fixed = s.fixed := by simp [State.endChunk]

@[simp] theorem State.startChunk_fixed (s : State) (i : Nat) (d : WDesc) (p n : Nat) :
    (s.startChunk i d p n).fixed = s.fixed := by
  unfold State.startChunk
  dsimp only
  split <;> simp

@[simp] theorem State.retake_fixed (s : State) (i : Nat) : (s.retake i).fixed = s.fixed := by simp [State.retake]
@[simp] theorem State.chunkStep_fixed (s : State) (i : Nat) (d : WDesc) :
    (s.chunkStep i d).fixed = s.fixed := by simp [State.chunkStep]

@[simp] theorem State.whiskChunk_fixed (s : State) (i : Nat) : (s.whiskChunk i).fixed = s.fixed := by
  unfold State.whiskChunk
  dsimp only
  repeat' split
  all_goals simp

@[simp] theorem execWhiskChunk_answers (i : Fin 256) (s : State) : Answers s (execWhiskChunk i s) := by
  unfold execWhiskChunk
  split <;> simp

@[simp] theorem State.postWord_fixed (s : State) (i status result : Nat) : (s.postWord i status result).fixed = s.fixed := by
  unfold State.postWord
  dsimp only
  split <;> simp

@[simp] theorem State.noteDesc_fixed (s : State) (i : Nat) : (s.noteDesc i).fixed = s.fixed := by simp [State.noteDesc]
@[simp] theorem State.passDesc_fixed (s : State) (i : Nat) : (s.passDesc i).fixed = s.fixed := by simp [State.passDesc]

@[simp] theorem State.completeStep_fixed (s : State) (i : Nat) : (s.completeStep i).fixed = s.fixed := by
  unfold State.completeStep
  dsimp only
  split <;> simp

@[simp] theorem execDescriptorComplete_answers (i : Fin 256) (s : State) : Answers s (execDescriptorComplete i s) := by
  unfold execDescriptorComplete
  split <;> simp

@[simp] theorem State.afterAside_fixed (s : State) (i : Nat) : (s.afterAside i).fixed = s.fixed := by
  unfold State.afterAside
  dsimp only
  repeat' split
  all_goals simp

@[simp] theorem State.settleFetches_fixed (s : State) : s.settleFetches.fixed = s.fixed := by simp [State.settleFetches]
@[simp] theorem State.wskWrite_fixed (s : State) (path : Path) (c off : Nat) (data : W32) (body : State → State)
    (h : ∀ t, (body t).fixed = t.fixed) :
    (s.wskWrite path c off data body).fixed = s.fixed := by simp [State.wskWrite, h]
@[simp] theorem execCtxTail_answers (path : Path) (i : Fin 256) (v : BitVec 32) (s : State) :
    Answers s (execCtxTail path i v s) := by simp [execCtxTail]
@[simp] theorem State.pauseCtx_fixed (s : State) (i : Nat) : (s.pauseCtx i).fixed = s.fixed := by simp [State.pauseCtx]
@[simp] theorem execCtxPause_answers (path : Path) (i : Fin 256) (s : State) :
    Answers s (execCtxPause path i s) := by simp [execCtxPause]
@[simp] theorem execCtxResume_answers (path : Path) (i : Fin 256) (s : State) :
    Answers s (execCtxResume path i s) := by simp [execCtxResume]
@[simp] theorem State.abortCtx_fixed (s : State) (i : Nat) : (s.abortCtx i).fixed = s.fixed := by simp [State.abortCtx]
@[simp] theorem execCtxAbort_answers (path : Path) (i : Fin 256) (s : State) :
    Answers s (execCtxAbort path i s) := by simp [execCtxAbort]
@[simp] theorem execTlbInv_answers (path : Path) (i : Fin 256) (s : State) :
    Answers s (execTlbInv path i s) := by simp [execTlbInv]
@[simp] theorem execChannelRestart_answers (path : Path) (c : Fin 64) (s : State) :
    Answers s (execChannelRestart path c s) := by simp [execChannelRestart]

/-! ### Machine/Reads -/

@[simp] theorem State.readSide_fixed (s : State) (path : Path) (off : Nat) : (s.readSide path off).fixed = s.fixed := by
  unfold State.readSide
  split <;> simp

@[simp] theorem execTrkOccRead_answers (path : Path) (s : State) : Answers s (execTrkOccRead path s) := by
  unfold execTrkOccRead
  split <;> simp

/-! ### Machine/Commit -/

@[simp] theorem State.stageWrite_fixed (s : State) (p : RPage) (o : Nat) (v : W32) : (s.stageWrite p o v).fixed = s.fixed := by
  unfold State.stageWrite
  split <;> simp

@[simp] theorem State.withChanges_fixed (s : State) (cs : SMap W32) : (s.withChanges cs).fixed = s.fixed := by
  unfold State.withChanges
  refine fixed_foldl (fun t x => ?_) _ _
  split <;> simp

@[simp] theorem State.judged_fixed (s : State) (p : RPage) (bad : Option Nat) (serial : BitVec 8) :
    (s.judged p bad serial).fixed = s.fixed := (rfl)

@[simp] theorem State.markWindows_fixed (s t : State) (ps : List RPage) : (s.markWindows t ps).fixed = s.fixed := by
  unfold State.markWindows
  refine fixed_foldl (fun t x => ?_) _ _
  split <;> simp

@[simp] theorem State.judgeStaged_fixed (s : State) (cs : SMap W32) (serial : BitVec 8) :
    (s.judgeStaged cs serial).2.fixed = s.fixed := by simp [State.judgeStaged]

@[simp] theorem State.rebuildSets_fixed (s : State) : s.rebuildSets.fixed = s.fixed := by
  unfold State.rebuildSets
  dsimp only
  split <;> simp

@[simp] theorem State.enableCtx_fixed (s : State) (i : Nat) (on : Bool) :
    (s.enableCtx i on).fixed = s.fixed := by simp [State.enableCtx]

@[simp] theorem State.afterChange_fixed (s : State) (key : Nat) (old new : W32) :
    (s.afterChange key old new).fixed = s.fixed := by
  unfold State.afterChange
  split <;> simp

@[simp] theorem State.applyChanges_fixed (s : State) (cs : SMap W32) : (s.applyChanges cs).fixed = s.fixed := by
  unfold State.applyChanges
  extract_lets ports t u locked v w x
  have ht : t.fixed = s.fixed := by simp [t]
  have hv : v.fixed = s.fixed := by simp [v, u, ht]
  have hw : w.fixed = s.fixed := by
    refine (fixed_foldl (fun y e => ?_) _ _).trans hv
    split <;> simp
  have hx : x.fixed = s.fixed := by simp [x, hw]
  split <;> simp [hx]

@[simp] theorem State.startCommit_fixed (s : State) (path : Path) :
    (s.startCommit path).fixed = s.fixed := by simp [State.startCommit]
@[simp] theorem execCommit_answers (path : Path) (s : State) : Answers s (execCommit path s) := by simp [execCommit]
@[simp] theorem State.discardShadows_fixed (s : State) : s.discardShadows.fixed = s.fixed := by simp [State.discardShadows]
@[simp] theorem execDiscard_answers (path : Path) (s : State) : Answers s (execDiscard path s) := by simp [execDiscard]

@[simp] theorem State.endCommit_fixed (s : State) (result quiesce : Nat) (span : Bool) :
    (s.endCommit result quiesce span).fixed = s.fixed := by
  unfold State.endCommit
  dsimp only
  refine (fixed_foldl State.arrive_fixed _ _).trans ((fixed_foldl (fun u w => ?_) _ _).trans (by simp))
  split <;> simp

@[simp] theorem execCommitApply_answers (s : State) : Answers s (execCommitApply s) := by
  unfold execCommitApply
  split <;> simp

@[simp] theorem State.sampleQuiesce_fixed (s : State) : s.sampleQuiesce.fixed = s.fixed := by simp [State.sampleQuiesce]

@[simp] theorem execQuiesceReached_answers (s : State) : Answers s (execQuiesceReached s) := by
  unfold execQuiesceReached
  split <;> simp

@[simp] theorem execQuiesceTimeout_answers (s : State) : Answers s (execQuiesceTimeout s) := by
  unfold execQuiesceTimeout
  split <;> simp

/-! ### Machine/Discard -/

@[simp] theorem State.discardFrames_fixed (s : State) (first n : Nat) :
    (s.discardFrames first n).fixed = s.fixed := by simp [State.discardFrames]
@[simp] theorem State.discardLadles_fixed (s : State) (first n : Nat) :
    (s.discardLadles first n).fixed = s.fixed := by simp [State.discardLadles]
@[simp] theorem State.stageDiscard_fixed (s : State) (first n : Nat) :
    (s.stageDiscard first n).fixed = s.fixed := by simp [State.stageDiscard]

@[simp] theorem State.discardPart_onSome (s : State) (first n : Nat) : OnSome s (s.discardPart first n) := by
  unfold State.discardPart
  dsimp only
  repeat' split
  all_goals simp

@[simp] theorem State.discardWhole_fixed (s : State) (first n : Nat) :
    (s.discardWhole first n).fixed = s.fixed := by simp [State.discardWhole]

@[simp] theorem State.discardRun_onSome (s : State) (first n : Nat) : OnSome s (s.discardRun first n) := by
  unfold State.discardRun
  repeat' split
  all_goals simp

@[simp] theorem State.discardParts_fixed (rs : List (Nat × Nat)) (s : State) : (State.discardParts rs s).2.fixed = s.fixed := by
  induction rs generalizing s with
  | nil => rfl
  | cons r rs ih =>
    unfold State.discardParts
    split
    · next h => simpa [ih] using (s.discardRun_onSome _ _).fixed h
    · simp [ih]

@[simp] theorem State.discardRange_fixed (s : State) (first n : Nat) :
    (s.discardRange first n).2.fixed = s.fixed := by simp [State.discardRange]
@[simp] theorem State.flushRanges_fixed (s : State) (ranges : List (Nat × Nat)) :
    (s.flushRanges ranges).fixed = s.fixed := by simp [State.flushRanges]
@[simp] theorem State.discardRanges_fixed (s : State) (ranges : List (Nat × Nat)) :
    (s.discardRanges ranges).2.fixed = s.fixed := by simp [State.discardRanges]
@[simp] theorem State.pumpDiscard_fixed (s : State) (r : MbxRun) :
    (s.pumpDiscard r).fixed = s.fixed := by simp [State.pumpDiscard]
@[simp] theorem State.pumpDiscards_fixed (s : State) : s.pumpDiscards.fixed = s.fixed := by simp [State.pumpDiscards]
@[simp] theorem State.discardFor_fixed (s : State) (p : Path) (opcode bytes : Nat) (ranges : List (Nat × Nat))
    (own : Option Nat) :
    (s.discardFor p opcode bytes ranges own).fixed = s.fixed := by simp [State.discardFor]

/-! ### Machine/Format -/

@[simp] theorem State.formatMedia_fixed (s : State) : s.formatMedia.fixed = s.fixed := (rfl)

/-! ### Machine/Vault -/

@[simp] theorem State.walkLadles_fixed (s : State) : s.walkLadles.fixed = s.fixed := by simp [State.walkLadles]
@[simp] theorem State.updRuns_fixed (s : State) (p : MbxRun → Bool) (f : List Nat → List Nat) :
    (s.updRuns p f).fixed = s.fixed := by simp [State.updRuns]

@[simp] theorem State.answerRun_fixed (s : State) (p : Path) (opcode : Nat) (test : List Nat → Bool) (k : Nat) :
    (s.answerRun p opcode test k).fixed = s.fixed := by
  unfold State.answerRun
  split <;> simp

@[simp] theorem State.armWalks_fixed (s : State) (j : VaultJob) (slot : Nat) : (s.armWalks j slot).fixed = s.fixed := by
  unfold State.armWalks
  split <;> simp

@[simp] theorem State.answerJob_fixed (s : State) (j : VaultJob) (k : Nat) : (s.answerJob j k).fixed = s.fixed := by
  unfold State.answerJob
  split <;> simp

@[simp] theorem State.eraseSlot_fixed (s : State) (n : Nat) : (s.eraseSlot n).fixed = s.fixed := by simp [State.eraseSlot]
@[simp] theorem State.pendSlot_fixed (s : State) (n : Nat) (v : Bool) : (s.pendSlot n v).fixed = s.fixed := (rfl)

@[simp] theorem State.startJobs_fixed (fuel : Nat) (s : State) : (State.startJobs fuel s).fixed = s.fixed := by
  induction fuel generalizing s with
  | zero => rfl
  | succ fuel ih =>
    unfold State.startJobs
    split
    · rfl
    · dsimp only
      split
      · split <;> simp [ih]
      · split <;> simp [ih]
      all_goals simp

@[simp] theorem State.addJob_fixed (s : State) (j : VaultJob) : (s.addJob j).fixed = s.fixed := by simp [State.addJob]
@[simp] theorem State.loadSlot_fixed (s : State) (n keyId : Nat) :
    (s.loadSlot n keyId).fixed = s.fixed := by simp [State.loadSlot]
@[simp] theorem State.loadSlots_fixed (s : State) (ns : List Nat) :
    (s.loadSlots ns).fixed = s.fixed := by simp [State.loadSlots]

@[simp] theorem State.doWork_fixed (s : State) (w : KeyWork) : (s.doWork w).fixed = s.fixed := by
  unfold State.doWork
  split <;> simp

@[simp] theorem State.storeVault_fixed (s : State) (latch : Nat) :
    (s.storeVault latch).fixed = s.fixed := by simp [State.storeVault]
@[simp] theorem State.clearLid_fixed (s : State) (action requester : Nat) :
    (s.clearLid action requester).fixed = s.fixed := by simp [State.clearLid]
@[simp] theorem State.finishClear_fixed (s : State) (j : VaultJob) (action : Nat) :
    (s.finishClear j action).fixed = s.fixed := by simp [State.finishClear]
@[simp] theorem State.pumpWipe_fixed (s : State) : s.pumpWipe.fixed = s.fixed := by simp [State.pumpWipe]
@[simp] theorem State.settleWalks_fixed (s : State) : s.settleWalks.fixed = s.fixed := by simp [State.settleWalks]
@[simp] theorem State.walkEnded_fixed (s : State) (p : Nat) : (s.walkEnded p).fixed = s.fixed := by simp [State.walkEnded]
@[simp] theorem State.settleWipe_fixed (s : State) : s.settleWipe.fixed = s.fixed := by simp [State.settleWipe]

@[simp] theorem State.markDurable_fixed (s : State) (j : VaultJob) (slot : Nat) : (s.markDurable j slot).fixed = s.fixed := by
  unfold State.markDurable
  split <;> simp

@[simp] theorem State.discardAll_fixed (s : State) : s.discardAll.fixed = s.fixed := by simp [State.discardAll]

@[simp] theorem State.afterWork_fixed (s : State) (j : VaultJob) : (s.afterWork j).fixed = s.fixed := by
  unfold State.afterWork
  split <;> simp

@[simp] theorem State.vaultFailed_fixed (s : State) (j : VaultJob) (rest : List VaultJob) :
    (s.vaultFailed j rest).fixed = s.fixed := by
  unfold State.vaultFailed
  dsimp only
  split <;> simp

@[simp] theorem State.vaultWritten_fixed (s : State) (ok : Bool) : (s.vaultWritten ok).fixed = s.fixed := by
  unfold State.vaultWritten
  split
  · rfl
  · split <;> simp

@[simp] theorem State.ledgerWritten_fixed (s : State) (ok : Bool) :
    (s.ledgerWritten ok).fixed = s.fixed := by simp [State.ledgerWritten]
@[simp] theorem State.bootWritten_fixed (s : State) (ok : Bool) :
    (s.bootWritten ok).fixed = s.fixed := by simp [State.bootWritten]

@[simp] theorem execRangeInvalidationEnd_answers (p : Fin 8) (s : State) : Answers s (execRangeInvalidationEnd p s) := by
  unfold execRangeInvalidationEnd
  repeat' split
  all_goals simp

@[simp] theorem execVaultCopyWritten_answers (kind : Fin 3) (ok : Bool) (s : State) :
    Answers s (execVaultCopyWritten kind ok s) := by
  unfold execVaultCopyWritten
  repeat' split
  all_goals simp

/-! ### Machine/Keys -/

@[simp] theorem execGetKeyInfo_answers (p : Path) (group : Byte) (s : State) :
    Answers s (execGetKeyInfo p group s) := by simp [execGetKeyInfo]
@[simp] theorem State.slotCommand_fixed (s : State) (p : Path) (opcode slot : Nat) (w : KeyWork) (args : List Nat) :
    (s.slotCommand p opcode slot w args).fixed = s.fixed := by simp [State.slotCommand]
@[simp] theorem execGenerateKey_answers (p : Path) (slot : BitVec 16) (s : State) :
    Answers s (execGenerateKey p slot s) := by simp [execGenerateKey]
@[simp] theorem execEraseKey_answers (p : Path) (slot : BitVec 16) (s : State) :
    Answers s (execEraseKey p slot s) := by simp [execEraseKey]
@[simp] theorem execSetOwnerSecret_answers (p : Path) (input : List Byte) (s : State) :
    Answers s (execSetOwnerSecret p input s) := by simp [execSetOwnerSecret]
@[simp] theorem State.clearAlarm_fixed (s : State) (p : Path) (action : Nat) (blk : List Byte) :
    (s.clearAlarm p action blk).fixed = s.fixed := by simp [State.clearAlarm]
@[simp] theorem execClearAlarmResume_answers (p : Path) (blk : List Byte) (s : State) :
    Answers s (execClearAlarmResume p blk s) := by simp [execClearAlarmResume]
@[simp] theorem execClearAlarmReformat_answers (p : Path) (action : Byte) (blk : List Byte) (s : State) :
    Answers s (execClearAlarmReformat p action blk s) := by simp [execClearAlarmReformat]
@[simp] theorem State.settleClear_fixed (s : State) : s.settleClear.fixed = s.fixed := by simp [State.settleClear]
@[simp] theorem execSecureErase_answers (p : Path) (s : State) : Answers s (execSecureErase p s) := by simp [execSecureErase]

@[simp] theorem execSanitize_answers (p : Path) (s : State) : Answers s (execSanitize p s) := by
  unfold execSanitize
  refine (answers_next _ _).2 (State.command_fixed _ _ _ _ _ fun t => ?_)
  dsimp only
  split <;> simp

@[simp] theorem State.rawBlock_fixed (s : State) (debug : Bool) (recorded slice saddr : Nat) :
    (s.rawBlock debug recorded slice saddr).fixed = s.fixed := by simp [State.rawBlock]

@[simp] theorem State.mediaLine_fixed (s : State) (line : Nat) : (s.mediaLine line).2.fixed = s.fixed := by
  unfold State.mediaLine
  repeat' split
  all_goals simp

@[simp] theorem State.rawLine_fixed (s : State) (line : Nat) : (s.rawLine line).2.fixed = s.fixed := by
  unfold State.rawLine
  split <;> simp

@[simp] theorem State.rawSector_fixed (s : State) (debug : Bool) (a : Nat) : (s.rawSector debug a).fixed = s.fixed := by
  unfold State.rawSector
  split
  · exact s.emit_fixed _
  · dsimp only
    split
    · split
      · exact (State.emit_fixed _ _).trans (s.rawBlock_fixed _ _ _ _)
      · exact s.emit_fixed _
    · exact s.emit_fixed _

@[simp] theorem State.rawWrite_fixed (s : State) (line : Nat) (data : Line) : (s.rawWrite line data).fixed = s.fixed := by
  unfold State.rawWrite
  refine getD_fixed fun t h => ((State.accept_onSome _ _).fixed h).trans ?_
  split <;> simp

@[simp] theorem execRawAccess_answers (debug : Bool) (op : RawOp) (s : State) : Answers s (execRawAccess debug op s) := by
  unfold execRawAccess
  dsimp only
  repeat' split
  all_goals simp

@[simp] theorem State.doeReply_fixed (s : State) (n code : Nat) : (s.doeReply n code).fixed = s.fixed := (rfl)
@[simp] theorem State.setDoe_fixed (s : State) (n st : Nat) : (s.setDoe n st).fixed = s.fixed := (rfl)

@[simp] theorem State.spdm_fixed (s : State) (n : Fin 32) (low high code : Nat) (stage : Option Nat) :
    (s.spdm n low high code stage).fixed = s.fixed := by
  unfold State.spdm
  repeat' split
  all_goals simp

@[simp] theorem execGetVersion_answers (n : Fin 32) (s : State) : Answers s (execGetVersion n s) := by simp [execGetVersion]
@[simp] theorem execGetCapabilities_answers (n : Fin 32) (s : State) :
    Answers s (execGetCapabilities n s) := by simp [execGetCapabilities]
@[simp] theorem execNegotiateAlgorithms_answers (n : Fin 32) (s : State) :
    Answers s (execNegotiateAlgorithms n s) := by simp [execNegotiateAlgorithms]
@[simp] theorem execGetDigests_answers (n : Fin 32) (s : State) : Answers s (execGetDigests n s) := by simp [execGetDigests]
@[simp] theorem execGetCertificate_answers (n : Fin 32) (s : State) :
    Answers s (execGetCertificate n s) := by simp [execGetCertificate]
@[simp] theorem execChallenge_answers (n : Fin 32) (s : State) : Answers s (execChallenge n s) := by simp [execChallenge]
@[simp] theorem execGetMeasurements_answers (n : Fin 32) (s : State) :
    Answers s (execGetMeasurements n s) := by simp [execGetMeasurements]
@[simp] theorem execKeyExchange_answers (n : Fin 32) (s : State) : Answers s (execKeyExchange n s) := by simp [execKeyExchange]
@[simp] theorem execFinish_answers (n : Fin 32) (ok : Bool) (s : State) : Answers s (execFinish n ok s) := by simp [execFinish]
@[simp] theorem execHeartbeat_answers (n : Fin 32) (s : State) : Answers s (execHeartbeat n s) := by simp [execHeartbeat]
@[simp] theorem execEndSession_answers (n : Fin 32) (s : State) : Answers s (execEndSession n s) := by simp [execEndSession]
@[simp] theorem State.ideKm_fixed (s : State) (n : Fin 32) (code : Nat) (body : State → State)
    (h : ∀ t, (body t).fixed = t.fixed) :
    (s.ideKm n code body).fixed = s.fixed := by simp [State.ideKm, h]
@[simp] theorem execQuery_answers (n : Fin 32) (s : State) : Answers s (execQuery n s) := by simp [execQuery]
@[simp] theorem execKeyProg_answers (n : Fin 32) (stream : Fin 6) (set : Fin 2) (tx : Bool) (s : State) :
    Answers s (execKeyProg n stream set tx s) := by simp [execKeyProg]
@[simp] theorem execKSetGo_answers (n : Fin 32) (stream : Fin 6) (set : Fin 2) (tx : Bool) (s : State) :
    Answers s (execKSetGo n stream set tx s) := by simp [execKSetGo]
@[simp] theorem execKSetStop_answers (n : Fin 32) (stream : Fin 6) (set : Fin 2) (tx : Bool) (s : State) :
    Answers s (execKSetStop n stream set tx s) := by simp [execKSetStop]

/-! ### Machine/FlushPages -/

@[simp] theorem State.putFlushPage_fixed (s : State) (area i : Nat) (xs : List Sector) :
    (s.putFlushPage area i xs).fixed = s.fixed := by simp [State.putFlushPage]

/-! ### Machine/MapLoad -/

@[simp] theorem State.quiet_fixed (s : State) (f : State → State) (h : ∀ t, (f t).fixed = t.fixed) :
    (s.quiet f).fixed = s.fixed := by simp [State.quiet, h]
@[simp] theorem State.promoteTo_fixed (s : State) (l b : Nat) : (s.promoteTo l b).fixed = s.fixed := by simp [State.promoteTo]
@[simp] theorem State.promoteScan_fixed (s : State) (l : Nat) : (s.promoteScan l).fixed = s.fixed := by simp [State.promoteScan]
@[simp] theorem State.replayDiscard_fixed (s : State) (first n : Nat) :
    (s.replayDiscard first n).fixed = s.fixed := by simp [State.replayDiscard]

@[simp] theorem State.replayRec_fixed (s : State) (r : JRec) : (s.replayRec r).fixed = s.fixed := by
  unfold State.replayRec
  split <;> simp

@[simp] theorem State.loadCkpt_fixed (s : State) : s.loadCkpt.fixed = s.fixed := by
  unfold State.loadCkpt
  split <;> simp

@[simp] theorem State.applyFound_fixed (s : State) (f : Found) : (s.applyFound f).fixed = s.fixed := by
  unfold State.applyFound
  split <;> simp

@[simp] theorem State.tagScan_fixed (s : State) (m : Option Mark) : (s.tagScan m).fixed = s.fixed := by
  unfold State.tagScan
  split <;> simp

@[simp] theorem State.wholeCkpt_fixed (s : State) : s.wholeCkpt.fixed = s.fixed := (rfl)
@[simp] theorem State.refit_fixed (s : State) (S w : Nat) (st : BState) :
    (s.refit S w st).fixed = s.fixed := by simp [State.refit]
@[simp] theorem State.settleStripes_fixed (s : State) : s.settleStripes.fixed = s.fixed := by simp [State.settleStripes]

@[simp] theorem State.padOut_fixed (s : State) (S : Nat) : (s.padOut S).fixed = s.fixed := by
  unfold State.padOut
  split
  · rfl
  · simp only [State.sealRows_fixed, State.fillRows_fixed, State.fixed_mk, State.fixed_fold]
    refine fixed_foldl (fun u e => ?_) _ s
    split <;> simp

@[simp] theorem State.closeStripes_fixed (s : State) (img : Option FlushImage) : (s.closeStripes img).fixed = s.fixed := by
  unfold State.closeStripes
  split <;> simp

@[simp] theorem State.resumeRebuild_fixed (s : State) : s.resumeRebuild.fixed = s.fixed := by simp [State.resumeRebuild]
@[simp] theorem State.replay_fixed (s : State) (d area : Nat) (i : FlushImage) :
    (s.replay d area i).fixed = s.fixed := by simp [State.replay]

@[simp] theorem State.showMarker_fixed (s : State) (m : Option (List Byte)) : (s.showMarker m).fixed = s.fixed := by
  unfold State.showMarker
  split <;> simp

@[simp] theorem State.restoreClocks_fixed (s : State) (m : Option (List Byte)) (spike : List SpikeRec) :
    (s.restoreClocks m spike).fixed = s.fixed := by simp [State.restoreClocks]
@[simp] theorem State.mapLoad_fixed (s : State) (warm : Bool) (img : Option FlushImage) :
    (s.mapLoad warm img).fixed = s.fixed := by simp [State.mapLoad]
@[simp] theorem State.loadEnds_fixed (s : State) : s.loadEnds.fixed = s.fixed := (rfl)
@[simp] theorem State.loadBegins_fixed (s : State) : s.loadBegins.fixed = s.fixed := (rfl)
@[simp] theorem State.loadFailed_fixed (s : State) : s.loadFailed.fixed = s.fixed := by simp [State.loadFailed]

/-! ### Machine/Recipe -/

@[simp] theorem State.writeBoot_fixed (s : State) (b : BootState) : (s.writeBoot b).fixed = s.fixed := (rfl)
@[simp] theorem State.rollback_fixed (s : State) (slot next : Nat) :
    (s.rollback slot next).fixed = s.fixed := by simp [State.rollback]
@[simp] theorem State.selectActive_fixed (s : State) : s.selectActive.2.fixed = s.fixed := by simp [State.selectActive]
@[simp] theorem State.selectFw_fixed (s : State) : s.selectFw.2.fixed = s.fixed := by simp [State.selectFw]
@[simp] theorem State.setRlt_fixed (s : State) (key : Nat) (v : W32) : (s.setRlt key v).fixed = s.fixed := (rfl)

@[simp] theorem State.applyEntry_fixed (s : State) (e : RecipeEntry) : (s.applyEntry e).fixed = s.fixed := by
  unfold State.applyEntry
  split <;> simp

@[simp] theorem State.housePage_fixed (s : State) (p : RPage) : (s.housePage p).fixed = s.fixed := by simp [State.housePage]
@[simp] theorem State.refuseRecipe_fixed (s : State) (p : RPage) (o : Nat) : (s.refuseRecipe p o).fixed = s.fixed := (rfl)

@[simp] theorem State.checkRecipe_fixed (s t : State) (ps : List RPage) : (s.checkRecipe t ps).fixed = t.fixed := by
  simp [State.checkRecipe]

@[simp] theorem State.noRecipe_fixed (s : State) (result copy : Nat) :
    (s.noRecipe result copy).fixed = s.fixed := by simp [State.noRecipe]

/-! ### Machine/Startup -/

@[simp] theorem State.keepCounts_fixed (t s : State) : (t.keepCounts s).fixed = t.fixed := by simp [State.keepCounts]
@[simp] theorem State.dropTests_fixed (s : State) (q : List (Nat × Nat)) :
    (s.dropTests q).fixed = s.fixed := by simp [State.dropTests]
@[simp] theorem State.coldCore_fixed (s : State) : s.coldCore.fixed = s.fixed := by simp [State.coldCore]
@[simp] theorem State.warmCore_fixed (s : State) : s.warmCore.fixed = s.fixed := by simp [State.warmCore]
@[simp] theorem State.toStep_fixed (s : State) (k : Nat) : (s.toStep k).fixed = s.fixed := (rfl)
@[simp] theorem State.startFail_fixed (s : State) (row : Nat) : (s.startFail row).fixed = s.fixed := (rfl)
@[simp] theorem State.noMemory_fixed (s : State) (row : Nat) : (s.noMemory row).fixed = s.fixed := by simp [State.noMemory]
@[simp] theorem State.startKettle_fixed (s : State) : s.startKettle.fixed = s.fixed := (rfl)
@[simp] theorem State.deviceKeys_fixed (s : State) : s.deviceKeys.fixed = s.fixed := (rfl)
@[simp] theorem State.readSfdp_fixed (s : State) : s.readSfdp.fixed = s.fixed := (rfl)
@[simp] theorem State.firmware_fixed (s : State) : s.firmware.fixed = s.fixed := by simp [State.firmware]
@[simp] theorem State.learnDies_fixed (s : State) : s.learnDies.fixed = s.fixed := by simp [State.learnDies]

@[simp] theorem State.applyLedger_fixed (s : State) : s.applyLedger.fixed = s.fixed := by
  unfold State.applyLedger
  dsimp only
  split <;> simp

@[simp] theorem State.relid_fixed (s : State) (cause : Nat) : (s.relid cause).fixed = s.fixed := (rfl)
@[simp] theorem State.useVault_fixed (s : State) (isB : Bool) (seq : Nat) (v : Vault) :
    (s.useVault isB seq v).fixed = s.fixed := by simp [State.useVault]

@[simp] theorem State.restoreKeys_fixed (s : State) : s.restoreKeys.fixed = s.fixed := by
  unfold State.restoreKeys
  split <;> simp

@[simp] theorem State.recallLid_fixed (s : State) : s.recallLid.fixed = s.fixed := by
  unfold State.recallLid
  repeat' split
  all_goals simp

@[simp] theorem State.keyStep_fixed (s : State) : s.keyStep.fixed = s.fixed := by simp [State.keyStep]
@[simp] theorem State.rejudgeKettle_fixed (s : State) : s.rejudgeKettle.fixed = s.fixed := by simp [State.rejudgeKettle]
@[simp] theorem State.markDefects_fixed (s : State) : s.markDefects.fixed = s.fixed := by simp [State.markDefects]
@[simp] theorem State.recountRetired_fixed (s : State) : s.recountRetired.fixed = s.fixed := by simp [State.recountRetired]
@[simp] theorem State.classifyMedia_fixed (s : State) : s.classifyMedia.fixed = s.fixed := by simp [State.classifyMedia]
@[simp] theorem State.populationFault_fixed (s : State) : s.populationFault.fixed = s.fixed := by simp [State.populationFault]

@[simp] theorem State.formatStart_fixed (s : State) : s.formatStart.fixed = s.fixed := by
  unfold State.formatStart
  split <;> simp

@[simp] theorem State.takeMarker_fixed (s : State) (img : Option FlushImage) :
    (s.takeMarker img).fixed = s.fixed := by simp [State.takeMarker]

@[simp] theorem State.coldMap_fixed (s : State) (d : Nat) : (s.coldMap d).fixed = s.fixed := by
  unfold State.coldMap
  dsimp only
  repeat' split
  all_goals simp

@[simp] theorem State.coldReplay_fixed (s : State) : s.coldReplay.fixed = s.fixed := by
  unfold State.coldReplay
  split <;> simp

@[simp] theorem State.coldLoad_fixed (s : State) : s.coldLoad.fixed = s.fixed := by simp [State.coldLoad]
@[simp] theorem State.warmLoad_fixed (s : State) : s.warmLoad.fixed = s.fixed := by simp [State.warmLoad]

@[simp] theorem State.probe_fixed (s : State) : s.probe.fixed = s.fixed := by
  unfold State.probe
  dsimp only
  split <;> simp

@[simp] theorem State.scheduleCatchup_fixed (s : State) : s.scheduleCatchup.fixed = s.fixed := by
  unfold State.scheduleCatchup
  split <;> simp

@[simp] theorem State.resetAreas_fixed (s : State) : s.resetAreas.fixed = s.fixed := by
  unfold State.resetAreas
  split <;> simp

@[simp] theorem State.readyStep_fixed (s : State) : s.readyStep.fixed = s.fixed := by simp [State.readyStep]
@[simp] theorem State.checkBurners_fixed (s : State) : s.checkBurners.fixed = s.fixed := by simp [State.checkBurners]
@[simp] theorem State.drainMore_fixed (s : State) : s.drainMore.fixed = s.fixed := by simp [State.drainMore]
@[simp] theorem State.preResetTick_fixed (s : State) : s.preResetTick.fixed = s.fixed := by simp [State.preResetTick]

/-! ### Machine/Power -/

@[simp] theorem State.pmb_fixed (s : State) (i code data : Nat) : (s.pmb i code data).fixed = s.fixed := by simp [State.pmb]
@[simp] theorem State.raiseRail_fixed (s : State) (i : Nat) : (s.raiseRail i).fixed = s.fixed := by simp [State.raiseRail]
@[simp] theorem State.latchFault_fixed (s : State) (code i : Nat) (status : BitVec 16) :
    (s.latchFault code i status).fixed = s.fixed := (rfl)
@[simp] theorem State.trigger_fixed (s : State) (cause : Nat) : (s.trigger cause).fixed = s.fixed := by simp [State.trigger]
@[simp] theorem State.railFail_fixed (s : State) (code i : Nat) (status : BitVec 16) :
    (s.railFail code i status).fixed = s.fixed := by simp [State.railFail]
@[simp] theorem State.enterStarting_fixed (s : State) : s.enterStarting.fixed = s.fixed := (rfl)

@[simp] theorem execStartRamping_answers (supply : BitVec 16) (s : State) : Answers s (execStartRamping supply s) := by
  unfold execStartRamping
  dsimp only
  split <;> simp

@[simp] theorem execRailQualified_answers (i : Fin 8) (strap : Fin 4) (s : State) :
    Answers s (execRailQualified i strap s) := by
  unfold execRailQualified
  dsimp only
  repeat' split
  all_goals simp

@[simp] theorem execRailRampTimeout_answers (i : Fin 8) (status : BitVec 16) (s : State) :
    Answers s (execRailRampTimeout i status s) := by
  unfold execRailRampTimeout
  dsimp only
  split <;> simp

@[simp] theorem execPowerGoodLoss_answers (i : Fin 8) (status : BitVec 16) (s : State) :
    Answers s (execPowerGoodLoss i status s) := by
  unfold execPowerGoodLoss
  dsimp only
  repeat' split
  all_goals simp

@[simp] theorem State.allOff_fixed (s : State) : s.allOff.fixed = s.fixed := by simp [State.allOff]

@[simp] theorem execRailOff_answers (i : Fin 8) (s : State) : Answers s (execRailOff i s) := by
  unfold execRailOff
  dsimp only
  repeat' split
  all_goals simp

@[simp] theorem execDischargeTimeout_answers (i : Fin 8) (s : State) : Answers s (execDischargeTimeout i s) := by
  unfold execDischargeTimeout
  dsimp only
  split <;> simp

@[simp] theorem execUndervoltage_answers (i : Fin 8) (s : State) : Answers s (execUndervoltage i s) := by
  unfold execUndervoltage
  repeat' split
  all_goals simp

@[simp] theorem execOvervoltage_answers (i : Fin 8) (s : State) : Answers s (execOvervoltage i s) := by
  unfold execOvervoltage
  split <;> simp

@[simp] theorem State.pmbRow_fixed {α : Type} (s : State) (i : Fin 8) (code : Nat) (answer : Option α)
    (take : α → PRail → PRail) :
    (s.pmbRow i code answer take).fixed = s.fixed := by
  unfold State.pmbRow
  repeat' split
  all_goals simp

@[simp] theorem execPmbAlert_answers (s : State) : Answers s (execPmbAlert s) := by
  unfold execPmbAlert
  split <;> simp

@[simp] theorem execPage_answers (i : Fin 8) (s : State) : Answers s (execPage i s) := by
  unfold execPage
  dsimp only
  split <;> simp

@[simp] theorem execClearFaults_answers (i : Fin 8) (ok : Bool) (s : State) :
    Answers s (execClearFaults i ok s) := by simp [execClearFaults]
@[simp] theorem execVoutMode_answers (i : Fin 8) (v : Option Byte) (s : State) :
    Answers s (execVoutMode i v s) := by simp [execVoutMode]
@[simp] theorem execStatusWord_answers (i : Fin 8) (v : Option (BitVec 16)) (s : State) :
    Answers s (execStatusWord i v s) := by simp [execStatusWord]
@[simp] theorem State.subStatus_fixed (s : State) (i : Fin 8) (code bit : Nat) (v : Option Byte) :
    (s.subStatus i code bit v).fixed = s.fixed := by simp [State.subStatus]
@[simp] theorem execStatusVout_answers (i : Fin 8) (v : Option Byte) (s : State) :
    Answers s (execStatusVout i v s) := by simp [execStatusVout]
@[simp] theorem execStatusIout_answers (i : Fin 8) (v : Option Byte) (s : State) :
    Answers s (execStatusIout i v s) := by simp [execStatusIout]
@[simp] theorem execStatusInput_answers (i : Fin 8) (v : Option Byte) (s : State) :
    Answers s (execStatusInput i v s) := by simp [execStatusInput]
@[simp] theorem execStatusTemperature_answers (i : Fin 8) (v : Option Byte) (s : State) :
    Answers s (execStatusTemperature i v s) := by simp [execStatusTemperature]
@[simp] theorem execReadVin_answers (i : Fin 8) (v : Option (BitVec 16)) (s : State) :
    Answers s (execReadVin i v s) := by simp [execReadVin]
@[simp] theorem execReadVout_answers (i : Fin 8) (v : Option (BitVec 16)) (s : State) :
    Answers s (execReadVout i v s) := by simp [execReadVout]
@[simp] theorem execReadIout_answers (i : Fin 8) (v : Option (BitVec 16)) (s : State) :
    Answers s (execReadIout i v s) := by simp [execReadIout]
@[simp] theorem execReadTemperature1_answers (i : Fin 8) (v : Option (BitVec 16)) (s : State) :
    Answers s (execReadTemperature1 i v s) := by simp [execReadTemperature1]

@[simp] theorem execPmbusRevision_answers (i : Fin 8) (v : Option Byte) (s : State) : Answers s (execPmbusRevision i v s) := by
  unfold execPmbusRevision
  repeat' split
  all_goals simp

@[simp] theorem State.testEnds_fixed (s : State) (test result : Nat) :
    (s.testEnds test result).fixed = s.fixed := by simp [State.testEnds]
@[simp] theorem State.kettleDone_fixed (s : State) (uf : Option Nat) :
    (s.kettleDone uf).fixed = s.fixed := by simp [State.kettleDone]

@[simp] theorem execKettleReady_answers (v0 : BitVec 16) (s : State) : Answers s (execKettleReady v0 s) := by
  unfold execKettleReady
  dsimp only
  split <;> simp

@[simp] theorem execKettleTestDischarge_answers (us : BitVec 32) (s : State) : Answers s (execKettleTestDischarge us s) := by
  unfold execKettleTestDischarge
  split <;> simp

@[simp] theorem execKettleTestTimeout_answers (s : State) : Answers s (execKettleTestTimeout s) := by
  unfold execKettleTestTimeout
  dsimp only
  repeat' split
  all_goals simp

@[simp] theorem execWriteHold_answers (v : BitVec 16) (s : State) : Answers s (execWriteHold v s) := by
  unfold execWriteHold
  split <;> simp

@[simp] theorem execWriteHoldEnd_answers (v : BitVec 16) (s : State) : Answers s (execWriteHoldEnd v s) := by
  unfold execWriteHoldEnd
  split <;> simp

@[simp] theorem execSupplyFail_answers (s : State) : Answers s (execSupplyFail s) := by simp [execSupplyFail]

@[simp] theorem execBrownout_answers (us : Fin 2000) (s : State) : Answers s (execBrownout us s) := by
  unfold execBrownout
  split <;> simp

@[simp] theorem execKettleFloor_answers (s : State) : Answers s (execKettleFloor s) := by
  unfold execKettleFloor
  split <;> simp

@[simp] theorem execFlushReq_answers (high : Bool) (s : State) : Answers s (execFlushReq high s) := by
  unfold execFlushReq
  split <;> simp

@[simp] theorem execReferenceClockAbsent_answers (s : State) :
    Answers s (execReferenceClockAbsent s) := by simp [execReferenceClockAbsent]

@[simp] theorem execFlushAbandon_answers (s : State) : Answers s (execFlushAbandon s) := by
  unfold execFlushAbandon
  split <;> simp

@[simp] theorem State.writeImage_fixed (s : State) : s.writeImage.fixed = s.fixed := by simp [State.writeImage]
@[simp] theorem State.flushTick_fixed (s : State) : s.flushTick.fixed = s.fixed := by simp [State.flushTick]

/-! ### Machine/Yulvoga -/

@[simp] theorem State.yvReply_fixed (s : State) (broadcast : Bool) (status : Nat) (payload : List Byte) :
    (s.yvReply broadcast status payload).fixed = s.fixed := by simp [State.yvReply]
@[simp] theorem State.yvCommand_fixed (s : State) (body : State → State) (h : ∀ t, (body t).fixed = t.fixed) :
    (s.yvCommand body).fixed = s.fixed := by simp [State.yvCommand, h]
@[simp] theorem execYvIdentify_answers (s : State) : Answers s (execYvIdentify s) := by simp [execYvIdentify]
@[simp] theorem execYvStatus_answers (s : State) : Answers s (execYvStatus s) := by simp [execYvStatus]
@[simp] theorem execKettleInfo_answers (s : State) : Answers s (execKettleInfo s) := by simp [execKettleInfo]
@[simp] theorem execPowerOn_answers (s : State) : Answers s (execPowerOn s) := by simp [execPowerOn]
@[simp] theorem execPowerOff_answers (broadcast : Bool) (s : State) :
    Answers s (execPowerOff broadcast s) := by simp [execPowerOff]
@[simp] theorem execClearFault_answers (broadcast : Bool) (s : State) :
    Answers s (execClearFault broadcast s) := by simp [execClearFault]

@[simp] theorem execYulvogaBadFrame_answers (unknown : Bool) (s : State) : Answers s (execYulvogaBadFrame unknown s) := by
  unfold execYulvogaBadFrame
  repeat' split
  all_goals simp

@[simp] theorem execYulvogaFallback_answers (s : State) : Answers s (execYulvogaFallback s) := by
  unfold execYulvogaFallback
  split <;> simp

@[simp] theorem State.yvSend_fixed (s : State) (addr cmd : Nat) : (s.yvSend addr cmd).fixed = s.fixed := (rfl)
@[simp] theorem State.updSlave_fixed (s : State) (a : Nat) (f : YvSlave → YvSlave) : (s.updSlave a f).fixed = s.fixed := (rfl)
@[simp] theorem State.slaveAnswers_fixed (s : State) (a : Nat) (payload : List Byte) :
    (s.slaveAnswers a payload).fixed = s.fixed := (rfl)

@[simp] theorem State.yvLearn_fixed (s : State) (a cmd status : Nat) (payload : List Byte) :
    (s.yvLearn a cmd status payload).fixed = s.fixed := by
  unfold State.yvLearn
  repeat' split
  all_goals simp

@[simp] theorem execYvCmdGo_answers (path : Path) (addr : Fin 16) (cmd : Byte) (again : Fin 10) (result : Fin 4) (status : Byte)
    (payload : List Byte) (s : State) :
    Answers s (execYvCmdGo path addr cmd again result status payload s) := by simp [execYvCmdGo]

@[simp] theorem execVauxGood_answers (addr : Fin 16) (answers : BitVec 16) (s : State) :
    Answers s (execVauxGood addr answers s) := by
  unfold execVauxGood
  repeat' split
  all_goals simp

@[simp] theorem execVauxLoss_answers (second : Bool) (s : State) : Answers s (execVauxLoss second s) := by simp [execVauxLoss]

/-! ### Machine/Thermal -/

@[simp] theorem State.meanOf_fixed (s : State) (xs : List Int) : (s.meanOf xs).2.fixed = s.fixed := by simp [State.meanOf]
@[simp] theorem State.sensorBroken_fixed (s : State) (k : Nat) :
    (s.sensorBroken k).fixed = s.fixed := by simp [State.sensorBroken]

@[simp] theorem State.judgeSensor_fixed (s : State) (old now : SMap Sensor) (once : Bool) (k : Nat) :
    (s.judgeSensor old now once k).fixed = s.fixed := by
  unfold State.judgeSensor
  split <;> simp

@[simp] theorem State.applyBands_fixed (s : State) : s.applyBands.fixed = s.fixed := by simp [State.applyBands]
@[simp] theorem State.trip_fixed (s : State) : s.trip.fixed = s.fixed := by simp [State.trip]
@[simp] theorem State.countTrip_fixed (s : State) (hit : Bool) : (s.countTrip hit).fixed = s.fixed := by simp [State.countTrip]

@[simp] theorem State.readMedia_fixed (s : State) (xs : List (Option (BitVec 16))) : (s.readMedia xs).fixed = s.fixed := by
  unfold State.readMedia
  split
  · rfl
  · refine fixed_foldl (fun t i => ?_) _ s
    split
    · rfl
    · split <;> simp

@[simp] theorem State.takeMeans_fixed (s : State) (supply kettle : Nat) :
    (s.takeMeans supply kettle).fixed = s.fixed := by simp [State.takeMeans]
@[simp] theorem State.slaveMisses_fixed (s : State) (a : Nat) : (s.slaveMisses a).fixed = s.fixed := by simp [State.slaveMisses]

@[simp] theorem State.pollSlaves_fixed (s : State) (answers : List (Option (List Byte))) :
    (s.pollSlaves answers).fixed = s.fixed := by
  unfold State.pollSlaves
  split
  · rfl
  · refine fixed_foldl (fun t a => ?_) _ s
    split
    · rfl
    · dsimp only
      split <;> simp

@[simp] theorem State.powerSlaves_fixed (s : State) : s.powerSlaves.fixed = s.fixed := by
  unfold State.powerSlaves
  dsimp only
  repeat' split
  all_goals simp

@[simp] theorem State.rollCal_fixed (s : State) : s.rollCal.fixed = s.fixed := by simp [State.rollCal]

@[simp] theorem execHousekeepingRound_answers (ctl stack media : List (Option (BitVec 16))) (supply kettle : BitVec 16)
    (answers : List (Option (List Byte))) (late : Bool) (s : State) :
    Answers s (execHousekeepingRound ctl stack media supply kettle answers late s) := by
  unfold execHousekeepingRound
  split <;> simp

@[simp] theorem State.testReply_fixed (s : State) (p : Path) (outcome test : Nat) :
    (s.testReply p outcome test).fixed = s.fixed := (rfl)
@[simp] theorem State.testBegins_fixed (s : State) (test target : Nat) : (s.testBegins test target).fixed = s.fixed := (rfl)
@[simp] theorem State.beginTraining_fixed (s : State) (b : Nat) : (s.beginTraining b).fixed = s.fixed := (rfl)

@[simp] theorem State.startTest_fixed (s : State) (test target : Nat) : (s.startTest test target).fixed = s.fixed := by
  unfold State.startTest
  split <;> simp

@[simp] theorem State.showDeferred_fixed (s : State) (test target : Nat) : (s.showDeferred test target).fixed = s.fixed := by
  unfold State.showDeferred
  split <;> simp

@[simp] theorem State.requestTest_fixed (s : State) (test target : Nat) :
    (s.requestTest test target).2.fixed = s.fixed := by simp [State.requestTest]
@[simp] theorem State.runTest_fixed (s : State) (p : Path) (test : Nat) (arg : Byte) (known : Bool) (body : State → State)
    (h : ∀ t, (body t).fixed = t.fixed) :
    (s.runTest p test arg known body).fixed = s.fixed := by simp [State.runTest, h]
@[simp] theorem State.runNow_fixed (s : State) (p : Path) (test : Nat) (arg : Byte) (known : Bool) (body : State → State)
    (h : ∀ t, (body t).fixed = t.fixed) :
    (s.runNow p test arg known body).fixed = s.fixed := by simp [State.runNow, h]

@[simp] theorem State.askTest_fixed (s : State) (src : TestSrc) (test target : Nat) (page : RPage) (off : Nat)
    (known : Byte → Bool) :
    (s.askTest src test target page off known).fixed = s.fixed := by
  unfold State.askTest
  split <;> simp

@[simp] theorem State.nextTest_fixed (s : State) : s.nextTest.fixed = s.fixed := by
  unfold State.nextTest
  split <;> simp

@[simp] theorem execKettleCapacitanceTest_answers (src : TestSrc) (s : State) :
    Answers s (execKettleCapacitanceTest src s) := by simp [execKettleCapacitanceTest]
@[simp] theorem State.trainDie_fixed (s : State) (b ce : Nat) (r : TrainRes) :
    (s.trainDie b ce r).fixed = s.fixed := by simp [State.trainDie]
@[simp] theorem State.trainingEnds_fixed (s : State) : s.trainingEnds.fixed = s.fixed := by simp [State.trainingEnds]
@[simp] theorem State.trained_fixed (s : State) (b : Nat) (res : List TrainRes) :
    (s.trained b res).fixed = s.fixed := by simp [State.trained]

@[simp] theorem execFullTraining_answers (src : TestSrc) (b : Fin 32) (res : List TrainRes) (s : State) :
    Answers s (execFullTraining src b res s) := by
  unfold execFullTraining
  dsimp only
  repeat' split
  all_goals simp

@[simp] theorem State.chargeCal_fixed (s : State) (b us : Nat) : (s.chargeCal b us).fixed = s.fixed := by simp [State.chargeCal]
@[simp] theorem State.queueTrims_fixed (s : State) (bs : List Nat) :
    (s.queueTrims bs).fixed = s.fixed := by simp [State.queueTrims]
@[simp] theorem State.trimsEnd_fixed (s : State) (b : Nat) : (s.trimsEnd b).fixed = s.fixed := by simp [State.trimsEnd]
@[simp] theorem State.quickTrim_fixed (s : State) (b ce : Nat) (r : TrainRes) :
    (s.quickTrim b ce r).fixed = s.fixed := by simp [State.quickTrim]
@[simp] theorem State.quickRequest_fixed (s : State) (b : Nat) :
    (s.quickRequest b).fixed = s.fixed := by simp [State.quickRequest]

@[simp] theorem execQuickTrim_answers (src : TestSrc) (b : Fin 32) (ce : Fin 10) (r : TrainRes) (s : State) :
    Answers s (execQuickTrim src b ce r s) := by
  unfold execQuickTrim
  repeat' split
  all_goals simp

@[simp] theorem State.addTrim_fixed (s : State) (die bucket : Nat) (best : List (Fin 7)) :
    (s.addTrim die bucket best).fixed = s.fixed := (rfl)
@[simp] theorem State.calReads_fixed (s : State) (die bucket : Nat) :
    (s.calReads die bucket).fixed = s.fixed := by simp [State.calReads]

@[simp] theorem execReadLevelCalibration_answers (src : TestSrc) (die : Fin 320) (bucket : Fin 16) (best : List (List (Fin 7)))
    (us : Fin 2001) (s : State) :
    Answers s (execReadLevelCalibration src die bucket best us s) := by
  unfold execReadLevelCalibration
  dsimp only
  repeat' split
  all_goals simp

@[simp] theorem execSensorSelfCheck_answers (src : TestSrc) (s : State) : Answers s (execSensorSelfCheck src s) := by
  unfold execSensorSelfCheck
  split <;> simp

@[simp] theorem execCodecSelfTest_answers (src : TestSrc) (fails : BitVec 32) (us : Fin 2001) (s : State) :
    Answers s (execCodecSelfTest src fails us s) := by
  unfold execCodecSelfTest
  split <;> simp

@[simp] theorem State.reloadMap_fixed (s : State) : s.reloadMap.fixed = s.fixed := by simp [State.reloadMap]

@[simp] theorem execMapStackTraining_answers (src : TestSrc) (ok : Bool) (s : State) :
    Answers s (execMapStackTraining src ok s) := by
  unfold execMapStackTraining
  repeat' split
  all_goals simp

/-! ### Machine/Simmer -/

@[simp] theorem State.powerAnswer_fixed (s : State) (p : Path) (k : Nat) : (s.powerAnswer p k).fixed = s.fixed := (rfl)
@[simp] theorem State.enterSimmer_fixed (s : State) (p : Path) (n : Nat) :
    (s.enterSimmer p n).fixed = s.fixed := by simp [State.enterSimmer]
@[simp] theorem execSimmerEntry_answers (p : Path) (link : Byte) (s : State) :
    Answers s (execSimmerEntry p link s) := by simp [execSimmerEntry]
@[simp] theorem State.powerReached_fixed (s : State) (k : Nat) :
    (s.powerReached k).fixed = s.fixed := by simp [State.powerReached]
@[simp] theorem State.simmerEntered_fixed (s : State) : s.simmerEntered.fixed = s.fixed := by simp [State.simmerEntered]
@[simp] theorem State.simmerEntryTick_fixed (s : State) : s.simmerEntryTick.fixed = s.fixed := by simp [State.simmerEntryTick]
@[simp] theorem State.wake_fixed (s : State) (fails : BitVec 32) (rate : Nat) :
    (s.wake fails rate).fixed = s.fixed := by simp [State.wake]
@[simp] theorem execSimmerWake_answers (p : Path) (fails : BitVec 32) (rate : Fin 6) (s : State) :
    Answers s (execSimmerWake p fails rate s) := by simp [execSimmerWake]

@[simp] theorem State.simmerTick_fixed (s : State) : s.simmerTick.fixed = s.fixed := by
  unfold State.simmerTick
  repeat' split
  all_goals simp

@[simp] theorem execWarmReset_answers (path : Path) (s : State) : Answers s (execWarmReset path s) := by simp [execWarmReset]

@[simp] theorem execWarmResetTimeout_answers (s : State) : Answers s (execWarmResetTimeout s) := by
  unfold execWarmResetTimeout
  split <;> simp

@[simp] theorem execTapInstruction_answers (k : Fin 8) (s : State) : Answers s (execTapInstruction k s) := by
  unfold execTapInstruction
  dsimp only
  repeat' split
  all_goals simp

/-! ### Machine/Standard -/

@[simp] theorem State.replyFree_fixed (s : State) (p : Path) (opcode : Nat) (f : Nat → List Byte) :
    (s.replyFree p opcode f).fixed = s.fixed := (rfl)
@[simp] theorem execIdentify_answers (p : Path) (s : State) : Answers s (execIdentify p s) := by simp [execIdentify]

@[simp] theorem execBackgroundOperationStatus_answers (p : Path) (s : State) :
    Answers s (execBackgroundOperationStatus p s) := by
  unfold execBackgroundOperationStatus
  refine (answers_next _ _).2 (State.command_fixed _ _ _ _ _ fun t => ?_)
  dsimp only
  repeat' split
  all_goals simp

@[simp] theorem execGetResponseMessageLimit_answers (p : Path) (s : State) :
    Answers s (execGetResponseMessageLimit p s) := by simp [execGetResponseMessageLimit]
@[simp] theorem execIdentifyMemoryDevice_answers (p : Path) (s : State) :
    Answers s (execIdentifyMemoryDevice p s) := by simp [execIdentifyMemoryDevice]
@[simp] theorem execGetPartitionInfo_answers (p : Path) (s : State) :
    Answers s (execGetPartitionInfo p s) := by simp [execGetPartitionInfo]
@[simp] theorem execSetPartitionInfo_answers (p : Path) (s : State) :
    Answers s (execSetPartitionInfo p s) := by simp [execSetPartitionInfo]
@[simp] theorem execGetDeviceState_answers (p : Path) (s : State) :
    Answers s (execGetDeviceState p s) := by simp [execGetDeviceState]
@[simp] theorem execGetEventRecords_answers (p : Path) (log : Fin 5) (s : State) :
    Answers s (execGetEventRecords p log s) := by simp [execGetEventRecords]
@[simp] theorem execClearEventRecords_answers (p : Path) (log : Fin 5) (all : Bool) (handles : List (BitVec 16)) (s : State) :
    Answers s (execClearEventRecords p log all handles s) := by simp [execClearEventRecords]
@[simp] theorem execGetEventInterruptPolicy_answers (p : Path) (s : State) :
    Answers s (execGetEventInterruptPolicy p s) := by simp [execGetEventInterruptPolicy]
@[simp] theorem execSetEventInterruptPolicy_answers (p : Path) (bytes : List Byte) (s : State) :
    Answers s (execSetEventInterruptPolicy p bytes s) := by simp [execSetEventInterruptPolicy]
@[simp] theorem execGetFwInfo_answers (p : Path) (s : State) : Answers s (execGetFwInfo p s) := by simp [execGetFwInfo]

@[simp] theorem State.openSlot_fixed (s : State) (slot : Nat) : (s.openSlot slot).fixed = s.fixed := by
  unfold State.openSlot
  split <;> simp

@[simp] theorem State.fillSlot_fixed (s : State) (slot : Nat) (b : List Byte) (key : BitVec 384) (sigOk : Bool) :
    (s.fillSlot slot b key sigOk).2.fixed = s.fixed := by
  unfold State.fillSlot
  split <;> simp

@[simp] theorem State.endTransfer_fixed (s : State) (p : Path) (slot : Nat) (b : List Byte) (key : BitVec 384) (sigOk : Bool) :
    (s.endTransfer p slot b key sigOk).fixed = s.fixed := by simp [State.endTransfer]
@[simp] theorem execTransferFw_answers (p : Path) (action : Fin 5) (slot : Byte) (offset : BitVec 32) (data : List Byte)
    (key : BitVec 384) (sigOk : Bool) (s : State) :
    Answers s (execTransferFw p action slot offset data key sigOk s) := by simp [execTransferFw]
@[simp] theorem execActivateFw_answers (p : Path) (online : Bool) (slot : Byte) (s : State) :
    Answers s (execActivateFw p online slot s) := by simp [execActivateFw]
@[simp] theorem execGetTimestamp_answers (p : Path) (s : State) : Answers s (execGetTimestamp p s) := by simp [execGetTimestamp]
@[simp] theorem execSetTimestamp_answers (p : Path) (ns : BitVec 64) (s : State) :
    Answers s (execSetTimestamp p ns s) := by simp [execSetTimestamp]
@[simp] theorem execGetSupportedLogs_answers (p : Path) (s : State) :
    Answers s (execGetSupportedLogs p s) := by simp [execGetSupportedLogs]
@[simp] theorem execGetLog_answers (p : Path) (uuid : BitVec 128) (offset length : BitVec 32) (s : State) :
    Answers s (execGetLog p uuid offset length s) := by simp [execGetLog]
@[simp] theorem execGetLsa_answers (p : Path) (offset length : BitVec 32) (s : State) :
    Answers s (execGetLsa p offset length s) := by simp [execGetLsa]
@[simp] theorem execSetLsa_answers (p : Path) (offset : BitVec 32) (data : List Byte) (s : State) :
    Answers s (execSetLsa p offset data s) := by simp [execSetLsa]
@[simp] theorem execGetHealthInfo_answers (p : Path) (s : State) :
    Answers s (execGetHealthInfo p s) := by simp [execGetHealthInfo]
@[simp] theorem execGetAlertConfiguration_answers (p : Path) (s : State) :
    Answers s (execGetAlertConfiguration p s) := by simp [execGetAlertConfiguration]
@[simp] theorem execSetAlertConfiguration_answers (p : Path) (bytes : List Byte) (s : State) :
    Answers s (execSetAlertConfiguration p bytes s) := by simp [execSetAlertConfiguration]
@[simp] theorem execGetShutdownState_answers (p : Path) (s : State) :
    Answers s (execGetShutdownState p s) := by simp [execGetShutdownState]
@[simp] theorem execSetShutdownState_answers (p : Path) (v : Byte) (s : State) :
    Answers s (execSetShutdownState p v s) := by simp [execSetShutdownState]
@[simp] theorem execDiscardRange_answers (p : Path) (dpa len : BitVec 64) (s : State) :
    Answers s (execDiscardRange p dpa len s) := by simp [execDiscardRange]
@[simp] theorem execMediaOperationsZero_answers (p : Path) (ranges : List (BitVec 64 × BitVec 64)) (s : State) :
    Answers s (execMediaOperationsZero p ranges s) := by simp [execMediaOperationsZero]
@[simp] theorem execGetPoisonList_answers (p : Path) (dpa lines : BitVec 64) (s : State) :
    Answers s (execGetPoisonList p dpa lines s) := by simp [execGetPoisonList]

@[simp] theorem State.stewardWrite_onSome (s : State) (line : Nat) (data : Line) (poison : Bool) :
    OnSome s (s.stewardWrite line data poison) := by
  unfold State.stewardWrite
  dsimp only
  split
  · simp
  · refine fun t h => ((State.accept_onSome _ _).fixed h).trans ?_
    split <;> simp

@[simp] theorem execInjectPoison_answers (p : Path) (dpa : BitVec 64) (s : State) : Answers s (execInjectPoison p dpa s) := by
  unfold execInjectPoison
  refine (answers_next _ _).2 (State.command_fixed _ _ _ _ _ fun t => ?_)
  dsimp only
  split
  · simp
  · split
    · next h => simpa using (State.stewardWrite_onSome _ _ _ _).fixed h
    · simp

@[simp] theorem execClearPoison_answers (p : Path) (dpa : BitVec 64) (data : Line) (s : State) :
    Answers s (execClearPoison p dpa data s) := by
  unfold execClearPoison
  refine (answers_next _ _).2 (State.command_fixed _ _ _ _ _ fun t => ?_)
  split
  · simp
  · split
    · next h => simpa using (State.stewardWrite_onSome _ _ _ _).fixed h
    · simp

@[simp] theorem execGetScanMediaCapabilities_answers (p : Path) (dpa lines : BitVec 64) (s : State) :
    Answers s (execGetScanMediaCapabilities p dpa lines s) := by simp [execGetScanMediaCapabilities]
@[simp] theorem execScanMedia_answers (p : Path) (dpa lines : BitVec 64) (s : State) :
    Answers s (execScanMedia p dpa lines s) := by simp [execScanMedia]
@[simp] theorem State.settleScans_fixed (s : State) : s.settleScans.fixed = s.fixed := by simp [State.settleScans]
@[simp] theorem execGetScanMediaResults_answers (p : Path) (s : State) :
    Answers s (execGetScanMediaResults p s) := by simp [execGetScanMediaResults]

/-! ### Machine/Extents -/

@[simp] theorem execGetDynamicCapacityConfiguration_answers (p : Path) (first count : Byte) (s : State) :
    Answers s (execGetDynamicCapacityConfiguration p first count s) := by simp [execGetDynamicCapacityConfiguration]
@[simp] theorem execGetDynamicCapacityExtentList_answers (p : Path) (first count : BitVec 32) (s : State) :
    Answers s (execGetDynamicCapacityExtentList p first count s) := by simp [execGetDynamicCapacityExtentList]
@[simp] theorem execAddDynamicCapacityResponse_answers (p : Path) (ranges : List (Nat × Nat)) (s : State) :
    Answers s (execAddDynamicCapacityResponse p ranges s) := by simp [execAddDynamicCapacityResponse]
@[simp] theorem execReleaseDynamicCapacity_answers (p : Path) (ranges : List (Nat × Nat)) (s : State) :
    Answers s (execReleaseDynamicCapacity p ranges s) := by simp [execReleaseDynamicCapacity]
@[simp] theorem execGetDcdInfo_answers (p : Path) (s : State) : Answers s (execGetDcdInfo p s) := by simp [execGetDcdInfo]
@[simp] theorem execGetHostDcRegionConfiguration_answers (p : Path) (host : Fin 32) (first count : Byte) (s : State) :
    Answers s (execGetHostDcRegionConfiguration p host first count s) := by simp [execGetHostDcRegionConfiguration]
@[simp] theorem execSetDcRegionConfiguration_answers (p : Path) (k : Fin 8) (base len : BitVec 32) (s : State) :
    Answers s (execSetDcRegionConfiguration p k base len s) := by simp [execSetDcRegionConfiguration]
@[simp] theorem execGetDcRegionExtentLists_answers (p : Path) (host : Fin 32) (first count : BitVec 32) (s : State) :
    Answers s (execGetDcRegionExtentLists p host first count s) := by simp [execGetDcRegionExtentLists]
@[simp] theorem execInitiateDynamicCapacityAdd_answers (p : Path) (host : Fin 32) (k : Fin 8) (tag : BitVec 128)
    (ranges : List (Nat × Nat)) (s : State) :
    Answers s (execInitiateDynamicCapacityAdd p host k tag ranges s) := by simp [execInitiateDynamicCapacityAdd]
@[simp] theorem execInitiateDynamicCapacityRelease_answers (p : Path) (host : Fin 32) (forced : Bool)
    (ranges : List (Nat × Nat)) (s : State) :
    Answers s (execInitiateDynamicCapacityRelease p host forced ranges s) := by simp [execInitiateDynamicCapacityRelease]

/-! ### Machine/Registers -/

@[simp] theorem State.after_fixed {s : State} {o : Host.Outcome State Fault Refusal} (h : Answers s o) :
    (s.after o).fixed = s.fixed := by
  obtain ⟨t, rfl, ht⟩ := h
  exact ht

@[simp] theorem State.irqClear_fixed (s : State) (path : Path) (p : RPage) (v : W32) :
    (s.irqClear path p v).fixed = s.fixed := by simp [State.irqClear]
@[simp] theorem State.irqForceWrite_fixed (s : State) (path : Path) (p : RPage) (v : W32) :
    (s.irqForceWrite path p v).fixed = s.fixed := by simp [State.irqForceWrite]

@[simp] theorem State.rowWrite_fixed (s : State) (path : Path) (p : RPage) (o : Nat) (v : W32) :
    (s.rowWrite path p o v).fixed = s.fixed := by
  unfold State.rowWrite
  split <;> simp

@[simp] theorem State.plainWrite_fixed (s : State) (path : Path) (p : RPage) (o : Nat) (v : W32) :
    (s.plainWrite path p o v).fixed = s.fixed := by simp [State.plainWrite]
@[simp] theorem State.ringWrite_fixed (s : State) (path : Path) (i o : Nat) (v : W32) :
    (s.ringWrite path i o v).fixed = s.fixed := by simp [State.ringWrite]

@[simp] theorem State.apertureWrite_fixed (s : State) (path : Path) (q o : Nat) (v : W32) :
    (s.apertureWrite path q o v).fixed = s.fixed := by
  unfold State.apertureWrite
  split <;> simp

@[simp] theorem State.ctxWrite_fixed (s : State) (path : Path) (i : Fin 256) (o : Nat) (v : W32) :
    (s.ctxWrite path i o v).fixed = s.fixed := by simp [State.ctxWrite]
@[simp] theorem State.yvWrite_fixed (s : State) (path : Path) (v : W32) :
    (s.yvWrite path v).fixed = s.fixed := by simp [State.yvWrite]

@[simp] theorem State.testWrite_fixed (s : State) (path : Path) (v : W32) : (s.testWrite path v).fixed = s.fixed := by
  unfold State.testWrite
  split <;> simp

@[simp] theorem State.special_onSome (s : State) (path : Path) (p : RPage) (o : Nat) (v : W32) :
    OnSome s (s.special path p o v) := by
  unfold State.special
  repeat' split
  all_goals simp

@[simp] theorem State.writeWord_fixed (s : State) (path : Path) (off : Nat) (v : W32) :
    (s.writeWord path off v).fixed = s.fixed := by
  unfold State.writeWord
  split
  · rfl
  · next p o _ =>
    split_ifs
    · simp
    · simp
    · cases h : s.special path p o v with
      | none => simp
      | some t => exact (s.special_onSome path p o v).fixed h

@[simp] theorem State.accessWrite_fixed (s : State) (path : Path) (off : Nat) (v : W32) :
    (s.accessWrite path off v).fixed = s.fixed := by simp [State.accessWrite]
@[simp] theorem State.malformed_fixed (s : State) (path : Path) (off : Nat) :
    (s.malformed path off).fixed = s.fixed := by simp [State.malformed]

@[simp] theorem execRegisterWrite_answers (path : Path) (off : Fin 0x4000000) (words : List WordIn) (s : State) :
    Answers s (execRegisterWrite path off words s) := by
  unfold execRegisterWrite
  repeat' split
  all_goals simp

@[simp] theorem State.readWord_fixed (s : State) (path : Path) (off : Nat) : (s.readWord path off).2.fixed = s.fixed := by
  unfold State.readWord
  split <;> simp

@[simp] theorem State.readWords_fixed (s : State) (path : Path) (off n : Nat) :
    (s.readWords path off n).2.fixed = s.fixed := by simp [State.readWords]

@[simp] theorem execLoRegisterRead_answers (path : Path) (off : Fin 0x4000000) (words : Fin 1025) (s : State) :
    Answers s (execLoRegisterRead path off words s) := by
  unfold execLoRegisterRead
  repeat' split
  all_goals simp

@[simp] theorem execIrqStatClear_answers (path : Path) (off : Fin 0x4000000) (v : BitVec 32) (s : State) :
    Answers s (execIrqStatClear path off v s) := by
  unfold execIrqStatClear
  split <;> simp

@[simp] theorem execIrqForce_answers (path : Path) (off : Fin 0x4000000) (v : BitVec 32) (s : State) :
    Answers s (execIrqForce path off v s) := by
  unfold execIrqForce
  split <;> simp

@[simp] theorem State.vendor_fixed (s : State) (cmd off n : Nat) (body : State → State) (h : ∀ t, (body t).fixed = t.fixed) :
    (s.vendor cmd off n body).fixed = s.fixed := by simp [State.vendor, h]
@[simp] theorem execMctpRead_answers (off : BitVec 32) (count : Byte) (s : State) :
    Answers s (execMctpRead off count s) := by simp [execMctpRead]
@[simp] theorem execMctpWrite_answers (off : BitVec 32) (words : List (BitVec 32)) (s : State) :
    Answers s (execMctpWrite off words s) := by simp [execMctpWrite]
@[simp] theorem State.settleLinkWrites_fixed (s : State) (n : Nat) :
    (s.settleLinkWrites n).fixed = s.fixed := by simp [State.settleLinkWrites]
@[simp] theorem State.settleWrites_fixed (s : State) : s.settleWrites.fixed = s.fixed := by simp [State.settleWrites]

@[simp] theorem execHeldWriteDelivery_answers (n : Fin 32) (s : State) : Answers s (execHeldWriteDelivery n s) := by
  unfold execHeldWriteDelivery
  repeat' split
  all_goals simp

/-! ### Machine/Tick -/

@[simp] theorem State.settleAll_fixed (s : State) : s.settleAll.fixed = s.fixed := by simp [State.settleAll]
@[simp] theorem State.countTime_fixed (s : State) : s.countTime.fixed = s.fixed := by simp [State.countTime]

/-! ### What every step keeps -/

/-- The fuses as the spec lets a step change them, and the queue as it was. -/
structure Kept (s t : State) : Prop where
  fuses : FusesKept s t
  pending : t.pending = s.pending

theorem Kept.of_fixed {s t : State} (h : t.fixed = s.fixed) : Kept s t := by
  obtain ⟨hf, hp⟩ := Prod.mk.inj h
  exact ⟨⟨by rw [hf], by rw [hf], by rw [hf], by rw [hf], by rw [hf]⟩, hp⟩

theorem Kept.trans {s t u : State} (h : Kept s t) (h' : Kept t u) : Kept s u where
  fuses := {
    grade := h'.fuses.grade.trans h.fuses.grade
    serial := h'.fuses.serial.trans h.fuses.serial
    stepping := h'.fuses.stepping.trans h.fuses.stepping
    firmware := h.fuses.firmware.trans h'.fuses.firmware
    recipe := h.fuses.recipe.trans h'.fuses.recipe }
  pending := h'.pending.trans h.pending

/-- An operation that leaves what is fixed, then one that keeps it. -/
theorem Kept.after_fixed {s t u : State} (h : t.fixed = s.fixed) (h' : Kept t u) : Kept s u := (Kept.of_fixed h).trans h'

/-- An operation that keeps the fuses, then one that leaves what is fixed. -/
theorem Kept.then_fixed {s t u : State} (h : Kept s t) (h' : u.fixed = t.fixed) : Kept s u := h.trans (.of_fixed h')

/-! ### Recipes: the minimum security version of recipes may rise (16 R464) -/

theorem kept_recipeMin (s : State) (b : Boot) (ver : Nat) :
    Kept s { s with boot := b, fuses := { s.fuses with recipeMin := max s.fuses.recipeMin ver } } :=
  ⟨⟨rfl, rfl, rfl, le_rfl, le_max_left _ _⟩, rfl⟩

theorem State.applyRecipe_kept (s : State) (r : Recipe) (copy : Nat) : Kept s (s.applyRecipe r copy) := by
  unfold State.applyRecipe
  extract_lets es t u stands _ _ v en
  have hu : u.fixed = s.fixed := by simp [u, t]
  have hv : Kept u v := kept_recipeMin u _ _
  exact (Kept.after_fixed hu hv).then_fixed (by simp)

theorem State.activeRecipe_kept (s : State) : Kept s s.activeRecipe := by
  unfold State.activeRecipe
  dsimp only
  split
  · split
    · exact s.applyRecipe_kept _ _
    · exact .of_fixed rfl
  · exact .of_fixed (s.noRecipe_fixed _ _)

theorem State.recipeStep_kept (s : State) : Kept s s.recipeStep := by
  unfold State.recipeStep
  dsimp only
  split
  · exact s.activeRecipe_kept
  · split
    · exact .after_fixed (s.writeBoot_fixed _) (State.applyRecipe_kept _ _ _)
    · exact .of_fixed (by simp)
    · split
      · exact .after_fixed (by simp) (State.activeRecipe_kept _)
      · exact .of_fixed (by simp)

theorem State.recipePart_kept (s : State) : Kept s s.recipePart := by
  have h : Kept s s.learnDies.recipeStep :=
    .after_fixed s.learnDies_fixed (State.recipeStep_kept _)
  unfold State.recipePart
  dsimp only
  split <;> exact h.then_fixed (by simp)

/-! ### The idle step -/

theorem State.coldTick_kept (s : State) : Kept s s.coldTick := by
  unfold State.coldTick
  split
  case h_4 =>
    split
    · exact .after_fixed (s.toStep_fixed _) (State.recipePart_kept _)
    · exact .of_fixed rfl
  case h_8 => split_ifs <;> exact .of_fixed (by simp)
  all_goals exact .of_fixed (by simp)

theorem State.warmTick_kept (s : State) : Kept s s.warmTick := by
  unfold State.warmTick
  split
  case h_2 =>
    have h := Kept.after_fixed (s.toStep_fixed 5) (State.recipePart_kept _)
    exact h.then_fixed (by simp)
  all_goals exact .of_fixed (by simp)

theorem State.startTick_kept (s : State) : Kept s s.startTick := by
  unfold State.startTick
  split
  · exact .of_fixed rfl
  · refine Kept.then_fixed ?_ (State.account_fixed _)
    split
    · exact s.warmTick_kept
    · exact s.coldTick_kept

theorem State.bootTick_kept (s : State) : Kept s s.bootTick := by
  unfold State.bootTick
  split
  · exact s.startTick_kept
  all_goals exact .of_fixed (by simp)

theorem State.tick_kept (s : State) : Kept s s.tick := by
  unfold State.tick
  refine Kept.then_fixed (Kept.after_fixed ?_ (State.bootTick_kept _)) (State.settleAll_fixed _)
  simp

/-! ### Commands -/

/-- The one command that changes the fuses: a confirmed image raises the minimum security version of firmware (16 R459). -/
theorem execFwConfirmation_kept (s : State) : ∃ t, execFwConfirmation s = .next t ∧ Kept s t := by
  unfold execFwConfirmation
  dsimp only
  split
  · refine ⟨_, rfl, .after_fixed (t := (s.reach (s.boot.boilAt + 60 * Config.sec)).writeBoot _) (by simp)
      ⟨⟨rfl, rfl, rfl, le_max_left _ _, le_rfl⟩, rfl⟩⟩
  · exact ⟨s, rfl, .of_fixed rfl⟩

theorem exec_answers (c : Instr) (s : State) (hc : c ≠ .fwConfirmation) : Answers s (exec c s) := by
  cases c
  case fwConfirmation => exact absurd rfl hc
  all_goals
    dsimp only [exec]
    simp

/-- Every command is answered with a next state, which keeps the fuses and the queue. -/
theorem exec_kept (c : Instr) (s : State) : ∃ t, exec c s = .next t ∧ Kept s t := by
  by_cases hc : c = .fwConfirmation
  · subst hc
    exact execFwConfirmation_kept s
  · obtain ⟨t, ht, hf⟩ := exec_answers c s hc
    exact ⟨t, ht, .of_fixed hf⟩

/-- Every step keeps the fuses (00 R6, 16 R459, R464). -/
theorem step_fusesKept {s t : State} (h : step s = .next t) : FusesKept s t := by
  unfold step at h
  split at h
  · cases h
    exact s.tick_kept.fuses
  · next c rest _ =>
    obtain ⟨u, hu, hk⟩ := exec_kept c { s with pending := rest }
    cases hu.symm.trans h
    exact { hk.fuses with }

/-! ### The speed grade in the capability register (00 R6, 19 R519, R529) -/

/-- The global page lies in the housekeeping domain: it is read live in Simmer too. -/
theorem regRead_glbCaps (s : State) (path : Path) (hv : s.view path .glb = .full) :
    s.regRead path 8 = BitVec.ofNat 32 (s.capsWord .glb) := by
  have hl : locate 8 = some (.glb, 8) := rfl
  simp [State.regRead, hl, hv, State.viewed, State.regValue, State.header, State.liveInSimmer, RPage.housekeeping]

theorem readSide_glbCaps (s : State) (path : Path) : s.readSide path 8 = s := by
  have hl : locate 8 = some (.glb, 8) := rfl
  simp [State.readSide, hl, RPage.latches]

theorem readWord_glbCaps (s : State) (path : Path) (hv : s.view path .glb = .full) :
    s.readWord path 8 = (some (BitVec.ofNat 32 (s.capsWord .glb)), s) := by
  have hl : locate 8 = some (.glb, 8) := rfl
  simp [State.readWord, hl, regRead_glbCaps s path hv, readSide_glbCaps]

/-- A read of the capability register of the global page is answered with it and changes nothing. -/
theorem execLoRegisterRead_glbCaps (s : State) (path : Path) (hh : s.heard path = true) (hv : s.view path .glb = .full) :
    execLoRegisterRead path 0x8 1 s = .next (sent s (.regRead path [BitVec.ofNat 32 (s.capsWord .glb)])) := by
  have ho : wordOffset 8 = 8 := rfl
  simp [execLoRegisterRead, hh, ho, State.readWords, readWord_glbCaps s path hv, sent, State.emit]

/-- The bits [1:0] of the capability register are the code of the speed grade. -/
theorem capsWord_grade (s : State) :
    (BitVec.ofNat 32 (s.capsWord .glb)).extractLsb' 0 2 = BitVec.ofNat 2 (Grade.code s.fuses.grade) := by
  apply BitVec.eq_of_toNat_eq
  cases h : s.fuses.grade <;> simp [State.capsWord, put, Grade.code, h]

end Sys2Proof.Machine

namespace Sys2Proof.Proofs

open Sys2Proof Sys2Proof.Machine Sys2Proof.Safety

/-- Settles O23: the read gives the fused grade's code, and every step keeps the fuses. -/
theorem speedGradeIsFused : Obligations.SpeedGradeIsFused := by
  unfold Obligations.SpeedGradeIsFused
  refine fun s => ⟨fun path hh hv => ⟨_, execLoRegisterRead_glbCaps s path hh hv, ?_⟩, fun t h => (step_fusesKept h).grade⟩
  rw [capsWord_grade]
  cases s.fuses.grade <;> decide

end Sys2Proof.Proofs
end

section
/-!
SUPPORT. CXL.mem requests that a link does not decode (02_host_ports.md R51, R77). What such a request leaves behind is said once,
by `OutOfRange`: memory, map, media and ports as they were, the port's capture words loaded, one event on the Event rail.
Counters, free values and messages leave that as it is, so the answers of a read and of a write only add to it.
-/

namespace Sys2Proof.Machine

open Sys2Proof Sys2Proof.Safety Sys2Proof.Laws

/-! ### What counts and interrupts leave on the rails -/

@[simp] theorem State.sendMsix_rails (s : State) (p : RPage) : (s.sendMsix p).rails = s.rails := by
  unfold State.sendMsix
  dsimp only
  split <;> rfl

@[simp] theorem State.raise_rails (s : State) (p : RPage) (i : Nat) : (s.raise p i).rails = s.rails := by
  unfold State.raise
  dsimp only
  split
  · exact State.sendMsix_rails _ p
  · rfl

@[simp] theorem State.bump_rails (k fuel n : Nat) (s : State) : (s.bump k fuel n).rails = s.rails := by
  induction fuel generalizing n s with
  | zero => rfl
  | succ fuel ih => simp [State.bump, apply_ite State.rails, ih]

@[simp] theorem State.tally_rails (s : State) (e : TEv) (k : Nat) : (s.tally e k).rails = s.rails :=
  foldl_keeps State.rails (fun t n => by simp [apply_ite State.rails]) _ s

/-! ### Registers read back -/

@[simp] theorem State.getLive_setLive_same (s : State) (p : RPage) (o : Nat) (v : W32) : (s.setLive p o v).getLive p o = v := by
  rw [State.getLive_setLive, if_pos rfl, ite_eq_right_iff]
  exact Eq.symm

theorem State.getLive_setLive_of_ne (s : State) (p : RPage) {o u : Nat} (v : W32) (h : u ≠ o) :
    (s.setLive p o v).getLive p u = s.getLive p u := by
  rw [State.getLive_setLive, if_neg (by omega)]

@[simp] theorem State.record_getLive (s : State) (code p0 p1 p2 p3 : Nat) (p : RPage) (o : Nat) :
    (s.record code p0 p1 p2 p3).getLive p o = s.getLive p o := rfl

/-- What is only noted leaves every register but interrupt status. -/
theorem getLive_of_noted {s t : State} (h : Noted s t) (p : RPage) {o : Nat} (ho : o % 4096 ≠ 0x14) :
    t.getLive p o = s.getLive p o := by
  obtain ⟨tly, live, out, ev, reports, rfl, hl⟩ := h
  have := base_aligned p
  simp only [State.getLive, SMap.getD, hl (p.base + o) (by omega)]

/-! ### An address that a link does not decode -/

/-- `t` is what an out-of-range request of link `n` leaves of `s`, where it matched window `w` and the reason is `why` (R51). -/
structure OutOfRange (s : State) (n : Nat) (hpa : BitVec 64) (w why : Nat) (t : State) : Prop where
  stk : t.stk = s.stk
  siv : t.siv = s.siv
  med : t.med = s.med
  ladles : t.ladles = s.ladles
  ports : t.ports = s.ports
  addrLow : t.getLive (.port (n / 4)) 0x20 = hpa.extractLsb' 0 32
  addrHigh : t.getLive (.port (n / 4)) 0x24 = hpa.extractLsb' 32 32
  linkNo : t.getLive (.port (n / 4)) 0x28 = at32 n 0
  cause : t.getLive (.port (n / 4)) 0x2C = at32 1 0 ||| at32 w 4 ||| at32 why 9
  event : t.rails.event.waiting = s.rails.event.waiting ++
    [⟨0x1002, BitVec.ofNat 64 n, BitVec.ofNat 64 w, BitVec.ofNat 64 hpa.toNat, 0⟩]

theorem State.outOfRange_leaves (s : State) (n : Nat) (hpa : BitVec 64) (w why : Nat) :
    OutOfRange s n hpa w why (s.outOfRange n hpa w why) where
  stk := by simp [State.outOfRange]
  siv := by simp [State.outOfRange]
  med := by simp [State.outOfRange]
  ladles := by simp [State.outOfRange]
  ports := by simp [State.outOfRange]
  addrLow := by simp [State.outOfRange, State.getLive_setLive_of_ne]
  addrHigh := by simp [State.outOfRange, State.getLive_setLive_of_ne]
  linkNo := by simp [State.outOfRange, State.getLive_setLive_of_ne]
  cause := by simp [State.outOfRange]
  event := Rail.waiting_push _ _ _ _

section

variable {s t u : State} {n w why : Nat} {hpa : BitVec 64}

theorem OutOfRange.draw (h : OutOfRange s n hpa w why t) : OutOfRange s n hpa w why t.draw.2 := { h with }

/-- What is noted later stands beside it, as long as the rails stay as they are. -/
theorem OutOfRange.noted (h : OutOfRange s n hpa w why t) (hn : Noted t u) (hr : u.rails = t.rails) :
    OutOfRange s n hpa w why u := by
  have hreg : ∀ o, o % 4096 ≠ 0x14 → u.getLive (.port (n / 4)) o = t.getLive (.port (n / 4)) o :=
    fun o ho => getLive_of_noted hn _ ho
  have hev := h.event
  rw [← hr] at hev
  obtain ⟨tly, live, out, ev, reports, rfl, -⟩ := hn
  exact
    { stk := h.stk, siv := h.siv, med := h.med, ladles := h.ladles, ports := h.ports
      addrLow := (hreg _ (by decide)).trans h.addrLow
      addrHigh := (hreg _ (by decide)).trans h.addrHigh
      linkNo := (hreg _ (by decide)).trans h.linkNo
      cause := (hreg _ (by decide)).trans h.cause
      event := hev }

theorem OutOfRange.emit (h : OutOfRange s n hpa w why t) (o : Output) : OutOfRange s n hpa w why (t.emit o) :=
  h.noted (noted_emit t o) rfl

theorem OutOfRange.tally (h : OutOfRange s n hpa w why t) (e : TEv) (k : Nat) : OutOfRange s n hpa w why (t.tally e k) :=
  h.noted (noted_tally t e k) (State.tally_rails t e k)

end

/-- An out-of-range read is counted, and answered with zeros and poison (R51). -/
theorem State.missRead_leaves (s : State) (n tag : Nat) (hpa : BitVec 64) (w why : Nat) :
    OutOfRange s n hpa w why (s.missRead n tag hpa w why) :=
  (((s.outOfRange_leaves n hpa w why).draw.tally _ _).tally _ _).emit _

theorem State.missRead_answer (s : State) (n tag : Nat) (hpa : BitVec 64) (w why : Nat) :
    ∃ kind, (s.missRead n tag hpa w why).out.getLast? = some (.data n tag 0 true kind) :=
  ⟨_, List.getLast?_concat⟩

/-! ### A link without memory -/

/-- On a link whose Memory_Active is 0 no address decodes: the reason is 4, the window a decoder's of the link or none (R77). -/
theorem State.hostDecode_of_not_memActive {s : State} {n : Nat} (h : (s.link n).memActive = false) (hpa : BitVec 64) :
    ∃ w, s.hostDecode n hpa = .miss w 4 ∧ (w = 0x1F ∨ ∃ d, (w, d) ∈ (s.link n).decoders) := by
  unfold State.hostDecode
  dsimp only
  split
  · exact ⟨0x1F, by simp [h], .inl rfl⟩
  · next k d hk => exact ⟨k, by simp [h], .inr ⟨d, List.mem_of_find?_eq_some hk⟩⟩

/-- A request that is taken and not held back for a commit is served where its link has a credit, which a write needs (03 R91). -/
theorem State.arrive_eq_serve {s : State} {r : MemReq} (ht : Takes s (reqLink r)) (hq : s.quiesced (reqLink r) = false)
    (hc : 0 < (s.link (reqLink r)).credits) : s.arrive r = s.serve r := by
  have hsec : 0 ∉ (s.link (reqLink r)).insecure := by simpa using ht.2
  cases r <;> simp [State.arrive, ht.1, hsec, hq, hc.ne']

theorem State.serve_read_miss {s : State} {n w why : Nat} {hpa : BitVec 64} (h : s.hostDecode n hpa = .miss w why) (tag m : Nat)
    (other : Bool) : s.serve (.read n tag hpa m other) = s.missRead n tag hpa w why := by
  unfold State.serve
  dsimp only
  rw [h]

theorem State.serve_write_miss {s : State} {n w why : Nat} {hpa : BitVec 64} (h : s.hostDecode n hpa = .miss w why) (tag : Nat)
    (data : Line) (mask : Mask) (poison : Bool) (m : Nat) :
    s.serve (.write n tag hpa data mask poison m) = (s.outOfRange n hpa w why).emit (.cmp n tag 0) := by
  unfold State.serve
  dsimp only
  rw [h]

end Sys2Proof.Machine

namespace Sys2Proof.Proofs

open Sys2Proof Sys2Proof.Machine Sys2Proof.Safety

/-- A write of a line, or of a part of one, arrives. -/
def IsMemWrite (c : Instr) (n : Fin 32) (tag : BitVec 16) (hpa : BitVec 64) (m : MetaV) : Prop :=
  (∃ data poison, c = .memWr n tag hpa data poison m) ∨ (∃ data mask poison, c = .memWrPtl n tag hpa data mask poison m)

/-- On a link without memory a read and a write leave what an out-of-range request leaves; the write is completed, the read
answered with zeros and poison (R51, R77). -/
theorem exec_of_not_memActive {s : State} {n : Fin 32} {tag : BitVec 16} {hpa : BitVec 64} {m : MetaV} {c : Instr} {w : Nat}
    (ht : Takes s n.val) (hq : s.quiesced n.val = false) (hc : 0 < (s.link n.val).credits)
    (hw : s.hostDecode n.val hpa = .miss w 4)
    (hcase : c = .memRd n tag hpa m false ∨ (∃ noOp, c = .memRdData n tag hpa noOp) ∨ IsMemWrite c n tag hpa m) :
    ∃ t, exec c s = .next t ∧ OutOfRange s n.val hpa w 4 t ∧
      (IsMemWrite c n tag hpa m ∧ t.out.getLast? = some (.cmp n.val tag.toNat 0) ∨
        ¬ IsMemWrite c n tag hpa m ∧ ∃ kind, t.out.getLast? = some (.data n.val tag.toNat 0 true kind)) := by
  have read (mv : Nat) : s.arrive (.read n.val tag.toNat hpa mv false) = s.missRead n.val tag.toNat hpa w 4 :=
    (State.arrive_eq_serve ht hq hc).trans (State.serve_read_miss hw ..)
  have write (data : Line) (mask : Mask) (poison : Bool) : s.arrive (.write n.val tag.toNat hpa data mask poison (metaNum m)) =
      (s.outOfRange n.val hpa w 4).emit (.cmp n.val tag.toNat 0) :=
    (State.arrive_eq_serve ht hq hc).trans (State.serve_write_miss hw ..)
  rcases hcase with rfl | ⟨noOp, rfl⟩ | hwr
  · exact ⟨_, congrArg Host.Outcome.next (read _), s.missRead_leaves .., .inr ⟨by simp [IsMemWrite], s.missRead_answer ..⟩⟩
  · exact ⟨_, congrArg Host.Outcome.next (read _), s.missRead_leaves .., .inr ⟨by simp [IsMemWrite], s.missRead_answer ..⟩⟩
  · refine ⟨(s.outOfRange n.val hpa w 4).emit (.cmp n.val tag.toNat 0), ?_, (s.outOfRange_leaves ..).emit _,
      .inl ⟨hwr, List.getLast?_concat⟩⟩
    rcases hwr with ⟨data, poison, rfl⟩ | ⟨data, mask, poison, rfl⟩
    · exact congrArg Host.Outcome.next (write data fullMask poison)
    · exact congrArg Host.Outcome.next (write data mask poison)

/-- Settles O17: every address is a miss with reason 4, and `OutOfRange` says what such a request leaves. -/
theorem noMemoryIsOutOfRange : Obligations.NoMemoryIsOutOfRange := by
  unfold Obligations.NoMemoryIsOutOfRange
  intro s n tag hpa m ht hq hm hc c hcase
  obtain ⟨w, hw, hwin⟩ := State.hostDecode_of_not_memActive hm hpa
  obtain ⟨t, hexec, hl, ha⟩ := exec_of_not_memActive ht hq hc hw hcase
  have hlinks (k : Nat) : t.link k = s.link k := by rw [State.link, hl.ports, State.link]
  refine ⟨t, hexec, hl.stk, hl.siv, hl.med, hl.ladles, fun k => by rw [hlinks], hl.addrLow, hl.addrHigh, ?_,
    ⟨w, hl.cause, hwin⟩, ⟨_, hl.event, rfl, rfl⟩, ?_⟩
  · simpa [at32] using hl.linkNo
  · rw [ite_prop_iff_or]
    exact ha

end Sys2Proof.Proofs
end

section
/-!
SUPPORT. What a lookup's reads of the map stacks leave (13_memory_integrity.md R382 to R388, R392), and the lookup that must wait after
them. A read finds the errors of the words it reads: it may note things, change memory integrity's own part of the state, and
lock lines for reconstruction. `ReadsMap` says so once.
-/

namespace Sys2Proof.Machine

open Sys2Proof Sys2Proof.Safety Sys2Proof.Laws

@[simp] theorem mem_insertNew {α : Type} [BEq α] [LawfulBEq α] {xs : List α} {x y : α} :
    y ∈ insertNew xs x ↔ y ∈ xs ∨ y = x := by
  unfold insertNew
  split
  · next h => exact ⟨.inl, fun hy => hy.elim id fun e => e ▸ List.contains_iff_mem.mp h⟩
  · simp

/-- What is noted does not depend on memory integrity's part of the state. -/
theorem noted_withMec {s t : State} (h : Noted s t) (m : Mec) : Noted { s with mec := m } { t with mec := m } := by
  obtain ⟨tly, live, out, ev, reports, rfl, hl⟩ := h
  exact ⟨tly, live, out, ev, reports, rfl, hl⟩

/-- `t` is `s` but for what is noted and for memory integrity's part, where every locked line is still locked. -/
def ReadsMap (s t : State) : Prop := ∃ m : Mec, s.mec.locked ⊆ m.locked ∧ Noted { s with mec := m } t

theorem ReadsMap.refl (s : State) : ReadsMap s s := ⟨s.mec, List.Subset.refl _, noted_refl s⟩

theorem ReadsMap.of_mec (s : State) {m : Mec} (h : s.mec.locked ⊆ m.locked) : ReadsMap s { s with mec := m } :=
  ⟨m, h, noted_refl _⟩

section

variable {s t u : State}

theorem ReadsMap.locked (h : ReadsMap s t) : s.mec.locked ⊆ t.mec.locked := by
  obtain ⟨m, hm, tly, live, out, ev, reports, rfl, -⟩ := h
  exact hm

theorem ReadsMap.loads (h : ReadsMap s t) : t.loads = s.loads := by
  obtain ⟨m, -, tly, live, out, ev, reports, rfl, -⟩ := h
  rfl

theorem ReadsMap.trans (h : ReadsMap s t) (h' : ReadsMap t u) : ReadsMap s u := by
  have hsub := h.locked
  obtain ⟨m, -, hn⟩ := h
  obtain ⟨m', hm', hn'⟩ := h'
  exact ⟨m', List.Subset.trans hsub hm', noted_trans (noted_withMec hn m') hn'⟩

theorem ReadsMap.noted (h : ReadsMap s t) (hn : Noted t u) : ReadsMap s u := h.trans ⟨t.mec, List.Subset.refl _, hn⟩

theorem ReadsMap.tally (h : ReadsMap s t) (e : TEv) (k : Nat) : ReadsMap s (t.tally e k) := h.noted (noted_tally t e k)

theorem ReadsMap.raise (h : ReadsMap s t) (p : RPage) (i : Nat) : ReadsMap s (t.raise p i) := h.noted (noted_raise t p i)

theorem ReadsMap.report (h : ReadsMap s t) (source utype uid : Nat) : ReadsMap s (t.report source utype uid) :=
  h.noted (noted_report t source utype uid)

theorem ReadsMap.noteSat (h : ReadsMap s t) (full : Bool) : ReadsMap s (t.noteSat full) := by
  unfold State.noteSat
  split
  · exact (h.trans (.of_mec t (m := { t.mec with satSeen := true }) (List.Subset.refl _))).raise _ _
  · exact h

end

/-! ### One word read -/

theorem State.updMec_readsMap (s : State) (domain inst : Nat) (f : MecCount → MecCount) : ReadsMap s (s.updMec domain inst f) :=
  .of_mec s (List.Subset.refl _)

theorem State.countCorrected_readsMap (s : State) (domain inst off pos0 pos1 : Nat) :
    ReadsMap s (s.countCorrected domain inst off pos0 pos1) := by
  refine ReadsMap.noteSat ?_ _
  split
  · exact ((s.updMec_readsMap ..).tally ..).raise ..
  · exact (s.updMec_readsMap ..).tally ..

theorem State.countBad_readsMap (s : State) (domain inst off action : Nat) : ReadsMap s (s.countBad domain inst off action) :=
  ((((s.updMec_readsMap ..).tally ..).raise ..).noteSat _).noted (noted_record ..)

theorem State.readPlanted_readsMap (s : State) (off : Nat) : ReadsMap s (s.readPlanted off) := by
  unfold State.readPlanted
  dsimp only
  split
  · exact .refl s
  split
  · exact .refl s
  split
  · exact .refl s
  · exact (s.countCorrected_readsMap ..).report ..
  · exact ((s.countBad_readsMap ..).report ..).trans
      (.of_mec _ fun _ hx => mem_insertNew.mpr (.inl hx))

/-- A word that does not decode locks its line (13 R388). -/
theorem State.readPlanted_locks {s : State} {off : Nat} {w : BitVec 78} (hc : s.cached off = false)
    (hw : s.mec.words.find (plantKey 8 (off / 4096 % 2) off false) = some w) (hb : bchDecode w = .bad) :
    off / 64 ∈ (s.readPlanted off).mec.locked := by
  simp [State.readPlanted, hc, hw, hb]

/-! ### The entries of a slice -/

/-- The reads of a lookup: the loaf entry's word, then nothing or the slice entry's. -/
theorem State.readEntries_after_loaf (s : State) (slice : Nat) :
    ReadsMap (s.readPlanted (loafOff (slice / 256))) (s.readEntries slice) := by
  unfold State.readEntries
  dsimp only
  split
  · exact State.readPlanted_readsMap ..
  · exact .refl _

theorem State.readEntries_readsMap (s : State) (slice : Nat) : ReadsMap s (s.readEntries slice) :=
  (s.readPlanted_readsMap _).trans (s.readEntries_after_loaf slice)

theorem State.lockedUnit_of_loafLine {s : State} {slice : Nat} (h : loafOff (slice / 256) / 64 ∈ s.mec.locked) :
    s.lockedUnit slice = true := by
  simp [State.lockedUnit, h]

/-- `slice`'s loaf entry stands in a word that does not decode, and the entry cache does not hold its line. -/
structure LoafWordLost (s : State) (slice : Nat) (w : BitVec 78) : Prop where
  uncached : s.cached (loafOff (slice / 256)) = false
  stored : s.mec.words.find (plantKey 8 (loafOff (slice / 256) / 4096 % 2) (loafOff (slice / 256)) false) = some w
  bad : bchDecode w = .bad

theorem LoafWordLost.lockedUnit_readEntries {s : State} {slice : Nat} {w : BitVec 78} (h : LoafWordLost s slice w) :
    (s.readEntries slice).lockedUnit slice = true :=
  State.lockedUnit_of_loafLine ((s.readEntries_after_loaf slice).locked (State.readPlanted_locks h.uncached h.stored h.bad))

/-! ### TRANSLATE_LOOKUP -/

theorem State.readFor_loads (s : State) (q : TReq) : (s.readFor q).loads = s.loads := by
  cases q with
  | load id =>
    simp only [State.readFor]
    split
    · exact (s.readEntries_readsMap _).loads
    · rfl
  | home | whisk | page | switch | upkeep => exact (s.readEntries_readsMap _).loads

theorem LoafWordLost.lookupLocked_readFor {s : State} {id : Nat} {l : Load} {w : BitVec 78} (h : LoafWordLost s (l.line / 4) w)
    (hl : s.loads.find id = some l) : (s.readFor (.load id)).lookupLocked (.load id) = true := by
  have hread : s.readFor (.load id) = s.readEntries (l.line / 4) := by simp [State.readFor, hl]
  rw [hread]
  simp [State.lookupLocked, (s.readEntries_readsMap _).loads, hl, h.lockedUnit_readEntries]

/-- The state in which the sieve reads for a lookup: the lookup has left Translate rail `i`, which is `r` now. -/
def State.withTranslate (s : State) (i : Fin 4) (r : Rail TReq) : State :=
  { s with rails := { s.rails with translate := s.rails.translate.set .empty i.val r } }

theorem execTranslateLookup_of_take {s : State} {i : Fin 4} {q : TReq} {r : Rail TReq} (hc : Clocked s)
    (hr : (s.rails.translate.getD i.val .empty).take 512 = some (q, r)) :
    exec (.translateLookup i) s =
      let t := (s.withTranslate i r).readFor q
      .next (if t.lookupLocked q then t.parkLookup q else t.resolveLookup q) := by
  unfold Clocked at hc
  change execTranslateLookup i s = _
  unfold execTranslateLookup
  simp only [hc, hr, Bool.false_eq_true, if_false]
  rfl

/-- A load whose lookup finds its loaf entry's word lost waits for the reconstruction of the line: the load is still in
progress after TRANSLATE_LOOKUP, whether or not the line was locked before (13 R388). -/
theorem execTranslateLookup_waits {s : State} {i : Fin 4} {id : Nat} {l : Load} {r : Rail TReq} {w : BitVec 78} (hc : Clocked s)
    (hr : (s.rails.translate.getD i.val .empty).take 512 = some (.load id, r)) (hl : s.loads.find id = some l)
    (hw : LoafWordLost s (l.line / 4) w) : ∃ t, exec (.translateLookup i) s = .next t ∧ t.loads.find id = some l := by
  have hw' : LoafWordLost (s.withTranslate i r) (l.line / 4) w := ⟨hw.uncached, hw.stored, hw.bad⟩
  have hl' : (s.withTranslate i r).loads.find id = some l := hl
  refine ⟨((s.withTranslate i r).readFor (.load id)).parkLookup (.load id), ?_, ?_⟩
  · rw [execTranslateLookup_of_take hc hr]
    exact congrArg _ (if_pos (hw'.lookupLocked_readFor hl'))
  · rwa [← State.readFor_loads] at hl'

end Sys2Proof.Machine

namespace Sys2Proof.Proofs

open Sys2Proof Sys2Proof.Machine Sys2Proof.Safety

/-- A load of line 0 that waits for its translation. -/
def loadOfLine0 : Load := ⟨0, 0, 0, 0, 0, .priv, 3, .translate, 0, none, 3⟩

/-- An empty device with that load's lookup on Translate rail 0. The stored word of loaf entry 0 has three wrong bits, more than the word
code corrects, and nothing has read it yet, so no line is locked. -/
def lookupOfLostWord : State :=
  { State.reset with
    loads := [(0, loadOfLine0)]
    rails := { State.reset.rails with translate := [(0, Rail.empty.push 512 (.load 0) 7)] }
    mec := { State.reset.mec with words := [(plantKey 8 0 (loafOff 0) false, 7)] } }

theorem lookupOfLostWord_loafWordLost : LoafWordLost lookupOfLostWord 0 7 where
  uncached := by decide
  stored := by decide
  bad := by decide +kernel

/-- Refutes O21: the last part wants every load answered whose lines are not locked when its lookup is taken, but that lookup's own read
may be the first to find an uncorrectable word of the map stacks. It locks the line then, and the load waits for its
reconstruction (13 R385, R388). The premise that the entries' words decode is missing. -/
theorem not_lookupFollowsTheTables : ¬ Obligations.LookupFollowsTheTables := by
  unfold Obligations.LookupFollowsTheTables
  intro h
  have hc : Clocked lookupOfLostWord := by unfold Clocked; decide
  obtain ⟨r, hr⟩ : ∃ r, (lookupOfLostWord.rails.translate.getD (0 : Fin 4).val .empty).take 512 = some (.load 0, r) := ⟨_, rfl⟩
  have hl : lookupOfLostWord.loads.find 0 = some loadOfLine0 := rfl
  have hzeros : lookupOfLostWord.lookup 0 0 = .zeros := by decide
  obtain ⟨-, -, -, answered⟩ := h lookupOfLostWord 0 0 (by decide)
  obtain ⟨t, ht, hgone, -⟩ := answered 0 r 0 loadOfLine0 hc hr hl (by decide) rfl rfl (by decide) (by simp [hzeros])
  obtain ⟨u, hu, hwaits⟩ := execTranslateLookup_waits hc hr hl lookupOfLostWord_loafWordLost
  obtain rfl : t = u := by simpa using ht.symm.trans hu
  simp [hgone] at hwaits

end Sys2Proof.Proofs
end

section
/-!
SUPPORT. The leases of hooks (09_ordering.md R283, R285, R287, R291). Set Hook Lease is a fold over the hooks of its range: `State.setLeases`
names it, and says what it makes of each hook. A renewal and a grant are written out for the hook that they act on: both take
`State.leaseOf` of it.
-/

namespace Sys2Proof.Machine

open Sys2Proof Sys2Proof.Safety Sys2Proof.Laws

/-! ### What a mailbox command and a register write run -/

theorem State.command_of_serves {s : State} {p : Path} {a : Access'} (h : Serves s p a) (opcode : Nat) (body : State → State) :
    s.command p opcode a body = body s := by
  obtain ⟨hup, hin⟩ := h
  simp [State.command, hup, hin]

/-- A register write that is heard, waits behind no other of its link and is for no dead target takes effect at once (R277). -/
theorem State.portWrite_of_clear {s : State} {path : Path} {off o : Nat} {p : RPage} (hh : s.heard path = true)
    (hc : Clear s path) (hl : locate off = some (p, o)) (hd : s.deadPage p = false) (data : W32) (body : State → State) :
    s.portWrite path off data body = body s := by
  cases path with
  | mctp => simp [State.portWrite, hh, hl, hd]
  | link n => simp [State.portWrite, hh, hl, hd, hc n rfl]

theorem hook_of_noted {s t : State} (h : Noted s t) (k : Nat) : t.hook k = s.hook k := by
  obtain ⟨tly, live, out, ev, reports, rfl, -⟩ := h
  rfl

theorem heard_of_fenceAdmits {s : State} {n : Nat} {hn : n < 32} {read : Bool} (h : s.fenceAdmits n hn read = true) :
    s.heard (.link ⟨n, hn⟩) = true := by
  rw [State.fenceAdmits, Bool.and_eq_true] at h
  exact h.1

/-- The hook registers of a link lie in its port's page. -/
theorem locate_hookAcq (n : Fin 32) (h : Fin 4096) :
    locate (RPage.base (.port (n.val / 4)) + 0x8000 + h.val * 8) = some (.port (n.val / 4), 0x8000 + h.val * 8) := by
  have hbase : RPage.base (.port (n.val / 4)) = 0x100000 + n.val / 4 * 0x10000 := rfl
  have hpage : (RPage.base (.port (n.val / 4)) + 0x8000 + h.val * 8 - 0x100000) / 0x10000 = n.val / 4 := by omega
  have hoff : (RPage.base (.port (n.val / 4)) + 0x8000 + h.val * 8 - 0x100000) % 0x10000 = 0x8000 + h.val * 8 := by omega
  rw [locate, if_neg (by omega), if_neg (by omega), if_neg (by omega), if_pos (by omega), hpage, hoff]

/-! ### Set Hook Lease -/

/-- The arguments that Set Hook Lease admits (R291). -/
def LeaseArgs (first count lease : Nat) : Prop :=
  first < 4096 ∧ 1 ≤ count ∧ first + count ≤ 4096 ∧ (lease = 0 ∨ (10 ≤ lease ∧ lease ≤ 4194303))

/-- The state after the hooks of a range are given a lease. -/
def State.setLeases (s : State) (first count lease : Nat) : State :=
  (List.range count).foldl (fun t i => t.setHook (first + i) { t.hook (first + i) with set := lease }) s

theorem State.setLeases_succ (s : State) (first count lease : Nat) :
    s.setLeases first (count + 1) lease = (s.setLeases first count lease).setHook (first + count)
      { (s.setLeases first count lease).hook (first + count) with set := lease } := by
  simp [State.setLeases, List.range_succ]

theorem State.setLeases_eq (s : State) (first count lease : Nat) :
    s.setLeases first count lease = { s with hooks := (s.setLeases first count lease).hooks } := by
  induction count with
  | zero => rfl
  | succ count ih =>
    rw [State.setLeases_succ]
    generalize s.setLeases first count lease = t at ih ⊢
    rw [ih]
    rfl

theorem State.hook_setLeases (s : State) (first count lease h : Nat) :
    (s.setLeases first count lease).hook h =
      if first ≤ h ∧ h < first + count then { s.hook h with set := lease } else s.hook h := by
  induction count with
  | zero => exact (if_neg (by omega)).symm
  | succ count ih =>
    rw [State.setLeases_succ, State.hook_setHook]
    by_cases hlast : h = first + count
    · subst hlast
      rw [if_pos rfl, ih, if_neg (by omega), if_pos (by omega)]
    · have hrange : (first ≤ h ∧ h < first + (count + 1)) ↔ (first ≤ h ∧ h < first + count) := by omega
      rw [if_neg hlast, ih]
      simp only [hrange]

theorem execSetHookLease_of_args {s : State} {p : Path} {first count lease : Nat} (hs : Serves s p ownerOnly)
    (hv : LeaseArgs first count lease) :
    execSetHookLease p first count lease s = .next (answered (s.setLeases first count lease) p 0xC050 0 []) := by
  obtain ⟨hfirst, hcount, hend, hlease⟩ := hv
  rw [execSetHookLease, State.command_of_serves hs, if_neg (by omega)]
  rfl

theorem execSetHookLease_of_not_args {s : State} {p : Path} {first count lease : Nat} (hs : Serves s p ownerOnly)
    (hv : ¬ LeaseArgs first count lease) :
    execSetHookLease p first count lease s = .next (answered s p 0xC050 2 []) := by
  unfold LeaseArgs at hv
  rw [execSetHookLease, State.command_of_serves hs, if_pos (by omega)]
  rfl

/-! ### Renewals and grants -/

/-- A renewal by the holder restarts the lease (R285). -/
theorem execHookRenew_of_acts {s : State} {n : Fin 32} {h : Fin 4096} {serial : BitVec 16}
    (hf : s.fenceAdmits n.val n.isLt false = true) (hb : (s.link n.val).blocked = []) (hw : s.hookWritable h.val n.val = true)
    (ha : s.hookActs h.val n.val serial = true) :
    execHookRenew n h serial s =
      .next (s.setHook h.val { s.hook h.val with since := s.now, lease := s.leaseOf (s.hook h.val) }) := by
  have hclear : Clear s (.link n) := by
    rintro m ⟨⟩
    exact hb
  rw [execHookRenew, State.portWrite_of_clear (heard_of_fenceAdmits hf) hclear (locate_hookAcq n h) rfl]
  simp [hf, hw, ha]

/-- A read of a free hook's acquire register grants it with the lease that holds for it (R283, R287). -/
theorem execHookAcquire_of_free {s : State} {n : Fin 32} {h : Fin 4096} (hf : s.fenceAdmits n.val n.isLt true = true)
    (ho : s.hookOpen h.val n.val = true) (hk : (s.hook h.val).state = 0 ∨ (s.hook h.val).state = 2) :
    ∃ t, execHookAcquire n h s = .next t ∧ t.hook h.val = { s.hook h.val with
      state := 1, owner := s.group n.val, serial := (s.hook h.val).serial + 1, since := s.now
      lease := s.leaseOf (s.hook h.val) } := by
  rw [execHookAcquire, if_neg (by simp [hf])]
  dsimp only
  rw [if_neg (by simp [ho]), if_pos hk]
  refine ⟨_, rfl, ?_⟩
  rw [hook_of_noted (noted_emit _ _), hook_of_noted (noted_tally _ _ _), State.hook_setHook, if_pos rfl]

end Sys2Proof.Machine

namespace Sys2Proof.Proofs

open Sys2Proof Sys2Proof.Machine Sys2Proof.Safety

/-- Settles O16: the command is the fold over its range, and a renewal and a grant take the lease that `State.leaseOf` reads off the
hook. -/
theorem setHookLease : Obligations.SetHookLease := by
  unfold Obligations.SetHookLease
  intro p s first count lease
  refine ⟨fun hs => ⟨fun hv => ?_, fun hv => execSetHookLease_of_not_args hs hv⟩, ?_⟩
  · refine ⟨(s.setLeases first count lease).hooks, ?_, s.hook_setLeases first count lease⟩
    rw [← State.setLeases_eq]
    exact execSetHookLease_of_args hs hv
  · rintro n h rfl applied
    refine ⟨fun serial hf hb hw ha => ⟨_, execHookRenew_of_acts hf hb hw ha, ?_⟩, fun hf ho hfree => ?_⟩
    · rw [State.hook_setHook, if_pos rfl]
      rfl
    · obtain ⟨t, hexec, ht⟩ := execHookAcquire_of_free hf ho (.inl hfree)
      exact ⟨t, hexec, congrArg Hook.lease ht⟩

end Sys2Proof.Proofs
end

section
/-!
SUPPORT. The fallback of a cold slave (15_power.md R448). `State.fallbackDue` names the moment of its start; the command is said once for
a slave that may start and once for one that is held off.
-/

namespace Sys2Proof.Machine

open Sys2Proof

/-- When a cold slave that hears no further frame starts: 5 s after its last valid frame, and its address times 200 ms more (R448). -/
def State.fallbackDue (s : State) : Nat := s.pwr.frameAt + 5 * Config.sec + s.pwr.yvAddr * (200 * Config.ms)

/-- The fallback moves the clock to its due time and leaves what POWER_ON leaves: the slave may start. -/
theorem execYulvogaFallback_of_cold {s : State} (hs : s.isSlave = true) (hc : s.pwrState = .cold) (hh : s.pwr.offHeld = false) :
    execYulvogaFallback s = .next { s.reach s.fallbackDue with pwr := { s.pwr with powerOn := true } } := by
  have hstarts : s.isSlave ∧ s.pwrState = .cold ∧ ¬ s.pwr.offHeld := ⟨hs, hc, by simp [hh]⟩
  exact if_pos hstarts

/-- While OFF_HELD is set the fallback does not apply. -/
theorem execYulvogaFallback_of_offHeld {s : State} (hh : s.pwr.offHeld = true) : execYulvogaFallback s = .next s :=
  if_neg fun ⟨_, _, hfree⟩ => hfree hh

end Sys2Proof.Machine

namespace Sys2Proof.Proofs

open Sys2Proof Sys2Proof.Machine

/-- Settles O20: a slave that is not held off starts at `State.fallbackDue`; one that is held off stays as it is. -/
theorem slavesFallBack : Obligations.SlavesFallBack := by
  unfold Obligations.SlavesFallBack
  intro s hs hc
  exact ⟨execYulvogaFallback_of_cold hs hc, execYulvogaFallback_of_offHeld⟩

end Sys2Proof.Proofs
end

section
/-!
SUPPORT. The interrupt summary words of the global page (19_register_architecture.md R521, R528). A word of flags has the flag `k` as its
bit `k`; each of the four words is such a word, GLB_IRQ_SUM of the flags that `summaryPages` gives; and a read of a status register of the
global page returns its value and changes nothing.
-/

namespace Sys2Proof.Machine

open Sys2Proof Sys2Proof.Safety

/-! ### Words of flags -/

/-- The number whose bits below `n` are the flags `f`. -/
def flagWord (f : Nat → Bool) (n : Nat) : Nat := ((List.range n).map (fun i => flag (f i) i)).sum

theorem flagWord_succ (f : Nat → Bool) (n : Nat) : flagWord f (n + 1) = flagWord f n + flag (f n) n := by
  simp [flagWord, List.range_succ]

theorem flagWord_lt (f : Nat → Bool) (n : Nat) : flagWord f n < 2 ^ n := by
  induction n with
  | zero => simp [flagWord]
  | succ n ih =>
    have hflag : flag (f n) n ≤ 2 ^ n := by unfold flag; split <;> simp
    rw [flagWord_succ, pow_succ]
    omega

theorem testBit_flagWord (f : Nat → Bool) (n k : Nat) : (flagWord f n).testBit k = (decide (k < n) && f k) := by
  induction n with
  | zero => simp [flagWord]
  | succ n ih =>
    rw [flagWord_succ]
    cases hf : f n with
    | false =>
      have hk : (decide (k < n) && f k) = (decide (k < n + 1) && f k) := by
        by_cases hkn : k = n
        · simp [hkn, hf]
        · simp [show k < n + 1 ↔ k < n by omega]
      simpa [flag, ih] using hk
    | true =>
      have hor : flagWord f n + 2 ^ n = 2 ^ n ||| flagWord f n := by
        simpa [Nat.add_comm] using Nat.two_pow_add_eq_or_of_lt (flagWord_lt f n) 1
      rw [flag, if_pos rfl, hor, Nat.testBit_or, Nat.testBit_two_pow, ih]
      by_cases hkn : n = k
      · simp [← hkn, hf]
      · simp [hkn, show k < n + 1 ↔ k < n by omega]

/-- The flags of a 32-bit register are its bits. -/
theorem getLsbD_flagWord (f : Nat → Bool) {k : Nat} (hk : k < 32) : (BitVec.ofNat 32 (flagWord f 32)).getLsbD k = f k := by
  rw [BitVec.getLsbD_ofNat, testBit_flagWord, decide_eq_true hk, Bool.true_and, Bool.true_and]

theorem flag_mul_two_pow (b : Bool) (i j : Nat) : flag b i * 2 ^ j = flag b (i + j) := by
  cases b <;> simp [flag, pow_add]

/-! ### The pages that the summary bits name (R528) -/

/-- The pages that a bit of GLB_IRQ_SUM names. -/
def summaryPages : Nat → List RPage
  | 16 => [.stk]
  | 17 => [.siv]
  | 18 => [.upk]
  | 19 => [.pas]
  | 20 => [.spr]
  | 21 => [.key]
  | 22 => [.mec]
  | 23 => (List.range 64).map .wsk
  | 24 => (List.range 32).map .brn
  | 25 => [.pwr]
  | 26 => [.thm]
  | 27 => [.tly]
  | 28 => [.spk]
  | 29 => [.flt]
  | 30 => [.stw]
  | 31 => [.glb, .boot]
  | k => if k < 8 then [.port k] else [.ldl (k - 8)]

@[simp] theorem anyPending_singleton (s : State) (p : RPage) : s.anyPending [p] = s.irqPending p := by
  simp [State.anyPending]

theorem anyPending_map_range (s : State) (f : Nat → RPage) (n : Nat) :
    s.anyPending ((List.range n).map f) = true ↔ ∃ i, i < n ∧ s.irqPending (f i) = true := by
  simp [State.anyPending]

theorem pendingBits_eq_flagWord (s : State) (f : Nat → RPage) (n : Nat) :
    s.pendingBits f n = flagWord (fun i => s.irqPending (f i)) n := (rfl)

theorem anyPending_globals (s : State) : s.anyPending [.glb, .boot] = (s.irqPending .glb || s.irqPending .boot) := by
  simp [State.anyPending]

theorem summaryPages_of_port {p : Nat} (hp : p < 8) : summaryPages p = [.port p] ∧ summaryPages (p + 8) = [.ldl p] := by
  interval_cases p <;> exact ⟨rfl, rfl⟩

/-- The bits of GLB_IRQ_SUM that name one page, with their pages (R528). -/
def singleSummaryBits : List (Nat × RPage) :=
  [(16, .stk), (17, .siv), (18, .upk), (19, .pas), (20, .spr), (21, .key), (22, .mec), (25, .pwr), (26, .thm), (27, .tly), (28, .spk),
    (29, .flt), (30, .stw)]

theorem summaryPages_of_single {k : Nat} {p : RPage} (h : (k, p) ∈ singleSummaryBits) : k < 32 ∧ summaryPages k = [p] := by
  have hall : ∀ e ∈ singleSummaryBits, e.1 < 32 ∧ summaryPages e.1 = [e.2] := by decide
  exact hall (k, p) h

/-- Bit `k` of GLB_IRQ_SUM is set while one of the pages it names has a pending interrupt. -/
theorem irqSum_eq_flagWord (s : State) : s.irqSum = flagWord (fun k => s.anyPending (summaryPages k)) 32 := by
  have hldl : s.pendingBits .ldl 8 * 2 ^ 8 = ((List.range 8).map (fun i => flag (s.irqPending (.ldl i)) (i + 8))).sum := by
    simp only [State.pendingBits, ← List.sum_map_mul_right, flag_mul_two_pow]
  rw [State.irqSum, hldl, ← anyPending_globals]
  simp [State.pendingBits, flagWord, List.range_succ, summaryPages, Nat.add_assoc]

theorem getLsbD_irqSum (s : State) {k : Nat} (hk : k < 32) :
    (BitVec.ofNat 32 s.irqSum).getLsbD k = s.anyPending (summaryPages k) := by
  rw [irqSum_eq_flagWord, getLsbD_flagWord _ hk]

theorem getLsbD_pendingBits (s : State) (f : Nat → RPage) {k : Nat} (hk : k < 32) :
    (BitVec.ofNat 32 (s.pendingBits f 32)).getLsbD k = s.irqPending (f k) := by
  rw [pendingBits_eq_flagWord, getLsbD_flagWord _ hk]

/-! ### Reading status registers of the global page (R517, R521, R529) -/

/-- A register of the global page that is not in the header, holds no written value and is no latched half reads as its status, live in
Simmer too. -/
theorem regRead_glb_status {s : State} {path : Path} {o : Nat} (ho : o < 0x10000) (hv : s.view path .glb = .full)
    (hheader : s.header path .glb o = none) (hrow : RPage.row .glb o = none) (hlatch : RPage.latches .glb (o - 4) = false) :
    s.regRead path o = BitVec.ofNat 32 (s.pageRead path .glb o) := by
  have hl : locate o = some (.glb, o) := if_pos ho
  simp [State.regRead, hl, hv, State.viewed, State.regValue, hheader, hrow, hlatch, State.liveInSimmer, RPage.housekeeping]

theorem readSide_glb_of_not_latches {s : State} {path : Path} {o : Nat} (ho : o < 0x10000) (hlatch : RPage.latches .glb o = false) :
    s.readSide path o = s := by
  have hl : locate o = some (.glb, o) := if_pos ho
  simp [State.readSide, hl, hlatch]

theorem readWord_glb {s : State} {path : Path} {o : Nat} (ho : o < 0x10000) :
    s.readWord path o = (some (s.regRead path o), s.readSide path o) := by
  have hl : locate o = some (.glb, o) := if_pos ho
  simp [State.readWord, hl]

/-- A read of one of the four summary words returns its value and changes nothing. -/
theorem readWord_summary {s : State} {path : Path} {o : Nat} (hv : s.view path .glb = .full)
    (ho : o ∈ [0x54, 0x58, 0x5C, 0x60]) : s.readWord path o = (some (BitVec.ofNat 32 (s.glbRead o)), s) := by
  have hlt : o < 0x10000 ∧ o ≠ 0x10 ∧ RPage.row .glb o = none ∧ RPage.latches .glb (o - 4) = false ∧
      RPage.latches .glb o = false := by revert o; decide
  obtain ⟨hwin, hctrl, hrow, hhi, hlo⟩ := hlt
  have hheader : s.header path .glb o = none := by
    simp only [List.mem_cons, List.not_mem_nil, or_false] at ho
    rcases ho with rfl | rfl | rfl | rfl <;> rfl
  rw [readWord_glb hwin, regRead_glb_status hwin hv hheader hrow hhi, readSide_glb_of_not_latches hwin hlo, State.pageRead,
    if_neg hctrl]

/-- A read of the four summary words is answered with them and changes nothing. -/
theorem execLoRegisterRead_summary {s : State} {path : Path} (hh : s.heard path = true) (hv : s.view path .glb = .full) :
    execLoRegisterRead path 0x54 4 s = .next (sent s (.regRead path [BitVec.ofNat 32 s.irqSum,
      BitVec.ofNat 32 (s.pendingBits .brn 32), BitVec.ofNat 32 (s.pendingBits .wsk 32),
      BitVec.ofNat 32 (s.pendingBits (fun c => .wsk (c + 32)) 32)])) := by
  have ho : wordOffset 0x54 = 0x54 := rfl
  simp [execLoRegisterRead, hh, ho, State.readWords, List.range_succ, readWord_summary hv, State.glbRead, sent, State.emit]

end Sys2Proof.Machine

namespace Sys2Proof.Proofs

open Sys2Proof Sys2Proof.Machine Sys2Proof.Safety

/-- Settles O22: the read answers the four words, and bit `k` of GLB_IRQ_SUM is set while a page of `summaryPages k` has a pending
interrupt. -/
theorem summaryBitsFollowThePages : Obligations.SummaryBitsFollowThePages := by
  unfold Obligations.SummaryBitsFollowThePages
  intro s hh hv set
  have hset : set = s.irqPending := rfl
  rw [hset]
  refine ⟨_, _, _, _, execLoRegisterRead_summary hh hv, fun p hp => ?ports, fun k p hkp => ?singles, ?whisks, ?burners, ?globals,
    fun b hb => getLsbD_pendingBits s .brn hb,
    fun c hc => ⟨getLsbD_pendingBits s .wsk hc, getLsbD_pendingBits s (fun i => .wsk (i + 32)) hc⟩⟩
  case ports =>
    obtain ⟨hport, hldl⟩ := summaryPages_of_port hp
    rw [getLsbD_irqSum s (by omega), getLsbD_irqSum s (by omega), hport, hldl, anyPending_singleton, anyPending_singleton]
    exact ⟨rfl, rfl⟩
  case singles =>
    obtain ⟨hk, hpages⟩ := summaryPages_of_single hkp
    rw [getLsbD_irqSum s hk, hpages, anyPending_singleton]
  case whisks => rw [getLsbD_irqSum s (by omega), summaryPages, anyPending_map_range]
  case burners => rw [getLsbD_irqSum s (by omega), summaryPages, anyPending_map_range]
  case globals => rw [getLsbD_irqSum s (by omega), summaryPages, anyPending_globals]

end Sys2Proof.Proofs
end

section
/-!
SUPPORT. The machine: what a step does with the queue in front of it, and what every run keeps of the fuses (00_scope.md R6, 16_bring_up.md
R459, R464).
-/

namespace Sys2Proof.Machine

open Sys2Proof Sys2Proof.Safety

theorem step_of_pending {s : State} {c : Instr} {rest : List Instr} (h : s.pending = c :: rest) :
    step s = exec c { s with pending := rest } := by
  simp [step, h]

theorem step_of_idle {s : State} (h : s.pending = []) : step s = .next s.tick := by
  simp [step, h]

theorem fusesKept_refl (s : State) : FusesKept s s := (Kept.of_fixed (s := s) rfl).fuses

theorem fusesKept_trans {r s t : State} (h : FusesKept r s) (h' : FusesKept s t) : FusesKept r t where
  grade := h'.grade.trans h.grade
  serial := h'.serial.trans h.serial
  stepping := h'.stepping.trans h.stepping
  firmware := h.firmware.trans h'.firmware
  recipe := h.recipe.trans h'.recipe

/-- Whatever is kept of the fuses at the start of a run is kept all along it. -/
theorem fusesKept_of_reaches {r s t : State} (h : FusesKept r s) (hr : Reaches s t) : FusesKept r t := by
  induction hr with
  | here => exact h
  | step _ hstep ih => exact fusesKept_trans ih (step_fusesKept hstep)
  | send c _ ih => exact { ih with }

end Sys2Proof.Machine

namespace Sys2Proof.Proofs

open Sys2Proof Sys2Proof.Machine Sys2Proof.Safety

/-- Settles O1: `step` is a case split on the queue. -/
theorem stepRunsFront : Obligations.StepRunsFront := by
  unfold Obligations.StepRunsFront
  exact fun c rest s h => step_of_pending h

/-- Settles O2: an idle step is `State.tick`, which keeps the fuses and the queue. -/
theorem idleStepRuns : Obligations.IdleStepRuns := by
  unfold Obligations.IdleStepRuns
  exact fun s h => ⟨s.tick, step_of_idle h, s.tick_kept.pending.trans h, s.tick_kept.fuses⟩

/-- Settles O3, from what every command answers. -/
theorem commandsNeverStop : Obligations.CommandsNeverStop := by
  unfold Obligations.CommandsNeverStop
  intro c s
  obtain ⟨t, ht, hk⟩ := exec_kept c s
  exact ⟨t, ht, hk.pending⟩

/-- Settles O4, from what one step keeps. -/
theorem fusesKeptByEveryStep : Obligations.FusesKeptByEveryStep := by
  unfold Obligations.FusesKeptByEveryStep
  exact fun r s t h hstep => fusesKept_trans h (step_fusesKept hstep)

/-- Settles O5, by induction on the run. -/
theorem fusesKeptOnEveryRun : Obligations.FusesKeptOnEveryRun := by
  unfold Obligations.FusesKeptOnEveryRun
  exact fun r s t h hr => fusesKept_of_reaches h hr

/-- Settles O6: reset is one written-out state. -/
theorem stateRightAfterReset : Obligations.StateRightAfterReset := by
  unfold Obligations.StateRightAfterReset
  exact ⟨fusesKept_refl _, rfl, rfl, rfl, fun h => ⟨rfl, rfl⟩, rfl, rfl, fun n => ⟨rfl, rfl⟩⟩

end Sys2Proof.Proofs
end

section
/-!
SUPPORT. Tables, rails, words of messages, lines, sector addresses and chunks: what reading one back gives.
-/

namespace Sys2Proof.Machine

open Sys2Proof Sys2Proof.Laws

/-! ### Sparse tables -/

theorem SMap.wfD_cons {α : Type} [DecidableEq α] {e : Nat × α} {m : SMap α} {d : α} :
    SMap.wfD (e :: m) d = true ↔ m.below e.1 = true ∧ e.2 ≠ d ∧ m.wfD d = true := by
  simp [SMap.wfD, SMap.wf]
  tauto

theorem SMap.getD_cons {α : Type} (e : Nat × α) (m : SMap α) (k : Nat) (d : α) :
    SMap.getD (e :: m) k d = if e.1 = k then e.2 else m.getD k d := by
  rw [SMap.getD, SMap.find]
  split <;> rfl

theorem SMap.getD_of_below {α : Type} [DecidableEq α] {m : SMap α} {d : α} {k : Nat} (hw : m.wfD d = true) (h : m.below k = true) :
    m.getD k d = d := by
  rw [SMap.wfD, Bool.and_eq_true] at hw
  rw [SMap.getD, SMap.find_below hw.1 h]
  rfl

/-- In a canonical table the first entry reads as written: it is not the default. -/
theorem SMap.getD_head_ne {α : Type} [DecidableEq α] {e : Nat × α} {m : SMap α} {d : α} (h : SMap.wfD (e :: m) d = true) :
    SMap.getD (e :: m) e.1 d ≠ d := by
  rw [SMap.getD_cons, if_pos rfl]
  exact (SMap.wfD_cons.mp h).2.1

/-- Two canonical tables that read alike have the same first key: a smaller one would read as the default in the other. -/
theorem SMap.head_le_of_reads {α : Type} [DecidableEq α] {e e' : Nat × α} {m m' : SMap α} {d : α} (h : SMap.wfD (e :: m) d = true)
    (h' : SMap.wfD (e' :: m') d = true) (heq : ∀ k, SMap.getD (e :: m) k d = SMap.getD (e' :: m') k d) : e'.1 ≤ e.1 := by
  by_contra hlt
  have hbelow : SMap.below e.1 (e' :: m') = true := by simpa [SMap.below] using Nat.lt_of_not_le hlt
  exact SMap.getD_head_ne h ((heq _).trans (SMap.getD_of_below h' hbelow))

theorem SMap.eq_of_reads {α : Type} [DecidableEq α] {d : α} {m m' : SMap α} (h : m.wfD d = true) (h' : m'.wfD d = true)
    (heq : ∀ k, m.getD k d = m'.getD k d) : m = m' := by
  induction m generalizing m' with
  | nil =>
    cases m' with
    | nil => rfl
    | cons e' m' => exact absurd (heq e'.1).symm (SMap.getD_head_ne h')
  | cons e m ih =>
    cases m' with
    | nil => exact absurd (heq e.1) (SMap.getD_head_ne h)
    | cons e' m' =>
      have hkey : e.1 = e'.1 :=
        Nat.le_antisymm (SMap.head_le_of_reads h' h fun k => (heq k).symm) (SMap.head_le_of_reads h h' heq)
      obtain ⟨hb, -, hw⟩ := SMap.wfD_cons.mp h
      obtain ⟨hb', -, hw'⟩ := SMap.wfD_cons.mp h'
      have hval : e.2 = e'.2 := by simpa [SMap.getD_cons, hkey] using heq e.1
      have htail : m = m' := ih hw hw' fun k => by
        by_cases hk : e.1 = k
        · subst hk
          rw [SMap.getD_of_below hw hb, SMap.getD_of_below hw' (hkey ▸ hb')]
        · simpa [SMap.getD_cons, hk, hkey ▸ hk] using heq k
      rw [htail, Prod.ext hkey hval]

/-! ### Rails (03 R84) -/

theorem topPrio_foldl_ge {α : Type} (xs : List (Slot α)) (m : Nat) :
    m ≤ xs.foldl (fun m e => if e.used then m else max m e.prio) m ∧
      ∀ x ∈ xs, x.used = false → x.prio ≤ xs.foldl (fun m e => if e.used then m else max m e.prio) m := by
  induction xs generalizing m with
  | nil => simp
  | cons e xs ih =>
    obtain ⟨hm, hx⟩ := ih (if e.used then m else max m e.prio)
    have hstart : m ≤ if e.used then m else max m e.prio := by split <;> simp
    refine ⟨hstart.trans hm, fun x hmem hused => ?_⟩
    rcases List.mem_cons.mp hmem with rfl | hmem
    · exact le_trans (by simp [hused]) hm
    · exact hx x hmem hused

theorem prio_le_topPrio {α : Type} {xs : List (Slot α)} {x : Slot α} (h : x ∈ xs) (hu : x.used = false) : x.prio ≤ topPrio xs :=
  (topPrio_foldl_ge xs 0).2 x h hu

theorem topPrio_foldl_attained {α : Type} (xs : List (Slot α)) (m : Nat) :
    xs.foldl (fun m e => if e.used then m else max m e.prio) m = m ∨
      ∃ x ∈ xs, x.used = false ∧ x.prio = xs.foldl (fun m e => if e.used then m else max m e.prio) m := by
  induction xs generalizing m with
  | nil => exact .inl rfl
  | cons e xs ih =>
    rw [List.foldl_cons]
    rcases ih (if e.used then m else max m e.prio) with h | ⟨x, hx, hu, hp⟩
    · rw [h]
      cases hu : e.used with
      | true => exact .inl rfl
      | false =>
        rcases Nat.le_total e.prio m with hle | hle
        · exact .inl (by simp [hle])
        · exact .inr ⟨e, List.mem_cons_self, hu, by simp [hle]⟩
    · exact .inr ⟨x, List.mem_cons_of_mem _ hx, hu, hp⟩

/-- While a slot waits, one of the highest priority waits. -/
theorem exists_topPrio {α : Type} {xs : List (Slot α)} {x : Slot α} (h : x ∈ xs) (hu : x.used = false) :
    ∃ y ∈ xs, y.used = false ∧ y.prio = topPrio xs := by
  rcases topPrio_foldl_attained xs 0 with h0 | hex
  · have hx := prio_le_topPrio h hu
    have h0 : topPrio xs = 0 := h0
    exact ⟨x, h, hu, by omega⟩
  · exact hex

/-- What `markFirst` marks: the first waiting slot of the priority. -/
theorem markFirst_eq_some {α : Type} {prio : Nat} {xs ys : List (Slot α)} {c : α} (h : markFirst prio xs = some (c, ys)) :
    ∃ before after e, xs = before ++ e :: after ∧ ys = before ++ { e with used := true } :: after ∧ e.used = false ∧
      e.prio = prio ∧ e.cmd = c ∧ ∀ x ∈ before, x.used = false → x.prio ≠ prio := by
  induction xs generalizing ys with
  | nil => simp [markFirst] at h
  | cons e xs ih =>
    rw [markFirst] at h
    split at h
    · next he =>
      cases h
      exact ⟨[], xs, e, rfl, rfl, he.1, he.2, rfl, by simp⟩
    · next he =>
      split at h
      · cases h
      · next c' es' hmark =>
        cases h
        obtain ⟨before, after, e', hxs, hys, hu, hp, hc, hb⟩ := ih hmark
        refine ⟨e :: before, after, e', by rw [hxs]; rfl, by rw [hys]; rfl, hu, hp, hc, fun x hx hxu => ?_⟩
        rcases List.mem_cons.mp hx with rfl | hx
        · exact fun hxp => he ⟨hxu, hxp⟩
        · exact hb x hx hxu

theorem markFirst_eq_none {α : Type} {prio : Nat} {xs : List (Slot α)} (h : markFirst prio xs = none) :
    ∀ x ∈ xs, x.used = false → x.prio ≠ prio := by
  induction xs with
  | nil => simp
  | cons e xs ih =>
    rw [markFirst] at h
    split at h
    · cases h
    · next he =>
      split at h
      · next hmark =>
        intro x hx hxu
        rcases List.mem_cons.mp hx with rfl | hx
        · exact fun hxp => he ⟨hxu, hxp⟩
        · exact ih hmark x hx hxu
      · cases h

/-- Committing what the producer holds changes neither what waits nor its order. -/
theorem Rail.waiting_refill_stalled {α : Type} (n : Nat) (es : List (Slot α)) (r : Rail α) :
    (Rail.refill n es r).waiting = ((r.slots ++ es).filter (fun e => !e.used)).map (·.cmd) := by
  induction es generalizing r with
  | nil => simp [Rail.refill, Rail.waiting]
  | cons e es ih =>
    rw [Rail.refill]
    split
    · rfl
    · rw [ih]
      simp [Rail.stage, Rail.commit]

/-- Dropping the consumed front drops nothing that waits. -/
theorem filter_drop_usedPrefix {α : Type} (xs : List (Slot α)) :
    (xs.drop (usedPrefix xs)).filter (fun e => !e.used) = xs.filter (fun e => !e.used) := by
  induction xs with
  | nil => rfl
  | cons e xs ih =>
    cases hu : e.used with
    | true => simpa [usedPrefix, hu] using ih
    | false => simp [usedPrefix, hu]

/-- What a rail gives, and what waits on after it: the slot it takes is the first of the highest priority among the first 32. -/
theorem Rail.take_eq_some {α : Type} {n : Nat} {r r' : Rail α} {c : α} (h : r.take n = some (c, r')) :
    ∃ before after e, r.slots.take 32 = before ++ e :: after ∧ e.used = false ∧ e.cmd = c ∧ e.prio = topPrio (r.slots.take 32) ∧
      (∀ x ∈ before, x.used = false → x.prio ≠ topPrio (r.slots.take 32)) ∧
      r'.waiting = ((before ++ (after ++ r.slots.drop 32) ++ r.stalled).filter (fun x => !x.used)).map (·.cmd) := by
  rw [Rail.take] at h
  split at h
  · cases h
  · next c' w hmark =>
    cases h
    obtain ⟨before, after, e, hxs, hw, hu, hp, hc, hb⟩ := markFirst_eq_some hmark
    refine ⟨before, after, e, hxs, hu, hc, hp, hb, ?_⟩
    rw [Rail.waiting_refill_stalled, List.filter_append, filter_drop_usedPrefix, hw]
    simp

/-! ### Numbers in messages (18 R502) -/

theorem field_append_leBytes (before after : List Byte) (k n : Nat) :
    field (before ++ leBytes k n ++ after) before.length k = n % 256 ^ k := by
  rw [field, List.append_assoc, List.drop_left, List.take_append_of_le_length (by simp), List.take_of_length_le (by simp),
    leNat_leBytes]

/-! ### Lines (03 R97) -/

theorem getLsbD_byteOnes (i n : Nat) : ((0xFF : Line) <<< (8 * n)).getLsbD i = decide (i < 512 ∧ i / 8 = n) := by
  have hones : (0xFF : Line) = BitVec.ofNat 512 (2 ^ 8 - 1) := rfl
  rw [BitVec.getLsbD_shiftLeft, hones, BitVec.getLsbD_ofNat, Nat.testBit_two_pow_sub_one]
  by_cases hi : i < 512 <;> by_cases hn : i / 8 = n
  · simp [hi, hn]
    omega
  · simp [hi, hn]
    omega
  · simp [hi]
  · simp [hi]

/-- A bit of a spread mask is the mask's bit of its byte. -/
theorem getLsbD_spreadMask (n : Nat) (m : Mask) (i : Nat) (hn : n ≤ 64) :
    (spreadMask n m).getLsbD i = (decide (i < 8 * n) && m.getLsbD (i / 8)) := by
  induction n with
  | zero => simp [spreadMask]
  | succ n ih =>
    have hbyte : (if m.getLsbD n then (0xFF : Line) <<< (8 * n) else 0).getLsbD i =
        (decide (i < 512 ∧ i / 8 = n) && m.getLsbD n) := by
      cases m.getLsbD n
      · simp
      · simpa using getLsbD_byteOnes i n
    rw [spreadMask, BitVec.getLsbD_or, ih (by omega), hbyte]
    by_cases hin : i / 8 = n
    · simp [hin, show ¬ i < 8 * n by omega, show i < 8 * (n + 1) by omega, show i < 512 by omega]
    · simp [hin, show i < 8 * (n + 1) ↔ i < 8 * n by omega]

theorem lineByte_mergeLine (old new : Line) (m : Mask) {k : Nat} (hk : k < 64) :
    lineByte (mergeLine old new m) k = if m.getLsbD k then lineByte new k else lineByte old k := by
  refine BitVec.eq_of_getLsbD_eq fun i hi => ?_
  have hlt : 8 * k + i < 512 := by omega
  have hmask : (spreadMask 64 m)[8 * k + i] = m.getLsbD k := by
    rw [← BitVec.getLsbD_eq_getElem, getLsbD_spreadMask 64 m _ le_rfl, decide_eq_true (by omega), Bool.true_and]
    congr 1
    omega
  cases hm : m.getLsbD k <;> simp [lineByte, mergeLine, hi, hlt, hmask, hm]

/-! ### Sector addresses (04 R118) -/

theorem saOf_fields {b ce k pg pl x : Nat} (hb : b < 32) (hce : ce < 16) (hk : k < 2048) (hpg : pg < 1024) (hpl : pl < 4) (hx : x < 64) :
    saBurner (saOf b ce k pg pl x) = b ∧ saCe (saOf b ce k pg pl x) = ce ∧ saBlock (saOf b ce k pg pl x) = k ∧
    saPage (saOf b ce k pg pl x) = pg ∧ saPlane (saOf b ce k pg pl x) = pl ∧ saSector (saOf b ce k pg pl x) = x ∧
    saOf b ce k pg pl x < 2 ^ 38 := by
  simp only [saBurner, saCe, saBlock, saPage, saPlane, saSector, saOf, Nat.reducePow]
  omega

theorem saOf_of_fields {a : Nat} (ha : a < 2 ^ 38) :
    saOf (saBurner a) (saCe a) (saBlock a) (saPage a) (saPlane a) (saSector a) = a := by
  simp only [saBurner, saCe, saBlock, saPage, saPlane, saSector, saOf, Nat.reducePow] at ha ⊢
  omega

end Sys2Proof.Machine

namespace Sys2Proof.Proofs

open Sys2Proof Sys2Proof.Machine Sys2Proof.Safety Sys2Proof.Laws

/-- Settles O7, by induction on both tables along their rising keys. -/
theorem canonicalTablesAreEqual : Obligations.CanonicalTablesAreEqual := by
  unfold Obligations.CanonicalTablesAreEqual
  exact fun α _ d m m' h h' heq => SMap.eq_of_reads h h' heq

/-- Settles O8: the fields do not overlap and cover the 38 bits. -/
theorem sectorAddressFields : Obligations.SectorAddressFields := by
  unfold Obligations.SectorAddressFields
  exact ⟨fun b ce k pg pl x => saOf_fields, fun a => saOf_of_fields⟩

/-- Settles O10, bit by bit. -/
theorem maskedMergeTakesNamedBytes : Obligations.MaskedMergeTakesNamedBytes := by
  unfold Obligations.MaskedMergeTakesNamedBytes
  exact fun old new m k hk => lineByte_mergeLine old new m hk

/-- Settles O11: the slot that `markFirst` marks is the first of the highest priority among the first 32. -/
theorem railGivesHighestThenOldest : Obligations.RailGivesHighestThenOldest := by
  unfold Obligations.RailGivesHighestThenOldest
  refine fun α n r => ⟨fun c r' h => ?_, fun h x hx => ?_⟩
  · obtain ⟨before, after, e, hxs, hu, hc, hp, hb, hw⟩ := Rail.take_eq_some h
    have hslots : r.slots = before ++ e :: (after ++ r.slots.drop 32) := by
      conv_lhs => rw [← List.take_append_drop 32 r.slots, hxs]
      simp
    have hlen : before.length < 32 := by
      have := congrArg List.length hxs
      rw [List.length_take, List.length_append, List.length_cons] at this
      omega
    refine ⟨before, after ++ r.slots.drop 32, e, hslots, hlen, hu, hc, fun x hx hxu => hp ▸ prio_le_topPrio hx hxu,
      fun x hx hxu => ?_, hw⟩
    have hmem : x ∈ r.slots.take 32 := hxs ▸ List.mem_append_left _ hx
    exact hp ▸ lt_of_le_of_ne (prio_le_topPrio hmem hxu) (hb x hx hxu)
  · by_contra hxu
    obtain ⟨y, hy, hyu, hyp⟩ := exists_topPrio hx (by simpa using hxu)
    rw [Rail.take] at h
    split at h
    · next hmark => exact markFirst_eq_none hmark y hy hyu hyp
    · cases h

/-- Settles O12, from what the bytes of a number read back as. -/
theorem messageFieldsReadBack : Obligations.MessageFieldsReadBack := by
  unfold Obligations.MessageFieldsReadBack
  exact fun before after k n h => ⟨length_leBytes k n, by rw [field_append_leBytes, Nat.mod_eq_of_lt h]⟩

/-- Settles O14: the chunk is the shorter of what is left of the descriptor and what is left of the 4 KiB. -/
theorem chunkEndsAtBoundary : Obligations.ChunkEndsAtBoundary := by
  unfold Obligations.ChunkEndsAtBoundary
  intro d p hp start
  have hchunk : d.chunk p = min (d.length - p) (4096 - start % 4096) := rfl
  rw [hchunk]
  omega

end Sys2Proof.Proofs
end

section
/-!
SUPPORT. The word code (13_memory_integrity.md R378, R379). Encoder and syndromes are linear over exclusive or, so a stored word with an
error has the syndromes of the error alone; and the syndromes of the errors of at most two bits are distinct, which one pass over
their 3,082 codes shows.
-/

namespace Sys2Proof.Machine

/-! ### The syndromes are linear -/

/-- The column of a position: α^i and α^(3i). -/
def bchCol (i : Nat) : BitVec 7 × BitVec 7 := (alphaPow i, alphaPow (3 * i))

/-- The sum of two pairs of syndromes. -/
def synXor (a b : BitVec 7 × BitVec 7) : BitVec 7 × BitVec 7 := (a.1 ^^^ b.1, a.2 ^^^ b.2)

theorem synXor_zero (a : BitVec 7 × BitVec 7) : synXor a (0, 0) = a := by
  simp [synXor]

theorem zero_synXor (a : BitVec 7 × BitVec 7) : synXor (0, 0) a = a := by
  simp [synXor]

/-- The table with its positions is the columns with theirs. -/
theorem bchTable_zipIdx : bchTable.zipIdx = (List.range 78).map (fun i => (bchCol i, i)) := by
  decide +kernel

/-- One position's share of the syndromes of a stored word. -/
def synStep (x : BitVec 78) (s : BitVec 7 × BitVec 7) (i : Nat) : BitVec 7 × BitVec 7 :=
  if x.getLsbD i then synXor s (bchCol i) else s

theorem bchSyndromes_eq (x : BitVec 78) : bchSyndromes x = (List.range 78).foldl (synStep x) (0, 0) := by
  rw [bchSyndromes, bchTable_zipIdx, List.foldl_map]
  rfl

theorem synStep_xor (x y : BitVec 78) (s t : BitVec 7 × BitVec 7) (i : Nat) :
    synStep (x ^^^ y) (synXor s t) i = synXor (synStep x s i) (synStep y t i) := by
  have hcancel (a b c : BitVec 7) : a ^^^ c ^^^ (b ^^^ c) = a ^^^ b := by
    rw [BitVec.xor_comm b c, BitVec.xor_assoc, ← BitVec.xor_assoc c c b, BitVec.xor_self, BitVec.zero_xor]
  unfold synStep
  rw [BitVec.getLsbD_xor]
  cases x.getLsbD i <;> cases y.getLsbD i
  · rfl
  · simp [synXor, BitVec.xor_assoc]
  · simp [synXor, BitVec.xor_assoc, BitVec.xor_comm (bchCol i).1, BitVec.xor_comm (bchCol i).2]
  · simp [synXor, hcancel]

theorem foldl_synStep_xor (x y : BitVec 78) (is : List Nat) (s t : BitVec 7 × BitVec 7) :
    is.foldl (synStep (x ^^^ y)) (synXor s t) = synXor (is.foldl (synStep x) s) (is.foldl (synStep y) t) := by
  induction is generalizing s t with
  | nil => rfl
  | cons i is ih => rw [List.foldl_cons, List.foldl_cons, List.foldl_cons, synStep_xor, ih]

theorem bchSyndromes_xor (x y : BitVec 78) : bchSyndromes (x ^^^ y) = synXor (bchSyndromes x) (bchSyndromes y) := by
  simp only [bchSyndromes_eq]
  exact foldl_synStep_xor x y _ (0, 0) (0, 0)

/-- The syndromes of an error of one bit are the column of its position. -/
theorem bchSyndromes_two_pow : ∀ p < 78, bchSyndromes (BitVec.ofNat 78 (2 ^ p)) = bchCol p := by
  decide +kernel

/-! ### The encoder is linear -/

theorem bchStep_xor (r r' : BitVec 14) (b b' : Bool) : bchStep (r ^^^ r') (b ^^ b') = bchStep r b ^^^ bchStep r' b' := by
  unfold bchStep
  rw [BitVec.getLsbD_xor]
  cases r.getLsbD 13 <;> cases r'.getLsbD 13 <;> cases b <;> cases b' <;> ext i hi <;> simp <;> grind

theorem foldl_bchStep_xor (f g : Nat → Bool) (is : List Nat) (r r' : BitVec 14) :
    is.foldl (fun r i => bchStep r (f i ^^ g i)) (r ^^^ r') =
      is.foldl (fun r i => bchStep r (f i)) r ^^^ is.foldl (fun r i => bchStep r (g i)) r' := by
  induction is generalizing r r' with
  | nil => rfl
  | cons i is ih => rw [List.foldl_cons, List.foldl_cons, List.foldl_cons, bchStep_xor, ih]

theorem bchCheck_xor (d e : BitVec 64) : bchCheck (d ^^^ e) = bchCheck d ^^^ bchCheck e := by
  have hdata := foldl_bchStep_xor (fun i => d.getLsbD (63 - i)) (fun i => e.getLsbD (63 - i)) (List.range 64) 0 0
  simp only [bchCheck, BitVec.getLsbD_xor]
  rw [show (0 : BitVec 14) ^^^ 0 = 0 from rfl] at hdata
  rw [hdata]
  exact foldl_bchStep_xor (fun _ => false) (fun _ => false) (List.range 14) _ _

theorem bchEncode_xor (d e : BitVec 64) : bchEncode (d ^^^ e) = bchEncode d ^^^ bchEncode e := by
  rw [bchEncode, bchCheck_xor]
  exact (BitVec.xor_append).symm

/-- What holds of zero, of every single bit and of sums holds of every word. -/
theorem bitVec_xor_induction {w : Nat} {P : BitVec w → Prop} (hzero : P 0) (hbit : ∀ i < w, P (BitVec.ofNat w (2 ^ i)))
    (hxor : ∀ x y, P x → P y → P (x ^^^ y)) (x : BitVec w) : P x := by
  have hlow : ∀ n ≤ w, P (BitVec.ofNat w (x.toNat % 2 ^ n)) := by
    intro n hn
    induction n with
    | zero => simpa [Nat.mod_one] using hzero
    | succ n ih =>
      have hsplit : BitVec.ofNat w (x.toNat % 2 ^ (n + 1)) =
          BitVec.ofNat w (x.toNat % 2 ^ n) ^^^ (if x.getLsbD n then BitVec.ofNat w (2 ^ n) else 0) := by
        refine BitVec.eq_of_getLsbD_eq fun i hi => ?_
        have hone : (if x.getLsbD n then BitVec.ofNat w (2 ^ n) else 0).getLsbD i = (decide (n = i) && x.getLsbD n) := by
          cases x.getLsbD n
          · simp
          · rw [if_pos rfl, BitVec.getLsbD_ofNat, Nat.testBit_two_pow, decide_eq_true hi, Bool.true_and, Bool.and_true]
        rw [BitVec.getLsbD_xor, hone, BitVec.getLsbD_ofNat, BitVec.getLsbD_ofNat, Nat.testBit_mod_two_pow, Nat.testBit_mod_two_pow]
        by_cases hin : n = i
        · subst hin
          simp [BitVec.getLsbD, hi]
        · simp [hin, show i < n + 1 ↔ i < n by omega]
      rw [hsplit]
      refine hxor _ _ (ih (by omega)) ?_
      split
      · exact hbit n (by omega)
      · exact hzero
  simpa [Nat.mod_eq_of_lt x.isLt] using hlow w le_rfl

/-- What the encoder makes has no syndromes. -/
theorem bchSyndromes_encode (d : BitVec 64) : bchSyndromes (bchEncode d) = (0, 0) := by
  have hbasis : ∀ i < 64, bchSyndromes (bchEncode (BitVec.ofNat 64 (2 ^ i))) = (0, 0) := by decide +kernel
  refine bitVec_xor_induction (P := fun d => bchSyndromes (bchEncode d) = (0, 0)) (by decide +kernel) hbasis (fun x y hx hy => ?_) d
  rw [bchEncode_xor, bchSyndromes_xor, hx, hy]
  rfl

/-! ### The errors of at most two bits are told apart -/

/-- A pair of syndromes as one number. -/
def synCode (s : BitVec 7 × BitVec 7) : Nat := s.1.toNat * 128 + s.2.toNat

/-- Whether the numbers of a list are distinct, and distinct from the bits set in `seen`. -/
def allNew : Nat → List Nat → Bool
  | _, [] => true
  | seen, c :: cs => !seen.testBit c && allNew (seen ||| 2 ^ c) cs

theorem allNew_spec {cs : List Nat} {seen : Nat} (h : allNew seen cs = true) : cs.Nodup ∧ ∀ c ∈ cs, seen.testBit c = false := by
  induction cs generalizing seen with
  | nil => simp
  | cons c cs ih =>
    simp only [allNew, Bool.and_eq_true, Bool.not_eq_true'] at h
    obtain ⟨hc, hcs⟩ := h
    obtain ⟨hnodup, hnew⟩ := ih hcs
    simp only [Nat.testBit_or, Bool.or_eq_false_iff, Nat.testBit_two_pow, decide_eq_false_iff_not] at hnew
    refine ⟨List.nodup_cons.mpr ⟨fun hmem => (hnew c hmem).2 rfl, hnodup⟩, fun x hx => ?_⟩
    rcases List.mem_cons.mp hx with rfl | hx
    · exact hc
    · exact (hnew x hx).1

/-- The errors of at most two bits: none, each position, each pair of positions. -/
def smallErrors : List (List Nat) :=
  [] :: (List.range 78).map (fun p => [p]) ++
    (List.range 78).flatMap (fun q => (List.range q).map (fun p => [p, q]))

/-- The syndromes of an error. -/
def synOf (e : List Nat) : BitVec 7 × BitVec 7 := e.foldr (fun p s => synXor (bchCol p) s) (0, 0)

theorem allNew_smallErrors : allNew 0 (smallErrors.map (fun e => synCode (synOf e))) = true := by decide +kernel

/-- Two errors of at most two bits with the same syndromes are the same error: the code has distance five. -/
theorem smallErrors_inj {e f : List Nat} (he : e ∈ smallErrors) (hf : f ∈ smallErrors) (h : synOf e = synOf f) : e = f :=
  List.inj_on_of_nodup_map (allNew_spec allNew_smallErrors).1 he hf (congrArg synCode h)

theorem nil_mem_smallErrors : [] ∈ smallErrors := by simp [smallErrors]

theorem single_mem_smallErrors {p : Nat} (hp : p < 78) : [p] ∈ smallErrors := by simp [smallErrors, hp]

theorem pair_mem_smallErrors {p q : Nat} (hpq : p < q) (hq : q < 78) : [p, q] ∈ smallErrors := by
  simp [smallErrors, hpq, hq]

theorem synOf_single (p : Nat) : synOf [p] = bchCol p := synXor_zero _

theorem synOf_pair (p q : Nat) : synOf [p, q] = synXor (bchCol p) (bchCol q) := by
  rw [synOf, List.foldr_cons, ← synOf, synOf_single]

/-! ### The decoder -/

/-- What the decoder makes of a pair of syndromes. -/
def decodeSyn (s : BitVec 7 × BitVec 7) : BchRes :=
  if s.1 = 0 ∧ s.2 = 0 then .clean
  else match bchTable.zipIdx.find? (fun e => decide (e.1 = s)) with
    | some e => .corrected e.2 none
    | none =>
      match bchTable.zipIdx.filterMap (fun e =>
        (bchTable.zipIdx.find? (fun f => decide (e.2 < f.2) && decide (e.1.1 ^^^ f.1.1 = s.1) &&
          decide (e.1.2 ^^^ f.1.2 = s.2))).map (fun f => (e.2, f.2))) with
      | [] => .bad
      | p :: _ => .corrected p.1 (some p.2)

theorem bchDecode_eq (x : BitVec 78) : bchDecode x = decodeSyn (bchSyndromes x) := (rfl)

theorem mem_bchTable_zipIdx {e : (BitVec 7 × BitVec 7) × Nat} : e ∈ bchTable.zipIdx ↔ e.2 < 78 ∧ e.1 = bchCol e.2 := by
  rw [bchTable_zipIdx, List.mem_map]
  constructor
  · rintro ⟨i, hi, rfl⟩
    exact ⟨List.mem_range.mp hi, rfl⟩
  · rintro ⟨hi, he⟩
    exact ⟨e.2, List.mem_range.mpr hi, Prod.ext he.symm rfl⟩

theorem synOf_ne_zero {e : List Nat} (he : e ∈ smallErrors) (hne : e ≠ []) : ¬ ((synOf e).1 = 0 ∧ (synOf e).2 = 0) :=
  fun h => hne (smallErrors_inj he nil_mem_smallErrors (Prod.ext h.1 h.2))

theorem decodeSyn_single {p : Nat} (hp : p < 78) : decodeSyn (synOf [p]) = .corrected p none := by
  have hne := synOf_ne_zero (single_mem_smallErrors hp) (by simp)
  rw [decodeSyn, if_neg hne]
  cases hfind : bchTable.zipIdx.find? (fun e => decide (e.1 = synOf [p])) with
  | none =>
    have := List.find?_eq_none.mp hfind (bchCol p, p) (mem_bchTable_zipIdx.mpr ⟨hp, rfl⟩)
    simp [synOf_single] at this
  | some e =>
    obtain ⟨hlt, hcol⟩ := mem_bchTable_zipIdx.mp (List.mem_of_find?_eq_some hfind)
    have heq : synOf [e.2] = synOf [p] := by
      rw [synOf_single, ← hcol]
      simpa using List.find?_some hfind
    have hep : e.2 = p := by simpa using smallErrors_inj (single_mem_smallErrors hlt) (single_mem_smallErrors hp) heq
    simp [hep]

/-- The one pair of positions that explains the syndromes of a pair. -/
theorem eq_of_synXor_eq {a b p q : Nat} (hab : a < b) (hb : b < 78) (hpq : p < q) (hq : q < 78)
    (h : synXor (bchCol a) (bchCol b) = synOf [p, q]) : (a, b) = (p, q) := by
  rw [← synOf_pair] at h
  simpa using smallErrors_inj (pair_mem_smallErrors hab hb) (pair_mem_smallErrors hpq hq) h

theorem decodeSyn_pair {p q : Nat} (hpq : p < q) (hq : q < 78) : decodeSyn (synOf [p, q]) = .corrected p (some q) := by
  have hp : p < 78 := hpq.trans hq
  have hne := synOf_ne_zero (pair_mem_smallErrors hpq hq) (by simp)
  have hsingle : bchTable.zipIdx.find? (fun e => decide (e.1 = synOf [p, q])) = none := by
    refine List.find?_eq_none.mpr fun e he heq => ?_
    obtain ⟨hlt, hcol⟩ := mem_bchTable_zipIdx.mp he
    have hone : synOf [e.2] = synOf [p, q] := by
      rw [synOf_single, ← hcol]
      simpa using heq
    simpa using smallErrors_inj (single_mem_smallErrors hlt) (pair_mem_smallErrors hpq hq) hone
  rw [decodeSyn, if_neg hne, hsingle]
  dsimp only
  split
  · next hnil =>
    have hnone := List.filterMap_eq_nil_iff.mp hnil (bchCol p, p) (mem_bchTable_zipIdx.mpr ⟨hp, rfl⟩)
    rw [Option.map_eq_none_iff] at hnone
    have := List.find?_eq_none.mp hnone (bchCol q, q) (mem_bchTable_zipIdx.mpr ⟨hq, rfl⟩)
    simp [synOf_pair, synXor, hpq] at this
  · next x xs hcons =>
    have hmem : x ∈ x :: xs := List.mem_cons_self
    rw [← hcons, List.mem_filterMap] at hmem
    obtain ⟨e, he, hx⟩ := hmem
    obtain ⟨f, hf, rfl⟩ := Option.map_eq_some_iff.mp hx
    have hsum := List.find?_some hf
    simp only [Bool.and_eq_true, decide_eq_true_eq] at hsum
    obtain ⟨⟨hlt, h1⟩, h2⟩ := hsum
    obtain ⟨-, hecol⟩ := mem_bchTable_zipIdx.mp he
    obtain ⟨hflt, hfcol⟩ := mem_bchTable_zipIdx.mp (List.mem_of_find?_eq_some hf)
    have hpair := eq_of_synXor_eq hlt hflt hpq hq (by rw [← hecol, ← hfcol]; exact Prod.ext h1 h2)
    rw [hpair]

/-- A stored word with an error has the syndromes of the error. -/
theorem bchSyndromes_encode_xor (d : BitVec 64) (x : BitVec 78) : bchSyndromes (bchEncode d ^^^ x) = bchSyndromes x := by
  rw [bchSyndromes_xor, bchSyndromes_encode, zero_synXor]

end Sys2Proof.Machine

namespace Sys2Proof.Proofs

open Sys2Proof Sys2Proof.Machine

/-- Settles O13: the decoder sees the syndromes of the error alone, and those tell the errors of one and of two bits apart. -/
theorem wordCodeCorrectsTwoBits : Obligations.WordCodeCorrectsTwoBits := by
  unfold Obligations.WordCodeCorrectsTwoBits
  refine fun d => ⟨?_, fun p hp => ?_, fun p q hpq hq => ?_⟩
  · rw [bchDecode_eq, bchSyndromes_encode]
    rfl
  · rw [bchDecode_eq, bchSyndromes_encode_xor, bchSyndromes_two_pow p hp, ← synOf_single]
    exact decodeSyn_single hp
  · rw [bchDecode_eq, BitVec.xor_assoc, bchSyndromes_encode_xor, bchSyndromes_xor, bchSyndromes_two_pow p (hpq.trans hq),
      bchSyndromes_two_pow q hq, ← synOf_pair]
    exact decodeSyn_pair hpq hq

end Sys2Proof.Proofs
end

section
/-!
SUPPORT. Mailbox commands that report and that record (02_host_ports.md R61 to R67). A command that a path's mailbox serves runs its body
(`State.command_of_serves`); a payload is a list of parts of known length, and a field of it is found by dropping the parts before it.
-/

namespace Sys2Proof.Machine

open Sys2Proof Sys2Proof.Safety Sys2Proof.Laws

/-! ### Who is served -/

theorem serves_of_mailboxUp {s : State} {p : Path} {a : Access'} (h : s.mailboxUp p = true) (ht : a.tenant = true)
    (hs : a.simmer = true ∨ s.pwrState ≠ .simmer) (hr : a.recovery = true) : Serves s p a := by
  refine ⟨h, ?_⟩
  rcases hs with hs | hs <;> simp [State.turnedAway, ht, hs, hr]

theorem Serves.anyone {s : State} {p : Path} (h : Serves s p ownerOnly) : Serves s p anyone := by
  obtain ⟨hup, hin⟩ := h
  refine ⟨hup, ?_⟩
  simp only [State.turnedAway, ownerOnly, Machine.anyone] at hin ⊢
  revert hin
  cases s.recovery <;> by_cases hp : s.pwrState = .simmer <;> simp [hp]

/-- A command of the fabric owner that a tenant sends is Unsupported (R64). -/
theorem command_of_tenant {s : State} {p : Path} (hup : s.mailboxUp p = true) (hr : s.recovery = false)
    (hp : s.pwrState ≠ .simmer) (hfo : s.isFo p = false) (opcode : Nat) (body : State → State) :
    s.command p opcode ownerOnly body = answered s p opcode 3 [] := by
  simp [State.command, hup, State.turnedAway, hr, hp, hfo, ownerOnly]
  rfl

/-! ### Fields of payloads -/

/-- The fields of a message after its first part. -/
@[simp] theorem field_append_right {a b : List Byte} {i k : Nat} (h : a.length ≤ i) : field (a ++ b) i k = field b (i - a.length) k := by
  rw [field, field, List.drop_append, List.drop_of_length_le h, List.nil_append]

/-- A field that lies in the first part of a message. -/
@[simp] theorem field_append_left {a b : List Byte} {i k : Nat} (h : i + k ≤ a.length) : field (a ++ b) i k = field a i k := by
  rw [field, field, List.drop_append, List.take_append_of_le_length (by rw [List.length_drop]; omega)]

@[simp] theorem length_freeOf (k n : Nat) : (freeOf k n).length = n := by simp [freeOf]

@[simp] theorem field_leBytes_mod (k n : Nat) : field (leBytes k n) 0 k = n % 256 ^ k := by
  rw [field, List.drop_zero, List.take_of_length_le (by simp), leNat_leBytes]

@[simp] theorem field_cons_succ (x : Byte) (b : List Byte) (i k : Nat) : field (x :: b) (i + 1) k = field b i k := by
  simp [field]

/-- One byte of a message. -/
theorem field_one (b : List Byte) (i : Nat) : field b i 1 = (b.getD i 0).toNat := by
  rw [field, List.getD_eq_getElem?_getD, ← List.head?_drop]
  cases b.drop i <;> simp [leNat]

/-! ### Identify, capacity, device state (R64, R66) -/

/-- The bytes of Identify, completed by a free value. -/
def identifyBytes (s : State) (k : Nat) : List Byte :=
  freeOf k 8 ++ leBytes 8 s.fuses.serial.toNat ++ [16] ++ (freeOf k 9).drop 8

theorem execIdentify_of_mailboxUp {s : State} {p : Path} (h : s.mailboxUp p = true) :
    execIdentify p s = .next (answeredOpen s p 0x0001 (identifyBytes s)) := by
  rw [execIdentify, State.command_of_serves (serves_of_mailboxUp h rfl (.inl rfl) rfl)]
  rfl

theorem identifyBytes_fields (s : State) (k : Nat) :
    field (identifyBytes s k) 8 8 = s.fuses.serial.toNat ∧ field (identifyBytes s k) 16 1 = 16 := by
  constructor
  · simp [identifyBytes, List.append_assoc, Nat.mod_eq_of_lt s.fuses.serial.isLt]
  · simp [identifyBytes, List.append_assoc, field_one]

/-- The capacity that a path's identification reports, in units of 256 MiB (R64). -/
def State.reportedUnits (s : State) : Path → Nat
  | .link n => s.windowUnits n.val
  | .mctp => s.capacity / 2 ^ 28

/-- The 16 bytes of the revision of the running firmware. -/
def State.runningRevision (s : State) : List Byte :=
  let rev : List Byte := ((s.fwOf s.boot.running).map (fun i => i.revision)).getD []
  (rev ++ List.replicate 16 0).take 16

@[simp] theorem State.length_runningRevision (s : State) : s.runningRevision.length = 16 := by simp [State.runningRevision]

/-- The bytes of Identify Memory Device, completed by a free value. -/
def memoryDeviceBytes (s : State) (p : Path) (k : Nat) : List Byte :=
  s.runningRevision ++ leBytes 8 (s.reportedUnits p) ++ leBytes 8 0 ++ leBytes 8 (s.reportedUnits p) ++ freeOf k 29

theorem execIdentifyMemoryDevice_of_serves {s : State} {p : Path} (h : Serves s p anyone) :
    execIdentifyMemoryDevice p s = .next (answeredOpen s p 0x4000 (memoryDeviceBytes s p)) := by
  rw [execIdentifyMemoryDevice, State.command_of_serves h]
  cases p <;> rfl

theorem memoryDeviceBytes_fields (s : State) (p : Path) (k : Nat) (h : s.reportedUnits p < 2 ^ 64) :
    field (memoryDeviceBytes s p k) 16 8 = s.reportedUnits p ∧ field (memoryDeviceBytes s p k) 24 8 = 0 ∧
      field (memoryDeviceBytes s p k) 32 8 = s.reportedUnits p := by
  have hmod : s.reportedUnits p % 18446744073709551616 = s.reportedUnits p := Nat.mod_eq_of_lt h
  simp [memoryDeviceBytes, List.append_assoc, hmod]

/-- The bytes of Get Partition Info. -/
def partitionBytes (s : State) (p : Path) : List Byte :=
  leBytes 8 0 ++ leBytes 8 (s.reportedUnits p) ++ leBytes 16 0

theorem execGetPartitionInfo_of_serves {s : State} {p : Path} (h : Serves s p anyone) :
    execGetPartitionInfo p s = .next (answered s p 0x4100 0 (partitionBytes s p)) := by
  rw [execGetPartitionInfo, State.command_of_serves h]
  cases p <;> rfl

theorem partitionBytes_fields (s : State) (p : Path) (h : s.reportedUnits p < 2 ^ 64) :
    (partitionBytes s p).length = 32 ∧ field (partitionBytes s p) 0 8 = 0 ∧ field (partitionBytes s p) 8 8 = s.reportedUnits p ∧
      field (partitionBytes s p) 16 8 = 0 ∧ field (partitionBytes s p) 24 8 = 0 := by
  have hmod : s.reportedUnits p % 18446744073709551616 = s.reportedUnits p := Nat.mod_eq_of_lt h
  have hzero : field (leBytes 16 0) 0 8 = 0 ∧ field (leBytes 16 0) 8 8 = 0 := by decide
  simp [partitionBytes, List.append_assoc, hmod, hzero]

/-- The flags of Get Device State (R66). -/
def State.stateFlags (s : State) : Byte :=
  byteOf (s.prot.lid.toNat + 2 * s.upk.pantry.toNat + 4 * s.upk.pantry.toNat + 8 * s.upk.capAlert.toNat +
    16 * s.flt.degraded.toNat + 32 * (decide (s.upk.rebuildState ≠ 0)).toNat + 64 * s.ports.foMoved.toNat)

/-- The bytes of Get Device State. -/
def deviceStateBytes (s : State) : List Byte :=
  [byteOf (if s.pwrState = .simmer then 1 else 0), s.stateFlags, 0, 0] ++ leBytes 4 (flagWord (fun n => (s.link n).up) 32) ++
    leBytes 8 s.capacity ++ leBytes 8 s.opsec ++ leBytes 4 s.clk.cycles ++ leBytes 4 0

theorem execGetDeviceState_of_mailboxUp {s : State} {p : Path} (h : s.mailboxUp p = true) :
    execGetDeviceState p s = .next (answered s p 0xC000 0 (deviceStateBytes s)) := by
  rw [execGetDeviceState, State.command_of_serves (serves_of_mailboxUp h rfl (.inl rfl) rfl)]
  rfl

theorem stateFlags_bits (s : State) :
    s.stateFlags.getLsbD 0 = s.prot.lid ∧ s.stateFlags.getLsbD 1 = s.upk.pantry ∧ s.stateFlags.getLsbD 2 = s.upk.pantry ∧
      s.stateFlags.getLsbD 3 = s.upk.capAlert ∧ s.stateFlags.getLsbD 4 = s.flt.degraded ∧
      s.stateFlags.getLsbD 5 = decide (s.upk.rebuildState ≠ 0) ∧ s.stateFlags.getLsbD 6 = s.ports.foMoved ∧
      s.stateFlags.getLsbD 7 = false := by
  have hall : ∀ a b c d e f : Bool,
      let x := byteOf (a.toNat + 2 * b.toNat + 4 * b.toNat + 8 * c.toNat + 16 * d.toNat + 32 * e.toNat + 64 * f.toNat)
      x.getLsbD 0 = a ∧ x.getLsbD 1 = b ∧ x.getLsbD 2 = b ∧ x.getLsbD 3 = c ∧ x.getLsbD 4 = d ∧ x.getLsbD 5 = e ∧ x.getLsbD 6 = f ∧
        x.getLsbD 7 = false := by decide
  exact hall _ _ _ _ _ _

theorem State.opsec_lt (s : State) : s.opsec < 2 ^ 40 := by
  unfold State.opsec sat
  omega

theorem State.capacity_lt (s : State) : s.capacity < 2 ^ 64 := by
  unfold State.capacity
  split <;> decide

theorem deviceStateBytes_fields (s : State) :
    (deviceStateBytes s).length = 32 ∧ field (deviceStateBytes s) 0 1 = (if s.pwrState = .simmer then 1 else 0) ∧
      (deviceStateBytes s).getD 1 0 = s.stateFlags ∧
      (∀ n < 32, (field (deviceStateBytes s) 4 4).testBit n = (s.link n).up) ∧
      field (deviceStateBytes s) 8 8 = s.capacity ∧ field (deviceStateBytes s) 16 8 = s.opsec ∧
      (s.clk.cycles < 2 ^ 24 → field (deviceStateBytes s) 24 4 = s.clk.cycles) ∧ field (deviceStateBytes s) 28 4 = 0 := by
  have hcap : s.capacity % 18446744073709551616 = s.capacity := Nat.mod_eq_of_lt s.capacity_lt
  have hops : s.opsec % 18446744073709551616 = s.opsec := Nat.mod_eq_of_lt (by have := s.opsec_lt; omega)
  have hups : field (deviceStateBytes s) 4 4 = flagWord (fun n => (s.link n).up) 32 := by
    simpa [deviceStateBytes, List.append_assoc] using flagWord_lt (fun n => (s.link n).up) 32
  refine ⟨by simp [deviceStateBytes], ?_, rfl, fun n hn => ?_, ?_, ?_, fun hc => ?_, ?_⟩
  · by_cases hp : s.pwrState = .simmer <;> simp [field_one, deviceStateBytes, hp, byteOf]
  · rw [hups, testBit_flagWord, decide_eq_true hn, Bool.true_and]
  · simp [deviceStateBytes, List.append_assoc, hcap]
  · simp [deviceStateBytes, List.append_assoc, hops]
  · simp [deviceStateBytes, List.append_assoc]
    omega
  · simp [deviceStateBytes, List.append_assoc]

end Sys2Proof.Machine

namespace Sys2Proof.Proofs

open Sys2Proof Sys2Proof.Machine Sys2Proof.Safety

theorem identifyAnswers : Claims.IdentifyAnswers := by
  unfold Claims.IdentifyAnswers
  refine fun p s => ⟨fun h => ⟨_, execIdentify_of_mailboxUp h, identifyBytes_fields s⟩, fun h => ?_⟩
  exact congrArg Host.Outcome.next (State.command_of_serves h 0x0003 _)

theorem capacityIsPersistent : Claims.CapacityIsPersistent := by
  unfold Claims.CapacityIsPersistent
  refine fun p s h => ⟨s.reportedUnits p, ?_, fun hlt =>
    ⟨⟨_, execIdentifyMemoryDevice_of_serves h, fun k => memoryDeviceBytes_fields s p k hlt⟩,
      _, execGetPartitionInfo_of_serves h, partitionBytes_fields s p hlt⟩⟩
  cases p <;> rfl

theorem deviceStateReport : Claims.DeviceStateReport := by
  unfold Claims.DeviceStateReport
  intro p s h
  obtain ⟨hlen, hstate, hflags, hups, hcap, hops, hcyc, hend⟩ := deviceStateBytes_fields s
  refine ⟨_, execGetDeviceState_of_mailboxUp h, hlen, hstate, ?_, hups, hcap, hops, hcyc, hend⟩
  rw [hflags]
  exact stateFlags_bits s

/-- Settles O24: each report is its payload written out, with the fields read back from it. -/
theorem reportingCommands : Obligations.ReportingCommands := by
  unfold Obligations.ReportingCommands
  exact ⟨identifyAnswers, capacityIsPersistent, deviceStateReport⟩

end Sys2Proof.Proofs
end

section
/-!
SUPPORT. Settings, health, background operations, events and label storage over the mailbox (02_host_ports.md R61 to R64, 16_bring_up.md
R460, R461).
-/

namespace Sys2Proof.Machine

open Sys2Proof Sys2Proof.Safety Sys2Proof.Laws

/-! ### Health and firmware -/

/-- The bytes of Get Health Info, completed by a free value. -/
def healthBytes (s : State) (k : Nat) : List Byte :=
  [Config.healthCode (if s.pwr.fault then 3 else 2), Config.healthCode (if s.upk.pantry then 1 else 0)] ++ freeOf k 2 ++
    leBytes 2 (BitVec.ofInt 16 (s.thm.hot / 16)).toNat ++ leBytes 4 (sat 32 s.boot.dirty) ++ (freeOf k 10).drop 2

theorem execGetHealthInfo_of_serves {s : State} {p : Path} (h : Serves s p anyone) :
    execGetHealthInfo p s = .next (answeredOpen s p 0x4200 (healthBytes s)) := by
  rw [execGetHealthInfo, State.command_of_serves h]
  rfl

theorem healthBytes_fields (s : State) (k : Nat) :
    (healthBytes s k).getD 0 0 = Config.healthCode (if s.pwr.fault then 3 else 2) ∧
      (healthBytes s k).getD 1 0 = Config.healthCode (if s.upk.pantry then 1 else 0) ∧
      field (healthBytes s k) 4 2 = (BitVec.ofInt 16 (s.thm.hot / 16)).toNat ∧
      field (healthBytes s k) 6 4 = min s.boot.dirty (2 ^ 32 - 1) := by
  have htemp : (BitVec.ofInt 16 (s.thm.hot / 16)).toNat % 65536 = (BitVec.ofInt 16 (s.thm.hot / 16)).toNat :=
    Nat.mod_eq_of_lt (BitVec.isLt _)
  have hdirty : sat 32 s.boot.dirty % 4294967296 = min s.boot.dirty 4294967295 := by
    simp only [sat, Nat.reducePow, Nat.reduceSub]
    omega
  refine ⟨rfl, rfl, ?_, ?_⟩
  · simpa [healthBytes, List.append_assoc] using htemp
  · simpa [healthBytes, List.append_assoc] using hdirty

/-- The bytes of Get FW Info. -/
def fwInfoBytes (s : State) : List Byte :=
  [3, byteOf (s.boot.running + 8 * s.boot.state.pendingFw), 0] ++ leBytes 13 0 ++ s.revisionOf 1 ++ s.revisionOf 2 ++
    s.revisionOf 3 ++ leBytes 16 0

theorem execGetFwInfo_of_serves {s : State} {p : Path} (h : Serves s p (s.fwAccess true)) :
    execGetFwInfo p s = .next (answered s p 0x0200 0 (fwInfoBytes s)) := by
  rw [execGetFwInfo, State.command_of_serves h]
  rfl

theorem fwInfoBytes_fields {s : State} (hr : s.boot.running < 8) (hp : s.boot.state.pendingFw < 8) :
    field (fwInfoBytes s) 0 1 = 3 ∧ field (fwInfoBytes s) 1 1 % 8 = s.boot.running ∧
      field (fwInfoBytes s) 1 1 / 8 = s.boot.state.pendingFw ∧ field (fwInfoBytes s) 2 1 = 0 := by
  have hslots : field (fwInfoBytes s) 1 1 = s.boot.running + 8 * s.boot.state.pendingFw := by
    simp [fwInfoBytes, field_one, byteOf]
    omega
  rw [hslots]
  exact ⟨by simp [fwInfoBytes, field_one], by omega, by omega, by simp [fwInfoBytes, field_one]⟩

/-! ### Background operations (R63) -/

/-- The status of a command that runs in the background: its progress is open. -/
def runningBytes (k opcode : Nat) : List Byte :=
  [byteOf (1 + 2 * ((Config.freeWord k).toNat % 100)), 0] ++ leBytes 2 opcode ++ leBytes 4 0

theorem runningBytes_fields {k opcode : Nat} (h : opcode < 2 ^ 16) :
    (runningBytes k opcode).length = 8 ∧ field (runningBytes k opcode) 0 1 % 2 = 1 ∧ field (runningBytes k opcode) 0 1 / 2 < 100 ∧
      field (runningBytes k opcode) 2 2 = opcode := by
  have hfirst : field (runningBytes k opcode) 0 1 = 1 + 2 * ((Config.freeWord k).toNat % 100) := by
    simp [runningBytes, field_one, byteOf]
    omega
  rw [hfirst]
  refine ⟨by simp [runningBytes], by omega, by omega, ?_⟩
  simpa [runningBytes] using h

/-- The status of a command that has ended. -/
def endedBytes (x : BgDone) : List Byte := [200, 0] ++ leBytes 2 x.opcode ++ leBytes 2 x.rc ++ leBytes 2 0

theorem endedBytes_fields {x : BgDone} (ho : x.opcode < 2 ^ 16) (hr : x.rc < 2 ^ 16) :
    (endedBytes x).length = 8 ∧ field (endedBytes x) 0 1 = 200 ∧ field (endedBytes x) 2 2 = x.opcode ∧
      field (endedBytes x) 4 2 = x.rc := by
  refine ⟨by simp [endedBytes], by simp [endedBytes, field_one], ?_, ?_⟩
  · simpa [endedBytes] using ho
  · simpa [endedBytes] using hr

/-- Sending a command to the background marks it and leaves the others; nothing else of any command changes. -/
theorem toBackground_runs (s : State) (r : MbxRun) :
    (s.toBackground r).mbx.runs.map (fun x => (x.path, x.opcode, x.since, x.args, x.rest)) =
      s.mbx.runs.map (fun x => (x.path, x.opcode, x.since, x.args, x.rest)) := by
  simp only [State.toBackground, State.emit, List.map_map]
  refine List.map_congr_left fun x _ => ?_
  dsimp only [Function.comp]
  split <;> rfl

theorem mem_toBackground_runs {s : State} {r : MbxRun} (h : r ∈ s.mbx.runs) : { r with bg := true } ∈ (s.toBackground r).mbx.runs :=
  List.mem_map.mpr ⟨r, h, if_pos rfl⟩

/-! ### Events (R64) -/

/-- The bytes of Get Event Records. -/
def eventBytes (es : List EventRec) : List Byte :=
  [if (es.take 511).length < es.length then 2 else 0, 0] ++ leBytes 18 0 ++ leBytes 2 (es.take 511).length ++ leBytes 10 0 ++
    ((es.take 511).map (fun e => e.bytes)).flatten

theorem execGetEventRecords_of_serves {s : State} {p : Path} (h : Serves s p anyone) (log : Fin 5) :
    execGetEventRecords p log s = .next (answered s p 0x0100 0 (eventBytes (s.logOf (s.pathLink p) log.val))) := by
  rw [execGetEventRecords, State.command_of_serves h]
  rfl

theorem eventBytes_fields (es : List EventRec) :
    field (eventBytes es) 20 2 = min 511 es.length ∧ field (eventBytes es) 0 1 = (if 511 < es.length then 2 else 0) ∧
      (eventBytes es).drop 32 = ((es.take 511).map (fun e => e.bytes)).flatten := by
  refine ⟨?_, ?_, ?_⟩
  · simp [eventBytes, List.append_assoc]
  · by_cases h : 511 < es.length <;> simp [eventBytes, field_one, h]
  · simp [eventBytes, List.append_assoc, List.drop_append, List.drop_of_length_le]

/-- A link's state after the records that a test names are cleared. -/
def Link.clearEvents (gone : EventRec → Bool) (l : Link) : Link :=
  { l with events := l.events.filter (fun e => !gone e), lostEvents := l.lostEvents + countIf gone l.events }

theorem execClearEventRecords_all {s : State} {p : Path} (h : Serves s p anyone) (log : Fin 5) :
    execClearEventRecords p log true [] s = .next (answered
      (s.setLink (s.pathLink p) (Link.clearEvents (fun e => decide (e.log = log.val)))) p 0x0101 0 []) := by
  rw [execClearEventRecords, State.command_of_serves h]
  simp only [Bool.true_or, Bool.and_true, Bool.not_true, Bool.false_and, if_false, Bool.false_eq_true]
  have hlink : s.setLink (s.pathLink p) (Link.clearEvents (fun e => decide (e.log = log.val))) =
      s.setLink (s.pathLink p) (fun l => { l with
        events := l.events.filter (fun e => !decide (e.log = log.val))
        lostEvents := l.lostEvents + countIf (fun e => decide (e.log = log.val)) (s.link (s.pathLink p)).events }) := rfl
  rw [hlink]
  rfl

theorem logOf_clearEvents (s : State) (n m log log' : Nat) :
    (s.setLink n (Link.clearEvents (fun e => decide (e.log = log)))).logOf m log' =
      if m = n ∧ log' = log then [] else s.logOf m log' := by
  simp only [State.logOf, State.link_setLink]
  by_cases hm : m = n
  · subst hm
    rw [if_pos rfl, Link.clearEvents, List.filter_filter]
    by_cases hl : log' = log
    · simp [hl]
    · simp only [hl, and_false, if_false]
      refine List.filter_congr fun e _ => ?_
      by_cases he : e.log = log' <;> simp [he, hl]
  · simp [hm]

theorem execClearEventRecords_unknown {s : State} {p : Path} (h : Serves s p anyone) {log : Fin 5} {hd : BitVec 16}
    (hno : ∀ e ∈ s.logOf (s.pathLink p) log.val, e.handle % 2 ^ 16 ≠ hd.toNat) :
    execClearEventRecords p log false [hd] s = .next (answered s p 0x0101 0x0E []) := by
  rw [execClearEventRecords, State.command_of_serves h]
  dsimp only
  rw [if_pos (by simpa using hno)]
  rfl

/-- Which mailbox answers does not depend on a link's interrupt policy. -/
theorem serves_setEventIrq {s : State} {p : Path} (h : Serves s p anyone) (n : Nat) (bytes : List Byte) :
    Serves (s.setLink n (fun l => { l with eventIrq := bytes })) p anyone := by
  obtain ⟨hup, hin⟩ := h
  refine ⟨?_, hin⟩
  cases p with
  | mctp => exact hup
  | link m =>
    rw [← hup]
    unfold State.mailboxUp
    simp only [State.link_setLink]
    by_cases hm : m.val = n
    · simp only [hm, if_true]
      rfl
    · simp only [hm, if_false]
      rfl

/-! ### Label storage (R64) -/

/-- The label storage area after a write. -/
def writeLabels (lsa : List Byte) (offset : Nat) (data : List Byte) : List Byte :=
  let old := lsa ++ List.replicate (offset + data.length - lsa.length) 0
  old.take offset ++ data ++ old.drop (offset + data.length)

/-- Bytes past the end of a list read 0, whether or not zeros stand there. -/
theorem getD_append_zeros (xs : List Byte) (n i : Nat) : (xs ++ List.replicate n 0).getD i 0 = xs.getD i 0 := by
  simp only [List.getD_eq_getElem?_getD, List.getElem?_append, List.getElem?_replicate]
  by_cases h : i < xs.length
  · rw [if_pos h]
  · rw [if_neg h, List.getElem?_eq_none (by omega)]
    split <;> rfl

theorem getD_writeLabels (lsa data : List Byte) (offset i : Nat) :
    (writeLabels lsa offset data).getD i 0 =
      if offset ≤ i ∧ i < offset + data.length then data.getD (i - offset) 0 else lsa.getD i 0 := by
  unfold writeLabels
  dsimp only
  have hold : ∀ i, (lsa ++ List.replicate (offset + data.length - lsa.length) 0).getD i 0 = lsa.getD i 0 := getD_append_zeros lsa _
  have hlen : offset + data.length ≤ (lsa ++ List.replicate (offset + data.length - lsa.length) (0 : Byte)).length := by
    simp
    omega
  generalize lsa ++ List.replicate (offset + data.length - lsa.length) 0 = old at hold hlen ⊢
  rw [← hold i]
  simp only [List.getD_eq_getElem?_getD, List.getElem?_append, List.getElem?_take, List.getElem?_drop, List.length_append,
    List.length_take, Nat.min_eq_left (show offset ≤ old.length by omega)]
  by_cases h1 : i < offset
  · simp [h1, show i < offset + data.length by omega, Nat.not_le.mpr h1]
  · by_cases h2 : i < offset + data.length
    · simp [h1, h2, Nat.le_of_not_lt h1]
    · simp [h2, show offset + data.length + (i - (offset + data.length)) = i by omega]

theorem execSetLsa_of_fits {s : State} {p : Path} {offset : BitVec 32} {data : List Byte} (h : Serves s p ownerOnly)
    (hfit : offset.toNat + data.length ≤ Config.lsaSize) :
    execSetLsa p offset data s =
      .next (answered { s with mbx := { s.mbx with lsa := writeLabels s.mbx.lsa offset.toNat data } } p 0x4103 0 []) := by
  rw [execSetLsa, State.command_of_serves h, if_neg (by omega)]
  rfl

theorem execSetLsa_of_beyond {s : State} {p : Path} {offset : BitVec 32} {data : List Byte} (h : Serves s p ownerOnly)
    (hfit : Config.lsaSize < offset.toNat + data.length) : execSetLsa p offset data s = .next (answered s p 0x4103 2 []) := by
  rw [execSetLsa, State.command_of_serves h, if_pos hfit]
  rfl

theorem execGetLsa_of_fits {s : State} {p : Path} {offset length : BitVec 32} (h : Serves s p anyone)
    (hfit : offset.toNat + length.toNat ≤ Config.lsaSize) (hmax : length.toNat ≤ 65536) :
    execGetLsa p offset length s = .next (answered s p 0x4102 0
      ((List.range length.toNat).map (fun i => s.mbx.lsa.getD (offset.toNat + i) 0))) := by
  rw [execGetLsa, State.command_of_serves h, if_neg (by omega)]
  rfl

end Sys2Proof.Machine

namespace Sys2Proof.Proofs

open Sys2Proof Sys2Proof.Machine Sys2Proof.Safety

/-- The body of a served command is what its execution gives. -/
theorem exec_served {s : State} {p : Path} {a : Access'} {opcode : Nat} {body : State → State} {c : Instr}
    (h : Serves s p a) (hc : exec c s = .next (s.command p opcode a body)) : exec c s = .next (body s) := by
  rw [hc, State.command_of_serves h]

theorem settingsReadBack : Claims.SettingsReadBack := by
  unfold Claims.SettingsReadBack
  intro p s h
  refine ⟨(exec_served h rfl).trans rfl, (exec_served h rfl).trans rfl, fun hlen => ?alerts,
    ⟨fun k => Config.freeBytes k, (exec_served h rfl).trans rfl⟩, fun uuid offset length => ⟨?log, ?noLog⟩⟩
  case alerts =>
    refine ⟨fun k => freeOf k 4 ++ (s.mbx.alerts ++ List.replicate 12 0).take 12, (exec_served h rfl).trans rfl, fun k => ?_⟩
    simp [hlen]
  case log =>
    intro hmax hknown
    refine ⟨fun k => (freeOf k (offset.toNat + length.toNat)).drop offset.toNat, ?_, fun k => by simp⟩
    refine (exec_served h rfl).trans ?_
    rw [if_neg (by rintro (hlt | hno); exacts [absurd hmax (by omega), hno hknown])]
    rfl
  case noLog =>
    intro hbad
    refine (exec_served h rfl).trans ?_
    rw [if_pos hbad]
    rfl

theorem settingsAreRecorded : Claims.SettingsAreRecorded := by
  unfold Claims.SettingsAreRecorded
  refine fun p s ns alerts v => ⟨fun h =>
    ⟨(exec_served h rfl).trans rfl, (exec_served h rfl).trans rfl, (exec_served h rfl).trans rfl⟩, fun hup hr hp hfo => ?_⟩
  exact ⟨congrArg _ (command_of_tenant hup hr hp hfo _ _), congrArg _ (command_of_tenant hup hr hp hfo _ _),
    congrArg _ (command_of_tenant hup hr hp hfo _ _)⟩

theorem healthAndFirmwareReport : Claims.HealthAndFirmwareReport := by
  unfold Claims.HealthAndFirmwareReport
  exact fun p s => ⟨fun h => ⟨_, execGetHealthInfo_of_serves h, healthBytes_fields s⟩,
    fun h hr hp => ⟨_, execGetFwInfo_of_serves h, fwInfoBytes_fields hr hp⟩⟩

/-- Settles O25: each report is its payload written out; each setting is one field of the mailbox's state. -/
theorem settingsAndHealth : Obligations.SettingsAndHealth := by
  unfold Obligations.SettingsAndHealth
  exact ⟨settingsReadBack, settingsAreRecorded, healthAndFirmwareReport⟩

theorem backgroundStatusReport : Claims.BackgroundStatusReport := by
  unfold Claims.BackgroundStatusReport
  intro p s h
  refine ⟨fun r hr ho => ⟨runningBytes s.free r.opcode, ?_, runningBytes_fields ho⟩,
    fun hnone => ⟨fun x hx ho hrc => ⟨endedBytes x, ?_, endedBytes_fields ho hrc⟩, fun hx => ?_⟩⟩
  · refine (exec_served h rfl).trans ?_
    rw [hr]
    rfl
  · refine (exec_served h rfl).trans ?_
    rw [hnone, hx]
    rfl
  · refine (exec_served h rfl).trans ?_
    rw [hnone, hx]
    rfl

theorem refusedAndLongCommands : Claims.RefusedAndLongCommands := by
  unfold Claims.RefusedAndLongCommands
  intro p s
  refine ⟨fun h => (exec_served h rfl).trans rfl, fun op hup hp => ?_, fun r hr => ?_⟩
  · exact (exec_served (serves_of_mailboxUp hup rfl (.inr hp) rfl) rfl).trans rfl
  · have hexec : exec (.backgroundCommandStarted p) s = .next ((s.reach (r.since + 2 * Config.sec)).toBackground r) := by
      change execBackgroundCommandStarted p s = _
      rw [execBackgroundCommandStarted, hr]
    have hmem : r ∈ s.mbx.runs := List.mem_of_find?_eq_some hr
    have hpath : r.path = p := by
      have := List.find?_some hr
      simp only [Bool.and_eq_true, decide_eq_true_eq] at this
      exact this.1
    exact ⟨_, hpath ▸ hexec, toBackground_runs _ r, _, mem_toBackground_runs (s := s.reach (r.since + 2 * Config.sec)) hmem, hpath, rfl, rfl⟩

theorem eventsOfTheIssuingLink : Claims.EventsOfTheIssuingLink := by
  unfold Claims.EventsOfTheIssuingLink
  intro p s h
  refine ⟨fun log => ⟨_, execGetEventRecords_of_serves h log, eventBytes_fields _⟩,
    fun log => ⟨_, execClearEventRecords_all h log, rfl, ?_, fun n log' hne => ?_⟩,
    fun log hd hno => execClearEventRecords_unknown h hno, fun bytes hlen => ?_⟩
  · exact (logOf_clearEvents s _ _ _ _).trans (if_pos ⟨rfl, rfl⟩)
  · exact (logOf_clearEvents s _ _ _ _).trans (if_neg (by tauto))
  · have hbytes : (List.range 5).map (fun i => bytes.getD i 0) = bytes := by
      refine List.ext_getElem (by simp [hlen]) fun i h1 h2 => ?_
      simp [List.getD_eq_getElem?_getD, h2]
    have hset := exec_served (c := .setEventInterruptPolicy p bytes) h rfl
    rw [hbytes] at hset
    refine ⟨_, hset, rfl, ?_, fun n hn => ?_, ?_⟩
    · exact congrArg Link.eventIrq ((s.link_setLink _ _ _).trans (if_pos rfl))
    · exact (s.link_setLink _ _ _).trans (if_neg hn)
    · have hserves : Serves ((s.setLink (s.pathLink p) (fun l => { l with eventIrq := bytes })).reply p 0x0103 rcOk []) p anyone :=
        serves_setEventIrq h _ _
      have hread : (List.range 5).map (fun i => ((s.setLink (s.pathLink p) (fun l => { l with eventIrq := bytes })).link
          (s.pathLink p)).eventIrq.getD i 0) = bytes := by
        rw [State.link_setLink, if_pos rfl]
        exact hbytes
      refine (exec_served hserves rfl).trans ?_
      exact congrArg (fun b => Host.Outcome.next (answered _ p 0x0102 0 b)) hread

/-- Settles O26: the commands are written out; the last one reads the policy back from the state that the setting left. -/
theorem backgroundAndEvents : Obligations.BackgroundAndEvents := by
  unfold Obligations.BackgroundAndEvents
  exact ⟨backgroundStatusReport, refusedAndLongCommands, eventsOfTheIssuingLink⟩

/-- Settles O15: `writeLabels` is what a write leaves, byte by byte. -/
theorem labelStorageReadsBack : Obligations.LabelStorageReadsBack := by
  unfold Obligations.LabelStorageReadsBack
  exact fun p s offset data h => ⟨fun hfit => ⟨_, execSetLsa_of_fits h hfit, getD_writeLabels _ _ _⟩, execSetLsa_of_beyond h,
    fun length hfit hmax => execGetLsa_of_fits (Serves.anyone h) hfit hmax⟩

end Sys2Proof.Proofs
end

section
/-!
SUPPORT. Dynamic capacity (02_host_ports.md R57, R58): a host that is asked for an extent of a region other than 0.
-/

namespace Sys2Proof.Proofs

open Sys2Proof Sys2Proof.Machine Sys2Proof.Safety

/-- Right after reset but for link 0, which has one extent, of region 1 and tag 2. -/
def oneExtent : State := State.reset.setLink 0 (fun l => { l with extents := [⟨0, 1, 1, 2, 0⟩] })

/-- What link 0 is asked for keeps the region and the tag of its extent. -/
theorem oneExtent_asked : ∀ t, exec (.initiateDynamicCapacityRelease .mctp 0 false [(0, 1)]) oneExtent = .next t →
    (t.link 0).releasing = [⟨0, 1, 1, 2, 0⟩] := by
  have h : (match exec (.initiateDynamicCapacityRelease .mctp 0 false [(0, 1)]) oneExtent with
    | .next t => (t.link 0).releasing
    | _ => []) = [⟨0, 1, 1, 2, 0⟩] := by decide +kernel
  intro t ht
  rwa [ht] at h

/-- Refutes O28: what a host is asked for keeps the region and the tag of the extent, and the last part of
`ExtentsAreOfferedAndAccepted` says that both are 0. An extent of region 1 with tag 2 is the counterexample. -/
theorem not_dynamicCapacity : ¬ Obligations.DynamicCapacity := by
  unfold Obligations.DynamicCapacity Claims.ExtentsAreOfferedAndAccepted
  rintro ⟨-, offered⟩
  obtain ⟨-, -, -, asked⟩ := offered .mctp oneExtent
  have hserves : Serves oneExtent .mctp ownerOnly := by unfold Serves; decide +kernel
  obtain ⟨t, ht, -, hreleasing, -⟩ := asked hserves 0 ⟨0, 1, 1, 2, 0⟩ (by decide +kernel) (by decide)
  have hkept := oneExtent_asked t ht
  have hnone : (oneExtent.link 0).releasing = [] := by decide +kernel
  exact absurd (hreleasing.symm.trans hkept) (by rw [show ((0 : Fin 32) : Nat) = 0 from rfl, hnone]; decide +kernel)

end Sys2Proof.Proofs
end

section
/-!
SUPPORT. SPDM sessions and IDE keys (12_protection.md R374, 02_host_ports.md R62).
-/

namespace Sys2Proof.Machine

open Sys2Proof Sys2Proof.Safety Sys2Proof.Laws

/-! ### A change of one link -/

theorem link_setLink_self (s : State) (n : Nat) (f : Link → Link) : (s.setLink n f).link n = f (s.link n) :=
  (s.link_setLink n n f).trans (if_pos rfl)

theorem link_setLink_ne (s : State) {n k : Nat} (f : Link → Link) (h : k ≠ n) : (s.setLink n f).link k = s.link k :=
  (s.link_setLink n k f).trans (if_neg h)

/-! ### Sessions -/

/-- What a DOE answer leaves. -/
theorem doeReply_eq (s : State) (n code : Nat) :
    s.doeReply n code = sent { s with free := s.free + 1 } (.doe n code (Config.freeBytes s.free)) := rfl

theorem spdm_in_order {s : State} {n : Fin 32} {low high : Nat} (code : Nat) (stage : Option Nat) (hup : (s.link n.val).up = true)
    (hlow : low ≤ s.prot.doe.getD n.val 0) (hhigh : s.prot.doe.getD n.val 0 ≤ high) :
    s.spdm n low high code stage = (match stage with | some k => s.setDoe n.val k | none => s).doeReply n.val code :=
  (if_neg (by simp [hup])).trans (if_pos ⟨hlow, hhigh⟩)

theorem spdm_out_of_order {s : State} {n : Fin 32} {low high : Nat} (code : Nat) (stage : Option Nat) (hup : (s.link n.val).up = true)
    (h : s.prot.doe.getD n.val 0 < low ∨ high < s.prot.doe.getD n.val 0) :
    s.spdm n low high code stage = s.doeReply n.val 0x7F := by
  have hnot : ¬ (low ≤ s.prot.doe.getD n.val 0 ∧ s.prot.doe.getD n.val 0 ≤ high) := by omega
  simp [State.spdm, hup, hnot]

/-- A request that moves no stage is answered with its response or with ERROR, and leaves everything else. -/
theorem spdm_query {s : State} {n : Fin 32} (low high code : Nat) (hup : (s.link n.val).up = true) :
    s.spdm n low high code none = s.doeReply n.val
      (if low ≤ s.prot.doe.getD n.val 0 ∧ s.prot.doe.getD n.val 0 ≤ high then code else 0x7F) := by
  simp only [State.spdm, hup, Bool.not_true, Bool.false_eq_true, if_false]
  split <;> rfl

/-- A request that takes the session to a stage does so where it is in order, and answers ERROR elsewhere. -/
theorem spdm_to_stage {c : Instr} {s : State} {n : Fin 32} {low high code stage : Nat} (hup : (s.link n.val).up = true)
    (hc : exec c s = .next (s.spdm n low high code (some stage))) :
    (low ≤ s.prot.doe.getD n.val 0 → s.prot.doe.getD n.val 0 ≤ high →
      ∃ doe, exec c s = .next (sent { s with free := s.free + 1, prot := { s.prot with doe := doe } }
          (.doe n.val code (Config.freeBytes s.free))) ∧
        ∀ k, doe.getD k 0 = if k = n.val then stage else s.prot.doe.getD k 0) ∧
    (s.prot.doe.getD n.val 0 < low ∨ high < s.prot.doe.getD n.val 0 →
      exec c s = .next (sent { s with free := s.free + 1 } (.doe n.val 0x7F (Config.freeBytes s.free)))) := by
  refine ⟨fun hlow hhigh => ⟨s.prot.doe.set 0 n.val stage, ?_, fun k => SMap.getD_set _ _ _ _ _⟩, fun h => ?_⟩
  · rw [hc, spdm_in_order code _ hup hlow hhigh]
    rfl
  · rw [hc, spdm_out_of_order code _ hup h, doeReply_eq]

/-! ### IDE keys -/

theorem ideKm_in_session {s : State} {n : Fin 32} (code : Nat) (body : State → State) (hup : (s.link n.val).up = true)
    (hdoe : s.prot.doe.getD n.val 0 = 5) : s.ideKm n code body = (body s).doeReply n.val code := by
  simp [State.ideKm, hup, hdoe]

theorem getD_ideKeys_setIdeKeys (s : State) (n : Nat) (ks : List Nat) (k : Nat) :
    (s.setIdeKeys n ks).prot.ideKeys.getD k [] = if k = n then ks else s.prot.ideKeys.getD k [] :=
  SMap.getD_set _ _ _ _ _

theorem link_setIdeKeys_of_ne (s : State) {n k : Nat} (ks : List Nat) (h : k ≠ n) : (s.setIdeKeys n ks).link k = s.link k :=
  link_setLink_ne _ _ h

theorem insecure_setIdeKeys (s : State) (n : Nat) (ks : List Nat) : ((s.setIdeKeys n ks).link n).insecure = (s.link n).insecure := by
  rw [State.setIdeKeys, link_setLink_self]
  rfl

/-- What K_SET_GO makes of the list of a link's keys. -/
def keysGone (ks : List Nat) (c o : Nat) : List Nat :=
  ks.map (fun k => if k / 2 = c / 2 then c + 1 else if k / 2 = o / 2 then o else k)

/-- The codes of keys are even, and a number of its stream, set and direction takes the two numbers from there. -/
theorem ideCode_even (stream set : Nat) (tx : Bool) : ideCode stream set tx % 2 = 0 := by
  unfold ideCode; split <;> omega

theorem mem_keysGone {ks : List Nat} {c o : Nat} (h : c ∈ ks) : c + 1 ∈ keysGone ks c o :=
  List.mem_map.2 ⟨c, h, if_pos rfl⟩

theorem not_mem_keysGone {ks : List Nat} {c o : Nat} (ho : o % 2 = 0) (hne : o ≠ c) : o + 1 ∉ keysGone ks c o := by
  intro h
  obtain ⟨k, -, hk⟩ := List.mem_map.1 h
  split at hk
  · omega
  · split at hk <;> omega

theorem not_mem_keysStopped {ks : List Nat} {c : Nat} (hc : c % 2 = 0) : c + 1 ∉ ks.map (fun k => if k / 2 = c / 2 then c else k) := by
  intro h
  obtain ⟨k, -, hk⟩ := List.mem_map.1 h
  split at hk <;> omega

theorem ideCode_other_ne (stream : Nat) (set : Fin 2) (tx : Bool) : ideCode stream (1 - set.val) tx ≠ ideCode stream set.val tx := by
  have := set.isLt
  unfold ideCode
  omega

/-- The state with a stream of a link Insecure no more, where the link's keys make it secure. -/
def cleared (s : State) (n stream : Nat) (ks : List Nat) : State :=
  if ideSecure ks stream then s.setLink n (fun l => { l with insecure := l.insecure.filter (fun x => x != stream) }) else s

theorem cleared_prot (s : State) (n stream : Nat) (ks : List Nat) : (cleared s n stream ks).prot = s.prot := by
  unfold cleared; split <;> rfl

theorem cleared_out (s : State) (n stream : Nat) (ks : List Nat) : (cleared s n stream ks).out = s.out := by
  unfold cleared; split <;> rfl

theorem cleared_free (s : State) (n stream : Nat) (ks : List Nat) : (cleared s n stream ks).free = s.free := by
  unfold cleared; split <;> rfl

theorem link_cleared_of_ne (s : State) {n k : Nat} (stream : Nat) (ks : List Nat) (h : k ≠ n) :
    (cleared s n stream ks).link k = s.link k := by
  unfold cleared
  split
  · exact link_setLink_ne _ _ h
  · rfl

theorem insecure_cleared {n stream : Nat} {ks : List Nat} (s : State) (h : ideSecure ks stream = true) :
    ((cleared s n stream ks).link n).insecure.contains stream = false := by
  rw [cleared, if_pos h, link_setLink_self]
  simp

/-- The state that K_SET_GO leaves of a link whose keys become a list. -/
def goneIn (s : State) (n stream : Nat) (ks : List Nat) : State := ((cleared s n stream ks).setIdeKeys n ks).doeReply n 0x106

theorem goneIn_ideKeys (s : State) (n stream : Nat) (ks : List Nat) (k : Nat) :
    (goneIn s n stream ks).prot.ideKeys.getD k [] = if k = n then ks else s.prot.ideKeys.getD k [] := by
  refine (getD_ideKeys_setIdeKeys _ _ _ _).trans ?_
  rw [cleared_prot]

theorem goneIn_link_of_ne (s : State) {n k : Nat} (stream : Nat) (ks : List Nat) (h : k ≠ n) :
    (goneIn s n stream ks).link k = s.link k :=
  (link_setIdeKeys_of_ne _ _ h).trans (link_cleared_of_ne _ _ _ h)

theorem goneIn_insecure {n stream : Nat} {ks : List Nat} (s : State) (h : ideSecure ks stream = true) :
    ((goneIn s n stream ks).link n).insecure.contains stream = false :=
  (congrArg (fun l => l.contains stream) (insecure_setIdeKeys _ _ _)).trans (insecure_cleared s h)

theorem goneIn_out (s : State) (n stream : Nat) (ks : List Nat) :
    (goneIn s n stream ks).out = s.out ++ [.doe n 0x106 (Config.freeBytes s.free)] := by
  have hout : (goneIn s n stream ks).out =
      (cleared s n stream ks).out ++ [.doe n 0x106 (Config.freeBytes (cleared s n stream ks).free)] := rfl
  rw [hout, cleared_out, cleared_free]

theorem execKSetGo_of_programmed {s : State} {n : Fin 32} {stream : Fin 6} {set : Fin 2} {tx : Bool} (hup : (s.link n.val).up = true)
    (hdoe : s.prot.doe.getD n.val 0 = 5) (h : ideCode stream.val set.val tx ∈ s.prot.ideKeys.getD n.val []) :
    execKSetGo n stream set tx s = .next (goneIn s n.val stream.val
      (keysGone (s.prot.ideKeys.getD n.val []) (ideCode stream.val set.val tx) (ideCode stream.val (1 - set.val) tx))) := by
  have hany : (s.prot.ideKeys.getD n.val []).any (fun k => decide (k / 2 = ideCode stream.val set.val tx / 2)) = true :=
    List.any_eq_true.2 ⟨_, h, by simp⟩
  rw [execKSetGo, ideKm_in_session _ _ hup hdoe]
  exact congrArg (fun u => Host.Outcome.next (State.doeReply u n.val 0x106)) (if_pos hany)

end Sys2Proof.Machine

namespace Sys2Proof.Proofs

open Sys2Proof Sys2Proof.Machine Sys2Proof.Safety

theorem sessionsAreSetUpInOrder : Claims.SessionsAreSetUpInOrder := by
  unfold Claims.SessionsAreSetUpInOrder
  intro s n hup c low high code stage hmem
  simp only [List.mem_cons, Prod.mk.injEq, List.not_mem_nil, or_false] at hmem
  obtain ⟨rfl, rfl, rfl, rfl, rfl⟩ | ⟨rfl, rfl, rfl, rfl, rfl⟩ | ⟨rfl, rfl, rfl, rfl, rfl⟩ | ⟨rfl, rfl, rfl, rfl, rfl⟩ |
    ⟨rfl, rfl, rfl, rfl, rfl⟩ | ⟨rfl, rfl, rfl, rfl, rfl⟩ := hmem <;> exact spdm_to_stage hup rfl

theorem sessionQueriesAnswer : Claims.SessionQueriesAnswer := by
  unfold Claims.SessionQueriesAnswer
  intro s n hup c low code hmem
  simp only [List.mem_cons, Prod.mk.injEq, List.not_mem_nil, or_false] at hmem
  obtain ⟨rfl, rfl, rfl⟩ | ⟨rfl, rfl, rfl⟩ | ⟨rfl, rfl, rfl⟩ | ⟨rfl, rfl, rfl⟩ | ⟨rfl, rfl, rfl⟩ | ⟨rfl, rfl, rfl⟩ := hmem
  case inr.inr.inr.inr.inr =>
    change Host.Outcome.next (s.ideKm n 0x101 (fun s => s)) = _
    by_cases hdoe : s.prot.doe.getD n.val 0 = 5
    · rw [ideKm_in_session _ _ hup hdoe, if_pos (by omega)]
      rfl
    · rw [if_neg (by omega)]
      simp [State.ideKm, hup, hdoe, doeReply_eq]
  all_goals exact congrArg Host.Outcome.next (spdm_query _ 5 _ hup)

theorem ideKeysComeIntoUse : Claims.IdeKeysComeIntoUse := by
  unfold Claims.IdeKeysComeIntoUse
  intro s n stream set tx hup hdoe
  have heven := ideCode_even stream.val set.val tx
  refine ⟨⟨_, congrArg Host.Outcome.next (ideKm_in_session _ _ hup hdoe), ?_, ?_, fun k hk => ?_, rfl⟩, fun hprog => ?_,
    ⟨_, congrArg Host.Outcome.next (ideKm_in_session _ _ hup hdoe), ?_, fun k hk => ?_, rfl⟩⟩
  · exact (getD_ideKeys_setIdeKeys _ _ _ _).trans (if_pos rfl) ▸ by simp
  · refine (getD_ideKeys_setIdeKeys _ _ _ _).trans (if_pos rfl) ▸ ?_
    simp only [List.mem_append, List.mem_filter, List.mem_singleton, decide_eq_true_eq]
    omega
  · exact (getD_ideKeys_setIdeKeys _ _ _ _).trans (if_neg hk)
  · refine ⟨_, execKSetGo_of_programmed hup hdoe hprog, ?_, ?_, fun hsec => ?_, fun k hk => ⟨?_, ?_⟩, goneIn_out _ _ _ _⟩
    · rw [goneIn_ideKeys, if_pos rfl]
      exact mem_keysGone hprog
    · rw [goneIn_ideKeys, if_pos rfl]
      exact not_mem_keysGone (ideCode_even _ _ _) (ideCode_other_ne _ _ _)
    · rw [goneIn_ideKeys, if_pos rfl] at hsec
      exact goneIn_insecure s hsec
    · rw [goneIn_ideKeys, if_neg hk]
    · exact goneIn_link_of_ne _ _ _ hk
  · exact (getD_ideKeys_setIdeKeys _ _ _ _).trans (if_pos rfl) ▸ not_mem_keysStopped heven
  · exact (getD_ideKeys_setIdeKeys _ _ _ _).trans (if_neg hk)

theorem failedCheckMakesStreamInsecure : Claims.FailedCheckMakesStreamInsecure := by
  unfold Claims.FailedCheckMakesStreamInsecure
  intro s n stream
  refine ⟨fun hup hsec => ⟨_, if_pos (by rw [hup, hsec]; rfl), ?_, ?_, fun k hk => ⟨?_, ?_⟩, ?_⟩, fun h => if_neg (by
    obtain h | h := h <;> rw [h] <;> simp)⟩
  · exact (insecure_setIdeKeys _ _ _).trans (congrArg Link.insecure (link_setLink_self s _ _))
  · refine (getD_ideKeys_setIdeKeys _ _ _ _).trans (if_pos rfl) ▸ fun k hk => ?_
    simpa using (List.mem_filter.1 hk).2
  · exact (link_setIdeKeys_of_ne _ _ hk).trans (link_setLink_ne s _ hk)
  · exact (getD_ideKeys_setIdeKeys _ _ _ _).trans (if_neg hk)
  · exact Rail.waiting_push _ _ _ _

/-- Settles O34: each request is a use of `spdm` or of `ideKm`. -/
theorem sessionsAndLinkKeys : Obligations.SessionsAndLinkKeys := by
  unfold Obligations.SessionsAndLinkKeys
  exact ⟨sessionsAreSetUpInOrder, sessionQueriesAnswer, ideKeysComeIntoUse, failedCheckMakesStreamInsecure⟩

end Sys2Proof.Proofs
end

section
/-!
SUPPORT. A lookup whose own read finds its loaf entry's word lost (04_translation.md R122, 13_memory_integrity.md R385, R388).
-/

namespace Sys2Proof.Proofs

open Sys2Proof Sys2Proof.Machine Sys2Proof.Safety

/-- `lookupOfLostWord` with loaf 0 mapped whole, from sector 0 of the media. -/
def lookupOfLostMappedWord : State :=
  { lookupOfLostWord with siv := { lookupOfLostWord.siv with loafs := [(0, { LoafE.unmapped with fmt := 1 })] } }

theorem lookupOfLostMappedWord_loafWordLost : LoafWordLost lookupOfLostMappedWord 0 7 where
  uncached := by decide
  stored := by decide
  bad := by decide +kernel

/-- Refutes O40: the first part of `LookupsResolve` wants a load whose lines are not locked when its lookup is taken to go on to the media,
but that lookup's own read may be the first to find an uncorrectable word of the map stacks. It locks the line then, and the load waits
for its reconstruction (13 R385, R388), its stage unchanged. -/
theorem not_readPath : ¬ Obligations.ReadPath := by
  unfold Obligations.ReadPath Claims.LookupsResolve
  rintro ⟨lookups, -, -⟩
  have hc : Clocked lookupOfLostMappedWord := by unfold Clocked; decide
  obtain ⟨r, hr⟩ : ∃ r, (lookupOfLostMappedWord.rails.translate.getD (0 : Fin 4).val .empty).take 512 = some (.load 0, r) := ⟨_, rfl⟩
  have hl : lookupOfLostMappedWord.loads.find 0 = some loadOfLine0 := rfl
  obtain ⟨resolves, -⟩ := lookups lookupOfLostMappedWord 0 r hc
  obtain ⟨t, ht, hmedia, -⟩ := resolves 0 loadOfLine0 0 hr hl (by decide) (by decide) (by decide) (by decide)
  obtain ⟨u, hu, hwaits⟩ := execTranslateLookup_waits hc hr hl lookupOfLostMappedWord_loafWordLost
  obtain rfl : t = u := by simpa using ht.symm.trans hu
  exact absurd (hmedia.symm.trans hwaits) (by decide)

end Sys2Proof.Proofs
end

section
/-!
SUPPORT. Hooks (09_ordering.md R282 to R288, R293). Each command is written out for the case that it acts in: all of them end in one
`State.setHook`, so `hook_setHook_self` and `hook_setHook_ne` say what they leave of every hook.
-/

namespace Sys2Proof.Machine

open Sys2Proof Sys2Proof.Safety Sys2Proof.Laws

/-! ### Register writes that take effect -/

theorem portWrite_of_writes {s : State} {path : Path} {off o : Nat} {p : RPage} (h : Writes s path p) (hl : locate off = some (p, o))
    (data : W32) (body : State → State) : s.portWrite path off data body = body s := by
  obtain ⟨hheard, -, hclear, hdead⟩ := h
  exact State.portWrite_of_clear hheard hclear hl hdead data body

theorem mayWrite_of_writes {s : State} {path : Path} {p : RPage} (h : Writes s path p) : s.mayWrite path p = true := by
  obtain ⟨hheard, hview, -, -⟩ := h
  simp [State.mayWrite, hheard, hview]

/-! ### A change of one hook -/

theorem hook_setHook_self (s : State) (h : Nat) (x : Hook) : (s.setHook h x).hook h = x := by
  rw [State.hook_setHook, if_pos rfl]

theorem hook_setHook_ne (s : State) {h k : Nat} (x : Hook) (hk : k ≠ h) : (s.setHook h x).hook k = s.hook k := by
  rw [State.hook_setHook, if_neg hk]

/-! ### Acquiring -/

/-- The answer of a read of an acquire register. -/
def acquireAnswer (s : State) (n : Fin 32) (w : W32) (code : Nat) : State :=
  (s.tally (s.linkEv code n.val none none) 1).emit (.regRead (.link n) [w])

theorem noted_acquireAnswer (s : State) (n : Fin 32) (w : W32) (code : Nat) : Noted s (acquireAnswer s n w code) :=
  noted_trans (noted_tally _ _ _) (noted_emit _ _)

theorem acquireAnswer_out (s : State) (n : Fin 32) (w : W32) (code : Nat) :
    (acquireAnswer s n w code).out.getLast? = some (.regRead (.link n) [w]) := by
  simp [acquireAnswer]

/-- The hook that a grant to link `n` makes of `k`. -/
def granted (s : State) (n : Nat) (k : Hook) : Hook :=
  { k with state := 1, owner := s.group n, serial := k.serial + 1, since := s.now, lease := s.leaseOf k }

section
variable {s : State} {n : Fin 32} {h : Fin 4096}

theorem execHookAcquire_grants (hf : s.fenceAdmits n.val n.isLt true = true) (ho : s.hookOpen h.val n.val = true)
    (hk : (s.hook h.val).state = 0 ∨ (s.hook h.val).state = 2) :
    execHookAcquire n h s = .next (acquireAnswer (s.setHook h.val (granted s n.val (s.hook h.val))) n
      (hookToken true (decide ((s.hook h.val).state = 2)) false (s.group n.val) ((s.hook h.val).serial + 1)) 0x061) := by
  rw [execHookAcquire, if_neg (by simp [hf])]
  exact (if_neg (by simp [ho])).trans (if_pos hk)

theorem execHookAcquire_held (hf : s.fenceAdmits n.val n.isLt true = true) (ho : s.hookOpen h.val n.val = true)
    (h0 : (s.hook h.val).state ≠ 0) (h2 : (s.hook h.val).state ≠ 2) :
    execHookAcquire n h s =
      .next (acquireAnswer s n (hookToken false false false (s.hook h.val).owner (s.hook h.val).serial) 0x062) := by
  rw [execHookAcquire, if_neg (by simp [hf])]
  exact (if_neg (by simp [ho])).trans (if_neg (not_or.2 ⟨h0, h2⟩))

theorem execHookAcquire_denied (hf : s.fenceAdmits n.val n.isLt true = true) (ho : s.hookOpen h.val n.val = false) :
    execHookAcquire n h s = .next (acquireAnswer s n (hookToken false false true 0 0) 0x062) := by
  rw [execHookAcquire, if_neg (by simp [hf])]
  exact if_pos (by simp [ho])

end

/-- What a grant leaves besides its hook is a note. -/
theorem noted_granted (s : State) (n : Fin 32) (h : Nat) (x : Hook) (w : W32) (code : Nat) :
    Noted { s with hooks := (acquireAnswer (s.setHook h x) n w code).hooks } (acquireAnswer (s.setHook h x) n w code) := by
  have hnoted := noted_acquireAnswer (s.setHook h x) n w code
  have hhooks : (acquireAnswer (s.setHook h x) n w code).hooks = (s.setHook h x).hooks := by
    obtain ⟨tly, live, out, ev, reports, ht, -⟩ := hnoted
    rw [ht]
  rw [hhooks]
  exact hnoted

/-! ### Releasing and renewing -/

/-- The hook that a release by link `n` makes of `k`, with the device fence that it waits for. -/
def releasing (s : State) (n : Nat) (k : Hook) : Hook :=
  { k with state := 3, link := n, fence := some { s.newFence n 2 false 0 with started := some s.now } }

section
variable {s : State} {n : Fin 32} {h : Fin 4096} {serial : BitVec 16} (hf : s.fenceAdmits n.val n.isLt false = true)
  (hb : (s.link n.val).blocked = []) (hw : s.hookWritable h.val n.val = true)
include hf hb hw

theorem execHookRelease_of_acts (ha : s.hookActs h.val n.val serial = true) :
    execHookRelease n h serial s = .next (s.setHook h.val (releasing s n.val (s.hook h.val))) := by
  have hclear : Clear s (.link n) := by
    rintro m ⟨⟩
    exact hb
  rw [execHookRelease, State.portWrite_of_clear (heard_of_fenceAdmits hf) hclear (locate_hookAcq n h) rfl]
  exact congrArg _ ((if_neg (by simp [hf, hw])).trans (if_pos ha))

theorem execHookRelease_of_idle (ha : s.hookActs h.val n.val serial = false) :
    execHookRelease n h serial s = .next (s.record 0x4002 n.val h.val serial.toNat 0) := by
  have hclear : Clear s (.link n) := by
    rintro m ⟨⟩
    exact hb
  rw [execHookRelease, State.portWrite_of_clear (heard_of_fenceAdmits hf) hclear (locate_hookAcq n h) rfl]
  exact congrArg _ ((if_neg (by simp [hf, hw])).trans (if_neg (by simp [ha])))

theorem execHookRenew_of_idle (ha : s.hookActs h.val n.val serial = false) :
    execHookRenew n h serial s = .next (s.record 0x4002 n.val h.val serial.toNat 0) := by
  have hclear : Clear s (.link n) := by
    rintro m ⟨⟩
    exact hb
  rw [execHookRenew, State.portWrite_of_clear (heard_of_fenceAdmits hf) hclear (locate_hookAcq n h) rfl]
  exact congrArg _ ((if_neg (by simp [hf, hw])).trans (if_neg (by simp [ha])))

end

/-- The hook whose release fence has ended. -/
def released (k : Hook) (f : Fence) : Hook := if f.discards = 0 then { k with state := 0, owner := 0, fence := none } else k.break_

theorem released_fields (k : Hook) (f : Fence) :
    (released k f).state = (if f.discards = 0 then 0 else 2) ∧ (released k f).fence = none ∧ (released k f).serial = k.serial := by
  unfold released
  split <;> exact ⟨rfl, rfl, rfl⟩

section
variable {s : State} {h : Fin 4096}

theorem execHookReleaseFenceComplete_of_done {f : Fence} (hc : Clocked s) (hf : (s.hook h.val).fence = some f)
    (hd : s.fenceDone (s.hook h.val).link f = true) :
    execHookReleaseFenceComplete h s = .next (s.setHook h.val (released (s.hook h.val) f)) := by
  unfold Clocked at hc
  simp only [execHookReleaseFenceComplete, hc, hf, hd]
  rfl

theorem execHookReleaseFenceComplete_of_running {f : Fence} (hf : (s.hook h.val).fence = some f)
    (hd : s.fenceDone (s.hook h.val).link f = false) : execHookReleaseFenceComplete h s = .next s := by
  simp [execHookReleaseFenceComplete, hf, hd]

theorem execHookLeaseExpiry_of_held (hc : Clocked s) (hk : (s.hook h.val).state = 1) :
    execHookLeaseExpiry h s = .next ((s.reach ((s.hook h.val).since + (s.hook h.val).lease * Config.ms)).setHook h.val
      (s.hook h.val).break_) := by
  unfold Clocked at hc
  simp [execHookLeaseExpiry, hc, hk]

theorem execHookLeaseExpiry_of_not_held (hk : (s.hook h.val).state ≠ 1) : execHookLeaseExpiry h s = .next s := by
  simp [execHookLeaseExpiry, hk]

theorem execHookBreak_of_writes {path : Path} (hw : Writes s path .spr) :
    execHookBreak path h s = .next (if (s.hook h.val).state = 1
      then (s.setLive .spr 0x908 (at32 h.val 0)).setHook h.val (s.hook h.val).break_ else s.setLive .spr 0x908 (at32 h.val 0)) := by
  rw [execHookBreak, portWrite_of_writes hw rfl]
  exact congrArg _ (if_neg (by simp [mayWrite_of_writes hw]))

end

end Sys2Proof.Machine

namespace Sys2Proof.Proofs

open Sys2Proof Sys2Proof.Machine Sys2Proof.Safety Sys2Proof.Laws

theorem hooksAreGranted : Claims.HooksAreGranted := by
  unfold Claims.HooksAreGranted
  intro s n h hf
  refine ⟨fun ho hk => ?_, fun ho h0 h2 => ?_, fun ho => ?_⟩
  · refine ⟨_, execHookAcquire_grants hf ho hk, noted_granted _ _ _ _ _ _, ?_, fun k hne => ?_, acquireAnswer_out _ _ _ _⟩
    · rw [hook_of_noted (noted_acquireAnswer _ _ _ _), hook_setHook_self]
      rfl
    · rw [hook_of_noted (noted_acquireAnswer _ _ _ _), hook_setHook_ne _ _ hne]
  · exact ⟨_, execHookAcquire_held hf ho h0 h2, noted_acquireAnswer _ _ _ _, acquireAnswer_out _ _ _ _⟩
  · exact ⟨_, execHookAcquire_denied hf ho, noted_acquireAnswer _ _ _ _, acquireAnswer_out _ _ _ _⟩

theorem hooksAreReleased : Claims.HooksAreReleased := by
  unfold Claims.HooksAreReleased
  intro s n h serial
  refine ⟨fun hf hb hw => ⟨fun ha => ⟨?_, ?_⟩, ?_⟩, fun f hfence => ⟨fun hc hd => ?_, execHookReleaseFenceComplete_of_running hfence⟩,
    fun hc hk => ?_, execHookLeaseExpiry_of_not_held, fun path hw => ?_⟩
  · exact ⟨_, _, execHookRelease_of_acts hf hb hw ha, rfl, hook_setHook_self _ _ _, rfl, rfl, fun k => hook_setHook_ne _ _⟩
  · exact ⟨_, execHookRenew_of_acts hf hb hw ha, rfl, hook_setHook_self _ _ _, fun k => hook_setHook_ne _ _⟩
  · rintro ha c (rfl | rfl)
    · exact ⟨_, execHookRelease_of_idle hf hb hw ha, noted_record _ _ _ _ _ _, Rail.waiting_push _ _ _ _⟩
    · exact ⟨_, execHookRenew_of_idle hf hb hw ha, noted_record _ _ _ _ _ _, Rail.waiting_push _ _ _ _⟩
  · obtain ⟨hstate, hnone, hserial⟩ := released_fields (s.hook h.val) f
    refine ⟨_, execHookReleaseFenceComplete_of_done hc hfence hd, rfl, ?_⟩
    rw [hook_setHook_self]
    exact ⟨hstate, hnone, hserial, fun k => hook_setHook_ne _ _⟩
  · refine ⟨_, execHookLeaseExpiry_of_held hc hk, rfl, rfl, ?_⟩
    rw [hook_setHook_self]
    exact ⟨rfl, rfl, fun k => hook_setHook_ne _ _⟩
  · refine ⟨_, execHookBreak_of_writes hw, ?_⟩
    by_cases hk : (s.hook h.val).state = 1
    · rw [if_pos hk]
      exact ⟨rfl, fun k => hook_setHook_ne _ _, fun _ => by rw [hook_setHook_self]; exact ⟨rfl, rfl⟩, fun hne => absurd hk hne⟩
    · rw [if_neg hk]
      exact ⟨rfl, fun k _ => rfl, fun h1 => absurd h1 hk, fun _ => rfl⟩

/-- Settles O46: every command ends in one `State.setHook`, or in a note. -/
theorem hooks : Obligations.Hooks := by
  unfold Obligations.Hooks
  exact ⟨hooksAreGranted, hooksAreReleased⟩

end Sys2Proof.Proofs
end

section
/-!
SUPPORT. Fault reports, backoffs, lanes and steward restarts (14_faults_and_recovery.md R398, R399, R403, R405, R409, R410, R415).
-/

namespace Sys2Proof.Machine

open Sys2Proof Sys2Proof.Safety Sys2Proof.Laws

/-! ### The capture words (R415) -/

theorem getLive_capture_uid (s : State) (r : Report) (outcome count : Nat) :
    (s.capture r outcome count).getLive .flt 0x24 = BitVec.ofNat 32 r.uid := by
  simp [State.capture, State.getLive_setLive_of_ne]

/-- A capture leaves every register but its four words. -/
theorem getLive_capture_flt (s : State) (r : Report) (outcome count : Nat) {o : Nat} (h : o < 0x20 ∨ 0x2C < o) :
    (s.capture r outcome count).getLive .flt o = s.getLive .flt o := by
  simp only [State.capture]
  rw [State.getLive_setLive_of_ne _ _ _ (by omega), State.getLive_setLive_of_ne _ _ _ (by omega),
    State.getLive_setLive_of_ne _ _ _ (by omega), State.getLive_setLive_of_ne _ _ _ (by omega)]

theorem irqStat_setLive (s : State) {p q : RPage} {o : Nat} (v : W32) (h : q.base + 0x14 ≠ p.base + o) :
    (s.setLive p o v).irqStat q = s.irqStat q := by
  unfold State.irqStat State.setLive SMap.set SMap.getD
  dsimp only
  split
  · rw [SMap.find_del_of_ne _ h]
  · rw [SMap.find_put_of_ne _ _ h]

theorem irqStat_capture_stw (s : State) (r : Report) (outcome count : Nat) :
    (s.capture r outcome count).irqStat .stw = s.irqStat .stw := by
  simp only [State.capture]
  rw [irqStat_setLive _ _ (by decide), irqStat_setLive _ _ (by decide), irqStat_setLive _ _ (by decide),
    irqStat_setLive _ _ (by decide)]

/-! ### A corrected word (R382 to R384) -/

theorem mec_of_noted {s t : State} (h : Noted s t) : t.mec = s.mec := by
  obtain ⟨tly, live, out, ev, reports, rfl, -⟩ := h
  rfl

theorem mecCount_updMec_self (s : State) (d i : Nat) (f : MecCount → MecCount) :
    (s.updMec d i f).mecCount d i = f (s.mecCount d i) :=
  (SMap.getD_upd _ _ _ _ _).trans (if_pos rfl)

/-- Raising SAT leaves the counts. -/
theorem noteSat_counts (s : State) (full : Bool) : (s.noteSat full).mec.counts = s.mec.counts := by
  unfold State.noteSat
  split
  · rw [mec_of_noted (noted_raise _ _ _)]
  · rfl

theorem mecCount_of_counts {s t : State} (h : t.mec.counts = s.mec.counts) (d i : Nat) : t.mecCount d i = s.mecCount d i :=
  by
  rw [State.mecCount, State.mecCount, h]

/-- What a corrected word notes besides its count. -/
theorem counts_noteCorrected (s : State) (d : Nat) (spill full : Bool) :
    (State.noteSat (if spill then (s.tally (.plain 0x070) 1).raise .mec d else s.tally (.plain 0x070) 1) full).mec.counts =
      s.mec.counts := by
  rw [noteSat_counts]
  split
  · rw [mec_of_noted (noted_trans (noted_tally _ _ _) (noted_raise _ _ _))]
  · rw [mec_of_noted (noted_tally _ _ _)]

theorem countCorrected_counts (s : State) (d i off p0 p1 : Nat) : ∃ f : MecCount → MecCount,
    (∀ c, (f c).ce = sat 31 (c.ce + 1) ∧ (f c).lastOff = off ∧ (f c).ue = c.ue) ∧
      (s.countCorrected d i off p0 p1).mec.counts = (s.updMec d i f).mec.counts := by
  unfold State.countCorrected
  dsimp only
  refine ⟨_, ?_, counts_noteCorrected _ d _ _⟩
  exact fun _ => ⟨rfl, rfl, rfl⟩

/-- A corrected word adds one to the count of its memory, is its last, and leaves the count of the uncorrectable ones. -/
theorem mecCount_countCorrected (s : State) (d i off p0 p1 : Nat) :
    ((s.countCorrected d i off p0 p1).mecCount d i).ce = sat 31 ((s.mecCount d i).ce + 1) ∧
      ((s.countCorrected d i off p0 p1).mecCount d i).lastOff = off ∧
      ((s.countCorrected d i off p0 p1).mecCount d i).ue = (s.mecCount d i).ue := by
  obtain ⟨f, hf, hcounts⟩ := countCorrected_counts s d i off p0 p1
  rw [mecCount_of_counts hcounts, mecCount_updMec_self]
  exact hf _

theorem ledgerEntry_mec (s : State) (utype uid : Nat) : (s.ledgerEntry utype uid).mec = s.mec := by
  unfold State.ledgerEntry
  split
  · exact mec_of_noted (noted_trans (noted_record _ _ _ _ _ _) (noted_raise _ _ _))
  · rfl

theorem spareUnit_mec (s : State) (utype uid : Nat) : (s.spareUnit utype uid).mec = s.mec := by
  unfold State.spareUnit
  dsimp only
  split
  · rfl
  · rw [ledgerEntry_mec]
    split
    · rw [mec_of_noted (noted_raise _ _ _)]
    · rfl

/-- What the ledger decides for a row or a line leaves the counts of words. -/
theorem retireUnit_mec {s : State} {r : Report} (h : r.utype = 4 ∨ r.utype = 5) : (s.retireUnit r).mec = s.mec := by
  have hspare : s.retireUnit r = if s.sparesLeft r.utype r.uid = 0 then s.spareUnit r.utype r.uid
      else (s.spareUnit r.utype r.uid).noteRetire r 1 := by
    unfold State.retireUnit
    obtain h | h := h <;> rw [h] <;> rfl
  rw [hspare]
  split
  · exact spareUnit_mec _ _ _
  · exact (mec_of_noted (noted_trans (noted_record _ _ _ _ _ _) (noted_raise _ _ _))).trans (spareUnit_mec _ _ _)

theorem wordUnit_kind (d i off : Nat) : (wordUnit d i off).1 = 4 ∨ (wordUnit d i off).1 = 5 := by
  unfold wordUnit
  split
  · exact .inl rfl
  · exact .inr rfl

theorem makeRoom_mec (s : State) (k : Nat) : (s.makeRoom k).mec = s.mec := by
  unfold State.makeRoom
  split
  · rfl
  · dsimp only
    split <;> rfl

theorem countTransient_mec (s : State) {r : Report} (h : r.utype = 4 ∨ r.utype = 5) : (s.countTransient r).2.mec = s.mec := by
  rw [State.countTransient, if_neg (by omega)]
  exact makeRoom_mec s _

/-- A report of a corrected word or of a line leaves the counts of words. -/
theorem takeReport_mec {s : State} {r : Report} (h : r.utype = 4 ∨ r.utype = 5) (hp : sourcePermanent r.source = false)
    (hr : sourceRetried r.source = false) : (s.takeReport r).mec = s.mec := by
  have hcount := countTransient_mec s h
  simp only [State.takeReport, hp, hr, Bool.false_eq_true, if_false]
  split
  · rfl
  split
  · exact hcount
  split
  · exact (retireUnit_mec h).trans hcount
  · exact hcount

theorem mecCount_corrected (s : State) (d i off p0 p1 : Nat) :
    (s.corrected d i off p0 p1).mecCount d i = (s.countCorrected d i off p0 p1).mecCount d i := by
  refine mecCount_of_counts (congrArg Mec.counts (takeReport_mec (wordUnit_kind d i off) ?_ ?_)) d i <;>
  · dsimp only
    split <;> rfl

/-! ### Steward restarts (R409, R410) -/

/-- What a restart of steward `c` leaves, before it is judged whether it is one too many. -/
def restarted (s : State) (c cause : Nat) : State := (s.bumpEpoch (96 + c)).noteRestart c cause ((s.bumpEpoch (96 + c)).stwRecent c)

/-- What a restart counts. -/
def countedRestart (s : State) (c : Nat) : State :=
  { s with
    flt := { s.flt with
      epochs := s.flt.epochs.upd 0 (96 + c) (· + 1), stwTimes := s.flt.stwTimes.put c (s.stwRecent c)
      stwRestarts := sat 16 (s.flt.stwRestarts + 1) }
    stw := { s.stw with restarts := s.stw.restarts.upd 0 c (· + 1), state := s.stw.state.set 0 c 0 } }

/-- What a restart counts, records and raises. -/
def notedRestart (s : State) (c cause : Nat) : State :=
  ((countedRestart s c).record 0x7002 c cause ((countedRestart s c).flt.epochs.getD (96 + c) 0).toNat 0).raise .stw 0

theorem restarted_eq (s : State) (c cause : Nat) :
    restarted s c cause = (notedRestart s c cause).capture ⟨16, 6, c⟩ 0 (s.stwRecent c).length := rfl

theorem noted_notedRestart (s : State) (c cause : Nat) : Noted (countedRestart s c) (notedRestart s c cause) :=
  noted_trans (noted_record _ _ _ _ _ _) (noted_raise _ _ _)

theorem notedRestart_irq (s : State) (c cause : Nat) : ((notedRestart s c cause).irqStat .stw).getLsbD 0 = true := by
  rw [notedRestart, irqStat_raise, if_pos rfl]
  simp [bit32]

theorem notedRestart_event (s : State) (c cause : Nat) : ∃ e : Ev,
    (notedRestart s c cause).rails.event.waiting = s.rails.event.waiting ++ [e] ∧ e.code = 0x7002 ∧ e.p0 = BitVec.ofNat 64 c ∧
      e.p1 = BitVec.ofNat 64 cause := by
  refine ⟨⟨0x7002, BitVec.ofNat 64 c, BitVec.ofNat 64 cause,
    BitVec.ofNat 64 ((countedRestart s c).flt.epochs.getD (96 + c) 0).toNat, 0⟩, ?_, rfl, rfl, rfl⟩
  rw [notedRestart, State.raise_rails]
  exact Rail.waiting_push _ _ _ _

end Sys2Proof.Machine

namespace Sys2Proof.Proofs

open Sys2Proof Sys2Proof.Machine Sys2Proof.Safety Sys2Proof.Laws

theorem reportsAreTaken : Claims.ReportsAreTaken := by
  unfold Claims.ReportsAreTaken
  refine fun s => ⟨fun h => ?_, fun r rs h h17 => ⟨({ s with reports := rs }).capture r 0 0, ?_, rfl, getLive_capture_uid _ _ _ _⟩,
    fun d i off p0 p1 => ⟨_, rfl, ?_⟩⟩
  · change execFaultReport .queued s = _
    simp [execFaultReport, h]
  · change execFaultReport .queued s = _
    simp [execFaultReport, h, State.takeReport, h17]
  · rw [mecCount_corrected]
    exact mecCount_countCorrected _ _ _ _ _ _

theorem backoffsAndLanes : Claims.BackoffsAndLanes := by
  unfold Claims.BackoffsAndLanes
  intro s
  refine ⟨fun k due d hc hd hk hdue hl => ?_, fun l n due hc hd hl hdue => ?_, fun path hw => ?_⟩
  · unfold Clocked at hc
    refine ⟨(s.reach due).updDie (k / 10) (k % 10) (fun d => { d with retryAt := none }), ?_, rfl, ?_, rfl, rfl⟩
    · change execRetryBackoffExpiry s = _
      simp [execRetryBackoffExpiry, hc, hd, hl, hdue, show k < 1000 by omega]
    · have hdie : s.die (k / 10) (k % 10) = d := by
        simp [State.die, hd, SMap.getD, SMap.find, show k / 10 * 10 + k % 10 = k by omega]
      rw [State.die_updDie _ _ _ _ _ _ (by omega) (by omega), if_pos ⟨rfl, rfl⟩]
      exact congrArg (fun d : Die => { d with retryAt := none }) hdie
  · unfold Clocked at hc
    have hnone : s.dies.filterMap (fun e => e.2.retryAt.map (fun t => (t, e.1))) = [] := by
      rw [List.filterMap_eq_nil_iff]
      intro e he
      rw [hd e he]
      rfl
    have hexec : exec .retryBackoffExpiry s = .next { (s.reach due).retrain l with
        flt := { ((s.reach due).retrain l).flt with laneRetry := (s.reach due).flt.laneRetry.upd (0, 0) l (fun e => (e.1, 0)) } } := by
      change execRetryBackoffExpiry s = _
      simp [execRetryBackoffExpiry, hc, hnone, hl, show due ≠ 0 by omega]
    refine ⟨_, hexec, ?_, fun hup => ?_⟩
    · have hleft : ((s.reach due).flt.laneRetry.upd (0, 0) l (fun e => (e.1, 0))).getD l (0, 0) = (n, 0) := by
        rw [SMap.getD_upd, if_pos rfl]
        simp [State.reach, hl, SMap.getD, SMap.find]
      exact hleft
    · have hretrain : (s.reach due).retrain l = s.reach due := if_pos (by
        rw [show ((s.reach due).link l).up = false from hup]
        rfl)
      rw [hretrain]
      exact ⟨rfl, rfl, rfl⟩
  · have hexec : exec (.clrLanes path) s = .next ({ s with flt := { s.flt with
        lanes := [], entries := s.flt.entries.filter (fun e => decide (e.1 ≠ 3)) } }).writeLedger := by
      change execClrLanes path s = _
      rw [execClrLanes, portWrite_of_writes hw rfl, if_pos (mayWrite_of_writes hw)]
    refine ⟨_, hexec, rfl, rfl, fun e he => ?_, rfl, rfl⟩
    simpa using (List.mem_filter.1 he).2

theorem stewardsRestart : Claims.StewardsRestart := by
  unfold Claims.StewardsRestart
  intro s n c cause hmem
  have hrun : exec c s = .next (s.stewardRestart n.val cause) ∨ (s.unclocked = true ∧ exec c s = .next s) := by
    simp only [List.mem_cons, Prod.mk.injEq, List.not_mem_nil, or_false] at hmem
    obtain ⟨rfl, rfl⟩ | ⟨rfl, rfl⟩ := hmem
    · change execWatchdogExpiry n s = _ ∨ _ ∧ execWatchdogExpiry n s = _
      unfold execWatchdogExpiry
      split
      · exact .inr ⟨‹_›, rfl⟩
      · exact .inl rfl
    · exact .inl rfl
  refine ⟨fun hret => ?_, fun hc hret hfew => ?_⟩
  · obtain h | ⟨-, h⟩ := hrun
    · rw [h, State.stewardRestart, if_pos (by simpa [bitOf] using hret)]
    · exact h
  · have hrun : exec c s = .next (s.stewardRestart n.val cause) := hrun.resolve_right (fun h => by simp [Clocked, h.1] at hc)
    have hnoted := noted_notedRestart s n.val cause
    have hlive : (restarted s n.val cause).liveFld .flt 0x48 3 0 = s.liveFld .flt 0x48 3 0 := by
      rw [restarted_eq, State.liveFld, getLive_capture_flt _ _ _ _ (by omega), getLive_of_noted hnoted _ (by omega)]
      rfl
    have hrestart : s.stewardRestart n.val cause = restarted s n.val cause := by
      rw [State.stewardRestart, if_neg (by simpa [bitOf] using hret)]
      refine if_neg ?_
      change ¬ max 1 ((restarted s n.val cause).liveFld .flt 0x48 3 0) ≤ (s.stwRecent n.val).length
      omega
    have hirq := notedRestart_irq s n.val cause
    have hev := notedRestart_event s n.val cause
    rw [← irqStat_capture_stw _ ⟨16, 6, n.val⟩ 0 (s.stwRecent n.val).length] at hirq
    refine ⟨_, hrun.trans (congrArg _ hrestart), ?_⟩
    rw [restarted_eq]
    have hepoch : (countedRestart s n.val).flt.epochs.getD (96 + n.val) 0 = s.flt.epochs.getD (96 + n.val) 0 + 1 :=
      (SMap.getD_upd s.flt.epochs 0 _ _ (· + 1)).trans (if_pos rfl)
    generalize notedRestart s n.val cause = t at hnoted hirq hev ⊢
    obtain ⟨tly, live, out, ev, reports, rfl, -⟩ := hnoted
    exact ⟨hepoch, rfl, rfl, hirq, hev, rfl, rfl, rfl, rfl, rfl⟩

/-- Settles O49: a report, a backoff and a restart are each written out. -/
theorem faultsAndStewards : Obligations.FaultsAndStewards := by
  unfold Obligations.FaultsAndStewards
  exact ⟨reportsAreTaken, backoffsAndLanes, stewardsRestart⟩

end Sys2Proof.Proofs
end

section
/-!
SUPPORT. Upkeep (07_upkeep.md R216): the drift clock of a device that is in Cold.
-/

namespace Sys2Proof.Proofs

open Sys2Proof Sys2Proof.Machine Sys2Proof.Safety

/-- Right after reset, in Cold: nothing of the device has operating time. -/
def coldDevice : State := { State.reset with pwrState := .cold }

theorem driftClockTick_coldDevice : exec .driftClockTick coldDevice = .next coldDevice := rfl

/-- Refutes O43: `UpkeepTicks` says of every state that a tick comes 4 s after the one before, and in Cold, where R216 stops the
clock, a tick leaves the state and its time as they are. -/
theorem not_upkeep : ¬ Obligations.Upkeep := by
  unfold Obligations.Upkeep Claims.UpkeepTicks
  rintro ⟨-, ticks, -⟩
  obtain ⟨-, -, -, -, t, ht, hnow, -⟩ := ticks coldDevice
  rw [driftClockTick_coldDevice] at ht
  cases ht
  exact absurd hnow (by decide)

end Sys2Proof.Proofs
end

section
/-!
SUPPORT. The regulators of the rails on the PMBus (15_power.md R424).
-/

namespace Sys2Proof.Machine

open Sys2Proof Sys2Proof.Safety Sys2Proof.Laws

/-- What a PMBus transaction puts on the bus: PAGE where the rail has a page, then the command. -/
def State.pmbSends (s : State) (i code : Nat) : List Output :=
  (if s.liveFld .pwr (0x100 + i * 8) 15 8 = 0xFF then [] else [Output.pmbus i 0 (s.liveFld .pwr (0x100 + i * 8) 15 8)]) ++
    [Output.pmbus i code 0]

/-- A PMBus transaction sends, and changes nothing else. -/
theorem pmb_eq (s : State) (i code : Nat) : s.pmb i code 0 = { s with out := s.out ++ s.pmbSends i code } := by
  by_cases h : s.liveFld .pwr (0x100 + i * 8) 15 8 = 0xFF <;> simp [State.pmb, State.pmbSends, State.emit, h]

theorem noted_pmb (s : State) (i code : Nat) : Noted s (s.pmb i code 0) := by
  unfold State.pmb
  refine noted_trans ?_ (noted_emit _ _)
  split
  · exact noted_refl s
  · exact noted_emit s _

/-- A transaction for each rail of a list: its code is sent to every one of them, after what was sent before. -/
theorem pmb_foldl_sends (code : Nat) (xs : List Nat) (s : State) :
    ∃ more, (xs.foldl (fun t i => t.pmb i code 0) s).out = s.out ++ more ∧ ∀ k ∈ xs, .pmbus k code 0 ∈ more := by
  induction xs generalizing s with
  | nil => exact ⟨[], by simp, by simp⟩
  | cons i xs ih =>
    obtain ⟨more, hout, hmem⟩ := ih (s.pmb i code 0)
    refine ⟨s.pmbSends i code ++ more, by rw [List.foldl_cons, hout, pmb_eq, List.append_assoc], fun k hk => ?_⟩
    rcases List.mem_cons.mp hk with rfl | hk
    · simp [State.pmbSends]
    · simp [hmem k hk]

theorem irqStat_pmb_foldl (code : Nat) (p : RPage) (xs : List Nat) (s : State) :
    (xs.foldl (fun t i => t.pmb i code 0) s).irqStat p = s.irqStat p := by
  induction xs generalizing s with
  | nil => rfl
  | cons i xs ih => rw [List.foldl_cons, ih, pmb_eq]; rfl

/-- The readings of rail `i` change to `r`, and the outputs `outs` are sent; nothing else changes. -/
def readRail (s t : State) (i : Nat) (r : PRail) (outs : List Output) : Prop :=
  t.rail i = r ∧ (∀ k, k ≠ i → t.rail k = s.rail k) ∧
    t = { s with pwr := { s.pwr with rails := t.pwr.rails }, out := s.out ++ outs }

/-- A transaction whose answer passes its check changes the readings of its rail alone. -/
theorem pmbRow_some {α : Type} {s : State} (h : s.pmbLive = true) (i : Fin 8) (code : Nat) (v : α) (take : α → PRail → PRail) :
    readRail s (s.pmbRow i code (some v) take) i (take v (s.rail i)) (s.pmbSends i code) := by
  have hrow : s.pmbRow i code (some v) take = { s with out := s.out ++ s.pmbSends i code }.updRail i (take v) := by
    simp [State.pmbRow, h, pmb_eq]
  rw [hrow]
  refine ⟨?_, fun k hk => ?_, rfl⟩
  · rw [State.rail_updRail, if_pos rfl]; rfl
  · rw [State.rail_updRail, if_neg hk]; rfl

/-- The state after a transaction that fails its check twice. -/
theorem pmbRow_none {α : Type} {s : State} (h : s.pmbLive = true) (i : Fin 8) (code : Nat) (take : α → PRail → PRail) :
    s.pmbRow i code none take = ((s.pmb i code 0).pmb i code 0).record 0x8003 i code 0 0 := by
  simp [State.pmbRow, h]

theorem pmbRow_dead {α : Type} {s : State} (h : s.pmbLive = false) (i : Fin 8) (code : Nat) (v : Option α)
    (take : α → PRail → PRail) : s.pmbRow i code v take = s := by
  simp [State.pmbRow, h]

end Sys2Proof.Machine

namespace Sys2Proof.Proofs

open Sys2Proof Sys2Proof.Machine Sys2Proof.Safety Sys2Proof.Laws

theorem pmbAlert_reads_status {s : State} (h : s.pmbLive = true) :
    ∃ t, exec .pmbAlert s = .next t ∧ Noted s t ∧ (t.irqStat .pwr).getLsbD 4 = true ∧
      ∀ k, k < 8 → .pmbus k 0x79 0 ∈ t.out.drop s.out.length := by
  have hexec : exec .pmbAlert s = .next ((List.range 8).foldl (fun t i => t.pmb i 0x79 0) (s.raise .pwr 4)) := by
    simp [exec, execPmbAlert, h]
  have hraise := noted_raise s .pwr 4
  refine ⟨_, hexec, noted_trans hraise (noted_foldl (fun t i => noted_pmb t i 0x79) _ _), ?_, fun k hk => ?_⟩
  · rw [irqStat_pmb_foldl, irqStat_raise, if_pos rfl]
    simp [bit32]
  · obtain ⟨more, hout, hmem⟩ := pmb_foldl_sends 0x79 (List.range 8) (s.raise .pwr 4)
    obtain ⟨_, _, first, _, _, heq, -⟩ := hraise
    have hfirst : (s.raise .pwr 4).out = s.out ++ first := by rw [heq]
    rw [hout, hfirst, List.append_assoc, List.drop_left]
    exact List.mem_append_right _ (hmem k (List.mem_range.mpr hk))

/-- What a failed transaction leaves: it was sent twice and is recorded. -/
theorem pmbRow_none_leaves {α : Type} {s : State} (h : s.pmbLive = true) (i : Fin 8) (code : Nat) (take : α → PRail → PRail) :
    Noted s (s.pmbRow i code none take) ∧
      (s.pmbRow i code none take).out = s.out ++ (s.pmbSends i code ++ s.pmbSends i code) ∧
      (s.pmbRow i code none take).rails.event.waiting =
        s.rails.event.waiting ++ [⟨0x8003, BitVec.ofNat 64 i.val, BitVec.ofNat 64 code, 0, 0⟩] := by
  rw [pmbRow_none h]
  refine ⟨noted_trans (noted_trans (noted_pmb _ _ _) (noted_pmb _ _ _)) (noted_record _ _ _ _ _ _), ?_, ?_⟩
  · rw [pmb_eq s, pmb_eq]
    exact List.append_assoc _ _ _
  · rw [pmb_eq s, pmb_eq]
    simp [State.record, Rail.waiting_push]

theorem subStatus_shown {s : State} (h : s.pmbLive = true) (i : Fin 8) (code bit : Nat) (b : Byte)
    (hbit : (s.rail i).status.getLsbD bit = true) :
    readRail s (s.subStatus i code bit (some b)) i { s.rail i with sub := (s.rail i).sub.put code b } (s.pmbSends i code) := by
  have hrow : s.subStatus i code bit (some b) = s.pmbRow i code (some b) (fun x r => { r with sub := r.sub.put code x }) := by
    simp [State.subStatus, bitOf, hbit]
  rw [hrow]
  exact pmbRow_some h i code b _

theorem subStatus_not_shown (s : State) (i : Fin 8) (code bit : Nat) (v : Option Byte)
    (hbit : (s.rail i).status.getLsbD bit = false) : s.subStatus i code bit v = s := by
  simp [State.subStatus, bitOf, hbit]

theorem subStatus_dead {s : State} (h : s.pmbLive = false) (i : Fin 8) (code bit : Nat) (v : Option Byte) :
    s.subStatus i code bit v = s := by
  unfold State.subStatus
  split
  · exact pmbRow_dead h _ _ _ _
  · rfl

theorem pmbusRevision_reads {s : State} (h : s.pmbLive = true) (i : Fin 8) (b : Byte) :
    ∃ t, exec (.pmbusRevision i (some b)) s = .next t ∧ t.rail i.val = { s.rail i with rev := b } ∧
      (∀ k, k ≠ i.val → t.rail k = s.rail k) ∧ t.rails.event.waiting = s.rails.event.waiting ++
        (if b.toNat < 0x33 then [⟨0x8003, BitVec.ofNat 64 i.val, 0x98, 0, 0⟩] else []) := by
  obtain ⟨hself, hother, hrest⟩ := pmbRow_some h i 0x98 b (fun x r => { r with rev := x })
  have hevent := congrArg (fun t => t.rails.event.waiting) hrest
  dsimp only at hevent
  by_cases hb : b.toNat < 0x33
  · refine ⟨(s.pmbRow i 0x98 (some b) (fun x r => { r with rev := x })).record 0x8003 i.val 0x98 0 0,
      by simp [exec, execPmbusRevision, h, hb], hself, hother, ?_⟩
    simp [State.record, Rail.waiting_push, hevent, hb]
  · exact ⟨s.pmbRow i 0x98 (some b) (fun x r => { r with rev := x }), by simp [exec, execPmbusRevision, hb], hself, hother,
      by simp [hevent, hb]⟩

/-- Settles O19, by what a transaction changes with an answer that passes its check (`pmbRow_some`), with one that fails it
(`pmbRow_none_leaves`), and on a bus that is not in use (`pmbRow_dead`). -/
theorem regulatorsAreRead : Obligations.RegulatorsAreRead := by
  unfold Obligations.RegulatorsAreRead
  intro s i w b
  refine ⟨fun h => ⟨pmbAlert_reads_status h, fun hp => ?_, fun hp => ?_, ?_, ?_, pmbusRevision_reads h i b, ?_⟩, fun h => ?_⟩
  · simp [exec, execPage, h, hp, State.emit, sent]
  · simp [exec, execPage, hp]
  · intro c code r' hc
    simp only [List.mem_cons, Prod.mk.injEq, List.not_mem_nil, or_false] at hc
    rcases hc with ⟨rfl, rfl, rfl⟩ | ⟨rfl, rfl, rfl⟩ | ⟨rfl, rfl, rfl⟩ | ⟨rfl, rfl, rfl⟩ | ⟨rfl, rfl, rfl⟩ | ⟨rfl, rfl, rfl⟩ |
      ⟨rfl, rfl, rfl⟩
    · exact ⟨_, rfl, pmbRow_some h i 0x03 () (fun _ r => { r with status := 0, sub := [] })⟩
    · exact ⟨_, rfl, pmbRow_some h i 0x20 b (fun x r => { r with mode := x })⟩
    · exact ⟨_, rfl, pmbRow_some h i 0x79 w (fun x r => { r with status := x })⟩
    · exact ⟨_, rfl, pmbRow_some h i 0x88 w (fun x r => { r with vin := x })⟩
    · exact ⟨_, rfl, pmbRow_some h i 0x8B w (fun x r => { r with vout := linear16 r.mode x })⟩
    · exact ⟨_, rfl, pmbRow_some h i 0x8C w (fun x r => { r with iout := linear11 x })⟩
    · exact ⟨_, rfl, pmbRow_some h i 0x8D w (fun x r => { r with temp := x })⟩
  · intro c code bit hc
    simp only [List.mem_cons, Prod.mk.injEq, List.not_mem_nil, or_false] at hc
    have hsub : exec c s = .next (s.subStatus i code bit (some b)) := by
      rcases hc with ⟨rfl, rfl, rfl⟩ | ⟨rfl, rfl, rfl⟩ | ⟨rfl, rfl, rfl⟩ | ⟨rfl, rfl, rfl⟩ <;> rfl
    exact ⟨fun hbit => ⟨_, hsub, subStatus_shown h i code bit b hbit⟩,
      fun hbit => hsub.trans (by rw [subStatus_not_shown s i code bit _ hbit])⟩
  · intro c code hc
    simp only [List.mem_cons, Prod.mk.injEq, List.not_mem_nil, or_false] at hc
    rcases hc with ⟨rfl, rfl⟩ | ⟨rfl, rfl⟩ | ⟨rfl, rfl⟩ | ⟨rfl, rfl⟩ | ⟨rfl, rfl⟩ | ⟨rfl, rfl⟩ | ⟨rfl, rfl⟩ | ⟨rfl, rfl⟩
    all_goals exact ⟨_, rfl, pmbRow_none_leaves h i _ _⟩
  · intro c hc
    simp only [List.mem_cons, List.not_mem_nil, or_false] at hc
    rcases hc with rfl | rfl | rfl | rfl | rfl | rfl | rfl | rfl | rfl | rfl | rfl | rfl | rfl | rfl
    all_goals simp [exec, execPmbAlert, execPage, execClearFaults, execVoutMode, execStatusWord, execStatusVout, execStatusIout,
      execStatusInput, execStatusTemperature, execReadVin, execReadVout, execReadIout, execReadTemperature1, execPmbusRevision,
      pmbRow_dead h, subStatus_dead h, h]

end Sys2Proof.Proofs
end

section
/-!
SUPPORT. Register accesses word by word, the vendor commands, boundary scan and the end of a commit (16_bring_up.md R472, R473,
19_register_architecture.md R519 to R526, 20_package_and_electrical.md R550, R551).
-/

namespace Sys2Proof.Machine

open Sys2Proof Sys2Proof.Safety Sys2Proof.Laws

/-! ### Notes -/

/-- A latency sample is a note: tallies, and the IRQ of a counter that saturates. -/
theorem noted_sample (s : State) (source : Nat) (e : TEv) (elapsed : Nat) : Noted s (s.sample source e elapsed) := by
  unfold State.sample
  refine noted_foldl (fun t r => ?_) _ s
  split
  · refine noted_trans ?_ (noted_tallies _ _)
    have hcount : ∀ (b : Bool) (x : Tallies), Noted t (if b = true then t else { t with tly := x }) := fun b x => by
      split
      · exact noted_refl t
      · exact noted_tallies t x
    split
    · exact noted_trans (hcount _ _) (noted_raise _ _ _)
    · exact hcount _ _
  · exact noted_refl t

/-! ### The interrupt registers -/

theorem bit32_getLsbD (i j : Nat) (hj : j < 32) : (bit32 true i).getLsbD j = decide (j = i) := by
  simp only [bit32, if_true, BitVec.getLsbD_ofNat, Nat.testBit_two_pow, hj, decide_true, Bool.true_and, eq_comm]

/-- Events raised one after another on a page set the bit of each. -/
theorem irqStat_raises (p : RPage) (xs : List Nat) (s : State) (j : Nat) (hj : j < 32) :
    ((xs.foldl (fun t i => t.raise p i) s).irqStat p).getLsbD j = ((s.irqStat p).getLsbD j || decide (j ∈ xs)) := by
  induction xs generalizing s with
  | nil => simp
  | cons i xs ih =>
    rw [List.foldl_cons, ih, irqStat_raise, if_pos rfl, BitVec.getLsbD_or, bit32_getLsbD i j hj, Bool.or_assoc]
    simp

theorem mem_bitsSet (n x i : Nat) : i ∈ bitsSet n x ↔ i < n ∧ x.testBit i = true := by simp [bitsSet]

/-! ### Words -/

theorem wordOffset_aligned {off : Fin 0x4000000} (h : off.val % 4 = 0) : wordOffset off = off.val := by
  unfold wordOffset
  omega

theorem irqStat_malformed (s : State) (path : Path) (off : Nat) : ((s.malformed path off).irqStat .glb).getLsbD 0 = true := by
  unfold State.malformed
  dsimp only
  rw [irqStat_raise, if_pos rfl]
  simp [bit32]

/-- The record of a malformed access. -/
def State.withAccessErr (s : State) (path : Path) (off : Nat) : State :=
  { s with boot := { s.boot with accessErr := at32 (off % 2 ^ 26) 0 ||| (match path with
      | .mctp => bit32 true 31
      | .link n => at32 n.val 26) } }

theorem boot_of_noted {s t : State} (h : Noted s t) : t.boot = s.boot := by
  obtain ⟨_, _, _, _, _, rfl, -⟩ := h
  rfl

theorem cmt_of_noted {s t : State} (h : Noted s t) : t.cmt = s.cmt := by
  obtain ⟨_, _, _, _, _, rfl, -⟩ := h
  rfl

theorem boot_malformed (s : State) (path : Path) (off : Nat) :
    (s.malformed path off).boot = (s.withAccessErr path off).boot := boot_of_noted (noted_raise _ _ _)

/-- A malformed access is recorded in ACCESS_ERR, and noted. -/
theorem noted_malformed (s : State) (path : Path) (off : Nat) :
    Noted { s with boot := { s.boot with accessErr := (s.malformed path off).boot.accessErr } } (s.malformed path off) := by
  rw [boot_malformed]
  exact noted_raise _ _ _

theorem accessErr_malformed (s : State) (path : Path) (off : Nat) :
    (s.malformed path off).boot.accessErr = at32 (off % 2 ^ 26) 0 ||| (match path with
      | .mctp => bit32 true 31
      | .link n => at32 n.val 26) := by
  rw [boot_malformed]
  rfl

theorem readWord_mctp (s : State) (off : Nat) : s.readWord .mctp off = (some (s.regRead .mctp off), s.readSide .mctp off) := rfl

/-- Words read over MCTP whose reads have no side effect. -/
theorem readWords_mctp {s : State} {off : Nat} : ∀ n, (∀ k, k < n → s.readSide .mctp (off + 4 * k) = s) →
    s.readWords .mctp off n = ((List.range n).map (fun k => s.regRead .mctp (off + 4 * k)), s)
  | 0, _ => rfl
  | n + 1, h => by
    have ih := readWords_mctp n (fun k hk => h k (by omega))
    unfold State.readWords at ih ⊢
    rw [List.range_succ, List.foldl_append, ih]
    simp [readWord_mctp, h n (by omega)]

theorem getShadow_setShadow_same (s : State) (p : RPage) (o : Nat) (v : W32) : (s.setShadow p o v).getShadow p o = v :=
  (SMap.getD_set _ _ _ _ _).trans (if_pos rfl)

/-- A word that starts nothing goes to its register. -/
theorem writeWord_row {s : State} {path : Path} {off o : Nat} {p : RPage} {v : W32} (hl : locate off = some (p, o)) (h14 : o ≠ 0x14)
    (h1c : o ≠ 0x1C) (hs : s.special path p o v = none) (hw : s.mayWrite path p = true) :
    s.writeWord path off v = s.rowWrite path p o v := by
  simp [State.writeWord, hl, h14, h1c, hs, State.plainWrite, hw]

/-- A single whole word at its own offset. -/
theorem registerWrite_whole {s : State} {path : Path} {off : Fin 0x4000000} (hh : s.heard path = true) (ha : off.val % 4 = 0)
    (v : W32) : exec (.registerWrite path off [.whole v]) s = .next (s.accessWrite path off.val v) := by
  simp [exec, execRegisterWrite, hh, wholeWords, wordOffset_aligned ha, List.zipIdx]

/-! ### A commit of one register of the pass -/

theorem locate_pas {o : Nat} (h : o < 0x10000) : locate (RPage.pas.base + o) = some (.pas, o) := by
  simp (disch := omega) only [locate, RPage.base, if_neg, if_pos, Nat.add_sub_cancel_left]

/-- A change of a register of the pass writes the register and nothing else. -/
theorem applyChanges_pas (s : State) {o : Nat} (h : o < 0x10000) (v : W32) :
    s.applyChanges [(RPage.pas.base + o, v)] = s.setLive .pas o v := by
  have hb : bifurPorts [(RPage.pas.base + o, v)] = [] := by simp [bifurPorts, locate_pas h]
  have hw : windowChanges [(RPage.pas.base + o, v)] = false := by simp [windowChanges, locate_pas h]
  simp [State.applyChanges, hb, hw, locate_pas h, State.withChanges, State.afterChange]

/-- The commit registers once a commit has ended. -/
def Commit.done (c : Commit) (result quiesce : Nat) (span : Bool) : Commit :=
  { c with
    pending := false, by_ := none, result := result, span := span, quiesce := quiesce, ports := [], changes := []
    waiting := [], requests := [] }

/-- A commit that nothing waits for ends with its result and nothing else. -/
theorem endCommit_alone {s : State} (hw : s.cmt.waiting = []) (hr : s.cmt.requests = []) (result quiesce : Nat) (span : Bool) :
    s.endCommit result quiesce span = { s with cmt := s.cmt.done result quiesce span } := by
  simp [State.endCommit, hw, hr, Commit.done]

theorem find_setLive_ne (s : State) {p : RPage} {o k : Nat} (v : W32) (h : k ≠ p.base + o) :
    (s.setLive p o v).regs.live.find k = s.regs.live.find k := by
  unfold State.setLive SMap.set
  dsimp only
  split
  · exact SMap.find_del_of_ne _ h
  · exact SMap.find_put_of_ne _ _ h

end Sys2Proof.Machine

namespace Sys2Proof.Proofs

open Sys2Proof Sys2Proof.Machine Sys2Proof.Safety Sys2Proof.Laws

theorem getD_of_find {V : Type} {m m' : SMap V} {k : Nat} (h : m'.find k = m.find k) (d : V) : m'.getD k d = m.getD k d := by
  simp [SMap.getD, h]

theorem irqStatClear_clears {s : State} {path : Path} {off : Fin 0x4000000} {p : RPage} {o : Nat} (v : BitVec 32)
    (hl : locate off.val = some (p, o)) (hl14 : locate (p.base + 0x14) = some (p, 0x14)) (hw : Writes s path p) :
    ∃ t, exec (.irqStatClear path off v) s = .next t ∧ t = { s with regs := { s.regs with live := t.regs.live } } ∧
      t.irqStat p = s.irqStat p &&& ~~~v ∧ ∀ k, k ≠ p.base + 0x14 → t.regs.live.getD k 0 = s.regs.live.getD k 0 := by
  refine ⟨s.setIrqStat p (s.irqStat p &&& ~~~v), ?_, rfl, ?_, fun k hk => ?_⟩
  · simp [exec, execIrqStatClear, hl, portWrite_of_writes hw hl14, State.irqClear, mayWrite_of_writes hw]
  · exact (SMap.getD_set _ _ _ _ _).trans (if_pos rfl)
  · exact (SMap.getD_set _ _ _ _ _).trans (if_neg hk)

theorem irqForce_sets {s : State} {path : Path} {off : Fin 0x4000000} {p : RPage} {o : Nat} (v : BitVec 32)
    (hl : locate off.val = some (p, o)) (hl1c : locate (p.base + 0x1C) = some (p, 0x1C)) (hw : Writes s path p) :
    ∃ t, exec (.irqForce path off v) s = .next t ∧ Noted s t ∧
      ∀ i, i < 32 → (t.irqStat p).getLsbD i = ((s.irqStat p).getLsbD i || (v.getLsbD i && p.irqMask.testBit i)) := by
  refine ⟨(bitsSet 32 (v.toNat &&& p.irqMask)).foldl (fun (t : State) i => t.raise p i) s, ?_,
    noted_foldl (fun t i => noted_raise t p i) _ s, fun i hi => ?_⟩
  · simp [exec, execIrqForce, hl, portWrite_of_writes hw hl1c, State.irqForceWrite, mayWrite_of_writes hw]
  · rw [irqStat_raises p _ s i hi]
    simp [mem_bitsSet, hi, BitVec.testBit_toNat]

theorem registerWrite_staged {s : State} {path : Path} {off : Fin 0x4000000} {p : RPage} {o : Nat} {r : RegRow} (v : BitVec 32)
    (hw : Writes s path p) (hl : locate off.val = some (p, o)) (ha : off.val % 4 = 0) (hr : p.row o = some r) (h14 : o ≠ 0x14)
    (h1c : o ≠ 0x1C) (hs : s.special path p o v = none) (hstaged : r.staged = true) (hp : s.cmt.pending = false)
    (hlock : s.windowLocked p o v = false) :
    ∃ t, exec (.registerWrite path off [.whole v]) s = .next t ∧
      t = { s with regs := { s.regs with shadow := t.regs.shadow } } ∧
      t.getShadow p o = maskedWrite (s.getShadow p o) v r.mask := by
  refine ⟨s.setShadow p o (maskedWrite (s.getShadow p o) v r.mask), ?_, rfl, getShadow_setShadow_same _ _ _ _⟩
  rw [registerWrite_whole hw.1 ha, State.accessWrite, portWrite_of_writes hw hl,
    writeWord_row hl h14 h1c hs (mayWrite_of_writes hw)]
  simp [State.rowWrite, hr, hstaged, hp, State.stageWrite, hlock]

theorem registerWrite_live {s : State} {path : Path} {off : Fin 0x4000000} {p : RPage} {o : Nat} {r : RegRow} (v : BitVec 32)
    (hw : Writes s path p) (hl : locate off.val = some (p, o)) (ha : off.val % 4 = 0) (hr : p.row o = some r) (h14 : o ≠ 0x14)
    (h1c : o ≠ 0x1C) (hs : s.special path p o v = none) (hstaged : r.staged = false) :
    ∃ t, exec (.registerWrite path off [.whole v]) s = .next t ∧
      t = { s with regs := { s.regs with live := t.regs.live } } ∧ t.getLive p o = maskedWrite (s.getLive p o) v r.mask := by
  refine ⟨s.setLive p o (maskedWrite (s.getLive p o) v r.mask), ?_, rfl, State.getLive_setLive_same _ _ _ _⟩
  rw [registerWrite_whole hw.1 ha, State.accessWrite, portWrite_of_writes hw hl,
    writeWord_row hl h14 h1c hs (mayWrite_of_writes hw)]
  simp [State.rowWrite, hr, hstaged]

theorem registerWrite_part {s : State} {path : Path} (off : Fin 0x4000000) (hh : s.heard path = true) :
    exec (.registerWrite path off [.part]) s = .next (s.malformed path (wordOffset off)) := by
  simp [exec, execRegisterWrite, hh, wholeWords, List.zipIdx]

/-- What a read over MCTP answers, and what else it leaves when it asks for more than 16 words. -/
theorem loRegisterRead_mctp {s : State} {off : Fin 0x4000000} {words : Fin 1025} (hh : s.heard .mctp = true)
    (ha : off.val % 4 = 0) (hpos : 0 < words.val) (hside : ∀ k, k < words.val → s.readSide .mctp (off.val + 4 * k) = s) :
    let ws := (List.range words.val).map (fun k => s.regRead .mctp (off.val + 4 * k))
    (words.val ≤ 16 → exec (.loRegisterRead .mctp off words) s = .next (sent s (.regRead .mctp ws))) ∧
    (16 < words.val → ∃ t, exec (.loRegisterRead .mctp off words) s = .next t ∧ (t.irqStat .glb).getLsbD 0 = true ∧
      .regRead .mctp ws ∈ t.out.drop s.out.length) := by
  intro ws
  have hempty : ws.isEmpty = false := by
    cases hw : ws with
    | nil => simp [ws, List.map_eq_nil_iff, List.range_eq_nil] at hw; omega
    | cons _ _ => rfl
  have hexec : exec (.loRegisterRead .mctp off words) s =
      if 16 < words.val then .next ((s.emit (.regRead .mctp ws)).malformed .mctp (wordOffset off))
      else .next (s.emit (.regRead .mctp ws)) := by
    simp only [exec, execLoRegisterRead, wordOffset_aligned ha, readWords_mctp _ hside]
    simp [hh, ws, hempty]
  refine ⟨fun h => by rw [hexec, if_neg (by omega)]; rfl, fun h => ⟨_, by rw [hexec, if_pos h], irqStat_malformed _ _ _, ?_⟩⟩
  obtain ⟨_, _, more, _, _, heq, -⟩ := noted_malformed (s.emit (.regRead .mctp ws)) .mctp (wordOffset off)
  rw [heq]
  simp [State.emit]

/-- R519 to R521, R525, R526. -/
theorem registersAreAccessed : Sys2Proof.Claims.RegistersAreAccessed := by
  intro s path off p o v hl hl14 hl1c hw
  refine ⟨irqStatClear_clears v hl hl14 hw, irqForce_sets v hl hl1c hw, fun r ha _ hr h14 h1c hs => ⟨fun hst hp hlock => ?_,
    fun hst => ?_⟩, ⟨_, registerWrite_part off hw.1, irqStat_malformed _ _ _, accessErr_malformed _ _ _, noted_malformed _ _ _⟩, ?_⟩
  · exact registerWrite_staged v hw hl ha hr h14 h1c hs hst hp hlock
  · exact registerWrite_live v hw hl ha hr h14 h1c hs hst
  · rintro words ha rfl hpos hside
    exact loRegisterRead_mctp hw.1 ha hpos hside

/-- A vendor command that the device hears runs where its offset and count are good, and is refused elsewhere. -/
theorem vendor_of_heard {s : State} (h : s.heard .mctp = true) (cmd off n : Nat) (body : State → State) :
    s.vendor cmd off n body = if mctpOk off n = true then body s else s.emit (.mctp cmd 1 []) := by
  have hstate : ¬ (s.pwrState = .flush ∨ s.pwrState = .shutdown) := by
    rintro (hp | hp) <;> simp [State.heard, hp] at h
  unfold State.vendor
  rw [if_neg hstate, if_neg (by simp [h])]

theorem mctpOk_eq_false {off n : Nat} (h : off % 4 ≠ 0 ∨ n = 0 ∨ 16 < n ∨ 0x4000000 < off + 4 * n) : mctpOk off n = false := by
  simp only [mctpOk, Bool.and_eq_false_iff, decide_eq_false_iff_not]
  omega

theorem mctpOk_eq_true {off n : Nat} (h : off % 4 = 0) (h1 : 1 ≤ n) (h16 : n ≤ 16) (hend : off + 4 * n ≤ 0x4000000) :
    mctpOk off n = true := by
  simp [mctpOk, h, h1, h16, hend]

/-- A word that targets a dead target over MCTP is discarded and recorded. -/
theorem accessWrite_dead {s : State} (h : s.heard .mctp = true) {off : Nat} (hd : s.deadWord off = true) (v : W32) :
    s.accessWrite .mctp off v = s.record 0x1005 0x20 off v.toNat 0 := by
  unfold State.deadWord at hd
  unfold State.accessWrite State.portWrite
  cases hl : locate off with
  | none => simp [hl] at hd
  | some po => simp [hl] at hd; simp [h, hd, State.holdWrite]

theorem mctpWrite_one {s : State} (h : s.heard .mctp = true) {off : BitVec 32} (ha : off.toNat % 4 = 0)
    (hend : off.toNat + 4 ≤ 0x4000000) (v : BitVec 32) :
    exec (.mctpWrite off [v]) s = .next (sent (s.accessWrite .mctp off.toNat v)
      (.mctp 2 (if s.deadWord off.toNat then 4 else 0) [])) := by
  simp [exec, execMctpWrite, vendor_of_heard h, mctpOk_eq_true ha (Nat.le_refl 1) (by omega) hend, List.zipIdx, State.emit, sent]

/-- R523. -/
theorem vendorCommandsAnswer : Sys2Proof.Claims.VendorCommandsAnswer := by
  intro s off count v
  refine ⟨fun hbusy => ⟨?_, ?_⟩, fun h => ⟨fun hbad => ?_, fun hbad => ?_, fun ha h1 h16 hend hside => ?_, fun ha hend =>
    ⟨fun hd => ?_, fun hd => ?_⟩⟩⟩
  · simp [exec, execMctpRead, State.vendor, hbusy, State.emit, sent]
  · simp [exec, execMctpWrite, State.vendor, hbusy, State.emit, sent]
  · simp [exec, execMctpRead, vendor_of_heard h, mctpOk_eq_false hbad, State.emit, sent]
  · have hoff : mctpOk off.toNat 1 = false := mctpOk_eq_false (by omega)
    simp [exec, execMctpWrite, vendor_of_heard h, hoff, State.emit, sent]
  · simp [exec, execMctpRead, vendor_of_heard h, mctpOk_eq_true ha h1 h16 hend, readWords_mctp _ hside, State.emit, sent]
  · rw [mctpWrite_one h ha hend, hd]; rfl
  · rw [mctpWrite_one h ha hend, hd, accessWrite_dead h hd]; rfl

/-- The fields of the identification code: the part, the maker, and the bit that is always set (R550). -/
theorem idcode_fields (s : State) :
    s.idcode.extractLsb' 12 16 = 0x9032 ∧ s.idcode.extractLsb' 1 11 = 0x2F3 ∧ s.idcode.getLsbD 0 = true := by
  have hall : ∀ k : Fin 16, (at32 k.val 28 ||| at32 0x9032 12 ||| at32 0x2F3 1 ||| 1).extractLsb' 12 16 = 0x9032 ∧
      (at32 k.val 28 ||| at32 0x9032 12 ||| at32 0x2F3 1 ||| 1).extractLsb' 1 11 = 0x2F3 ∧
      (at32 k.val 28 ||| at32 0x9032 12 ||| at32 0x2F3 1 ||| 1).getLsbD 0 = true := by decide +kernel
  exact hall ⟨s.fuses.step.toNat % 16, Nat.mod_lt _ (by omega)⟩

/-- An instruction that drives no pin, or that may drive them, is loaded. -/
theorem tapInstruction_loads {s : State} {k : Fin 8} (hv : s.pwr.vaux = true) (hq : (s.rail 4).qualified = true)
    (hp : s.pwrState ≠ .flush) (h : tapDrives k.val = false ∨ s.tapFree = true) (h1 : k.val ≠ 1) :
    exec (.tapInstruction k) s = .next { s with boot := { s.boot with tap := k.val } } := by
  rcases h with h | h <;> simp [exec, execTapInstruction, hv, hq, hp, h, h1]

theorem tapFree_eq_false {s : State} (h : (∃ e ∈ s.ports.links, e.2.memActive = true) ∨ s.stk.frames ≠ []) :
    s.tapFree = false := by
  unfold State.tapFree
  rcases h with ⟨e, he, hm⟩ | h
  · have : s.ports.links.all (fun e => !e.2.memActive) = false := by
      rw [List.all_eq_false]
      exact ⟨e, he, by simp [hm]⟩
    simp [this]
  · simp [h]

/-- R550, R551. -/
theorem tapLoads : Sys2Proof.Claims.TapLoads := by
  intro s k
  refine ⟨fun hv hq hp => ⟨fun h1 => ⟨?_, idcode_fields s⟩, fun h02 => ?_, fun h3 => ⟨fun hm hf hg => ?_, fun hbusy => ?_⟩⟩,
    fun hdown => ?_⟩
  · simp [exec, execTapInstruction, hv, hq, tapDrives, h1, State.emit, sent, State.idcode]
  · exact tapInstruction_loads hv hq hp (.inl (by simp [tapDrives]; omega)) (by omega)
  · refine tapInstruction_loads hv hq hp (.inr ?_) (by omega)
    simp only [State.tapFree, hf, hg, List.isEmpty_nil, Bool.and_true, List.all_eq_true]
    intro e he
    simp [hm e he]
  · simp [exec, execTapInstruction, hv, hq, tapDrives, h3, tapFree_eq_false hbusy]
  · rcases hdown with h | h <;> simp [exec, execTapInstruction, h]

/-- R472, R473. -/
theorem commitsApply : Sys2Proof.Claims.CommitsApply := by
  intro s o v hp hw hr done
  refine ⟨fun ho hc hports => ?_, fun ho hc hports hq hnow => ?_, fun hports hq => ?_⟩
  · let t := s.reach ((s.cmt.since / Config.us + 1) * Config.us)
    refine ⟨(t.setLive .pas o v).endCommit 1 0 false, ?_, ?_⟩
    · simp [exec, execCommitApply, hp, hports, hc, applyChanges_pas _ ho, t]
    · rw [endCommit_alone (s := t.setLive .pas o v) hw hr]
      exact ⟨rfl, rfl, State.getLive_setLive_same t .pas o v, fun k hk => getD_of_find (find_setLive_ne t v hk) 0, rfl, rfl, rfl, rfl⟩
  · have hn : Noted s s.sampleQuiesce := noted_sample s _ _ _
    refine ⟨(s.sampleQuiesce.setLive .pas o v).endCommit 1 ((s.now - s.cmt.since) * 10 / Config.us) true, ?_, ?_⟩
    · simp [exec, execQuiesceReached, hp, hports, hq, hnow, hc, applyChanges_pas _ ho]
    · have hcmt := cmt_of_noted hn
      have hkept : s.sampleQuiesce.stk = s.stk ∧ s.sampleQuiesce.ports = s.ports := by
        obtain ⟨tly, live, out, ev, reports, heq, -⟩ := hn
        rw [heq]
        exact ⟨rfl, rfl⟩
      obtain ⟨hstk, hsports⟩ := hkept
      rw [endCommit_alone (s := s.sampleQuiesce.setLive .pas o v) ((congrArg Commit.waiting hcmt).trans hw)
        ((congrArg Commit.requests hcmt).trans hr)]
      exact ⟨congrArg (fun c => Commit.done c 1 _ true) hcmt, State.getLive_setLive_same _ .pas o v, hstk, hsports⟩
  · let u := s.reach (s.cmt.since + 20 * Config.us)
    refine ⟨u.sampleQuiesce.endCommit 3 200 true, ?_, ?_⟩
    · simp [exec, execQuiesceTimeout, hp, hports, hq, u]
    · have hn : Noted u u.sampleQuiesce := noted_sample u _ _ _
      have hcmt := cmt_of_noted hn
      rw [endCommit_alone (s := u.sampleQuiesce) ((congrArg Commit.waiting hcmt).trans hw) ((congrArg Commit.requests hcmt).trans hr)]
      obtain ⟨tly, live, out, ev, reports, heq, hlive⟩ := hn
      rw [heq]
      exact ⟨rfl, rfl, rfl, hlive, rfl, rfl⟩

/-- Settles O60. -/
theorem registersAndTap : Obligations.RegistersAndTap :=
  ⟨registersAreAccessed, vendorCommandsAnswer, tapLoads, commitsApply⟩

end Sys2Proof.Proofs
end

section
/-!
SUPPORT. Whisk engines (11_whisk_engines.md R333 to R347): doorbells, the channel's choice, descriptors, chunks and completion.
-/

namespace Sys2Proof.Machine

open Sys2Proof Sys2Proof.Safety Sys2Proof.Laws

/-! ### Entries of a sparse table -/

theorem SMap.mem_of_find {α : Type} {m : SMap α} {k : Nat} {v : α} (h : m.find k = some v) : (k, v) ∈ m := by
  induction m with
  | nil => simp [SMap.find] at h
  | cons e m ih =>
    obtain ⟨k', v'⟩ := e
    simp only [SMap.find] at h
    split at h
    · next hk => simp_all
    · exact List.mem_cons_of_mem _ (ih h)

/-- A value that is listed stands between entries of the table before. -/
theorem SMap.put_split {α : Type} (m : SMap α) (k : Nat) (v : α) :
    ∃ pre post, m.put k v = pre ++ (k, v) :: post ∧ ∀ e, e ∈ pre ∨ e ∈ post → e ∈ m := by
  induction m with
  | nil => exact ⟨[], [], rfl, by simp⟩
  | cons e m ih =>
    obtain ⟨k', v'⟩ := e
    obtain ⟨pre, post, hput, hmem⟩ := ih
    simp only [SMap.put]
    split
    · exact ⟨[], (k', v') :: m, rfl, by simp⟩
    · split
      · exact ⟨[], m, rfl, by simp +contextual⟩
      · refine ⟨(k', v') :: pre, post, by simp [hput], ?_⟩
        rintro e (he | he)
        · rcases List.mem_cons.mp he with rfl | he
          · simp
          · exact List.mem_cons_of_mem _ (hmem e (.inl he))
        · exact List.mem_cons_of_mem _ (hmem e (.inr he))

/-! ### Doorbells (R333, R334, R337) -/

/-- No context has a doorbell that waits. -/
def State.noBells (s : State) : Prop := ∀ e ∈ s.ctxs, e.2.bells = []

theorem bells_of_noBells {s : State} (h : s.noBells) (i : Nat) : (s.ctx i).bells = [] := by
  unfold State.ctx SMap.getD
  cases hf : s.ctxs.find i with
  | none => rfl
  | some c => exact h _ (SMap.mem_of_find hf)

/-- Contexts without doorbells have nothing to settle. -/
theorem ringBells_foldl_of_none {m : SMap Ctx} (h : ∀ e ∈ m, e.2.bells = []) (s : State) :
    m.foldl (fun t e => State.ringBells e.2.bells.length e.1 t) s = s := by
  induction m generalizing s with
  | nil => rfl
  | cons e m ih =>
    rw [List.foldl_cons, h e (by simp)]
    exact ih (fun e he => h e (List.mem_cons_of_mem _ he)) s

theorem settleBells_of_noBells {s : State} (h : s.noBells) : s.settleBells = s := ringBells_foldl_of_none h s

/-- The doorbell of a write on a path. -/
def State.bellOf (s : State) (path : Path) (kind : Nat) (v : BitVec 32) : Bell :=
  match path with
  | .mctp => ⟨kind, v, 0, []⟩
  | .link n => ⟨kind, v, n.val, (s.link n.val).iwq.map (fun (e : IwqEntry) => e.arr)⟩

theorem bellReady_bellOf {s : State} {path : Path} (hq : ∀ n, path = .link n → (s.link n.val).iwq = []) (kind : Nat) (v : BitVec 32) :
    s.bellReady (s.bellOf path kind v) = true := by
  cases path with
  | mctp => simp [State.bellReady, State.bellOf]
  | link n => simp [State.bellReady, State.bellOf, hq n rfl]

/-- A doorbell that nothing waits for acts at once, on contexts that read as before. -/
theorem addBell_acts {s : State} {path : Path} (h : s.noBells) (hq : ∀ n, path = .link n → (s.link n.val).iwq = []) (i kind : Nat)
    (v : BitVec 32) : ∃ cs : SMap Ctx, s.addBell path i kind v = ({ s with ctxs := cs } : State).ring i (s.bellOf path kind v) ∧
      ∀ j, cs.getD j .fresh = s.ctx j := by
  have hbells := bells_of_noBells h i
  let b := s.bellOf path kind v
  let t := s.updCtx i (fun c => { c with bells := c.bells ++ [b] })
  have hctx : t.ctx i = { s.ctx i with bells := [b] } := by
    simp only [t, State.ctx_updCtx, if_true, hbells, List.nil_append]
  have hput : t.ctxs = s.ctxs.put i { s.ctx i with bells := [b] } := by
    have hne : ({ s.ctx i with bells := (s.ctx i).bells ++ [b] } : Ctx) ≠ .fresh := fun he => by
      have := congrArg Ctx.bells he
      simp [Ctx.fresh] at this
    have : t.ctxs = s.ctxs.put i { s.ctx i with bells := (s.ctx i).bells ++ [b] } := if_neg hne
    rw [this, hbells, List.nil_append]
  obtain ⟨pre, post, hsplit, hmem⟩ := SMap.put_split s.ctxs i { s.ctx i with bells := [b] }
  have hring : State.ringBells 1 i t = (t.updCtx i (fun c => { c with bells := [] })).ring i b := by
    have hready : t.bellReady b = true := bellReady_bellOf hq kind v
    simp [State.ringBells, hctx, hready]
  have hsettle : t.settleBells = (t.updCtx i (fun c => { c with bells := [] })).ring i b := by
    unfold State.settleBells
    rw [hput, hsplit, List.foldl_append, ringBells_foldl_of_none (fun e he => h e (hmem e (.inl he))), List.foldl_cons,
      ringBells_foldl_of_none (fun e he => h e (hmem e (.inr he)))]
    exact hring
  refine ⟨(t.updCtx i (fun c => { c with bells := [] })).ctxs, ?_, fun j => ?_⟩
  · exact hsettle
  · show (t.updCtx i (fun c => { c with bells := [] })).ctx j = s.ctx j
    rw [State.ctx_updCtx]
    split
    · next hj => rw [hctx, hj, ← hbells]
    · next hj => exact (State.ctx_updCtx _ _ _ _).trans (if_neg hj)

/-! ### A channel takes a context (R327) -/

/-- The contexts of a channel that run go back to READY. -/
@[irreducible] def State.preempt (s : State) (ch : Nat) : State :=
  (List.range 4).foldl (fun u k => u.updCtx (ch * 4 + k) (fun c => if c.state = 3 then { c with state := 2 } else c)) s

theorem takeChannel_of_preempt (s : State) (i : Nat) : s.takeChannel i =
    ((s.preempt (i / 4)).updCtx i (fun c => { c with state := 3 })).updChan (i / 4) (fun c => { c with slot := i % 4 }) := by
  unfold State.preempt
  rfl

/-- Changes of contexts change nothing else. -/
theorem updCtx_foldl_eq {α : Type} (g : α → Nat) (f : Ctx → Ctx) (xs : List α) (s : State) :
    xs.foldl (fun u k => u.updCtx (g k) f) s = { s with ctxs := (xs.foldl (fun u k => u.updCtx (g k) f) s).ctxs } := by
  induction xs generalizing s with
  | nil => rfl
  | cons k xs ih => rw [List.foldl_cons, ih]; rfl

/-- Contexts that go back to READY keep everything but their state. -/
theorem ctx_preempted (xs : List Nat) (g : Nat → Nat) (s : State) (j : Nat) :
    ∃ st, (xs.foldl (fun u k => u.updCtx (g k) (fun c => if c.state = 3 then { c with state := 2 } else c)) s).ctx j =
      { s.ctx j with state := st } := by
  induction xs generalizing s with
  | nil => exact ⟨(s.ctx j).state, rfl⟩
  | cons k xs ih =>
    obtain ⟨st, hst⟩ := ih (s.updCtx (g k) (fun c => if c.state = 3 then { c with state := 2 } else c))
    refine ⟨st, ?_⟩
    rw [List.foldl_cons, hst, State.ctx_updCtx]
    split
    · next hj => subst hj; split <;> rfl
    · rfl

theorem preempt_eq (s : State) (ch : Nat) : s.preempt ch = { s with ctxs := (s.preempt ch).ctxs } := by
  unfold State.preempt
  exact updCtx_foldl_eq _ _ _ s

theorem ctx_takeChannel_self (s : State) (i : Nat) : (s.takeChannel i).ctx i = { s.ctx i with state := 3 } := by
  obtain ⟨st, hst⟩ := ctx_preempted (List.range 4) (fun k => i / 4 * 4 + k) s i
  have hself := (State.ctx_updCtx (s.preempt (i / 4)) i i (fun c => { c with state := 3 })).trans (if_pos rfl)
  have hpre : (s.preempt (i / 4)).ctx i = { s.ctx i with state := st } := by
    unfold State.preempt
    exact hst
  rw [hpre] at hself
  rw [takeChannel_of_preempt]
  exact hself

theorem chan_takeChannel_slot (s : State) (i : Nat) : ((s.takeChannel i).chan (i / 4)).slot = i % 4 := by
  rw [takeChannel_of_preempt, State.chan_updChan, if_pos rfl]

theorem chan_updCtx (s : State) (n c : Nat) (f : Ctx → Ctx) : (s.updCtx n f).chan c = s.chan c := rfl

/-- A channel that takes a context changes contexts and its slot, and nothing else. -/
theorem takeChannel_eq (s : State) (i : Nat) :
    ∃ (cs : SMap Ctx) (chs : SMap Chan), s.takeChannel i = { s with ctxs := cs, chans := chs } := by
  rw [takeChannel_of_preempt, preempt_eq]
  exact ⟨_, _, rfl⟩

/-! ### Faults of a context (R342) -/

theorem ctx_of_noted {s t : State} (h : Noted s t) (j : Nat) : t.ctx j = s.ctx j := by
  obtain ⟨_, _, _, _, _, rfl, -⟩ := h
  rfl

theorem noted_withCtxs {s t : State} (h : Noted s t) (cs : SMap Ctx) :
    Noted ({ s with ctxs := cs } : State) ({ t with ctxs := cs } : State) := by
  obtain ⟨tly, live, out, ev, reports, rfl, hlive⟩ := h
  exact ⟨tly, live, out, ev, reports, rfl, hlive⟩

theorem irqStat_raise_self (s : State) (p : RPage) {i : Nat} (hi : i < 32) : ((s.raise p i).irqStat p).getLsbD i = true := by
  rw [irqStat_raise, if_pos rfl, BitVec.getLsbD_or, bit32_getLsbD i i hi]
  simp

/-- A fault puts its context into FAULTED with its kind, and raises the context's bit. -/
theorem faultCtx_leaves (s : State) (i kind : Nat) : ((s.faultCtx i kind).ctx i).state = 5 ∧ ((s.faultCtx i kind).ctx i).kind = kind ∧
    ((s.faultCtx i kind).irqStat (.wsk (i / 4))).getLsbD (4 + i % 4) = true := by
  unfold State.faultCtx
  dsimp only
  rw [ctx_of_noted (noted_raise _ _ _), State.ctx_updCtx, if_pos rfl]
  exact ⟨rfl, rfl, irqStat_raise_self _ _ (by omega)⟩

theorem whiskFault_descriptor (s : State) (i cwa : Nat) :
    ∃ u : State, s.whiskFault i ⟨5, cwa, false⟩ false = u.faultCtx i 5 := ⟨_, rfl⟩

/-! ### Chunks and completion (R340, R347) -/

theorem readGranted_of_none {s : State} {i : Nat} (h : (s.ctx i).need = []) : s.readGranted i = s := by
  simp [State.readGranted, h]

/-- Writes to lines that are not coherent ask for nothing. -/
theorem queueWrites_plain {s : State} {i : Nat} {ws : List WWrite} (h : ∀ w ∈ ws, s.isCoherent w.line = false) :
    s.queueWrites i ws = s.updCtx i (fun c => { c with writes := c.writes ++ ws }) := by
  have hfold : ∀ (xs : List WWrite) (u : State), (∀ w ∈ xs, u.isCoherent w.line = false) →
      xs.foldl (fun u w => u.askLine i w.line w.keyslot .write) u = u := by
    intro xs
    induction xs with
    | nil => intro u _; rfl
    | cons w xs ih =>
      intro u hu
      rw [List.foldl_cons, State.askLine, hu w (by simp)]
      exact ih u (fun w hw => hu w (List.mem_cons_of_mem _ hw))
  exact hfold ws _ h

/-- What the chunk whose reads have all returned changes of its context. -/
def Ctx.afterChunk (c : Ctx) (d : WDesc) : Ctx :=
  let n := d.chunk c.began
  let o := c.run d c.began n
  { c with
    issued := false, got := [], slots := [], masked := [], reads := [], tlbInv := false, crc := o.crc, found := o.found, done := o.done
    began := c.began + n, progress := if o.writes = [] then c.began + n else c.progress, writes := c.writes ++ o.writes }

/-- What the completion of its descriptor changes of a context. -/
def Ctx.passed (c : Ctx) : Ctx :=
  { c with
    head := c.head + 1, desc := none, done := none, posted := false, progress := 0, began := 0, marks := [], pausing := false
    kind := 0, ringErr := false, tableErr := false, saveErr := false, stopCause := 0, tlbInv := false
    aside := none, starting := none
    state := if c.pausing then 4 else if c.head + 1 = c.tail then 1 else 2 }

theorem noted_noteDesc (s : State) (i : Nat) : Noted s (s.noteDesc i) := noted_trans (noted_tally _ _ _) (noted_sample _ _ _ _)

end Sys2Proof.Machine

namespace Sys2Proof.Proofs

open Sys2Proof Sys2Proof.Machine Sys2Proof.Safety Sys2Proof.Laws

/-! ### Descriptors begin -/

/-- A context that may run takes up its descriptor. -/
theorem begin_fetches {s : State} {i : Nat} (hclk : Clocked s) (hb : s.noBells) (hne : (s.ctx i).head ≠ (s.ctx i).tail)
    (hd : (s.ctx i).desc = none) (hdone : (s.ctx i).done = none) (hrun : s.mayRun i = true) (op : Nat) :
    s.begin i op = s.fetchStep i op := by
  have hu : s.unclocked = false := hclk
  simp [State.begin, hu, settleBells_of_noBells hb, hne, hd, hdone, hrun]

/-- A fetch whose line has not returned holds the channel. -/
theorem fetchStep_waits {s u : State} {i : Nat} (h : s.fetchDesc i = (.waits, u)) (op : Nat) :
    ∃ t, s.fetchStep i op = t ∧ t = { u with ctxs := t.ctxs, chans := t.chans } ∧ (t.ctx i).state = 3 ∧
      (t.ctx i).desc = (u.ctx i).desc ∧ (t.ctx i).head = (u.ctx i).head := by
  refine ⟨(u.takeChannel i).updCtx i (fun x => { x with starting := some op }), by simp [State.fetchStep, h], ?_, ?_⟩
  · obtain ⟨cs, chs, htake⟩ := takeChannel_eq u i
    rw [htake]
    rfl
  rw [State.ctx_updCtx, if_pos rfl, ctx_takeChannel_self]
  exact ⟨rfl, rfl, rfl⟩

/-- A descriptor of the command's operation begins at its first byte. -/
theorem fetchStep_begins {s u : State} {i : Nat} {b : List Byte} (h : s.fetchDesc i = (.got b, u)) (hok : descOk b = true) {op : Nat}
    (hop : field b 0 1 % 16 = op) :
    ∃ t, s.fetchStep i op = t ∧ (t.ctx i).state = 3 ∧ (t.ctx i).desc = some (descOf b) ∧ (t.ctx i).progress = 0 ∧
      (t.ctx i).began = 0 ∧ (t.ctx i).found = 0 ∧ (t.ctx i).crc = (descOf b).value.setWidth 32 ∧
      (t.ctx i).done = (descOf b).atOnce ∧ (t.ctx i).head = (u.ctx i).head ∧ (t.chan (i / 4)).slot = i % 4 ∧
      (op = 0 → (t.ctx i).done = some (1, 0)) := by
  refine ⟨(u.takeChannel i).updCtx i (fun x => { x with
    desc := some (descOf b), progress := 0, began := 0, found := 0, crc := (descOf b).value.setWidth 32, done := (descOf b).atOnce
    posted := false, marks := [], starting := none, fetched := s.now }), by simp [State.fetchStep, h, hok, hop], ?_⟩
  rw [State.ctx_updCtx, if_pos rfl, ctx_takeChannel_self, chan_updCtx, chan_takeChannel_slot]
  refine ⟨rfl, rfl, rfl, rfl, rfl, rfl, rfl, rfl, rfl, fun h0 => ?_⟩
  have hdesc : (descOf b).op = 0 := hop.trans h0
  simp [WDesc.atOnce, hdesc]

/-- A descriptor that breaks a rule faults its context. -/
theorem fetchStep_faults {s u : State} {i : Nat} {b : List Byte} (h : s.fetchDesc i = (.got b, u)) (hbad : descOk b = false) (op : Nat) :
    ∃ t, s.fetchStep i op = t ∧ (t.ctx i).state = 5 ∧ (t.ctx i).kind = 5 ∧
      (t.irqStat (.wsk (i / 4))).getLsbD (4 + i % 4) = true := by
  obtain ⟨w, hw⟩ := whiskFault_descriptor (u.takeChannel i) i (s.ctx i).faultCwa
  refine ⟨(w.faultCtx i 5).updCtx i (fun x => { x with starting := none }), by simp [State.fetchStep, h, hbad, hw], ?_⟩
  rw [State.ctx_updCtx, if_pos rfl]
  exact faultCtx_leaves w i 5

/-- A descriptor of another operation is left to its own command. -/
theorem fetchStep_leaves {s u : State} {i : Nat} {b : List Byte} (h : s.fetchDesc i = (.got b, u)) (hok : descOk b = true) {op : Nat}
    (hop : field b 0 1 % 16 ≠ op) :
    ∃ t, s.fetchStep i op = t ∧ t = { u with ctxs := t.ctxs } ∧ (∀ j, j ≠ i → t.ctx j = u.ctx j) ∧
      (t.ctx i).desc = (u.ctx i).desc ∧ (t.ctx i).head = (u.ctx i).head := by
  refine ⟨u.updCtx i (fun x => { x with starting := none, state := if x.state = 3 then 2 else x.state }),
    by simp [State.fetchStep, h, hok, hop], rfl, fun j hj => ?_, ?_⟩
  · rw [State.ctx_updCtx, if_neg hj]
  · rw [State.ctx_updCtx, if_pos rfl]
    exact ⟨rfl, rfl⟩

/-- R335, R336, R342. -/
theorem descriptorsBegin : Sys2Proof.Claims.DescriptorsBegin := by
  intro s u i b c op hc hb hne hd hdone hrun hclk
  have hexec : exec c s = .next (s.begin i.val op) := by
    simp only [List.mem_cons, Prod.mk.injEq, List.not_mem_nil, or_false] at hc
    rcases hc with ⟨rfl, rfl⟩ | ⟨rfl, rfl⟩ | ⟨rfl, rfl⟩ | ⟨rfl, rfl⟩ | ⟨rfl, rfl⟩ | ⟨rfl, rfl⟩ | ⟨rfl, rfl⟩ <;> rfl
  rw [begin_fetches hclk hb hne hd hdone hrun] at hexec
  refine ⟨fun h => ?_, fun h => ⟨fun hok hop => ?_, fun hbad => ?_, fun hok hop => ?_⟩⟩
  · obtain ⟨t, ht, hrest⟩ := fetchStep_waits h op
    exact ⟨t, by rw [hexec, ht], hrest⟩
  · obtain ⟨t, ht, hrest⟩ := fetchStep_begins h hok hop
    exact ⟨t, by rw [hexec, ht], hrest⟩
  · obtain ⟨t, ht, hrest⟩ := fetchStep_faults h hbad op
    exact ⟨t, by rw [hexec, ht], hrest⟩
  · obtain ⟨t, ht, hrest⟩ := fetchStep_leaves h hok hop
    exact ⟨t, by rw [hexec, ht], hrest⟩

/-! ### Chunks and completion -/

/-- A running context goes on with its chunk. -/
theorem whiskChunk_steps {s : State} {i : Fin 256} {d : WDesc} (hclk : Clocked s) (hb : s.noBells) (hst : (s.ctx i).state = 3)
    (hd : (s.ctx i).desc = some d) (hdone : (s.ctx i).done = none) (hhalt : (s.chan (i.val / 4)).halted = false)
    (hheld : (s.chan (i.val / 4)).held = false) : exec (.whiskChunk i) s = .next (s.chunkStep i d) := by
  have hu : s.unclocked = false := hclk
  have hretake : s.retake i.val = s := by simp [State.retake, hst]
  show execWhiskChunk i s = _
  simp [execWhiskChunk, hu, settleBells_of_noBells hb, hretake, State.whiskChunk, hhalt, hheld, hst, hd, hdone]

/-- A context that pauses does so at its chunk boundary. -/
theorem chunkStep_pauses {s : State} {i : Nat} (d : WDesc) (hi : (s.ctx i).issued = false) (hw : (s.ctx i).writes = [])
    (hp : (s.ctx i).pausing = true) : s.chunkStep i d = s.updCtx i (fun x => { x with state := 4, pausing := false }) := by
  simp [State.chunkStep, hi, hw, hp]

theorem chunkStep_ends {s : State} {i : Nat} (d : WDesc) (hi : (s.ctx i).issued = true) (hneed : (s.ctx i).need = [])
    (hbad : (s.ctx i).bad = 0)
    (hplain : ∀ w ∈ ((s.ctx i).run d (s.ctx i).began (d.chunk (s.ctx i).began)).writes, s.isCoherent w.line = false) :
    ∃ t, s.chunkStep i d = t ∧ t = { s with ctxs := t.ctxs } ∧ t.ctx i = (s.ctx i).afterChunk d ∧
      ∀ j, j ≠ i → t.ctx j = s.ctx j := by
  refine ⟨_, rfl, ?_⟩
  simp only [State.chunkStep, hi, if_true, readGranted_of_none hneed, hneed, State.endChunk, hbad, ne_eq, not_true_eq_false, if_false]
  rw [queueWrites_plain (s := State.updCtx s i _) hplain]
  refine ⟨rfl, ?_, fun j hj => ?_⟩
  · rw [State.ctx_updCtx, if_pos rfl, State.ctx_updCtx, if_pos rfl]
    rfl
  · rw [State.ctx_updCtx, if_neg hj, State.ctx_updCtx, if_neg hj]

theorem passDesc_leaves {s : State} {i : Nat} {d : WDesc} (hd : (s.ctx i).desc = some d) :
    Noted { s with ctxs := (s.passDesc i).ctxs } (s.passDesc i) ∧ (s.passDesc i).ctx i = (s.ctx i).passed ∧
      (d.irq = true → ((s.passDesc i).irqStat (.wsk (i / 4))).getLsbD (i % 4) = true) ∧
      ∀ j, j ≠ i → (s.passDesc i).ctx j = s.ctx j := by
  have hnote := noted_noteDesc s i
  have hpass : ∃ u, s.passDesc i = (if d.irq then u.raise (.wsk (i / 4)) (i % 4) else u) ∧
      u = (s.noteDesc i).updCtx i (fun x => { x with
        head := (s.ctx i).head + 1, desc := none, done := none, posted := false, progress := 0, began := 0, marks := []
        pausing := false, kind := 0, ringErr := false, tableErr := false, saveErr := false, stopCause := 0, tlbInv := false
        aside := none, starting := none
        state := if x.pausing then 4 else if (s.ctx i).head + 1 = x.tail then 1 else 2 }) :=
    ⟨_, by simp only [State.passDesc, hd], rfl⟩
  obtain ⟨u, hp, hu⟩ := hpass
  have hself : u.ctx i = (s.ctx i).passed := by
    rw [hu, State.ctx_updCtx, if_pos rfl, ctx_of_noted hnote]
    rfl
  have hother : ∀ j, j ≠ i → u.ctx j = s.ctx j := fun j hj => by
    rw [hu, State.ctx_updCtx, if_neg hj, ctx_of_noted hnote]
  have hun : Noted { s with ctxs := u.ctxs } u := by
    have := noted_withCtxs hnote u.ctxs
    have he : ({ s.noteDesc i with ctxs := u.ctxs } : State) = u := by rw [hu]; rfl
    rwa [he] at this
  rw [hp]
  split
  · have hr := noted_raise u (.wsk (i / 4)) (i % 4)
    have hctxs : (u.raise (.wsk (i / 4)) (i % 4)).ctxs = u.ctxs := by
      obtain ⟨_, _, _, _, _, h, -⟩ := hr
      rw [h]
    rw [hctxs]
    exact ⟨noted_trans hun hr, (ctx_of_noted hr i).trans hself, fun _ => irqStat_raise_self _ _ (by omega),
      fun j hj => (ctx_of_noted hr j).trans (hother j hj)⟩
  · next h => exact ⟨hun, hself, fun hirq => absurd hirq h, hother⟩

/-- R340, R344, R347. -/
theorem chunksAndCompletions : Sys2Proof.Claims.ChunksAndCompletions := by
  intro s i d hclk hb hst hd
  refine ⟨fun hdone hhalt hheld => ⟨fun hi hw hp => ?_, fun hi hneed hbad => ?_⟩,
    fun st res hdone hw hmarks hheld hposted => ?_⟩
  · rw [whiskChunk_steps hclk hb hst hd hdone hhalt hheld, chunkStep_pauses d hi hw hp]
    exact ⟨_, rfl, rfl, by rw [State.ctx_updCtx, if_pos rfl], fun j hj => by rw [State.ctx_updCtx, if_neg hj]⟩
  · intro o hplain
    rw [whiskChunk_steps hclk hb hst hd hdone hhalt hheld]
    obtain ⟨t, ht, hframe, hself, hother⟩ := chunkStep_ends d hi hneed hbad hplain
    exact ⟨t, by rw [ht], hframe, by rw [hself]; rfl, by rw [hself]; rfl, by rw [hself]; rfl, by rw [hself]; rfl,
      by rw [hself]; rfl, by rw [hself]; rfl, hother⟩
  · have hu : s.unclocked = false := hclk
    have hexec : exec (.descriptorComplete i) s = .next (s.passDesc i.val) := by
      show execDescriptorComplete i s = _
      simp [execDescriptorComplete, hu, State.completeStep, hdone, hw, hmarks, hst, hheld, hposted]
    obtain ⟨hnote, hself, hirq, hother⟩ := passDesc_leaves hd
    exact ⟨_, hexec, hnote, by rw [hself]; rfl, by rw [hself]; rfl, by rw [hself]; rfl, by rw [hself]; rfl, hirq, hother⟩

/-! ### Controls of contexts -/

theorem locate_wsk {c o : Nat} (hc : c < 64) (ho : o < 0x1000) : locate (RPage.base (.wsk c) + o) = some (.wsk c, o) := by
  have hpast : ∀ k, k ≤ 0x280000 → ¬ RPage.base (.wsk c) + o < k := fun k hk => by simp only [RPage.base]; omega
  have hbelow : RPage.base (.wsk c) + o < 0x2C0000 := by simp only [RPage.base]; omega
  simp only [locate, hpast, Nat.reduceLeDiff, if_false, hbelow, if_true]
  simp only [RPage.base]
  rw [show (0x280000 + c * 0x1000 + o - 0x280000) / 0x1000 = c by omega,
    show (0x280000 + c * 0x1000 + o - 0x280000) % 0x1000 = o by omega]

/-- A write to a channel's page that takes effect. -/
theorem wskWrite_of_writes {s : State} {path : Path} {c off : Nat} (h : WritesChannel s path c) (hc : c < 64) (ho : off < 0x1000)
    (data : W32) (body : State → State) : s.wskWrite path c off data body = body s := by
  obtain ⟨hheard, hview, hclear, hheld⟩ := h
  have hreach : s.reaches path (.wsk c) = true := by rcases hview with h | h <;> simp [State.reaches, h]
  unfold State.wskWrite
  rw [State.portWrite_of_clear hheard hclear (locate_wsk hc ho) hheld]
  simp [hreach]

/-- A change of one context. -/
theorem updCtx_leaves (s : State) (i : Nat) (f : Ctx → Ctx) :
    s.updCtx i f = { s with ctxs := (s.updCtx i f).ctxs } ∧ (∀ j, j ≠ i → (s.updCtx i f).ctx j = s.ctx j) ∧
      (s.updCtx i f).ctx i = f (s.ctx i) :=
  ⟨rfl, fun j hj => by rw [State.ctx_updCtx, if_neg hj], by rw [State.ctx_updCtx, if_pos rfl]⟩

section

variable {s : State} {path : Path} {i : Fin 256} (hw : WritesChannel s path (i.val / 4))
include hw

theorem ctxTail_acts (hb : s.noBells) (hq : ∀ n, path = .link n → (s.link n.val).iwq = []) (v : BitVec 32) :
    ∃ t, exec (.ctxTail path i v) s = .next t ∧ t = { s with ctxs := t.ctxs } ∧ (∀ j, j ≠ i.val → t.ctx j = s.ctx j) ∧
      t.ctx i.val = (if s.ringSize i.val < (v - (s.ctx i.val).head).toNat then { s.ctx i.val with tailErr := true }
        else { s.ctx i.val with
          tail := v, tailErr := false
          state := if (s.ctx i.val).state = 1 ∧ v ≠ (s.ctx i.val).head then 2 else (s.ctx i.val).state }) := by
  obtain ⟨cs, hadd, hcs⟩ := addBell_acts hb hq i.val 0 v
  have hexec : exec (.ctxTail path i v) s = .next (({ s with ctxs := cs } : State).takeTail i.val v) := by
    show execCtxTail path i v s = _
    rw [execCtxTail, wskWrite_of_writes hw (by omega) (by unfold ctxOff; omega), hadd]
    cases path <;> rfl
  refine ⟨_, hexec, rfl, fun j hj => ?_, ?_⟩
  · rw [State.takeTail, State.ctx_updCtx, if_neg hj]
    exact hcs j
  · rw [State.takeTail, State.ctx_updCtx, if_pos rfl, show State.ctx { s with ctxs := cs } i.val = s.ctx i.val from hcs i.val]
    rfl

theorem ctxResume_acts (hb : s.noBells) (hq : ∀ n, path = .link n → (s.link n.val).iwq = [])
    (hhalt : (s.chan (i.val / 4)).halted = false) (hst : (s.ctx i.val).state = 4 ∨ (s.ctx i.val).state = 5 ∨ (s.ctx i.val).state = 6)
    (hsave : (s.ctx i.val).saveErr = false) :
    ∃ t, exec (.ctxResume path i) s = .next t ∧ t = { s with ctxs := t.ctxs } ∧ (∀ j, j ≠ i.val → t.ctx j = s.ctx j) ∧
      (t.ctx i.val).state = (if (s.ctx i.val).head = (s.ctx i.val).tail then 1 else 2) ∧ (t.ctx i.val).kind = 0 ∧
      (t.ctx i.val).desc = (s.ctx i.val).desc ∧ (t.ctx i.val).progress = (s.ctx i.val).progress := by
  obtain ⟨cs, hadd, hcs⟩ := addBell_acts hb hq i.val 1 0
  have hhalt' : (State.chan { s with ctxs := cs } (i.val / 4)).halted = false := hhalt
  have hexec : exec (.ctxResume path i) s = .next (({ s with ctxs := cs } : State).takeResume i.val) := by
    show execCtxResume path i s = _
    rw [execCtxResume, wskWrite_of_writes hw (by omega) (by unfold ctxOff; omega), hadd]
    cases path <;> rfl
  refine ⟨_, hexec, ?_⟩
  rw [State.takeResume, hhalt', if_neg (by decide)]
  refine ⟨rfl, fun j hj => ?_, ?_⟩
  · rw [State.ctx_updCtx, if_neg hj]
    exact hcs j
  · rw [State.ctx_updCtx, if_pos rfl, show State.ctx { s with ctxs := cs } i.val = s.ctx i.val from hcs i.val, if_pos ⟨hst, hsave⟩]
    exact ⟨rfl, rfl, rfl, rfl⟩

theorem tlbInv_acts (hb : s.noBells) (hq : ∀ n, path = .link n → (s.link n.val).iwq = []) :
    ∃ t, exec (.tlbInv path i) s = .next t ∧ t = { s with ctxs := t.ctxs, chans := t.chans } ∧
      (∀ j, j ≠ i.val → t.ctx j = s.ctx j) ∧ (∀ k, k ≠ i.val / 4 → t.chan k = s.chan k) ∧
      (t.chan (i.val / 4)).tlb = (s.chan (i.val / 4)).tlb.filter (fun e => e.1 != i.val % 4) := by
  obtain ⟨cs, hadd, hcs⟩ := addBell_acts hb hq i.val 2 0
  have hexec : exec (.tlbInv path i) s = .next (({ s with ctxs := cs } : State).takeTlbInv i.val) := by
    show execTlbInv path i s = _
    rw [execTlbInv, wskWrite_of_writes hw (by omega) (by unfold ctxOff; omega), hadd]
    cases path <;> rfl
  refine ⟨_, hexec, rfl, fun j hj => ?_, fun k hk => ?_, ?_⟩
  · rw [State.takeTlbInv, State.ctx_updCtx, if_neg hj]
    exact hcs j
  · rw [State.takeTlbInv, chan_updCtx, State.chan_updChan, if_neg hk]
    rfl
  · rw [State.takeTlbInv, chan_updCtx, State.chan_updChan, if_pos rfl]
    rfl

theorem ctxPause_acts :
    ∃ t, exec (.ctxPause path i) s = .next t ∧ t = { s with ctxs := t.ctxs } ∧ (∀ j, j ≠ i.val → t.ctx j = s.ctx j) ∧
      ((s.ctx i.val).state = 2 → (t.ctx i.val).state = 4) ∧
      ((s.ctx i.val).state = 3 → (s.ctx i.val).boundary = true → (t.ctx i.val).state = 4) ∧
      ((s.ctx i.val).state = 3 → (s.ctx i.val).boundary = false → (t.ctx i.val).state = 3 ∧ (t.ctx i.val).pausing = true) := by
  have hexec : exec (.ctxPause path i) s = .next (s.pauseCtx i.val) := by
    show execCtxPause path i s = _
    rw [execCtxPause, wskWrite_of_writes hw (by omega) (by unfold ctxOff; omega)]
  obtain ⟨hframe, hother, hself⟩ := updCtx_leaves s i.val (fun c =>
    if c.state = 2 ∨ (c.state = 3 ∧ c.boundary = true) then { c with state := 4 }
    else if c.state = 3 then { c with pausing := true } else c)
  refine ⟨_, hexec, hframe, hother, ?_⟩
  rw [State.pauseCtx, hself]
  exact ⟨fun h => by simp [h], fun h hbd => by simp [h, hbd], fun h hbd => by simp [h, hbd]⟩

theorem ctxAbort_acts :
    ∃ t, exec (.ctxAbort path i) s = .next t ∧ t = { s with ctxs := t.ctxs } ∧ (∀ j, j ≠ i.val → t.ctx j = s.ctx j) ∧
      ((s.ctx i.val).state = 4 ∨ (s.ctx i.val).state = 5 ∨ (s.ctx i.val).state = 6 →
        ((s.ctx i.val).head = (s.ctx i.val).tail → (t.ctx i.val).state = 1) ∧
        ((s.ctx i.val).head ≠ (s.ctx i.val).tail → (t.ctx i.val).done = some (4, (s.ctx i.val).progress))) := by
  have hexec : exec (.ctxAbort path i) s = .next (s.abortCtx i.val) := by
    show execCtxAbort path i s = _
    rw [execCtxAbort, wskWrite_of_writes hw (by omega) (by unfold ctxOff; omega)]
  obtain ⟨hframe, hother, hself⟩ := updCtx_leaves s i.val (fun c =>
    if c.state = 4 ∨ c.state = 5 ∨ c.state = 6 then
      if c.head = c.tail then { c with state := 1 }
      else { c with done := some (4, c.progress), posted := false, issued := false, need := [], got := [] }
    else c)
  refine ⟨_, hexec, hframe, hother, fun hst => ?_⟩
  rw [State.abortCtx, hself, if_pos hst]
  exact ⟨fun h => by rw [if_pos h], fun h => by rw [if_neg h]⟩

theorem channelRestart_acts (c : Fin 64) (hc : c.val = i.val / 4) :
    ∃ t, exec (.channelRestart path c) s = .next t ∧ t = { s with chans := t.chans } ∧
      t.chan c.val = { s.chan c.val with halted := false } ∧ ∀ k, k ≠ c.val → t.chan k = s.chan k := by
  have hexec : exec (.channelRestart path c) s = .next (s.updChan c.val (fun x => { x with halted := false })) := by
    show execChannelRestart path c s = _
    rw [execChannelRestart, wskWrite_of_writes (hc ▸ hw) c.isLt (by omega)]
  exact ⟨_, hexec, rfl, by rw [State.chan_updChan, if_pos rfl], fun k hk => by rw [State.chan_updChan, if_neg hk]⟩

end

/-- R333, R334, R337, R344. -/
theorem contextControls : Sys2Proof.Claims.ContextControls := by
  intro s path i v hw
  exact ⟨fun hb hq => ⟨ctxTail_acts hw hb hq v, ctxResume_acts hw hb hq, tlbInv_acts hw hb hq⟩, ctxPause_acts hw, ctxAbort_acts hw,
    channelRestart_acts hw⟩

/-- Settles O47. -/
theorem whisks : Obligations.Whisks := ⟨descriptorsBegin, chunksAndCompletions, contextControls⟩

end Sys2Proof.Proofs
end

section
/-!
SUPPORT. Dies and burners (06_burner_channel.md R178 to R200): what the commands of a burner's bus leave of its dies.
-/

namespace Sys2Proof.Machine

open Sys2Proof Sys2Proof.Safety Sys2Proof.Laws

/-! ### Changes of one die and of one burner -/

theorem dieIs_of_upd {s t : State} {b ce : Nat} {f : Die → Die} (h : t.dies = s.dies.upd .absent (b * 10 + ce) f) :
    DieIs s t b ce (f (s.die b ce)) := by
  intro k
  rw [h]
  exact SMap.getD_upd _ _ _ _ _

theorem burnerIs_of_upd {s t : State} {b : Nat} {f : Burner → Burner} (h : t.burners = s.burners.upd .fresh b f) :
    BurnerIs s t b (f (s.burner b)) := by
  intro k
  unfold State.burner
  rw [h]
  exact SMap.getD_upd _ _ _ _ _

theorem die_updDie_self (s : State) (b ce : Nat) (f : Die → Die) : (s.updDie b ce f).die b ce = f (s.die b ce) :=
  (SMap.getD_upd _ _ _ _ _).trans (if_pos rfl)

theorem dies_of_noted {s t : State} (h : Noted s t) : t.dies = s.dies := by
  obtain ⟨_, _, _, _, _, rfl, -⟩ := h
  rfl

/-- A change of one die after another of the same die. -/
theorem dieIs_trans {s u t : State} {b ce : Nat} {d : Die} {f : Die → Die} (h : DieIs s u b ce d)
    (h' : t.dies = u.dies.upd .absent (b * 10 + ce) f) : DieIs s t b ce (f d) := by
  intro k
  have hself : u.die b ce = d := (h (b * 10 + ce)).trans (if_pos rfl)
  rw [dieIs_of_upd h' k, hself]
  split
  · rfl
  · next hk => rw [h k, if_neg hk]

theorem noted_withDies {s t : State} (h : Noted s t) (ds : SMap Die) :
    Noted ({ s with dies := ds } : State) ({ t with dies := ds } : State) := by
  obtain ⟨tly, live, out, ev, reports, rfl, hlive⟩ := h
  exact ⟨tly, live, out, ev, reports, rfl, hlive⟩

/-- Outputs that a note adds stand after those before it. -/
theorem mem_drop_of_noted {s t : State} {o : Output} {n : Nat} (h : Noted s t) (hn : n ≤ s.out.length) (ho : o ∈ s.out.drop n) :
    o ∈ t.out.drop n := by
  obtain ⟨_, _, out, _, _, rfl, -⟩ := h
  rw [List.drop_append_of_le_length hn]
  exact List.mem_append_left _ ho

/-! ### The next use of a burner's bus (R182) -/

theorem nextUse_foldl_mem (us : List BusUse) (m : Option BusUse) {u : BusUse} (h : us.foldl (fun m u => match m with
    | none => some u
    | some v => if v.req.before u.req then some v else some u) m = some u) : m = some u ∨ u ∈ us := by
  induction us generalizing m with
  | nil => exact .inl h
  | cons x us ih =>
    rcases ih _ h with hm | hm
    · cases m with
      | none => exact .inr (by simp at hm; simp [hm])
      | some v =>
        dsimp only at hm
        split at hm
        · exact .inl hm
        · exact .inr (by simp at hm; simp [hm])
    · exact .inr (List.mem_cons_of_mem _ hm)

/-- The next use of a burner's bus is one that is ready. -/
theorem mem_busUses_of_nextUse {s : State} {b : Nat} {u : BusUse} (h : s.nextUse b = some u) : u ∈ s.busUses b := by
  rcases nextUse_foldl_mem (s.busUses b) none h with h | h
  · cases h
  · exact h

/-- Programs that are confirmed next are those loaded, and they fit the governor's budget (R184, R214). -/
theorem confirm_ready {s : State} {b ce : Nat} {q : MReq} {qs : List MReq} (h : s.nextUse b = some (.confirm ce q qs)) :
    qs = s.loadedReqs b ce ∧ s.inBudget qs.length = true := by
  have hmem := mem_busUses_of_nextUse h
  simp only [State.busUses, List.mem_append] at hmem
  rcases hmem with (hmem | hmem) | hmem
  · obtain ⟨r, -, hr⟩ := List.mem_filterMap.mp hmem
    split at hr
    · split at hr
      · simp at hr
      · split at hr <;> simp at hr
    · split at hr <;> simp at hr
    · split at hr <;> simp at hr
  · simp at hmem
  · obtain ⟨c, -, hc⟩ := List.mem_filterMap.mp hmem
    split at hc
    · next hready =>
      obtain ⟨r, -, hr⟩ := Option.map_eq_some_iff.mp hc
      obtain ⟨rfl, -, rfl⟩ := BusUse.confirm.inj hr
      exact ⟨rfl, (Bool.and_eq_true_iff.mp hready).2⟩
    · cases hc

/-! ### Results (01 R37, 18 R499) -/

/-- The state once a result stands on a burner's Media result rail, before its latency sample. -/
def State.withResult (s : State) (b : Nat) (r : MRes) : State :=
  { s with rails := { s.rails with mediaRes := s.rails.mediaRes.upd .empty b (fun rl => rl.push 256 r 0) } }

theorem noted_postResult (s : State) (b : Nat) (q : MReq) (r : MRes) : Noted (s.withResult b r) (s.postResult b q r) :=
  noted_sample _ _ _ _

theorem mediaRes_of_noted {s t : State} (h : Noted s t) : t.rails.mediaRes = s.rails.mediaRes := by
  obtain ⟨_, _, _, _, _, rfl, -⟩ := h
  rfl

theorem mediaRes_postResult_self (s : State) (b : Nat) (q : MReq) (r : MRes) :
    ((s.postResult b q r).rails.mediaRes.getD b .empty).waiting = (s.rails.mediaRes.getD b .empty).waiting ++ [r] := by
  rw [mediaRes_of_noted (noted_postResult s b q r)]
  have := (SMap.getD_upd s.rails.mediaRes .empty b b (fun rl => rl.push 256 r 0)).trans (if_pos rfl)
  exact (congrArg Rail.waiting this).trans (Rail.waiting_push _ _ _ _)

theorem mediaRes_postResult_ne (s : State) {b k : Nat} (q : MReq) (r : MRes) (h : k ≠ b) :
    (s.postResult b q r).rails.mediaRes.getD k .empty = s.rails.mediaRes.getD k .empty := by
  rw [mediaRes_of_noted (noted_postResult s b q r)]
  exact (SMap.getD_upd s.rails.mediaRes .empty k b (fun rl => rl.push 256 r 0)).trans (if_neg h)

/-! ### Data on the bus (R181) -/

/-- What a transfer of data puts on the bus. -/
def State.dbiData (s : State) (b ce : Nat) (bytes : List Byte) : List Byte × List Bool :=
  if (s.die b ce).dbi then ((bytes.map dbiLane).map (·.1), (bytes.map dbiLane).map (·.2)) else (bytes, [])

theorem sendData_eq (s : State) (b ce : Nat) (bytes : List Byte) :
    s.sendData b ce bytes = { s with out := s.out ++ [.dieData b ce (s.dbiData b ce bytes).1 (s.dbiData b ce bytes).2] } := by
  unfold State.sendData State.dbiData State.emit
  dsimp only
  split <;> rfl

theorem dbiData_plain {s : State} {b ce : Nat} (h : (s.die b ce).dbi = false) (bytes : List Byte) :
    (s.dbiData b ce bytes).1 = bytes ∧ (s.dbiData b ce bytes).2 = [] := by
  simp [State.dbiData, h]

/-! ### Pages that are issued (03 R105) -/

theorem setFrames_eq (g : Frame → Frame) (fs : List Nat) (s : State) :
    ∃ x : SMap Frame, fs.foldl (fun (u : State) f => u.updFrame f g) s = { s with stk := { s.stk with frames := x } } := by
  induction fs generalizing s with
  | nil => exact ⟨s.stk.frames, rfl⟩
  | cons f fs ih =>
    obtain ⟨x, hx⟩ := ih (s.updFrame f g)
    exact ⟨x, by rw [List.foldl_cons, hx]; rfl⟩

/-- A page that is issued is at the stage of its program; nothing but the stockpot changes. -/
theorem issued_leaves (s : State) (i : Nat) :
    s.issued i = { s with stk := (s.issued i).stk } ∧
      (s.issued i).stk.pages.find i = (s.stk.pages.find i).map (fun p => { p with stage := .programming }) := by
  cases hp : s.stk.pages.find i with
  | none =>
    have : s.issued i = s := by simp [State.issued, hp]
    rw [this]
    exact ⟨rfl, by rw [hp]; rfl⟩
  | some p =>
    obtain ⟨x, hx⟩ := setFrames_eq (fun x => { x with state := .programming }) p.frames s
    have : s.issued i = ({ s with stk := { s.stk with frames := x } } : State).updPage i (fun p => { p with stage := .programming }) := by
      simp only [State.issued, hp]
      rw [hx]
    have hupd : ({ s with stk := { s.stk with frames := x } } : State).updPage i (fun p => { p with stage := .programming }) =
        { s with stk := { s.stk with frames := x, pages := s.stk.pages.put i { p with stage := .programming } } } := by
      simp only [State.updPage, hp]
    rw [this, hupd]
    exact ⟨rfl, SMap.find_put_self _ _ _⟩

/-! ### Requests taken off a burner's list -/

theorem ungrant_foldl (b : Nat) (qs : List MReq) (s : State) :
    (∃ bs : SMap Burner, qs.foldl (fun u q => u.ungrant b q) s = { s with burners := bs }) ∧
      BurnerIs s (qs.foldl (fun u q => u.ungrant b q) s) b { s.burner b with
        granted := (s.burner b).granted.filter (fun r => qs.all (fun x => r.id != x.id)) } := by
  induction qs generalizing s with
  | nil =>
    refine ⟨⟨s.burners, rfl⟩, fun k => ?_⟩
    split
    · next hk =>
      subst hk
      show s.burner k = _
      simp
    · rfl
  | cons q qs ih =>
    obtain ⟨⟨bs, hbs⟩, hself⟩ := ih (s.ungrant b q)
    refine ⟨⟨bs, by rw [List.foldl_cons, hbs]; rfl⟩, fun k => ?_⟩
    rw [List.foldl_cons, hself k]
    have hfirst : BurnerIs s (s.ungrant b q) b { s.burner b with granted := (s.burner b).granted.filter (fun r => r.id != q.id) } :=
      burnerIs_of_upd (f := fun x => { x with granted := x.granted.filter (fun r => r.id != q.id) }) rfl
    rw [hfirst b, hfirst k, if_pos rfl]
    split
    · simp only [List.filter_filter, List.all_cons]
      congr 2
      funext r
      exact Bool.and_comm _ _
    · rfl

/-! ### Status words (R185) -/

theorem ofNat_fld (w : W32) {hi lo n : Nat} (h : hi + 1 - lo = n) : BitVec.ofNat n (fld w hi lo) = w.extractLsb' lo n := by
  apply BitVec.eq_of_toNat_eq
  simp [fld, h, Nat.shiftRight_eq_div_pow]

theorem fld_eq_zero_iff (w : W32) {hi lo n : Nat} (h : hi + 1 - lo = n) : fld w hi lo = 0 ↔ w.extractLsb' lo n = 0 := by
  rw [← BitVec.toNat_inj]
  simp [fld, h, Nat.shiftRight_eq_div_pow]

/-- What a status word without a fault shows of its die. -/
def Die.shown (d : Die) (w : W32) : Die :=
  { d with
    status := w, alert := w.getLsbD 3, drdy := w.extractLsb' 12 4, blank := w.extractLsb' 16 4
    busyUntil := if w.getLsbD 0 = true ∧ w.extractLsb' 5 2 = 0 then 0 else d.busyUntil }

theorem takeStatus_of_accepted {s : State} {b ce : Nat} {w : W32} (h : w.getLsbD 4 = false) :
    s.takeStatus b ce w =
      if (s.die b ce).op ≠ .none ∧ w.getLsbD 0 = true ∧ w.getLsbD 1 = false ∧ w.extractLsb' 5 2 = 0 then
        (s.updDie b ce (fun d => d.shown w)).endOp b ce w
      else s.updDie b ce (fun d => d.shown w) := by
  have hshown : (fun d : Die => ({ d with
      status := w, alert := bitOf w 3, busyUntil := if bitOf w 0 = true ∧ fld w 6 5 = 0 then 0 else d.busyUntil
      drdy := BitVec.ofNat 4 (fld w 15 12), blank := BitVec.ofNat 4 (fld w 19 16) } : Die)) = fun d => d.shown w := by
    funext d
    simp only [Die.shown, bitOf, ofNat_fld w (show 15 + 1 - 12 = 4 by rfl), ofNat_fld w (show 19 + 1 - 16 = 4 by rfl),
      fld_eq_zero_iff w (show 6 + 1 - 5 = 2 by rfl)]
  unfold State.takeStatus
  rw [hshown]
  dsimp only
  rw [die_updDie_self, if_neg (by rw [bitOf, h]; decide)]
  simp only [bitOf, fld_eq_zero_iff w (show 6 + 1 - 5 = 2 by rfl), Bool.not_eq_true]
  rfl

end Sys2Proof.Machine

namespace Sys2Proof.Proofs

open Sys2Proof Sys2Proof.Machine Sys2Proof.Safety Sys2Proof.Laws

/-- A command of a device whose root PLL runs. -/
theorem unclocked_of_clocked {s : State} (h : Clocked s) : s.unclocked = false := h

/-! ### Reads -/

/-- R182, R183, R195. -/
theorem diesAreRead : Sys2Proof.Claims.DiesAreRead := by
  intro s b hclk
  have hu := unclocked_of_clocked hclk
  refine ⟨fun q hq => ?_, fun q hq => ?_, fun iters corrected ce pl q hq => ?_⟩
  · intro l d
    have hexec : exec (.readLevelSet b) s = .next ((s.frameTo b.val (saCe q.addr) 0x40 (2 ^ saPlane q.addr)
        [l.getD 0 0 + l.getD 1 0 * 256, 0, l.getD 2 0]).updDie b.val (saCe q.addr)
          (fun d => { d with levels := d.levels.put (saPlane q.addr) l })) := by
      show execReadLevelSet b s = _
      simp only [execReadLevelSet, hu, hq, Bool.false_eq_true, if_false, l]
    exact ⟨_, hexec, dieIs_of_upd (f := fun d => { d with levels := d.levels.put (saPlane q.addr) l }) rfl, rfl⟩
  · intro d
    have hexec : exec (.sectorRead b) s = .next (((s.ungrant b.val q).frameTo b.val (saCe q.addr) 0x01 (2 ^ saPlane q.addr)
        (addrWords q.addr)).updDie b.val (saCe q.addr) (fun d => { d with
          sensing := d.sensing.put (saPlane q.addr) q, senseAt := d.senseAt.put (saPlane q.addr) s.now
          drdy := d.drdy &&& ~~~ BitVec.ofNat 4 (2 ^ saPlane q.addr) })) := by
      show execSectorRead b s = _
      simp only [execSectorRead, hu, hq, Bool.false_eq_true, if_false]
    exact ⟨_, hexec, dieIs_of_upd (f := fun d => { d with
          sensing := d.sensing.put (saPlane q.addr) q, senseAt := d.senseAt.put (saPlane q.addr) s.now
          drdy := d.drdy &&& ~~~ BitVec.ofNat 4 (2 ^ saPlane q.addr) }) rfl,
      burnerIs_of_upd (f := fun x => { x with granted := x.granted.filter (fun r => r.id != q.id) }) rfl, rfl⟩
  · intro d
    let r : MRes := .read q (if d.blank.getLsbD pl then .blank
      else if ∃ n, iters = some n ∧ n.val ≤ s.ldpcIter b.val then .classA corrected.val else .fail)
    let u := (s.frameTo b.val ce 0x05 (2 ^ pl) (addrWords q.addr)).updDie b.val ce (fun d => { d with
      sensing := d.sensing.del pl, drdy := d.drdy &&& ~~~ BitVec.ofNat 4 (2 ^ pl), retries := 0 })
    have hexec : exec (.dataOut b iters corrected) s = .next (u.postResult b.val q r) := by
      show execDataOut b iters corrected s = _
      simp only [execDataOut, hu, hq, Bool.false_eq_true, if_false, u, r, d]
      cases iters <;> simp
    have hnote := noted_postResult u b.val q r
    refine ⟨_, hexec, ?_, mediaRes_postResult_self u b.val q r, fun k hk => mediaRes_postResult_ne u q r hk, ?_, ?_⟩
    · exact dieIs_of_upd (f := fun d => { d with
        sensing := d.sensing.del pl, drdy := d.drdy &&& ~~~ BitVec.ofNat 4 (2 ^ pl), retries := 0 }) (dies_of_noted hnote)
    · rw [dies_of_noted hnote, mediaRes_of_noted hnote]
      exact noted_trans (noted_emit _ _) hnote
    · exact mem_drop_of_noted hnote (by simp [u, State.withResult, State.frameTo, State.emit])
        (by simp [u, State.withResult, State.frameTo, State.emit])

/-! ### Programs and resets of blocks -/

theorem programLoad_leaves {s : State} {b : Fin 32} {q : MReq} {i : Nat} (hu : s.unclocked = false)
    (hq : s.nextUse b.val = some (.load q)) (hop : q.op = .program i) :
    ∃ t data dbi, exec (.programLoad b) s = .next t ∧
      DieIs s t b.val (saCe q.addr) { s.die b.val (saCe q.addr) with
        latches := (s.die b.val (saCe q.addr)).latches.put (saPlane q.addr) i } ∧
      ((s.die b.val (saCe q.addr)).dbi = false → data = s.pageBytes i ∧ dbi = []) ∧
      t.stk.pages.find i = (s.stk.pages.find i).map (fun p => { p with stage := .programming }) ∧
      t = { s with dies := t.dies, stk := t.stk, out := s.out ++
        [.die b.val (saCe q.addr) ((0x10 + 2 ^ saPlane q.addr * 256) :: addrWords q.addr), .dieData b.val (saCe q.addr) data dbi] } := by
  let x := s.dbiData b.val (saCe q.addr) (s.pageBytes i)
  let u : State := ({ s with out := s.out ++ [.die b.val (saCe q.addr) ((0x10 + 2 ^ saPlane q.addr * 256) :: addrWords q.addr),
    .dieData b.val (saCe q.addr) x.1 x.2] } : State).updDie b.val (saCe q.addr)
      (fun d => { d with latches := d.latches.put (saPlane q.addr) i })
  have hexec : exec (.programLoad b) s = .next (u.issued i) := by
    show execProgramLoad b s = _
    simp only [execProgramLoad, hu, hq, hop, Bool.false_eq_true, if_false, sendData_eq, State.frameTo, State.emit, u, x,
      List.append_assoc, List.cons_append, List.nil_append]
    rfl
  obtain ⟨hframe, hpage⟩ := issued_leaves u i
  have hdies : (u.issued i).dies = u.dies := by rw [hframe]
  refine ⟨u.issued i, x.1, x.2, hexec, ?_, fun h => dbiData_plain h _, hpage, ?_⟩
  · exact dieIs_of_upd (f := fun d => { d with latches := d.latches.put (saPlane q.addr) i }) hdies
  · rw [hdies]
    exact hframe

/-- R182 to R184, R214. -/
theorem diesAreProgrammed : Sys2Proof.Claims.DiesAreProgrammed := by
  intro s b hclk
  have hu := unclocked_of_clocked hclk
  refine ⟨fun q i hq hop => programLoad_leaves hu hq hop, fun ce q qs hq => ?_, fun ce hloaded hmay hover => ?_, fun q hq => ?_⟩
  · obtain ⟨hqs, hbudget⟩ := confirm_ready hq
    let t0 := s.frameTo b.val ce.val 0x15 ((s.die b.val ce.val).latches.foldl (fun m e => m + 2 ^ e.1) 0) (addrWords (q.addr / 256 * 256))
    obtain ⟨⟨bs, hbs⟩, hburner⟩ := ungrant_foldl b.val qs t0
    let u : State := { qs.foldl (fun u q => u.ungrant b.val q) t0 with
      upk := { s.upk with govSpent := s.upk.govSpent + 16384 * qs.length } }
    have hexec : exec (.programConfirm b ce) s = .next (u.updDie b.val ce.val (fun d => { d with
        op := .program, opReqs := qs, suspended := false, suspensions := 0, runSince := s.now, ran := 0 })) := by
      show execProgramConfirm b ce s = _
      rw [hqs] at hbudget
      simp only [execProgramConfirm, hu, hq, hbudget, Bool.false_eq_true, if_false, ne_eq, not_true_eq_false, and_false, u]
      rw [show State.frameTo s b.val ce.val 0x15 _ _ = t0 from rfl, hbs]
      rfl
    refine ⟨_, hexec, ?_, fun k => hburner k, ?_⟩
    · refine dieIs_of_upd (f := fun d => { d with
        op := .program, opReqs := qs, suspended := false, suspensions := 0, runSince := s.now, ran := 0 }) ?_
      simp only [u, hbs]
      rfl
    · simp only [u, hbs]
      rfl
  · have hover' : s.inBudget (s.loadedReqs b.val ce.val).length = false := by
      simp only [State.inBudget, decide_eq_false_iff_not]
      omega
    have hpos : 0 < (s.loadedReqs b.val ce.val).length := List.length_pos_iff.mpr hloaded
    show execProgramConfirm b ce s = _
    simp [execProgramConfirm, hu, hpos, hmay, hover']
  · have hexec : exec (.blockReset b) s = .next (((s.ungrant b.val q).frameTo b.val (saCe q.addr) 0x20 0xF (addrWords q.addr)).updDie
        b.val (saCe q.addr) (fun d => { d with
          op := .reset, opReqs := [q], suspended := false, suspensions := 0, runSince := s.now, ran := 0 })) := by
      show execBlockReset b s = _
      simp only [execBlockReset, hu, hq, Bool.false_eq_true, if_false]
    exact ⟨_, hexec, dieIs_of_upd (f := fun d => { d with
        op := .reset, opReqs := [q], suspended := false, suspensions := 0, runSince := s.now, ran := 0 }) rfl,
      burnerIs_of_upd (f := fun x => { x with granted := x.granted.filter (fun r => r.id != q.id) }) rfl, rfl⟩

/-- Settles O51. -/
theorem dieAccess : Obligations.DieAccess := ⟨diesAreRead, diesAreProgrammed⟩

end Sys2Proof.Proofs
end

section
/-!
SUPPORT. Operations of dies: suspension, status, temperature, the alert line, resets (06_burner_channel.md R183 to R196).
-/

namespace Sys2Proof.Machine

open Sys2Proof Sys2Proof.Safety Sys2Proof.Laws

/-- What SUSPEND changes of a die. -/
def Die.onHold (d : Die) (now : Nat) : Die :=
  { d with
    suspended := true, status := d.status &&& ~~~ 2#32, suspendedAt := now, suspensions := d.suspensions + 1
    ran := d.ran + (now - d.runSince) }

theorem suspend_leaves (s : State) (b ce : Nat) :
    DieIs s (s.suspend b ce) b ce ((s.die b ce).onHold s.now) ∧ Noted { s with dies := (s.suspend b ce).dies } (s.suspend b ce) ∧
      (.die b ce [0x30] : Output) ∈ (s.suspend b ce).out.drop s.out.length ∧ (s.suspend b ce).now = s.now := by
  let u := (s.frameTo b ce 0x30 0 []).updDie b ce (fun d => d.onHold s.now)
  have hnote : Noted u (s.suspend b ce) := noted_tally u (.plain 0x022) 1
  have hdies := dies_of_noted hnote
  refine ⟨dieIs_of_upd (f := fun d => d.onHold s.now) hdies, ?_, ?_, ?_⟩
  · rw [hdies]
    exact noted_trans (noted_emit _ _) hnote
  · exact mem_drop_of_noted hnote (by simp [u, State.frameTo, State.emit]) (by simp [u, State.frameTo, State.emit])
  · obtain ⟨_, _, _, _, _, h, -⟩ := hnote
    rw [h]
    rfl

theorem resume_leaves (s : State) (b ce : Nat) :
    DieIs s (s.resume b ce) b ce { s.die b ce with suspended := false, runSince := s.now + 200 * Config.ns } ∧
      s.resume b ce = { s with dies := (s.resume b ce).dies, out := s.out ++ [.die b ce [0x31]] } :=
  ⟨dieIs_of_upd (f := fun d => { d with suspended := false, runSince := s.now + 200 * Config.ns }) rfl, rfl⟩

/-- What a reset leaves of a die. -/
def Die.afterReset (d : Die) (now : Nat) : Die :=
  { d with
    op := .none, opReqs := [], suspended := false, sensing := [], drdy := 0, latches := [], levels := [], status := 1
    busyUntil := now + 10 * Config.us }

/-- A reset of a die that programs nothing: what it aborts goes back to the burner. -/
theorem dieReset_leaves {s : State} {b ce : Nat} (h : (s.die b ce).op ≠ .program) :
    DieIs s (s.dieReset b ce) b ce ((s.die b ce).afterReset s.now) ∧
      BurnerIs s (s.dieReset b ce) b { s.burner b with granted := (s.burner b).granted ++ ((s.die b ce).sensing.map (·.2) ++
        (if (s.die b ce).op = .reset then (s.die b ce).opReqs else [])) } ∧
      s.dieReset b ce = { s with dies := (s.dieReset b ce).dies, burners := (s.dieReset b ce).burners
                                 out := s.out ++ [.die b ce [0xFE]] } := by
  have heq : s.dieReset b ce = (((s.frameTo b ce 0xFE 0 []).regrant b ((s.die b ce).sensing.map (·.2) ++
      (if (s.die b ce).op = .reset then (s.die b ce).opReqs else []))).updDie b ce (fun d => d.afterReset s.now)) := by
    simp only [State.dieReset, if_neg h]
    rfl
  rw [heq]
  exact ⟨dieIs_of_upd (f := fun d => d.afterReset s.now) rfl, burnerIs_of_upd (f := fun x => { x with granted := x.granted ++
    ((s.die b ce).sensing.map (·.2) ++ (if (s.die b ce).op = .reset then (s.die b ce).opReqs else [])) }) rfl, rfl⟩

theorem reports_raise (s : State) (p : RPage) (i : Nat) : (s.raise p i).reports = s.reports := by
  unfold State.raise State.sendMsix
  dsimp only
  split
  · split <;> rfl
  · rfl

/-- A die's transient fault: it waits, the ledger has a report and its burner's bit is set. -/
theorem dieFault_leaves (s : State) (b ce source : Nat) :
    (s.dieFault b ce source).dies = s.dies.upd .absent (b * 10 + ce) (fun d => { d with held := true }) ∧
      (s.dieFault b ce source).burners = s.burners ∧ (s.dieFault b ce source).now = s.now ∧
      (s.dieFault b ce source).reports = s.reports ++ [⟨source, 1, dieId b ce⟩] ∧
      ((s.dieFault b ce source).irqStat (.brn b)).getLsbD 1 = true := by
  let u := (s.updDie b ce (fun d => { d with held := true })).report source 1 (dieId b ce)
  have hreports := reports_raise u (.brn b) 1
  have hirq : ((u.raise (.brn b) 1).irqStat (.brn b)).getLsbD 1 = true := irqStat_raise_self u (.brn b) (by omega)
  have hnote := noted_raise u (.brn b) 1
  have hkept : (u.raise (.brn b) 1).dies = u.dies ∧ (u.raise (.brn b) 1).burners = u.burners ∧ (u.raise (.brn b) 1).now = u.now := by
    obtain ⟨_, _, _, _, _, h, -⟩ := hnote
    rw [h]
    exact ⟨rfl, rfl, rfl⟩
  obtain ⟨hdies, hburners, hnow⟩ := hkept
  exact ⟨hdies, hburners, hnow, hreports, hirq⟩

/-! ### The alert line (R187) -/

/-- What a burner's alert reads of one die. -/
def State.alertReads (b : Nat) (words : List W32) (temps : List (BitVec 16)) (t : State) (ce : Nat) : State :=
  if (t.die b ce).present && t.ceUsed b ce then
    let t := (t.frameTo b ce 0x70 0 []).takeStatus b ce (words.getD ce (t.die b ce).status)
    (t.frameTo b ce 0x71 0 []).takeTemp b ce (temps.getD ce ((t.die b ce).temp - (t.die b ce).tempOffset))
  else t

/-- What an alert leaves of a die whose status shows no fault and that runs nothing. -/
theorem alertReads_leaves {t : State} {b ce : Nat} {words : List W32} {temps : List (BitVec 16)} (hp : (t.die b ce).present = true)
    (hce : t.ceUsed b ce = true) (hop : (t.die b ce).op = .none) (h4 : (words.getD ce 0).getLsbD 4 = false) (hw : ce < words.length)
    (ht : ce < temps.length) :
    DieIs t (t.alertReads b words temps ce) b ce { (t.die b ce).shown (words.getD ce 0) with
      temp := temps.getD ce 0 + (t.die b ce).tempOffset } ∧
      ∃ out, t.alertReads b words temps ce = { t with dies := (t.alertReads b words temps ce).dies, out := out } ∧
        Noted { t with dies := (t.alertReads b words temps ce).dies } (t.alertReads b words temps ce) := by
  have hword : ∀ x, words.getD ce x = words.getD ce 0 := fun x => by rw [List.getD_eq_getElem _ _ hw, List.getD_eq_getElem _ _ hw]
  have htemp : ∀ x, temps.getD ce x = temps.getD ce 0 := fun x => by rw [List.getD_eq_getElem _ _ ht, List.getD_eq_getElem _ _ ht]
  let u := (t.frameTo b ce 0x70 0 []).updDie b ce (fun d => d.shown (words.getD ce 0))
  have hstatus : (t.frameTo b ce 0x70 0 []).takeStatus b ce (words.getD ce 0) = u := by
    rw [takeStatus_of_accepted h4, if_neg]
    rintro ⟨h, -⟩
    exact h hop
  have heq : t.alertReads b words temps ce = (u.frameTo b ce 0x71 0 []).updDie b ce
      (fun d => { d with temp := temps.getD ce 0 + d.tempOffset }) := by
    simp only [State.alertReads, hp, hce, Bool.and_self, if_true, hword, htemp, hstatus, State.takeTemp]
  have hshown : DieIs t u b ce ((t.die b ce).shown (words.getD ce 0)) :=
    dieIs_of_upd (f := fun d => d.shown (words.getD ce 0)) rfl
  rw [heq]
  exact ⟨dieIs_trans (f := fun d => { d with temp := temps.getD ce 0 + d.tempOffset }) hshown rfl,
    _, rfl, noted_trans (noted_emit _ _) (noted_emit _ _)⟩

theorem alertReads_foldl_of_absent {b : Nat} {words : List W32} {temps : List (BitVec 16)} {xs : List Nat} {t : State}
    (h : ∀ k ∈ xs, (t.die b k).present = false) : xs.foldl (State.alertReads b words temps) t = t := by
  induction xs with
  | nil => rfl
  | cons x xs ih =>
    have hx : t.alertReads b words temps x = t := by simp [State.alertReads, h x (by simp)]
    rw [List.foldl_cons, hx]
    exact ih (fun k hk => h k (List.mem_cons_of_mem _ hk))

end Sys2Proof.Machine

namespace Sys2Proof.Proofs

open Sys2Proof Sys2Proof.Machine Sys2Proof.Safety Sys2Proof.Laws

theorem wantsSuspend_running {s : State} {b ce : Nat} (h : s.wantsSuspend b ce = true) :
    (s.die b ce).op ≠ .none ∧ (s.die b ce).suspended = false := by
  simp only [State.wantsSuspend, Bool.and_eq_true, decide_eq_true_eq, Bool.not_eq_true'] at h
  obtain ⟨⟨⟨⟨hop, hsusp⟩, -⟩, -⟩, -⟩ := h
  exact ⟨hop, hsusp⟩

/-- R186, R189 to R191, R196. -/
theorem operationsAreSuspended : Sys2Proof.Claims.OperationsAreSuspended := by
  intro s b ce hclk d
  have hu := unclocked_of_clocked hclk
  refine ⟨fun hwant => ⟨fun hrun => ?_, fun hearly => ⟨?_, fun hlater => ?_⟩⟩, fun hno => ?_, fun hmust => ?_, fun hno => ?_,
    fun hsusp hop => ?_, fun hflush hop => ?_⟩
  · have hexec : exec (.suspend b ce) s = .next (s.suspend b.val ce.val) := by
      show execSuspend b ce s = _
      simp [execSuspend, hu, hwant, show (s.die b.val ce.val).runSince + s.minRun b.val ≤ s.now from hrun]
    obtain ⟨hdie, hnote, hmem, -⟩ := suspend_leaves s b.val ce.val
    exact ⟨_, hexec, hdie, hnote, hmem⟩
  · show execSuspend b ce s = _
    have hlate : ¬ (s.die b.val ce.val).runSince + s.minRun b.val ≤ s.now := Nat.not_le.mpr hearly
    simp [execSuspend, hu, hlate]
  · obtain ⟨hop, hsusp⟩ := wantsSuspend_running hwant
    let u := s.reach (d.runSince + s.minRun b.val)
    have hexec : exec (.minRunExpiry b ce) s = .next (u.suspend b.val ce.val) := by
      show execMinRunExpiry b ce s = _
      simp only [execMinRunExpiry, hu, Bool.false_eq_true, if_false, hop, hsusp, or_self]
      rw [if_pos hlater]
    obtain ⟨hdie, -, -, hnow⟩ := suspend_leaves u b.val ce.val
    have hself : (u.suspend b.val ce.val).die b.val ce.val = d.onHold u.now := (hdie _).trans (if_pos rfl)
    refine ⟨_, hexec, hnow.trans (Nat.max_eq_right (Nat.le_of_lt hearly)), ?_, ?_, fun k hk => (hdie k).trans (if_neg hk)⟩
    · rw [hself]; rfl
    · rw [hself]; rfl
  · show execSuspend b ce s = _
    simp [execSuspend, hu, hno]
  · have hexec : exec (.resume b ce) s = .next (s.resume b.val ce.val) := by
      show execResume b ce s = _
      simp [execResume, hu, hmust]
    obtain ⟨hdie, hframe⟩ := resume_leaves s b.val ce.val
    exact ⟨_, hexec, hdie, hframe⟩
  · show execResume b ce s = _
    simp [execResume, hu, hno]
  · by_cases hblocked : s.pwrState = .flush ∧ d.op = .reset
    · exact .inl hblocked
    · have hmay : s.mayResume (s.die b.val ce.val) = true := by
        simp only [State.mayResume, show (s.die b.val ce.val).suspended = true from hsusp, Bool.true_and, Bool.and_eq_true,
          decide_eq_true_eq, Bool.not_eq_true', Bool.and_eq_false_iff, decide_eq_false_iff_not]
        refine ⟨hop, ?_⟩
        by_cases hp : s.pwrState = .flush
        · exact .inr fun hreset => hblocked ⟨hp, hreset⟩
        · exact .inl hp
      let u := s.reach (d.suspendedAt + s.suspWin b.val)
      have hexec : exec (.suspendWindowExpiry b ce) s = .next (u.resume b.val ce.val) := by
        show execSuspendWindowExpiry b ce s = _
        simp only [execSuspendWindowExpiry, hu, Bool.false_eq_true, if_false, hmay, if_true]
        rfl
      obtain ⟨hdie, hframe⟩ := resume_leaves u b.val ce.val
      exact .inr ⟨_, hexec, rfl, hdie, hframe⟩
  · have hmay : s.mayResume (s.die b.val ce.val) = false := by
      simp [State.mayResume, hflush, show (s.die b.val ce.val).op = .reset from hop]
    refine ⟨?_, ?_⟩
    · show execResume b ce s = _
      simp [execResume, hu, State.mustResume, hmay]
    · show execSuspendWindowExpiry b ce s = _
      simp [execSuspendWindowExpiry, hu, hmay]

/-- A live die is polled, and its burner lowers its chip enable. -/
theorem polled_of_live {s : State} {b ce : Nat} (h : Live s b ce) :
    s.polled b ce = true ∧ (s.die b ce).present = true ∧ s.ceUsed b ce = true := by
  have hlive : s.dieLive b ce = true := h
  refine ⟨by simp [State.polled, hlive], ?_⟩
  simp only [State.dieLive, Bool.and_eq_true, Bool.not_eq_true'] at hlive
  obtain ⟨⟨⟨hpresent, -⟩, -⟩, hce⟩ := hlive
  exact ⟨hpresent, hce⟩

theorem status_polls {s : State} {b : Fin 32} {ce : Fin 10} (hclk : Clocked s) (hlive : Live s b.val ce.val) (w : W32) :
    exec (.status b ce w) s = .next ((s.frameTo b.val ce.val 0x70 0 []).takeStatus b.val ce.val w) := by
  show execStatus b ce w s = _
  simp [execStatus, unclocked_of_clocked hclk, (polled_of_live hlive).1]

theorem status_ends {s : State} {b : Fin 32} {ce : Fin 10} {w : W32} {q : MReq} (hclk : Clocked s) (hlive : Live s b.val ce.val)
    (h4 : w.getLsbD 4 = false) (hop : (s.die b.val ce.val).op = .program) (hq : (s.die b.val ce.val).opReqs = [q])
    (h0 : w.getLsbD 0 = true) (h1 : w.getLsbD 1 = false) (h5 : w.extractLsb' 5 2 = 0) :
    ∃ t, exec (.status b ce w) s = .next t ∧
      DieIs s t b.val ce.val { (s.die b.val ce.val).shown w with
        op := .none, opReqs := [], suspended := false, latches := [], retries := 0 } ∧
      (t.rails.mediaRes.getD b.val .empty).waiting =
        (s.rails.mediaRes.getD b.val .empty).waiting ++ [opResult ((s.die b.val ce.val).shown w) w q] := by
  let u := (s.frameTo b.val ce.val 0x70 0 []).updDie b.val ce.val (fun d => d.shown w)
  have hdie : u.die b.val ce.val = (s.die b.val ce.val).shown w := die_updDie_self _ _ _ _
  let t := (u.postResult b.val q (opResult ((s.die b.val ce.val).shown w) w q)).updDie b.val ce.val
    (fun d => { d with op := .none, opReqs := [], suspended := false, latches := [], retries := 0 })
  have hend : u.endOp b.val ce.val w = t := by
    have hreqs : ((s.die b.val ce.val).shown w).opReqs = [q] := hq
    simp only [State.endOp, hdie, hreqs, List.foldl_cons, List.foldl_nil, t]
  have hexec : exec (.status b ce w) s = .next t := by
    have hop' : ((s.frameTo b.val ce.val 0x70 0 []).die b.val ce.val).op ≠ .none := by
      show (s.die b.val ce.val).op ≠ .none
      simp [hop]
    rw [status_polls hclk hlive, takeStatus_of_accepted h4, if_pos ⟨hop', h0, h1, h5⟩]
    exact congrArg _ hend
  have hpost := dies_of_noted (noted_postResult u b.val q (opResult ((s.die b.val ce.val).shown w) w q))
  have hshown : DieIs s (u.postResult b.val q (opResult ((s.die b.val ce.val).shown w) w q)) b.val ce.val
      ((s.die b.val ce.val).shown w) := dieIs_of_upd (f := fun d => d.shown w) hpost
  exact ⟨t, hexec, dieIs_trans (f := fun d => { d with
    op := .none, opReqs := [], suspended := false, latches := [], retries := 0 }) hshown rfl, mediaRes_postResult_self u b.val q _⟩

/-- The numbers below a bound, split at one of them. -/
theorem range_split {c n : Nat} (hc : c < n) :
    ∃ pre post, List.range n = pre ++ c :: post ∧ ∀ k, k ∈ pre ∨ k ∈ post → k < n ∧ k ≠ c := by
  obtain ⟨pre, post, hsplit⟩ := List.append_of_mem (List.mem_range.mpr hc)
  refine ⟨pre, post, hsplit, fun k hk => ?_⟩
  have hnodup : (pre ++ c :: post).Nodup := hsplit ▸ List.nodup_range
  have hmem : k ∈ pre ++ c :: post :=
    hk.elim (List.mem_append_left _) (fun h => List.mem_append_right _ (List.mem_cons_of_mem _ h))
  refine ⟨List.mem_range.mp (hsplit ▸ hmem), ?_⟩
  rintro rfl
  obtain ⟨-, hpost, hdisj⟩ := List.nodup_append.mp hnodup
  rcases hk with hk | hk
  · exact hdisj _ hk _ (by simp) rfl
  · exact (List.nodup_cons.mp hpost).1 hk

/-- The alert of a burner of which only one die is present reads that one. -/
theorem alert_foldl_one {s : State} {b : Fin 32} {ce : Fin 10} {words : List W32} {temps : List (BitVec 16)}
    (hce : ∀ k : Nat, k < 10 → k ≠ ce.val → (s.die b.val k).present = false)
    (hothers : ∀ k, k ≠ b.val * 10 + ce.val →
      (s.alertReads b.val words temps ce.val).dies.getD k .absent = s.dies.getD k .absent) :
    (List.range 10).foldl (State.alertReads b.val words temps) s = s.alertReads b.val words temps ce.val := by
  obtain ⟨pre, post, hsplit, hout⟩ := range_split ce.isLt
  have habsent : ∀ k, k ∈ post → ((s.alertReads b.val words temps ce.val).die b.val k).present = false := by
    intro k hk
    obtain ⟨hlt, hne⟩ := hout k (.inr hk)
    have hkept : (s.alertReads b.val words temps ce.val).die b.val k = s.die b.val k := hothers _ (by omega)
    rw [hkept]
    exact hce k hlt hne
  rw [hsplit, List.foldl_append, alertReads_foldl_of_absent (fun k hk => hce k (hout k (.inl hk)).1 (hout k (.inl hk)).2),
    List.foldl_cons, alertReads_foldl_of_absent habsent]

theorem alertN_reads {s : State} {b : Fin 32} {ce : Fin 10} (hclk : Clocked s) (hlive : Live s b.val ce.val) {words : List W32}
    {temps : List (BitVec 16)} (h4 : (words.getD ce.val 0).getLsbD 4 = false) (hop : (s.die b.val ce.val).op = .none)
    (hw : ce.val < words.length) (ht : ce.val < temps.length)
    (hce : ∀ k : Nat, k < 10 → k ≠ ce.val → (s.die b.val k).present = false) :
    ∃ t, exec (.alertN b words temps) s = .next t ∧ (t.irqStat (.brn b.val)).getLsbD 2 = true ∧
      (t.die b.val ce.val).status = words.getD ce.val 0 ∧
      (t.die b.val ce.val).temp = temps.getD ce.val 0 + (s.die b.val ce.val).tempOffset ∧
      Noted { s with dies := t.dies } t ∧ ∀ k, k ≠ b.val * 10 + ce.val → t.dies.getD k .absent = s.dies.getD k .absent := by
  let r := s.raise (.brn b.val) 2
  have hraise : Noted s r := noted_raise _ _ _
  obtain ⟨-, hpresent, hused⟩ := polled_of_live hlive
  have hdie : ∀ k, r.die b.val k = s.die b.val k := fun k => by rw [State.die, State.die, dies_of_noted hraise]
  have hused' : r.ceUsed b.val ce.val = true := by
    obtain ⟨_, _, _, _, _, h, -⟩ := hraise
    rw [h]
    exact hused
  obtain ⟨hself, out, hframe, hnote⟩ := alertReads_leaves (words := words) (temps := temps) ((hdie ce.val).symm ▸ hpresent) hused'
    ((hdie ce.val).symm ▸ hop) h4 hw ht
  have hothers : ∀ k, k ≠ b.val * 10 + ce.val → (r.alertReads b.val words temps ce.val).dies.getD k .absent = r.dies.getD k .absent :=
    fun k hk => (hself k).trans (if_neg hk)
  have hexec : exec (.alertN b words temps) s = .next (r.alertReads b.val words temps ce.val) := by
    show execAlertN b words temps s = _
    rw [← alert_foldl_one (fun k hk hne => by rw [hdie]; exact hce k hk hne) hothers]
    simp only [execAlertN, unclocked_of_clocked hclk, Bool.false_eq_true, if_false]
    rfl
  have hdieIs : (r.alertReads b.val words temps ce.val).die b.val ce.val = _ := (hself _).trans (if_pos rfl)
  refine ⟨_, hexec, ?_, by rw [hdieIs]; rfl, by rw [hdieIs, hdie], noted_trans (noted_withDies hraise _) hnote,
    fun k hk => (hothers k hk).trans (by rw [dies_of_noted hraise])⟩
  rw [hframe]
  exact irqStat_raise_self s (.brn b.val) (by omega)

/-- R185, R187, R204. -/
theorem diesAnswer : Sys2Proof.Claims.DiesAnswer := by
  intro s b ce hclk hlive
  refine ⟨fun w h4 => ⟨fun h0 => ?_, fun q hop hq h0 h1 h5 => status_ends hclk hlive h4 hop hq h0 h1 h5⟩, fun raw => ?_,
    fun words temps h4 hop hw ht hce => alertN_reads hclk hlive h4 hop hw ht hce⟩
  · have hexec : exec (.status b ce w) s = .next ((s.frameTo b.val ce.val 0x70 0 []).updDie b.val ce.val (fun d => d.shown w)) := by
      rw [status_polls hclk hlive, takeStatus_of_accepted h4, if_neg]
      rintro ⟨-, h, -⟩
      exact absurd h (by rw [h0]; decide)
    exact ⟨_, hexec, dieIs_of_upd (f := fun d => d.shown w) rfl, rfl⟩
  · have hexec : exec (.temperature b ce raw) s = .next ((s.frameTo b.val ce.val 0x71 0 []).takeTemp b.val ce.val raw) := by
      have hl : s.dieLive b.val ce.val = true := hlive
      show execTemperature b ce raw s = _
      simp [execTemperature, unclocked_of_clocked hclk, hl]
    exact ⟨_, hexec, dieIs_of_upd (f := fun d => { d with temp := raw + d.tempOffset }) rfl, rfl⟩

/-- R183, R186, R188, R195. -/
theorem diesAreReset : Sys2Proof.Claims.DiesAreReset := by
  intro s b ce hclk d d'
  have hu := unclocked_of_clocked hclk
  refine ⟨fun hce hop => ?_, fun hce => ?_, fun hlive hsense hop hsusp => ?_, fun hlive hsense hop => ?_⟩
  · have hexec : exec (.dieReset b ce) s = .next (s.dieReset b.val ce.val) := by
      show execDieReset b ce s = _
      simp [execDieReset, hu, hce]
    exact ⟨_, hexec, dieReset_leaves hop⟩
  · show execDieReset b ce s = _
    simp [execDieReset, hu, hce]
  · have hl : s.dieLive b.val ce.val = true := hlive
    have hop' : (s.die b.val ce.val).op = .reset := hop
    have hsense' : (s.die b.val ce.val).sensing = [] := hsense
    let u := s.reach (d.runSince + 2 * d.op.maxTime - d.ran)
    have hexec : exec (.dieTimeout b ce) s = .next ((u.dieReset b.val ce.val).dieFault b.val ce.val 1) := by
      show execDieTimeout b ce s = _
      simp only [execDieTimeout, hu, hl, Die.reading, hsense', List.any_nil, Bool.false_eq_true, if_false, Bool.not_true]
      rw [if_pos ⟨by rw [hop']; decide, by simp [show (s.die b.val ce.val).suspended = false from hsusp]⟩]
    obtain ⟨hdie, hburner, hframe⟩ := dieReset_leaves (s := u) (b := b.val) (ce := ce.val) (by
      show d.op ≠ .program
      rw [hop]
      decide)
    obtain ⟨hdies, hburners, hnow, hreports, hirq⟩ := dieFault_leaves (u.dieReset b.val ce.val) b.val ce.val 1
    have hnow' : ((u.dieReset b.val ce.val).dieFault b.val ce.val 1).now = u.now := hnow.trans (by rw [hframe])
    refine ⟨_, hexec, hnow', ?_, fun k => ?_, ?_, hirq⟩
    · rw [hnow']
      exact dieIs_trans (f := fun d => { d with held := true }) hdie hdies
    · have hkept : ((u.dieReset b.val ce.val).dieFault b.val ce.val 1).burner k = (u.dieReset b.val ce.val).burner k := by
        rw [State.burner, hburners]
        rfl
      rw [hkept, hburner k]
      have hback : (u.die b.val ce.val).sensing.map (·.2) ++
          (if (u.die b.val ce.val).op = .reset then (u.die b.val ce.val).opReqs else []) = d.opReqs := by
        show d.sensing.map (·.2) ++ (if d.op = .reset then d.opReqs else []) = d.opReqs
        rw [hsense, hop]
        rfl
      rw [hback]
      rfl
    · rw [hreports, hframe]
      rfl
  · have hl : s.dieLive b.val ce.val = true := hlive
    have hop' : (s.die b.val ce.val).op = .none := hop
    have hsense' : (s.die b.val ce.val).sensing = [] := hsense
    show execDieTimeout b ce s = _
    simp [execDieTimeout, hu, hl, Die.reading, hsense', hop']

/-- Settles O52. -/
theorem dieOperations : Obligations.DieOperations := ⟨operationsAreSuspended, diesAnswer, diesAreReset⟩

end Sys2Proof.Proofs
end

section
/-!
SUPPORT. Discovery of dies, owner records and the training transfers (06_burner_channel.md R178, R183, R186, R198, R199).
-/

namespace Sys2Proof.Machine

open Sys2Proof Sys2Proof.Safety Sys2Proof.Laws

/-! ### N is set (R178) -/

/-- A die that N leaves out: it is not present any more, and the ledger of media has a record. -/
def State.leaveOut (t : State) (k : Nat) : State :=
  (t.updDie (k / 10) (k % 10) (fun d => { d with present := false })).mediaConfig (k / 10) (k % 10)

theorem setDieCount_eq {s : State} {n : Nat} (h : s.dieCount ≠ n) :
    s.setDieCount n = (s.dies.filter (fun e => e.2.present && decide (n ≤ e.1 % 10))).foldl (fun t e => t.leaveOut e.1)
      { s with med := { s.med with dies := n } } := by
  simp [State.setDieCount, h, State.leaveOut]

theorem die_leaveOut (t : State) (k j : Nat) :
    (t.leaveOut k).dies.getD j .absent = if j = k then { t.dies.getD k .absent with present := false } else t.dies.getD j .absent := by
  have hdies : (t.leaveOut k).dies = t.dies.upd .absent k (fun d => { d with present := false }) := by
    show t.dies.upd .absent (k / 10 * 10 + k % 10) (fun d => { d with present := false }) = _
    rw [show k / 10 * 10 + k % 10 = k by omega]
  rw [hdies]
  exact SMap.getD_upd _ _ _ _ _

/-- Dies that are left out are not present after it, and no other die becomes present. -/
theorem leaveOut_foldl (xs : List (Nat × Die)) (t : State) (j : Nat) (h : j ∈ xs.map (·.1) ∨ (t.dies.getD j .absent).present = false) :
    ((xs.foldl (fun t e => t.leaveOut e.1) t).dies.getD j .absent).present = false := by
  induction xs generalizing t with
  | nil => simpa using h
  | cons e xs ih =>
    refine ih (t.leaveOut e.1) ?_
    rw [die_leaveOut]
    by_cases hj : j = e.1
    · exact .inr (by rw [if_pos hj])
    · rw [if_neg hj]
      rcases h with h | h
      · simp only [List.map_cons, List.mem_cons] at h
        exact .inl (h.resolve_left hj)
      · exact .inr h

theorem med_leaveOut_foldl (xs : List (Nat × Die)) (t : State) : (xs.foldl (fun t e => t.leaveOut e.1) t).med = t.med := by
  induction xs generalizing t with
  | nil => rfl
  | cons e xs ih => rw [List.foldl_cons, ih]; rfl

theorem med_setDieCount (s : State) (n : Nat) : (s.setDieCount n).med = { s.med with dies := n } := by
  by_cases h : s.dieCount = n
  · have : s.setDieCount n = s := by simp [State.setDieCount, h]
    rw [this, ← h]
    rfl
  · rw [setDieCount_eq h, med_leaveOut_foldl]

/-- A die at an enable that N leaves out is not present once N is set. -/
theorem setDieCount_leaves_out {s : State} {n k : Nat} (h : s.dieCount ≠ n) (hk : n ≤ k % 10) :
    ((s.setDieCount n).dies.getD k .absent).present = false := by
  rw [setDieCount_eq h]
  refine leaveOut_foldl _ _ k ?_
  cases hf : s.dies.find k with
  | none => exact .inr (by simp [SMap.getD, hf, Die.absent])
  | some d =>
    cases hp : d.present with
    | false => exact .inr (by simp [SMap.getD, hf, hp])
    | true =>
      refine .inl (List.mem_map.mpr ⟨(k, d), List.mem_filter.mpr ⟨SMap.mem_of_find hf, ?_⟩, rfl⟩)
      simp [hp, hk]

/-- With no die past N, setting N changes N alone. -/
theorem setDieCount_of_none_past {s : State} {n : Nat} (h : ∀ e ∈ s.dies, e.2.present = true → e.1 % 10 < n) :
    s.setDieCount n = { s with med := { s.med with dies := n } } := by
  by_cases hn : s.dieCount = n
  · have : s.setDieCount n = s := by simp [State.setDieCount, hn]
    rw [this, ← hn]
    rfl
  · have hnone : s.dies.filter (fun e => e.2.present && decide (n ≤ e.1 % 10)) = [] := by
      refine List.filter_eq_nil_iff.mpr fun e he => ?_
      cases hp : e.2.present with
      | false => simp
      | true =>
        have := h e he hp
        simp
        omega
    rw [setDieCount_eq hn, hnone]
    rfl

/-- What a table lists after a write was listed before it, or is what was written. -/
theorem SMap.mem_upd {α : Type} [DecidableEq α] {m : SMap α} {d : α} {k : Nat} {f : α → α} {e : Nat × α} (h : e ∈ m.upd d k f) :
    e ∈ m ∨ e = (k, f (m.getD k d)) := by
  unfold SMap.upd SMap.set at h
  split at h
  · exact .inl (List.mem_filter.mp h).1
  · obtain ⟨pre, post, hput, hmem⟩ := SMap.put_split m k (f (m.getD k d))
    rw [hput] at h
    simp only [List.mem_append, List.mem_cons] at h
    rcases h with h | h | h
    · exact .inl (hmem e (.inl h))
    · exact .inr h
    · exact .inl (hmem e (.inr h))

end Sys2Proof.Machine

namespace Sys2Proof.Proofs

open Sys2Proof Sys2Proof.Machine Sys2Proof.Safety Sys2Proof.Laws

section

variable {s : State} {b : Fin 32} {ce : Fin 10} (hclk : Clocked s)
include hclk

/-- A die that returns no valid copy of its parameter page is absent. -/
theorem parameterPage_absent (hready : (s.die b.val ce.val).ready = true) (hce : s.ceUsed b.val ce.val = true) {bytes : List Byte}
    (hnone : validCopy bytes = none) : ∃ t, exec (.parameterPage b ce bytes) s = .next t ∧
      DieIs s t b.val ce.val { s.die b.val ce.val with present := false } ∧
      t = { s with dies := t.dies, out := s.out ++ [.die b.val ce.val [0x80]] } := by
  have hexec : exec (.parameterPage b ce bytes) s = .next ((s.frameTo b.val ce.val 0x80 0 []).updDie b.val ce.val
      (fun d => { d with present := false })) := by
    show execParameterPage b ce bytes s = _
    simp only [execParameterPage, unclocked_of_clocked hclk, hready, hce, hnone, Bool.not_true, Bool.or_false, Bool.false_eq_true,
      if_false]
  exact ⟨_, hexec, dieIs_of_upd (f := fun d => { d with present := false }) rfl, rfl⟩

/-- What a burner takes from a parameter page without factory defects. -/
theorem parameterPage_present (hready : (s.die b.val ce.val).ready = true) (hce : s.ceUsed b.val ce.val = true) {bytes c : List Byte}
    (hc : validCopy bytes = some c) (hdef : ∀ k < 64, 2048 ≤ field c (64 + 2 * k) 2) :
    ∃ t, exec (.parameterPage b ce bytes) s = .next t ∧
      DieIs s t b.val ce.val { s.die b.val ce.val with
        present := true, defaults := [field c 17 1, field c 18 1, field c 19 1], dbi := (field c 20 1).testBit 0
        uid := BitVec.ofNat 64 (field c 40 8), tempOffset := BitVec.ofNat 16 (field c 48 2), defects := [] } ∧
      Noted { s with dies := t.dies } t ∧ (pageOk c = false → (t.irqStat (.brn b.val)).getLsbD 3 = true) := by
  have hn : ¬ (s.dieCount ≠ 0 ∧ s.dieCount ≤ ce.val) := by
    simp only [State.ceUsed, Bool.and_eq_true, Bool.or_eq_true, decide_eq_true_eq] at hce
    obtain ⟨-, hn⟩ := hce
    omega
  have hdefects : ((List.range 64).map (fun k => field c (64 + 2 * k) 2)).filter (fun x => decide (x < 2048)) = [] := by
    refine List.filter_eq_nil_iff.mpr fun x hx => ?_
    obtain ⟨k, hk, rfl⟩ := List.mem_map.mp hx
    have := hdef k (List.mem_range.mp hk)
    simp
    omega
  let f : Die → Die := fun d => { d with
    present := true, defaults := [field c 17 1, field c 18 1, field c 19 1], dbi := (field c 20 1).testBit 0
    uid := BitVec.ofNat 64 (field c 40 8), tempOffset := BitVec.ofNat 16 (field c 48 2), defects := [] }
  let u := (s.frameTo b.val ce.val 0x80 0 []).updDie b.val ce.val f
  have hexec : exec (.parameterPage b ce bytes) s = .next (if pageOk c then u else u.configFault b.val ce.val) := by
    show execParameterPage b ce bytes s = _
    simp only [execParameterPage, unclocked_of_clocked hclk, hready, hce, hc, hdefects, Bool.not_true, Bool.or_false,
      Bool.false_eq_true, if_false, List.foldl_nil]
    rw [if_neg hn]
  have hfault : Noted u (u.configFault b.val ce.val) := noted_trans (noted_raise _ _ _) (noted_record _ _ _ _ _ _)
  have hemit : Noted { s with dies := u.dies } u := noted_emit _ _
  cases hok : pageOk c with
  | true =>
    refine ⟨u, by rw [hexec, hok]; rfl, dieIs_of_upd (f := f) rfl, hemit, by simp⟩
  | false =>
    have hdies := dies_of_noted hfault
    refine ⟨u.configFault b.val ce.val, by rw [hexec, hok]; rfl, dieIs_of_upd (f := f) hdies, ?_, fun _ => ?_⟩
    · rw [hdies]
      exact noted_trans hemit hfault
    · exact irqStat_raise_self u (.brn b.val) (by omega)

/-- An owner record that is read is classified; a record of the device itself gives N and the format sequence. -/
theorem ownerRead_classifies (hpresent : (s.die b.val ce.val).present = true) (hready : (s.die b.val ce.val).ready = true)
    (hce : s.ceUsed b.val ce.val = true) (blank : Bool) (bytes : List Byte) :
    let n := field bytes 10 1
    let d' := { s.die b.val ce.val with
      owner := s.classify b.val ce.val blank bytes
      ownerRec := if s.classify b.val ce.val blank bytes = .ok then bytes else [] }
    ∃ t, exec (.ownerRead b ce blank bytes) s = .next t ∧
      (s.classify b.val ce.val blank bytes ≠ .ok → DieIs s t b.val ce.val d' ∧
        t = { s with dies := t.dies, out := s.out ++ [.die b.val ce.val [0x88]] }) ∧
      (s.classify b.val ce.val blank bytes = .ok → t.med.dies = n ∧ t.med.formatSeq = BitVec.ofNat 48 (field bytes 16 6) ∧
        ((∀ e ∈ s.dies, e.2.present = true → e.1 % 10 < n) → DieIs s t b.val ce.val d' ∧
          t = { s with dies := t.dies, med := t.med, out := s.out ++ [.die b.val ce.val [0x88]] }) ∧
        (s.dieCount ≠ n → ∀ e ∈ s.dies, n ≤ e.1 % 10 → (t.dies.getD e.1 .absent).present = false)) := by
  intro n d'
  let c := s.classify b.val ce.val blank bytes
  let f : Die → Die := fun d => { d with owner := c, ownerRec := if c = .ok then bytes else [] }
  let u := (s.frameTo b.val ce.val 0x88 0 []).updDie b.val ce.val f
  let v : State := { u with med := { u.med with formatSeq := BitVec.ofNat 48 (field bytes 16 6) } }
  have hexec : exec (.ownerRead b ce blank bytes) s = .next (if c = .ok then v.setDieCount n else u) := by
    show execOwnerRead b ce blank bytes s = _
    simp only [execOwnerRead, unclocked_of_clocked hclk, hpresent, hready, hce, Bool.not_true, Bool.or_self, Bool.false_eq_true,
      if_false]
    rfl
  refine ⟨_, hexec, fun hc => ?_, fun hc => ?_⟩
  · rw [if_neg hc]
    exact ⟨dieIs_of_upd (f := f) rfl, rfl⟩
  · rw [if_pos hc, med_setDieCount]
    refine ⟨rfl, rfl, fun hall => ?_, fun hn e _ hk => setDieCount_leaves_out (s := v) hn hk⟩
    have hpast : ∀ e ∈ v.dies, e.2.present = true → e.1 % 10 < n := by
      intro e he hp
      rcases SMap.mem_upd (m := s.dies) (f := f) he with he | rfl
      · exact hall e he hp
      · cases hf : s.dies.find (b.val * 10 + ce.val) with
        | none => simp [State.die, SMap.getD, hf, Die.absent] at hpresent
        | some d =>
          have hd : d.present = true := by simpa [State.die, SMap.getD, hf] using hpresent
          have hlt := hall (b.val * 10 + ce.val, d) (SMap.mem_of_find hf) hd
          exact hlt
    rw [setDieCount_of_none_past hpast]
    exact ⟨dieIs_of_upd (f := f) rfl, rfl⟩

/-- The owner record that a format writes. -/
theorem ownerWrite_writes (hlive : Live s b.val ce.val) (hformat : s.med.formatted = false) (hn : s.dieCount ≠ 0)
    (hready : (s.die b.val ce.val).ready = true) (hbusy : (s.die b.val ce.val).busyUntil ≤ s.now) :
    let r := ownerRecord s.fuses.serial b.val ce.val s.dieCount s.med.formatSeq
    ∃ t data dbi, exec (.ownerWrite b ce) s = .next t ∧
      DieIs s t b.val ce.val { s.die b.val ce.val with owner := .ok, ownerRec := r, busyUntil := s.now + 16 * Config.us } ∧
      ((s.die b.val ce.val).dbi = false → data = r ∧ dbi = []) ∧
      t.med.formatted = t.dies.all (fun e => !e.2.present || decide (e.2.ownerRec.length = 64)) ∧
      t = { s with dies := t.dies, med := { s.med with formatted := t.med.formatted }
                   out := s.out ++ [.die b.val ce.val [0x89], .dieData b.val ce.val data dbi] } := by
  intro r
  let x := s.dbiData b.val ce.val r
  let f : Die → Die := fun d => { d with owner := .ok, ownerRec := r, busyUntil := s.now + 16 * Config.us }
  let u : State := ({ s with out := s.out ++ [.die b.val ce.val [0x89], .dieData b.val ce.val x.1 x.2] } : State).updDie b.val ce.val f
  have hl : s.dieLive b.val ce.val = true := hlive
  have hexec : exec (.ownerWrite b ce) s = .next { u with
      med := { u.med with formatted := u.dies.all (fun e => !e.2.present || decide (e.2.ownerRec.length = 64)) } } := by
    show execOwnerWrite b ce s = _
    simp only [execOwnerWrite, unclocked_of_clocked hclk, hl, hformat, hn, hready, Nat.not_lt.mpr hbusy, decide_false, Bool.not_true,
      Bool.or_self, Bool.false_eq_true, if_false, sendData_eq, State.frameTo, State.emit]
    simp only [u, x, f, List.append_assoc, List.cons_append, List.nil_append]
    rfl
  exact ⟨_, x.1, x.2, hexec, dieIs_of_upd (f := f) rfl, fun h => dbiData_plain h _, rfl, rfl⟩

end

theorem ownerWrite_formatted {s : State} {b : Fin 32} {ce : Fin 10} (hformat : s.med.formatted = true) :
    exec (.ownerWrite b ce) s = .next s := by
  show execOwnerWrite b ce s = _
  simp [execOwnerWrite, hformat]

/-- R178, R198, R199. -/
theorem diesAreDiscovered : Sys2Proof.Claims.DiesAreDiscovered := by
  intro s b ce hclk d
  exact ⟨fun bytes hready hce => ⟨parameterPage_absent hclk hready hce, fun c hc hdef => parameterPage_present hclk hready hce hc hdef⟩,
    fun blank bytes hpresent hready hce => ownerRead_classifies hclk hpresent hready hce blank bytes,
    ownerWrite_writes hclk, ownerWrite_formatted⟩

/-- R183, R186. -/
theorem scratchIsTrained : Sys2Proof.Claims.ScratchIsTrained := by
  intro s b ce hclk hmay
  have hstopped : s.burnersStopped = false := by simp [State.burnersStopped, unclocked_of_clocked hclk]
  refine ⟨?_, ?_, fun pattern hlen => ?_⟩
  · show execTrainRead b ce s = _
    simp [execTrainRead, hstopped, hmay, State.frameTo, State.emit, sent]
  · show execTrainReadback b ce s = _
    simp [execTrainReadback, hstopped, hmay, State.frameTo, State.emit, sent]
  · let x := s.dbiData b.val ce.val pattern
    have hexec : exec (.trainWrite b ce pattern) s = .next (({ s with
        out := s.out ++ [.die b.val ce.val [0x91], .dieData b.val ce.val x.1 x.2] } : State).updDie b.val ce.val
          (fun d => { d with scratch := pattern })) := by
      have hpattern : pattern.take 512 ++ List.replicate (512 - pattern.length) 0 = pattern := by
        rw [hlen, Nat.sub_self, List.replicate_zero, List.append_nil, List.take_of_length_le (Nat.le_of_eq hlen)]
      show execTrainWrite b ce pattern s = _
      simp only [execTrainWrite, hstopped, hmay, hpattern, Bool.false_eq_true, if_false, if_true, sendData_eq, State.frameTo, State.emit,
        x, List.append_assoc, List.cons_append, List.nil_append]
      rfl
    exact ⟨_, x.1, x.2, hexec, dieIs_of_upd (f := fun d => { d with scratch := pattern }) rfl, fun h => dbiData_plain h _, rfl⟩

/-- Settles O53. -/
theorem dieDiscovery : Obligations.DieDiscovery := ⟨diesAreDiscovered, scratchIsTrained⟩

end Sys2Proof.Proofs
end

section
/-!
SUPPORT. Trims, training and tests (06_burner_channel.md R200 to R203, 07_upkeep.md R222, 17_thermal_and_round.md R485, R486, R490).
-/

namespace Sys2Proof.Machine

open Sys2Proof Sys2Proof.Safety Sys2Proof.Laws

/-! ### The time cap of calibrations (R485) -/

/-- Only the account of calibration time changes, and the clock may move to its next window. -/
def CalCharged (s t : State) : Prop :=
  ∃ (n w l b : Nat) (u : SMap Nat),
    t = { s with now := n, thm := { s.thm with calWindow := w, calUse := u, calLast := l, calBurner := b } }

theorem calCharged_refl (s : State) : CalCharged s s := ⟨s.now, s.thm.calWindow, s.thm.calLast, s.thm.calBurner, s.thm.calUse, rfl⟩

theorem calCharged_trans {s t u : State} (h : CalCharged s t) (h' : CalCharged t u) : CalCharged s u := by
  obtain ⟨n, w, l, b, x, rfl⟩ := h
  obtain ⟨n', w', l', b', x', rfl⟩ := h'
  exact ⟨n', w', l', b', x', rfl⟩

theorem calCharged_rollCal (s : State) : CalCharged s s.rollCal := by
  unfold State.rollCal
  dsimp only
  split
  · exact calCharged_refl s
  · exact ⟨s.now, _, _, _, _, rfl⟩

theorem calCharged_use (s : State) (u : SMap Nat) : CalCharged s { s with thm := { s.thm with calUse := u } } :=
  ⟨s.now, s.thm.calWindow, s.thm.calLast, s.thm.calBurner, u, rfl⟩

theorem calCharged_chargeCal (s : State) (b us : Nat) : CalCharged s (s.chargeCal b us) := by
  unfold State.chargeCal
  dsimp only
  split
  · exact calCharged_trans (calCharged_rollCal s) (calCharged_use _ _)
  · refine calCharged_trans (calCharged_rollCal s) (calCharged_trans ?_ (calCharged_use _ _))
    refine calCharged_trans ?_ (calCharged_rollCal _)
    exact ⟨_, s.rollCal.thm.calWindow, s.rollCal.thm.calLast, s.rollCal.thm.calBurner, s.rollCal.thm.calUse, rfl⟩

theorem calCharged_foldl (us : Nat) (bs : List Nat) (s : State) : CalCharged s (bs.foldl (fun u b => u.chargeCal b us) s) := by
  induction bs generalizing s with
  | nil => exact calCharged_refl s
  | cons b bs ih => exact calCharged_trans (calCharged_chargeCal s b us) (ih _)

/-! ### Requests of the taster (01 R36, R37) -/

/-- Only the pass's counter, the rails of media requests and the reads in flight change. -/
def MediaAsked (s t : State) : Prop :=
  ∃ (pass : Pass) (rails : Rails) (med : Media), t = { s with pass := pass, rails := rails, med := med }

theorem mediaAsked_trans {s t u : State} (h : MediaAsked s t) (h' : MediaAsked t u) : MediaAsked s u := by
  obtain ⟨_, _, _, rfl⟩ := h
  obtain ⟨p, r, m, rfl⟩ := h'
  exact ⟨p, r, m, rfl⟩

theorem mediaAsked_request (s : State) (op : MOp) (a : Nat) (rq : Requester) (cls : DlClass) (pu : Purpose) :
    MediaAsked s (s.request op a rq cls pu) := by
  unfold State.request State.place_ State.addInflight
  dsimp only
  split
  · split <;> exact ⟨_, _, _, rfl⟩
  · split <;> exact ⟨_, _, _, rfl⟩

theorem mediaAsked_foldl {α : Type} {f : State → α → State} (hf : ∀ t x, MediaAsked t (f t x)) (xs : List α) (s : State) :
    MediaAsked s (xs.foldl f s) := by
  induction xs generalizing s with
  | nil => exact ⟨s.pass, s.rails, s.med, rfl⟩
  | cons x xs ih => exact mediaAsked_trans (hf s x) (ih _)

theorem mediaAsked_calReads (s : State) (die bucket : Nat) : MediaAsked s (s.calReads die bucket) :=
  mediaAsked_foldl (fun _ _ => mediaAsked_foldl (fun _ _ => mediaAsked_request _ _ _ _ _ _) _ _) _ s

/-- What a calibration's offsets change of the trims (R222). -/
theorem addTrim_leaves (s : State) (die bucket : Nat) (best : List (Fin 7)) :
    (s.addTrim die bucket best).upk.warnCounts.find (die * 16 + bucket) = none ∧
      (∀ k, k ≠ die * 16 + bucket → (s.addTrim die bucket best).upk.trims.getD k [0, 0, 0] = s.upk.trims.getD k [0, 0, 0]) ∧
      (∀ i, i < 3 → ((s.addTrim die bucket best).upk.trims.getD (die * 16 + bucket) [0, 0, 0]).getD i 0 =
        max (-31) (min 31 ((s.upk.trims.getD (die * 16 + bucket) [0, 0, 0]).getD i 0 + (((best.getD i 3).val : Int) * 2 - 6)))) ∧
      (s.addTrim die bucket best).upk.retiredMask = s.upk.retiredMask := by
  refine ⟨SMap.find_del_self _ _, fun k hk => (SMap.getD_set _ _ _ _ _).trans (if_neg hk), fun i hi => ?_, rfl⟩
  refine (congrArg (fun l => List.getD l i 0) ((SMap.getD_set _ _ _ _ _).trans (if_pos rfl))).trans ?_
  simp [List.getD_eq_getElem?_getD, hi]

/-! ### The end of a test (R490) -/

theorem thm_of_noted {s t : State} (h : Noted s t) : t.thm = s.thm := by
  obtain ⟨_, _, _, _, _, rfl, -⟩ := h
  rfl

theorem burner_of_noted {s t : State} (h : Noted s t) (k : Nat) : t.burner k = s.burner k := by
  obtain ⟨_, _, _, _, _, rfl, -⟩ := h
  rfl

/-- The end of a test is noted and changes at most its state and its result. -/
theorem testEnds_noted (s : State) (test result : Nat) :
    ∃ st res, Noted { s with thm := { s.thm with testState := st, testResult := res } } (s.testEnds test result) := by
  unfold State.testEnds
  split
  · exact ⟨0, result, noted_raise _ _ _⟩
  · exact ⟨s.thm.testState, s.thm.testResult, noted_refl s⟩

theorem reports_testEnds (s : State) (test result : Nat) : (s.testEnds test result).reports = s.reports := by
  unfold State.testEnds
  split
  · exact reports_raise _ _ _
  · rfl

theorem irqStat_testEnds (s : State) (test result : Nat) {p : RPage} (hp : p.base ≠ RPage.base .thm) :
    (s.testEnds test result).irqStat p = s.irqStat p := by
  unfold State.testEnds
  split
  · exact (irqStat_raise _ _ _ _).trans (if_neg hp)
  · rfl

/-- The test that runs ends with its result, and the page's bit is set. -/
theorem testEnds_running {s : State} {test : Nat} (ht : s.thm.test = test) (hs : s.thm.testState = 1) (result : Nat) :
    (s.testEnds test result).thm = { s.thm with testState := 0, testResult := result } ∧
      ((s.testEnds test result).irqStat .thm).getLsbD 4 = true := by
  have heq : s.testEnds test result = State.raise { s with thm := { s.thm with testState := 0, testResult := result } } .thm 4 := by
    simp [State.testEnds, ht, hs]
  rw [heq]
  exact ⟨thm_of_noted (noted_raise _ _ _), irqStat_raise_self _ _ (by omega)⟩

/-! ### Quick trims (R202, R203) -/

theorem contains_insertNew (xs : List Nat) (x d : Nat) : (insertNew xs x).contains d = (xs.contains d || decide (d = x)) := by
  unfold insertNew
  split
  · next h =>
    by_cases hd : d = x
    · simp [hd, List.contains_iff_mem.mp h]
    · simp [hd]
  · simp

theorem contains_insertAll (ds xs : List Nat) (d : Nat) :
    (ds.foldl insertNew xs).contains d = (xs.contains d || ds.contains d) := by
  induction ds generalizing xs with
  | nil => simp
  | cons x ds ih =>
    rw [List.foldl_cons, ih, contains_insertNew]
    simp [Bool.or_assoc]

/-- The burner of trims that have ended: it is no longer busy with them once none of its dies waits. -/
def State.trimsDone (s : State) (b : Nat) : State :=
  if s.thm.trimQueue.any (fun d => decide (d / 10 = b)) then s
  else s.updBurner b (fun x => { x with quickBusy := false, training := x.fullBusy })

theorem trimsDone_cases (s : State) (b : Nat) :
    s.trimsDone b = s ∨ (s.thm.trimQueue.any (fun d => decide (d / 10 = b)) = false ∧
      s.trimsDone b = s.updBurner b (fun x => { x with quickBusy := false, training := x.fullBusy })) := by
  unfold State.trimsDone
  cases s.thm.trimQueue.any (fun d => decide (d / 10 = b)) with
  | true => exact .inl rfl
  | false => exact .inr ⟨rfl, rfl⟩

theorem trimsEnd_eq (s : State) (b : Nat) : s.trimsEnd b =
    if s.thm.test = 2 ∧ (s.targetBurners s.thm.target).all (fun c => !s.thm.trimQueue.any (fun d => decide (d / 10 = c))) then
      (s.trimsDone b).testEnds 2 s.thm.testResult
    else s.trimsDone b := rfl

/-- Ending what waits for the trims of a burner changes the burner only once none of its dies waits; it leaves the queue. -/
theorem trimsEnd_leaves (s : State) (b : Nat) :
    ∃ u : State, (u = s ∨ (s.thm.trimQueue.any (fun d => decide (d / 10 = b)) = false ∧
        u = s.updBurner b (fun x => { x with quickBusy := false, training := x.fullBusy }))) ∧
      ∃ st res, Noted { u with thm := { u.thm with testState := st, testResult := res } } (s.trimsEnd b) := by
  refine ⟨s.trimsDone b, trimsDone_cases s b, ?_⟩
  rw [trimsEnd_eq]
  generalize s.trimsDone b = u
  split
  · exact testEnds_noted _ _ _
  · exact ⟨u.thm.testState, u.thm.testResult, noted_refl u⟩

theorem trainDie_ok (s : State) (b ce : Nat) {r : TrainRes} (h : r.ok = true) :
    s.trainDie b ce r = s.updDie b ce (fun d => { d with rdDly := r.rd, wrDly := r.wr, vref := r.vref, margin := r.margin }) := by
  simp [State.trainDie, h]

theorem trainDie_moved (s : State) (b ce : Nat) {r : TrainRes} (rd wr : Byte) (h : r.ok = true) :
    s.trainDie b ce { r with rd := rd, wr := wr } =
      s.updDie b ce (fun d => { d with rdDly := rd, wrDly := wr, vref := r.vref, margin := r.margin }) := trainDie_ok s b ce h

theorem burnerIs_trans {s u t : State} {b : Nat} {x : Burner} {f : Burner → Burner} (h : BurnerIs s u b x)
    (h' : t.burners = u.burners.upd .fresh b f) : BurnerIs s t b (f x) := by
  intro k
  have hself : u.burner b = x := (h b).trans (if_pos rfl)
  rw [burnerIs_of_upd h' k, hself]
  split
  · rfl
  · next hk => rw [h k, if_neg hk]

end Sys2Proof.Machine

namespace Sys2Proof.Proofs

open Sys2Proof Sys2Proof.Machine Sys2Proof.Safety Sys2Proof.Laws

/-- R222. -/
theorem trimsAreAdded : Sys2Proof.Claims.TrimsAreAdded := by
  intro s die bucket best us hclk htaster hlive hpos hcal
  obtain ⟨u, hu⟩ : ∃ u, u = (s.chargeCal (die.val / 10) us.val).calReads die.val bucket.val := ⟨_, rfl⟩
  have hexec : exec (.readLevelCalibration .internal die bucket [best] us) s = .next (u.addTrim die.val bucket.val best) := by
    have hl : s.dieLive (die.val / 10) (die.val % 10) = true := hlive
    show execReadLevelCalibration .internal die bucket [best] us s = _
    simp only [execReadLevelCalibration, unclocked_of_clocked hclk, htaster, hl, hpos, hcal, decide_true, Bool.and_self, if_true,
      Bool.false_eq_true, if_false, hu]
    rfl
  have hkept : u.upk = s.upk ∧ u.dies = s.dies ∧ u.stk = s.stk ∧ u.siv = s.siv ∧ u.out = s.out := by
    obtain ⟨_, _, _, hreads⟩ := mediaAsked_calReads (s.chargeCal (die.val / 10) us.val) die.val bucket.val
    obtain ⟨_, _, _, _, _, hcharge⟩ := calCharged_chargeCal s (die.val / 10) us.val
    rw [hu, hreads, hcharge]
    exact ⟨rfl, rfl, rfl, rfl, rfl⟩
  obtain ⟨hupk, hdies, hstk, hsiv, hout⟩ := hkept
  obtain ⟨hwarn, hothers, hself, hmask⟩ := addTrim_leaves u die.val bucket.val best
  rw [hupk] at hothers hself hmask
  exact ⟨_, hexec, hwarn, hothers, hself, hmask, hdies, hstk, hsiv, hout⟩

/-! ### Quick trims -/

theorem locate_brn {b o : Nat} (hb : b < 32) (ho : o < 0x10000) : locate (RPage.base (.brn b) + o) = some (.brn b, o) := by
  have hpast : ∀ k, k ≤ 0x300000 → ¬ RPage.base (.brn b) + o < k := fun k hk => by simp only [RPage.base]; omega
  have hbelow : RPage.base (.brn b) + o < 0x500000 := by simp only [RPage.base]; omega
  simp only [locate, hpast, Nat.reduceLeDiff, if_false, hbelow, if_true]
  simp only [RPage.base]
  rw [show (0x300000 + b * 0x10000 + o - 0x300000) / 0x10000 = b by omega,
    show (0x300000 + b * 0x10000 + o - 0x300000) % 0x10000 = o by omega]

/-- A request of BRN_TRAIN.QUICK queues every live die of its burner. -/
theorem quickRequest_queues (s : State) (b : Nat) :
    (∀ c, c < 10 → s.dieLive b c = true → (s.quickRequest b).thm.trimQueue.contains (b * 10 + c) = true ∧
      ((s.quickRequest b).burner b).quickBusy = true) ∧
    (∀ d, s.thm.trimQueue.contains d = true → (s.quickRequest b).thm.trimQueue.contains d = true) ∧
    (s.quickRequest b).dies = s.dies ∧ (s.quickRequest b).stk = s.stk := by
  let v := s.updBurner b (fun x => { x with quickBusy := true, training := true })
  let ds := ((List.range 10).filter (fun c => v.dieLive b c)).map (fun c => b * 10 + c)
  let w : State := { v with thm := { v.thm with trimQueue := ds.foldl insertNew s.thm.trimQueue } }
  have hw : s.quickRequest b = w.trimsEnd b := by
    simp only [State.quickRequest, State.queueTrims, List.map_cons, List.map_nil, List.flatten_cons, List.flatten_nil,
      List.append_nil]
    rfl
  have hlive : ∀ c, v.dieLive b c = s.dieLive b c := by
    intro c
    have hb : v.burner b = { s.burner b with quickBusy := true, training := true } := (State.burner_updBurner _ _ _ _).trans (if_pos rfl)
    simp only [State.dieLive, State.ceUsed, hb]
    rfl
  have hbusy : (w.burner b).quickBusy = true :=
    congrArg Burner.quickBusy ((State.burner_updBurner s b b (fun x => { x with quickBusy := true, training := true })).trans (if_pos rfl))
  obtain ⟨u, hu, st, res, hnote⟩ := trimsEnd_leaves w b
  have hqueue : (s.quickRequest b).thm.trimQueue = ds.foldl insertNew s.thm.trimQueue := by
    rw [hw, thm_of_noted hnote]
    rcases hu with rfl | ⟨-, rfl⟩ <;> rfl
  refine ⟨fun c hc hl => ?_, fun d hd => ?_, ?_, ?_⟩
  · have hmem : b * 10 + c ∈ ds :=
      List.mem_map.mpr ⟨c, List.mem_filter.mpr ⟨List.mem_range.mpr hc, by rw [hlive]; exact hl⟩, rfl⟩
    have hin : (ds.foldl insertNew s.thm.trimQueue).contains (b * 10 + c) = true := by
      rw [contains_insertAll, List.contains_iff_mem.mpr hmem, Bool.or_true]
    refine ⟨hqueue ▸ hin, ?_⟩
    rcases hu with rfl | ⟨hleft, -⟩
    · rw [hw, burner_of_noted hnote]
      exact hbusy
    · have hsome : w.thm.trimQueue.any (fun d => decide (d / 10 = b)) = true :=
        List.any_eq_true.mpr ⟨b * 10 + c, List.contains_iff_mem.mp hin, by simp; omega⟩
      rw [hsome] at hleft
      cases hleft
  · rw [hqueue, contains_insertAll, hd, Bool.true_or]
  · rw [hw, dies_of_noted hnote]
    rcases hu with rfl | ⟨-, rfl⟩ <;> rfl
  · obtain ⟨_, _, _, _, _, h, -⟩ := hnote
    rw [hw, h]
    rcases hu with rfl | ⟨-, rfl⟩ <;> rfl

/-- A die's turn in the queue of trims is over, and the trim's time is charged. -/
def TrimTaken (s v : State) (d : Nat) : Prop :=
  ∃ (n w l b : Nat) (u : SMap Nat), v = { s with now := n, thm := { s.thm with
    calWindow := w, calUse := u, calLast := l, calBurner := b, trimQueue := s.thm.trimQueue.filter (fun x => decide (x ≠ d)) } }

theorem quickTrim_eq (s : State) (b ce : Nat) {r : TrainRes} (h : r.ok = true) :
    ∃ v w : State, TrimTaken s v (b * 10 + ce) ∧
      w = (v.updBurner b (fun x => { x with quickCount := sat 8 (x.quickCount + 1) })).updDie b ce (fun d => { d with
        rdDly := recentre (s.die b ce).rdDly r.rd, wrDly := recentre (s.die b ce).wrDly r.wr, vref := r.vref, margin := r.margin }) ∧
      s.quickTrim b ce r = w.trimsEnd b := by
  obtain ⟨n, w, l, x, u, hcharge⟩ := calCharged_chargeCal s b 20
  refine ⟨{ s with now := n, thm := { s.thm with
    calWindow := w, calUse := u, calLast := l, calBurner := x
    trimQueue := s.thm.trimQueue.filter (fun x => decide (x ≠ b * 10 + ce)) } }, _, ⟨n, w, l, x, u, rfl⟩, rfl, ?_⟩
  unfold State.quickTrim
  dsimp only
  rw [trainDie_moved _ _ _ _ _ h, if_pos h, hcharge]
  rfl

/-- A quick trim that finds settings moves those of its die, and counts. -/
theorem quickTrim_moves (s : State) (b ce : Nat) {r : TrainRes} (h : r.ok = true) :
    (s.quickTrim b ce r).thm.trimQueue = s.thm.trimQueue.filter (fun d => decide (d ≠ b * 10 + ce)) ∧
      DieIs s (s.quickTrim b ce r) b ce { s.die b ce with
        rdDly := recentre (s.die b ce).rdDly r.rd, wrDly := recentre (s.die b ce).wrDly r.wr, vref := r.vref, margin := r.margin } ∧
      ((s.quickTrim b ce r).burner b).quickCount = sat 8 ((s.burner b).quickCount + 1) ∧
      ∀ k, k ≠ b → (s.quickTrim b ce r).burner k = s.burner k := by
  obtain ⟨v, w, hv, hw, heq⟩ := quickTrim_eq s b ce h
  have hvd : v.dies = s.dies ∧ v.burners = s.burners ∧ v.thm.trimQueue = s.thm.trimQueue.filter (fun d => decide (d ≠ b * 10 + ce)) := by
    obtain ⟨_, _, _, _, _, rfl⟩ := hv
    exact ⟨rfl, rfl, rfl⟩
  obtain ⟨hdies, hburners, hqueue⟩ := hvd
  have hwb : BurnerIs s w b { s.burner b with quickCount := sat 8 ((s.burner b).quickCount + 1) } :=
    burnerIs_of_upd (f := fun x => { x with quickCount := sat 8 (x.quickCount + 1) }) (by rw [hw, ← hburners]; rfl)
  have hwd : DieIs s w b ce { s.die b ce with
      rdDly := recentre (s.die b ce).rdDly r.rd, wrDly := recentre (s.die b ce).wrDly r.wr, vref := r.vref, margin := r.margin } :=
    dieIs_of_upd (f := fun d => { d with
      rdDly := recentre (s.die b ce).rdDly r.rd, wrDly := recentre (s.die b ce).wrDly r.wr, vref := r.vref, margin := r.margin })
      (by rw [hw, ← hdies]; rfl)
  have hwq : w.thm.trimQueue = s.thm.trimQueue.filter (fun d => decide (d ≠ b * 10 + ce)) := by
    rw [hw, ← hqueue]
    rfl
  obtain ⟨u, hu, st, res, hnote⟩ := trimsEnd_leaves w b
  have hsame : u.thm.trimQueue = w.thm.trimQueue ∧ u.dies = w.dies ∧ (u.burner b).quickCount = (w.burner b).quickCount ∧
      ∀ k, k ≠ b → u.burner k = w.burner k := by
    rcases hu with rfl | ⟨-, rfl⟩
    · exact ⟨rfl, rfl, rfl, fun k _ => rfl⟩
    · refine ⟨rfl, rfl, ?_, fun k hk => by rw [State.burner_updBurner, if_neg hk]⟩
      rw [State.burner_updBurner, if_pos rfl]
  obtain ⟨huq, hud, huc, huk⟩ := hsame
  rw [heq]
  refine ⟨?_, fun k => ?_, ?_, fun k hk => ?_⟩
  · rw [thm_of_noted hnote]
    exact huq.trans hwq
  · rw [dies_of_noted hnote]
    exact (congrArg (fun m => SMap.getD m k Die.absent) hud).trans (hwd k)
  · rw [burner_of_noted hnote]
    exact huc.trans (congrArg Burner.quickCount ((hwb b).trans (if_pos rfl)))
  · rw [burner_of_noted hnote]
    exact (huk k hk).trans ((hwb k).trans (if_neg hk))

/-- R202, R203. -/
theorem diesAreTrimmed : Sys2Proof.Claims.DiesAreTrimmed := by
  intro s b ce r
  refine ⟨fun path hw => ?_, fun hclk hin hlive hok => ?_, fun hout => ?_⟩
  · have hexec : exec (.quickTrim (.register path) b ce r) s = .next (s.quickRequest b.val) := by
      show execQuickTrim (.register path) b ce r s = _
      rw [execQuickTrim, portWrite_of_writes hw (locate_brn b.isLt (by omega)), mayWrite_of_writes hw, if_pos rfl]
    exact ⟨_, hexec, quickRequest_queues s b.val⟩
  · have hexec : exec (.quickTrim .internal b ce r) s = .next (s.quickTrim b.val ce.val r) := by
      have hl : s.dieLive b.val ce.val = true := hlive
      show execQuickTrim .internal b ce r s = _
      simp [execQuickTrim, unclocked_of_clocked hclk, List.contains_iff_mem.mp hin, hl]
    exact ⟨_, hexec, quickTrim_moves s b.val ce.val hok⟩
  · show execQuickTrim .internal b ce r s = _
    have hnot : ¬ b.val * 10 + ce.val ∈ s.thm.trimQueue := fun h => by
      rw [List.contains_iff_mem.mpr h] at hout
      cases hout
    simp [execQuickTrim, hnot]

end Sys2Proof.Proofs
end

section
/-!
SUPPORT. Full training of burners, the sensor self-check and the codec self-test (06_burner_channel.md R200, 17_thermal_and_round.md
R486, R490), and the housekeeping round (R477, R484).
-/

namespace Sys2Proof.Machine

open Sys2Proof Sys2Proof.Safety Sys2Proof.Laws

/-! ### Full training (R200) -/

theorem range_filter_one {p : Nat → Bool} {n c : Nat} (hc : c < n) (hp : p c = true) (hothers : ∀ k, k < n → k ≠ c → p k = false) :
    (List.range n).filter p = [c] := by
  obtain ⟨pre, post, hsplit, hout⟩ := Sys2Proof.Proofs.range_split hc
  have hnone : ∀ xs : List Nat, (∀ k ∈ xs, k < n ∧ k ≠ c) → xs.filter p = [] := fun xs hxs =>
    List.filter_eq_nil_iff.mpr fun k hk => by
      obtain ⟨hlt, hne⟩ := hxs k hk
      simp [hothers k hlt hne]
  rw [hsplit, List.filter_append, List.filter_cons, if_pos hp, hnone pre (fun k hk => hout k (.inl hk)),
    hnone post (fun k hk => hout k (.inr hk))]
  rfl

/-- The result of the test that trains, once a die has failed. -/
def State.noteFailure (s : State) : State :=
  { s with thm := { s.thm with testResult := if s.thm.test = 0x11 ∧ s.thm.testState = 1 then 1 else s.thm.testResult } }

/-- The training of a burner with one die in service. -/
theorem trained_one {s : State} {b ce : Nat} (res : List TrainRes) (hces : (List.range 10).filter (fun c => s.dieLive b c) = [ce]) :
    s.trained b res =
      if (res.getD ce ⟨0, 0, 0, 0, false⟩).ok = true then
        (((((s.updBurner b (fun x => { x with failMask := 0 })).trainDie b ce (res.getD ce ⟨0, 0, 0, 0, false⟩)).updBurner b
          (fun x => { x with training := false, fullBusy := false, trainState := 0 })).updBurner b
            (fun x => { x with ready := true })).maskLane b false).trainingEnds
      else
        (((((s.updBurner b (fun x => { x with failMask := 0 })).trainDie b ce (res.getD ce ⟨0, 0, 0, 0, false⟩)).noteFailure).updBurner b
          (fun x => { x with training := false, fullBusy := false, trainState := 3 })).report 6 2 b).trainingEnds := by
  unfold State.trained
  dsimp only
  rw [hces]
  cases h : (res.getD ce ⟨0, 0, 0, 0, false⟩).ok <;> simp only [List.foldl_cons, List.foldl_nil, List.any_cons, List.any_nil,
    List.all_cons, List.all_nil, h, Bool.not_true, Bool.not_false, Bool.or_false, Bool.and_true, if_true, Bool.false_eq_true, if_false]
  rfl

/-- The end of training is noted and changes at most the state and result of the test. -/
theorem trainingEnds_noted (s : State) : ∃ st res,
    Noted { s with thm := { s.thm with testState := st, testResult := res } } s.trainingEnds := by
  unfold State.trainingEnds
  split
  · exact ⟨s.thm.testState, s.thm.testResult, noted_refl s⟩
  · exact testEnds_noted _ _ _

theorem reports_trainingEnds (s : State) : s.trainingEnds.reports = s.reports := by
  unfold State.trainingEnds
  split
  · rfl
  · exact reports_testEnds _ _ _

theorem irqStat_trainingEnds (s : State) {p : RPage} (hp : p.base ≠ RPage.base .thm) : s.trainingEnds.irqStat p = s.irqStat p := by
  unfold State.trainingEnds
  split
  · rfl
  · exact irqStat_testEnds _ _ _ hp

/-- The burners are those of another state. -/
theorem burnerIs_of_burners {s u t : State} {b : Nat} {x : Burner} (h : BurnerIs s u b x) (h' : t.burners = u.burners) :
    BurnerIs s t b x := by
  intro k
  rw [← h k]
  unfold State.burner
  rw [h']

/-- What a training that succeeds leaves. -/
theorem trained_ok {s : State} {b ce : Nat} {res : List TrainRes} {r : TrainRes}
    (hces : (List.range 10).filter (fun c => s.dieLive b c) = [ce]) (hr : res.getD ce ⟨0, 0, 0, 0, false⟩ = r) (hok : r.ok = true) (hb : b < 32) :
    DieIs s (s.trained b res) b ce { s.die b ce with rdDly := r.rd, wrDly := r.wr, vref := r.vref, margin := r.margin } ∧
      BurnerIs s (s.trained b res) b { s.burner b with
        failMask := 0, training := false, fullBusy := false, trainState := 0, ready := true } ∧
      (s.trained b res).pass.maskBrn.getLsbD b = false ∧ (s.trained b res).pass.lanes = s.pass.lanes ∧
      (s.trained b res).reports = s.reports := by
  rw [trained_one res hces, hr, if_pos hok, trainDie_ok _ _ _ hok]
  obtain ⟨t, ht⟩ : ∃ t, t = (((((s.updBurner b (fun x => { x with failMask := 0 })).updDie b ce (fun d => { d with
    rdDly := r.rd, wrDly := r.wr, vref := r.vref, margin := r.margin })).updBurner b
      (fun x => { x with training := false, fullBusy := false, trainState := 0 })).updBurner b
        (fun x => { x with ready := true })).maskLane b false) := ⟨_, rfl⟩
  rw [← ht]
  obtain ⟨st, rs, hnote⟩ := trainingEnds_noted t
  have hkept : t.trainingEnds.dies = t.dies ∧ t.trainingEnds.burners = t.burners ∧ t.trainingEnds.pass = t.pass := by
    obtain ⟨_, _, _, _, _, h, -⟩ := hnote
    rw [h]
    exact ⟨rfl, rfl, rfl⟩
  obtain ⟨hdies, hburners, hpass⟩ := hkept
  refine ⟨?_, burnerIs_of_burners (u := t) ?_ hburners, ?_, ?_, ?_⟩
  · exact dieIs_of_upd (f := fun d => { d with rdDly := r.rd, wrDly := r.wr, vref := r.vref, margin := r.margin })
      (hdies.trans (by rw [ht]; rfl))
  · rw [ht]
    exact burnerIs_trans (f := fun x => { x with ready := true })
      (burnerIs_trans (u := s.updBurner b (fun x => { x with failMask := 0 }))
        (t := (s.updBurner b (fun x => { x with failMask := 0 })).updBurner b (fun x => { x with training := false, fullBusy := false, trainState := 0 }))
        (f := fun x => { x with training := false, fullBusy := false, trainState := 0 })
        (burnerIs_of_upd (f := fun x => { x with failMask := 0 }) rfl) rfl) rfl
  · rw [hpass, ht]
    show (s.pass.maskBrn &&& ~~~ BitVec.ofNat 32 (2 ^ b)).getLsbD b = false
    have hbit : (BitVec.ofNat 32 (2 ^ b)).getLsbD b = true := by
      rw [BitVec.getLsbD_ofNat, Nat.testBit_two_pow_self]
      simp [hb]
    rw [BitVec.getLsbD_and, BitVec.getLsbD_not, hbit]
    simp
  · rw [hpass, ht]
    simp [State.maskLane]
  · rw [reports_trainingEnds, ht]
    simp [State.maskLane]

theorem trainDie_fails (s : State) (b ce : Nat) {r : TrainRes} (h : r.ok = false) :
    s.trainDie b ce r = (((s.updDie b ce (fun d => { d with failed := true })).updBurner b (fun x => { x with
      failMask := x.failMask ||| BitVec.ofNat 10 (2 ^ ce) })).report 4 1 (dieId b ce)).raise (.brn b) 0 := by
  simp [State.trainDie, h]

/-- What a training leaves of a burner whose only die fails. -/
theorem trained_fails {s : State} {b ce : Nat} {res : List TrainRes} {r : TrainRes}
    (hces : (List.range 10).filter (fun c => s.dieLive b c) = [ce]) (hr : res.getD ce ⟨0, 0, 0, 0, false⟩ = r) (hbad : r.ok = false)
    (hb : b < 32) :
    DieIs s (s.trained b res) b ce { s.die b ce with failed := true } ∧
      ((s.trained b res).burner b).training = false ∧ ((s.trained b res).burner b).trainState = 3 ∧
      ((s.trained b res).burner b).failMask = BitVec.ofNat 10 (2 ^ ce) ∧ (∀ k, k ≠ b → (s.trained b res).burner k = s.burner k) ∧
      (s.trained b res).reports = s.reports ++ [⟨4, 1, dieId b ce⟩, ⟨6, 2, b⟩] ∧
      ((s.trained b res).irqStat (.brn b)).getLsbD 0 = true := by
  rw [trained_one res hces, hr, if_neg (by rw [hbad]; decide), trainDie_fails _ _ _ hbad]
  obtain ⟨u, hu⟩ : ∃ u, u = (((s.updBurner b (fun x => { x with failMask := 0 })).updDie b ce (fun d => { d with failed := true })).updBurner b
    (fun x => { x with failMask := x.failMask ||| BitVec.ofNat 10 (2 ^ ce) })).report 4 1 (dieId b ce) := ⟨_, rfl⟩
  have hraise := noted_raise u (.brn b) 0
  obtain ⟨v, hv⟩ : ∃ v, v = u.raise (.brn b) 0 := ⟨_, rfl⟩
  obtain ⟨t, ht⟩ : ∃ t, t = (v.noteFailure.updBurner b
    (fun x => { x with training := false, fullBusy := false, trainState := 3 })).report 6 2 b := ⟨_, rfl⟩
  rw [← hu, ← hv, ← ht]
  rw [← hv] at hraise
  obtain ⟨st, rs, hnote⟩ := trainingEnds_noted t
  have hkept : t.trainingEnds.dies = u.dies ∧ t.trainingEnds.burners = t.burners ∧ v.burners = u.burners := by
    obtain ⟨_, _, _, _, _, h, -⟩ := hnote
    obtain ⟨_, _, _, _, _, h', -⟩ := hraise
    rw [h, ht, h']
    simp [State.noteFailure, State.report]
  obtain ⟨hdies, hburners, hvb⟩ := hkept
  have hself : BurnerIs s t.trainingEnds b { s.burner b with
      failMask := 0 ||| BitVec.ofNat 10 (2 ^ ce), training := false, fullBusy := false, trainState := 3 } := by
    refine burnerIs_of_burners (u := t) ?_ hburners
    refine burnerIs_trans (u := u) (f := fun x => { x with training := false, fullBusy := false, trainState := 3 })
      (x := { s.burner b with failMask := 0 ||| BitVec.ofNat 10 (2 ^ ce) }) ?_ (by rw [ht, ← hvb]; rfl)
    refine burnerIs_trans (u := s.updBurner b (fun x => { x with failMask := 0 })) (x := { s.burner b with failMask := 0 })
      (f := fun x => { x with failMask := x.failMask ||| BitVec.ofNat 10 (2 ^ ce) })
      (burnerIs_of_upd (f := fun x => { x with failMask := 0 }) rfl) (by rw [hu]; simp [State.report])
  have hb' := (hself b).trans (if_pos rfl)
  refine ⟨?_, by rw [hb'], by rw [hb'], by rw [hb']; exact BitVec.zero_or, fun k hk => (hself k).trans (if_neg hk), ?_, ?_⟩
  · exact dieIs_of_upd (f := fun d => { d with failed := true }) (hdies.trans (by rw [hu]; simp [State.report]))
  · have hvr : v.reports = u.reports := hv ▸ reports_raise u _ _
    rw [reports_trainingEnds, ht]
    simp [State.report, State.noteFailure, hvr, hu]
  · have hregs : t.regs = v.regs := by
      rw [ht]
      simp [State.report, State.noteFailure]
    have hirq : t.irqStat (.brn b) = v.irqStat (.brn b) := by
      unfold State.irqStat
      rw [hregs]
    rw [irqStat_trainingEnds t (by simp only [RPage.base]; omega), hirq, hv]
    exact irqStat_raise_self u (.brn b) (by omega)

/-! ### What a round and a self-check of the sensors leave (R477 to R484) -/

/-- The parts of a state that the judging of sensors leaves: the clock, the power state, the stockpot, the sieve, the ports, the
counts of rounds and trips, the test that runs and what is deferred, and the means of the supplies. -/
structure RoundView where
  now : Nat
  pwrState : PState
  stk : Stockpot
  siv : Sieve
  ports : HostPorts
  counts : Nat × Nat × Nat × Nat
  test : Nat × Nat × Nat × Nat
  deferred : List (Nat × Nat)
  means : Nat × Nat

def State.roundView (s : State) : RoundView :=
  { now := s.now, pwrState := s.pwrState, stk := s.stk, siv := s.siv, ports := s.ports
    counts := (s.thm.rounds, s.thm.roundAt, s.thm.overruns, s.thm.trips)
    test := (s.thm.test, s.thm.target, s.thm.testState, s.thm.testResult)
    deferred := s.thm.deferred, means := (s.pwr.supply, s.pwr.kettle) }

theorem roundView_of_noted {s t : State} (h : Noted s t) : t.roundView = s.roundView := by
  obtain ⟨_, _, _, _, _, rfl, -⟩ := h
  rfl

theorem roundView_foldl {α : Type} {f : State → α → State} (hf : ∀ t x, (f t x).roundView = t.roundView) (xs : List α) (s : State) :
    (xs.foldl f s).roundView = s.roundView := by
  induction xs generalizing s with
  | nil => rfl
  | cons x xs ih => exact (ih _).trans (hf s x)

theorem roundView_ite {c : Prop} [Decidable c] {s t u : State} (ht : t.roundView = s.roundView) (hu : u.roundView = s.roundView) :
    (if c then t else u).roundView = s.roundView := by
  split
  · exact ht
  · exact hu

theorem meanOf_roundView (s : State) (xs : List Int) : (s.meanOf xs).2.roundView = s.roundView := by
  unfold State.meanOf
  dsimp only
  split
  · rfl
  · split <;> rfl

theorem sensorBroken_roundView (s : State) (k : Nat) : (s.sensorBroken k).roundView = s.roundView :=
  roundView_of_noted (noted_trans (noted_raise _ _ _) (noted_record _ _ _ _ _ _))

theorem judgeSensor_roundView (s : State) (old now : SMap Sensor) (once : Bool) (k : Nat) :
    (s.judgeSensor old now once k).roundView = s.roundView := by
  unfold State.judgeSensor
  cases now.find k with
  | none => rfl
  | some x =>
    dsimp only
    generalize hr : (if (x.broken || decide (disagrees old now k x.raw = some true)) = true then
      if (neighbourReads old now k).isEmpty = true then ((hottestOf (k / 1024) old now).getD x.val, s)
      else s.meanOf (neighbourReads old now k) else (x.raw, s)) = r
    have hview : r.2.roundView = s.roundView := by
      rw [← hr]
      split
      · split
        · rfl
        · exact meanOf_roundView _ _
      · rfl
    exact roundView_ite ((sensorBroken_roundView _ _).trans (roundView_ite hview hview)) (roundView_ite hview hview)

theorem applyBands_roundView (s : State) : s.applyBands.roundView = s.roundView := by
  unfold State.applyBands
  dsimp only
  refine roundView_ite ((roundView_of_noted (noted_trans (noted_raise _ _ _) (noted_record _ _ _ _ _ _))).trans ?_)
    (roundView_ite ((roundView_of_noted (noted_record _ _ _ _ _ _)).trans ?_) ?_)
  all_goals exact roundView_ite ((roundView_of_noted (noted_raise _ _ _)).trans rfl) rfl

end Sys2Proof.Machine

namespace Sys2Proof.Proofs

open Sys2Proof Sys2Proof.Machine Sys2Proof.Safety Sys2Proof.Laws

/-- R200. -/
theorem burnersAreTrained : Sys2Proof.Claims.BurnersAreTrained := by
  intro s b ce res r hclk hretired hbusy hlive hothers hlen hr
  have hl : s.dieLive b.val ce.val = true := hlive
  have hces := range_filter_one (p := fun c => s.dieLive b.val c) ce.isLt hl hothers
  have hexec : exec (.fullTraining .internal b res) s = .next (s.trained b.val res) := by
    show execFullTraining .internal b res s = _
    simp [execFullTraining, State.burnersStopped, unclocked_of_clocked hclk, hretired, hbusy]
  exact ⟨fun hok => ⟨_, hexec, trained_ok hces hr hok b.isLt⟩, fun hbad => ⟨_, hexec, trained_fails hces hr hbad b.isLt⟩⟩

end Sys2Proof.Proofs
end

section
/-!
SUPPORT. Run Test, the disruptive tests and the housekeeping round (17_thermal_and_round.md R477, R484, R486, R487, R490).
-/

namespace Sys2Proof.Machine

open Sys2Proof Sys2Proof.Safety Sys2Proof.Laws

/-! ### Run Test (R486) -/

theorem testReply_eq (s : State) (p : Path) (outcome test : Nat) :
    s.testReply p outcome test = answered s p 0xC080 0 ([byteOf outcome, byteOf test] ++ leBytes 2 s.thm.deferred.length) := rfl

/-- Run Test of a test other than 0x03 on a path that may run it. -/
theorem runTest_of_serves {s : State} {p : Path} (h : Serves s p ownerOnly) {test : Nat} (ht : test ≠ 3) (arg : Byte) (known : Bool)
    (body : State → State) : s.runTest p test arg known body =
      if arg ≠ 0 then answered s p 0xC080 2 [] else if known = true then body s else s.testReply p 3 test := by
  unfold State.runTest
  rw [State.command_of_serves h]
  simp only [ht, if_false]
  by_cases ha : arg = 0
  · subst ha
    cases known <;> rfl
  · rw [if_pos (decide_eq_true ha), if_pos ha]
    rfl

theorem runNow_of_serves {s : State} {p : Path} (h : Serves s p ownerOnly) {test : Nat} (ht : test ≠ 3) (arg : Byte) (known : Bool)
    (body : State → State) : s.runNow p test arg known body =
      if arg ≠ 0 then answered s p 0xC080 2 []
      else if known = true then (if s.thm.testState = 1 then s.testReply p 2 test else body s) else s.testReply p 3 test :=
  runTest_of_serves h ht arg known _

theorem toNat_ne_of_ne {b : Byte} (h : b ≠ 0xFF) : b.toNat ≠ 255 := fun he => h (BitVec.eq_of_toNat_eq he)

/-- A burner in service, or every one, is known as a target. -/
theorem targetBurners_known {s : State} {b : Byte} (h : b = 0xFF ∨ s.liveBurners.contains b.toNat = true) :
    (decide (b = 0xFF) || !(s.targetBurners b.toNat).isEmpty) = true := by
  by_cases hb : b = 0xFF
  · simp [hb]
  · have hmem : b.toNat ∈ s.targetBurners b.toNat := by
      rw [State.targetBurners, if_neg (toNat_ne_of_ne hb)]
      exact List.mem_filter.mpr ⟨List.contains_iff_mem.mp (h.resolve_left hb), by simp⟩
    have hne : (s.targetBurners b.toNat).isEmpty = false := by
      rw [List.isEmpty_eq_false_iff]
      exact List.ne_nil_of_mem hmem
    simp [hne]

theorem targetBurners_unknown {s : State} {b : Byte} (hb : b ≠ 0xFF) (h : s.liveBurners.contains b.toNat = false) :
    (decide (b = 0xFF) || !(s.targetBurners b.toNat).isEmpty) = false := by
  have hnone : s.targetBurners b.toNat = [] := by
    rw [State.targetBurners, if_neg (toNat_ne_of_ne hb)]
    refine List.filter_eq_nil_iff.mpr fun k hk hkb => ?_
    simp only [decide_eq_true_eq] at hkb
    rw [← hkb, List.contains_iff_mem.mpr hk] at h
    cases h
  rw [hnone, decide_eq_false hb]
  rfl

/-- The burners that a test of the codec finds bad. -/
theorem targetBurners_any (s : State) (b : Byte) (f : Nat → Bool) :
    (s.targetBurners b.toNat).any f = s.liveBurners.any (fun k => (decide (b = 0xFF) || decide (k = b.toNat)) && f k) := by
  by_cases hb : b = 0xFF
  · simp [State.targetBurners, hb]
  · rw [State.targetBurners, if_neg (toNat_ne_of_ne hb), List.any_filter, decide_eq_false hb]
    simp

/-- A test that has run ends with its result, its bit is set, and it is answered last. -/
theorem testEnds_replied {u : State} (p : Path) {test target result n : Nat} (ht : u.thm.test = test) (hg : u.thm.target = target)
    (hs : u.thm.testState = 1) (hn : u.thm.deferred.length = n) :
    ((u.testEnds test result).testReply p 0 test).thm.test = test ∧ ((u.testEnds test result).testReply p 0 test).thm.target = target ∧
      ((u.testEnds test result).testReply p 0 test).thm.testState = 0 ∧
      ((u.testEnds test result).testReply p 0 test).thm.testResult = result ∧
      (((u.testEnds test result).testReply p 0 test).irqStat .thm).getLsbD 4 = true ∧
      ((u.testEnds test result).testReply p 0 test).out.getLast? = some (.mailbox p 0xC080 0 ([0, byteOf test] ++ leBytes 2 n)) := by
  obtain ⟨hthm, hirq⟩ := testEnds_running ht hs result
  generalize hv : u.testEnds test result = v at hthm hirq
  have hvthm : (v.testReply p 0 test).thm = v.thm := rfl
  refine ⟨?_, ?_, ?_, ?_, hirq, ?_⟩
  · rw [hvthm, hthm]; exact ht
  · rw [hvthm, hthm]; exact hg
  · rw [hvthm, hthm]
  · rw [hvthm, hthm]
  · have hdef : v.thm.deferred.length = n := by rw [hthm]; exact hn
    rw [testReply_eq, hdef]
    exact List.getLast?_concat

/-! ### The sensors (R479, R480) -/

theorem applyBands_sensors (s : State) : s.applyBands.thm.sensors = holdBroken s.thm.sensors := by
  unfold State.applyBands
  dsimp only
  have hite : ∀ (c : Prop) [Decidable c] (t u : State) (m : SMap Sensor), t.thm.sensors = m → u.thm.sensors = m →
      (if c then t else u).thm.sensors = m := by
    intro c _ t u m ht hu
    split
    · exact ht
    · exact hu
  have hnoted : ∀ {t u : State}, Noted t u → u.thm.sensors = t.thm.sensors := fun h => congrArg Thermal.sensors (thm_of_noted h)
  refine hite _ _ _ _ ((hnoted (noted_trans (noted_raise _ _ _) (noted_record _ _ _ _ _ _))).trans ?_)
    (hite _ _ _ _ ((hnoted (noted_record _ _ _ _ _ _)).trans ?_) ?_)
  all_goals exact hite _ _ _ _ ((hnoted (noted_raise _ _ _)).trans rfl) rfl

/-- The sensors of a self-check, judged. -/
def State.checked (s : State) : State :=
  (s.thm.sensors.foldl (fun (u : State) e => u.judgeSensor s.thm.sensors s.thm.sensors true e.1) (s.testBegins 1 0xFF)).applyBands

/-- Whether a self-check finds a sensor broken that was not. -/
def State.checkFails (s : State) : Bool :=
  s.checked.thm.sensors.any (fun e => e.2.broken && !((s.thm.sensors.find e.1).map (fun x => x.broken)).getD false)

theorem checked_roundView (s : State) : s.checked.roundView = (s.testBegins 1 0xFF).roundView := by
  unfold State.checked
  rw [applyBands_roundView]
  exact roundView_foldl (fun t e => judgeSensor_roundView _ _ _ _ _) _ _

theorem checkFails_of_none {s : State} (h : s.thm.sensors = []) : s.checkFails = false := by
  have hnone : s.checked.thm.sensors = [] := by
    unfold State.checked
    rw [applyBands_sensors, h]
    show holdBroken s.thm.sensors = []
    rw [h]
    rfl
  simp [State.checkFails, hnone]

end Sys2Proof.Machine

namespace Sys2Proof.Proofs

open Sys2Proof Sys2Proof.Machine Sys2Proof.Safety Sys2Proof.Laws

theorem sensorSelfCheck_runs {s : State} {p : Path} (h : Serves s p ownerOnly) (hs : s.thm.testState ≠ 1) :
    ∃ t, exec (.sensorSelfCheck (.runTest p 0xFF 0)) s = .next t ∧
      t.thm.test = 1 ∧ t.thm.target = 0xFF ∧ t.thm.testState = 0 ∧ t.thm.testResult ≤ 1 ∧
      (s.thm.sensors = [] → t.thm.testResult = 0) ∧ (t.irqStat .thm).getLsbD 4 = true ∧
      t.out.getLast? = some (.mailbox p 0xC080 0 ([0, 1] ++ leBytes 2 s.thm.deferred.length)) := by
  have hexec : exec (.sensorSelfCheck (.runTest p 0xFF 0)) s =
      .next ((s.checked.testEnds 1 (if s.checkFails then 1 else 0)).testReply p 0 1) := by
    show execSensorSelfCheck (.runTest p 0xFF 0) s = _
    rw [execSensorSelfCheck, runNow_of_serves h (by decide), if_neg (by decide), if_pos (by decide), if_neg hs]
    rfl
  have hview := checked_roundView s
  have htest := congrArg RoundView.test hview
  simp only [State.roundView, Prod.mk.injEq] at htest
  obtain ⟨ht, hg, hst, -⟩ := htest
  obtain ⟨h1, h2, h3, h4, h5, h6⟩ := testEnds_replied p (test := 1) (target := 0xFF)
    (result := if s.checkFails then 1 else 0) ht hg hst
    (congrArg List.length (congrArg RoundView.deferred hview))
  refine ⟨_, hexec, h1, h2, h3, ?_, fun hnone => ?_, h5, h6⟩
  · rw [h4]
    split <;> decide
  · rw [h4, checkFails_of_none hnone]
    rfl

theorem codecSelfTest_runs {s : State} {p : Path} (h : Serves s p ownerOnly) (hs : s.thm.testState ≠ 1) {target : Byte}
    (hknown : target = 0xFF ∨ s.liveBurners.contains target.toNat = true) (fails : BitVec 32) (us : Fin 2001) :
    ∃ t, exec (.codecSelfTest (.runTest p target 0) fails us) s = .next t ∧
      t.thm.test = 4 ∧ t.thm.target = target.toNat ∧ t.thm.testState = 0 ∧ (t.irqStat .thm).getLsbD 4 = true ∧
      t.thm.testResult = (if s.liveBurners.any (fun b =>
        (decide (target = 0xFF) || decide (b = target.toNat)) && fails.getLsbD b) then 1 else 0) ∧
      t.out.getLast? = some (.mailbox p 0xC080 0 ([0, 4] ++ leBytes 2 s.thm.deferred.length)) := by
  obtain ⟨u, hu⟩ : ∃ u, u = (s.targetBurners target.toNat).foldl (fun u b => u.chargeCal b us.val) (s.testBegins 4 target.toNat) :=
    ⟨_, rfl⟩
  have hexec : exec (.codecSelfTest (.runTest p target 0) fails us) s = .next ((u.testEnds 4
      (if (s.targetBurners target.toNat).any (fun b => fails.getLsbD b) then 1 else 0)).testReply p 0 4) := by
    show execCodecSelfTest (.runTest p target 0) fails us s = _
    rw [execCodecSelfTest, runNow_of_serves h (by decide), if_neg (by decide), if_pos (targetBurners_known hknown), if_neg hs, hu]
    rfl
  have hthm : u.thm.test = 4 ∧ u.thm.target = target.toNat ∧ u.thm.testState = 1 ∧ u.thm.deferred = s.thm.deferred := by
    obtain ⟨_, _, _, _, _, hcharge⟩ := calCharged_foldl us.val (s.targetBurners target.toNat) (s.testBegins 4 target.toNat)
    rw [hu, hcharge]
    exact ⟨rfl, rfl, rfl, rfl⟩
  obtain ⟨ht, hg, hst, hdef⟩ := hthm
  obtain ⟨h1, h2, h3, h4, h5, h6⟩ := testEnds_replied p
    (result := if (s.targetBurners target.toNat).any (fun b => fails.getLsbD b) then 1 else 0) ht hg hst (congrArg List.length hdef)
  rw [targetBurners_any] at hexec h1 h2 h3 h4 h5 h6
  exact ⟨_, hexec, h1, h2, h3, h5, h4, h6⟩

/-- R486, R490. -/
theorem sensorsAndCodecsAreTested : Sys2Proof.Claims.SensorsAndCodecsAreTested := by
  intro s p target arg fails us h tail
  have hsensor : ∀ tg a, exec (.sensorSelfCheck (.runTest p tg a)) s = .next (s.runNow p 1 a (decide (tg = 0xFF)) (fun s =>
      let m := s.thm.sensors
      let t := (m.foldl (fun (u : State) e => u.judgeSensor m m true e.1) (s.testBegins 1 0xFF)).applyBands
      let bad := t.thm.sensors.any (fun e => e.2.broken && !((m.find e.1).map (fun x => x.broken)).getD false)
      (t.testEnds 1 (if bad then 1 else 0)).testReply p 0 1)) := fun tg a => rfl
  have hcodec : ∀ tg a, ∃ body, exec (.codecSelfTest (.runTest p tg a) fails us) s = .next (s.runNow p 4 a
      (decide (tg = 0xFF) || !(s.targetBurners tg.toNat).isEmpty) body) := fun tg a => ⟨_, rfl⟩
  refine ⟨sensorSelfCheck_runs h, fun hs => ⟨?_, ?_⟩, fun hs hknown => codecSelfTest_runs h hs hknown fails us,
    fun htg => ⟨?_, fun hno => ?_⟩, fun ha => ⟨?_, ?_⟩⟩
  · rw [hsensor, runNow_of_serves h (by decide), if_neg (by decide), if_pos (by decide), if_pos hs]
    rfl
  · obtain ⟨body, hbody⟩ := hcodec 0xFF 0
    rw [hbody, runNow_of_serves h (by decide), if_neg (by decide), if_pos (targetBurners_known (.inl rfl)), if_pos hs]
    rfl
  · rw [hsensor, runNow_of_serves h (by decide), if_neg (by decide), if_neg (by rw [decide_eq_false htg]; decide)]
    rfl
  · obtain ⟨body, hbody⟩ := hcodec target 0
    rw [hbody, runNow_of_serves h (by decide), if_neg (by decide), if_neg (by rw [targetBurners_unknown htg hno]; decide)]
    rfl
  · rw [hsensor, runNow_of_serves h (by decide), if_pos ha]
  · obtain ⟨body, hbody⟩ := hcodec target arg
    rw [hbody, runNow_of_serves h (by decide), if_pos ha]

/-- Settles O54. -/
theorem trimsAndTraining : Obligations.TrimsAndTraining :=
  ⟨trimsAreAdded, diesAreTrimmed, burnersAreTrained, sensorsAndCodecsAreTested⟩

/-! ### Disruptive tests (R486, R487) -/

/-- The outcome of Run Test of a disruptive test on the whole device. -/
theorem askTest_of_serves {s : State} {p : Path} (h : Serves s p ownerOnly) {test : Nat} (ht : test ≠ 3) (page : RPage) (off : Nat)
    (known : Byte → Bool) (hk : known 0xFF = true) : s.askTest (.runTest p 0xFF 0) test 0xFF page off known =
      (s.requestTest test 0xFF).2.testReply p (s.requestTest test 0xFF).1 test := by
  show s.runTest p test 0 (known 0xFF) _ = _
  rw [runTest_of_serves h ht, if_neg (by decide), if_pos hk]
  rfl

theorem requestTest_idle {s : State} (hm : s.ports.links.any (fun e => e.2.memActive) = false) (hs : s.thm.testState ≠ 1) (test : Nat) :
    s.requestTest test 0xFF = (0, s.startTest test 0xFF) := by
  simp [State.requestTest, hm, hs]

theorem requestTest_full {s : State} (hm : s.ports.links.any (fun e => e.2.memActive) = true) {test : Nat}
    (hin : s.thm.deferred.contains (test, 0xFF) = false) (hfull : 16 ≤ s.thm.deferred.length) :
    s.requestTest test 0xFF = (2, s) := by
  simp only [State.requestTest, hm, hin, Bool.not_true, Bool.false_and, Bool.false_eq_true, if_false, hfull, if_true]

/-- A test of the whole device that has to wait stands last in the queue. -/
theorem requestTest_deferred {s : State} (hm : s.ports.links.any (fun e => e.2.memActive) = true) {test : Nat}
    (hin : s.thm.deferred.contains (test, 0xFF) = false) (hroom : s.thm.deferred.length < 16) (ht : test = 0x10 ∨ test = 0x12) :
    (s.requestTest test 0xFF).1 = 1 ∧ (s.requestTest test 0xFF).2.thm.deferred = s.thm.deferred ++ [(test, 0xFF)] ∧
      (s.requestTest test 0xFF).2.out = s.out := by
  simp only [State.requestTest, hm, hin, Bool.not_true, Bool.false_and, Bool.false_eq_true, if_false, Nat.not_le.mpr hroom]
  rcases ht with rfl | rfl <;> exact ⟨trivial, rfl, rfl⟩

/-- R486, R487. -/
theorem disruptiveTestsStartOrWait : Sys2Proof.Claims.DisruptiveTestsStartOrWait := by
  intro s p ok h idle busy n
  have hkettle : exec (.kettleCapacitanceTest (.runTest p 0xFF 0)) s =
      .next ((s.requestTest 0x10 0xFF).2.testReply p (s.requestTest 0x10 0xFF).1 0x10) := by
    show execKettleCapacitanceTest (.runTest p 0xFF 0) s = _
    rw [execKettleCapacitanceTest, askTest_of_serves h (by decide) _ _ _ (by decide)]
  have hstack : exec (.mapStackTraining (.runTest p 0xFF 0) ok) s =
      .next ((s.requestTest 0x12 0xFF).2.testReply p (s.requestTest 0x12 0xFF).1 0x12) := by
    show Host.Outcome.next (s.askTest (.runTest p 0xFF 0) 0x12 0xFF .thm 0 (fun t => decide (t = 0xFF) || decide (t.toNat < 2))) = _
    rw [askTest_of_serves h (by decide) _ _ _ (by decide)]
  have hdeferred : ∀ test, test = 0x10 ∨ test = 0x12 → busy → s.thm.deferred.contains (test, 0xFF) = false → n < 16 →
      ((s.requestTest test 0xFF).2.testReply p (s.requestTest test 0xFF).1 test).thm.deferred = s.thm.deferred ++ [(test, 0xFF)] ∧
        ((s.requestTest test 0xFF).2.testReply p (s.requestTest test 0xFF).1 test).out =
          s.out ++ [.mailbox p 0xC080 0 ([1, byteOf test] ++ leBytes 2 (n + 1))] := by
    intro test ht hm hin hroom
    obtain ⟨hone, hdef, hout⟩ := requestTest_deferred hm hin hroom ht
    rw [hone]
    generalize s.requestTest test 0xFF = r at hdef hout
    refine ⟨hdef, ?_⟩
    show r.2.out ++ [.mailbox p 0xC080 0 ([byteOf 1, byteOf test] ++ leBytes 2 r.2.thm.deferred.length)] = _
    rw [hout, hdef, List.length_append]
    rfl
  refine ⟨fun hidle => ?_, fun hidle => ?_, fun hb hin hroom => ⟨_, hkettle, hdeferred _ (.inl rfl) hb hin hroom⟩,
    fun hb hin hroom => ⟨_, hstack, hdeferred _ (.inr rfl) hb hin hroom⟩, fun hb hin hfull => ?_, fun hb hin hfull => ?_⟩
  · obtain ⟨hm, hs⟩ := hidle
    rw [hkettle, requestTest_idle hm hs]
    exact ⟨_, rfl, rfl, rfl, rfl⟩
  · obtain ⟨hm, hs⟩ := hidle
    rw [hstack, requestTest_idle hm hs]
    exact ⟨_, rfl, rfl, rfl, rfl⟩
  · rw [hkettle, requestTest_full hb hin hfull]
    rfl
  · rw [hstack, requestTest_full hb hin hfull]
    rfl

end Sys2Proof.Proofs
end

section
/-!
SUPPORT. The housekeeping round (17_thermal_and_round.md R477 to R484).
-/

namespace Sys2Proof.Machine

open Sys2Proof Sys2Proof.Safety Sys2Proof.Laws

theorem rollCal_roundView (s : State) : s.rollCal.roundView = s.roundView := by
  unfold State.rollCal
  dsimp only
  split <;> rfl

/-- What a round changes first: it is counted, its time is kept, and the controller and the map stacks are read. -/
def State.roundCounted (s : State) (ctl stack : List (Option (BitVec 16))) : State :=
  { s with thm := { s.thm with
    rounds := (s.thm.rounds + 1) % 2 ^ 24, roundAt := s.now
    sensors := takeList 1 stack 16 (takeList 0 ctl 64 s.keptSensors) } }

/-- A round that comes late is an overrun. -/
def State.roundLate (s : State) (late : Bool) : State :=
  if late then ({ s with thm := { s.thm with overruns := sat 8 (s.thm.overruns + 1) } }).raise .thm 3 else s

theorem roundLate_roundView (s : State) (late : Bool) : (s.roundLate late).roundView =
    { s.roundView with counts := (s.thm.rounds, s.thm.roundAt, if late then sat 8 (s.thm.overruns + 1) else s.thm.overruns, s.thm.trips) } := by
  cases late with
  | true => exact roundView_of_noted (noted_raise _ _ _)
  | false => rfl

theorem dieFault_roundView (s : State) (b ce source : Nat) : (s.dieFault b ce source).roundView = s.roundView := by
  unfold State.dieFault
  rw [roundView_of_noted (noted_raise _ _ _), roundView_of_noted (noted_report _ _ _ _)]
  rfl

theorem readMedia_roundView (s : State) (xs : List (Option (BitVec 16))) : (s.readMedia xs).roundView = s.roundView := by
  unfold State.readMedia
  refine roundView_ite rfl (roundView_foldl (fun t i => ?_) _ _)
  dsimp only
  refine roundView_ite rfl ?_
  cases xs.getD i none with
  | none => exact dieFault_roundView _ _ _ _
  | some w => rfl

theorem takeMeans_roundView (s : State) (supply kettle : Nat) :
    (s.takeMeans supply kettle).roundView = { s.roundView with means := (supply, kettle) } := rfl

theorem slaveMisses_roundView (s : State) (a : Nat) : (s.slaveMisses a).roundView = s.roundView := by
  unfold State.slaveMisses
  dsimp only
  exact roundView_ite ((roundView_of_noted (noted_trans (noted_raise _ _ _) (noted_record _ _ _ _ _ _))).trans rfl) rfl

theorem pollSlaves_roundView (s : State) (answers : List (Option (List Byte))) : (s.pollSlaves answers).roundView = s.roundView := by
  unfold State.pollSlaves
  refine roundView_ite rfl (roundView_foldl (fun t a => ?_) _ _)
  dsimp only
  refine roundView_ite rfl ?_
  cases answers.getD a none with
  | none => exact slaveMisses_roundView _ _
  | some p => rfl

theorem powerSlaves_roundView (s : State) : s.powerSlaves.roundView = s.roundView := by
  unfold State.powerSlaves
  dsimp only
  refine roundView_ite ?_ rfl
  split <;> rfl

/-- A round with no trip counted before it counts one at most. -/
theorem countTrip_roundView {s : State} (h : s.thm.trips = 0) (hit : Bool) :
    (s.countTrip hit).roundView = { s.roundView with counts :=
      (s.thm.rounds, s.thm.roundAt, s.thm.overruns, if hit then 1 else 0) } := by
  cases hit with
  | true =>
    have heq : s.countTrip true = { s with thm := { s.thm with trips := 1 } } := by simp [State.countTrip, h]
    rw [heq]
    rfl
  | false => rfl

/-- What a round does once it has been counted. -/
def State.roundJudged (s : State) (old : SMap Sensor) (media : List (Option (BitVec 16))) (supply kettle : Nat)
    (answers : List (Option (List Byte))) (mode : PState) : State :=
  let t := (s.readMedia media).takeMeans supply kettle
  let judged := t.thm.sensors.filter (fun e => decide (e.1 < 2048) || decide (mode ≠ .simmer))
  (((judged.foldl (fun (u : State) e => u.judgeSensor old t.thm.sensors false e.1) t).applyBands).pollSlaves answers).powerSlaves

theorem roundJudged_roundView (s : State) (old : SMap Sensor) (media : List (Option (BitVec 16))) (supply kettle : Nat)
    (answers : List (Option (List Byte))) (mode : PState) :
    (s.roundJudged old media supply kettle answers mode).roundView = { s.roundView with means := (supply, kettle) } := by
  unfold State.roundJudged
  dsimp only
  rw [powerSlaves_roundView, pollSlaves_roundView, applyBands_roundView, roundView_foldl (fun t e => judgeSensor_roundView _ _ _ _ _),
    takeMeans_roundView, readMedia_roundView]

/-- Whether a reading of a round counts toward a trip (R484). -/
def State.roundHit (s : State) (old : SMap Sensor) (media : List (Option (BitVec 16))) (supply kettle : Nat) (mode : PState) : Bool :=
  let t := (s.readMedia media).takeMeans supply kettle
  (t.thm.sensors.filter (fun e => decide (e.1 < 2048) || decide (mode ≠ .simmer))).any (fun e => counts old t.thm.sensors e.1 e.2)

/-- A round of a device that runs. -/
theorem housekeepingRound_eq {s : State} (h : s.pwrState = .starting ∨ s.pwrState = .boil ∨ s.pwrState = .simmer)
    (ctl stack media : List (Option (BitVec 16))) (supply kettle : BitVec 16) (answers : List (Option (List Byte))) (late : Bool) :
    ∃ hit old, exec (.housekeepingRound ctl stack media supply kettle answers late) s =
      .next ((((((s.reach (s.thm.roundAt + 10 * Config.ms)).rollCal.roundCounted ctl stack).roundLate late).roundJudged old media
        supply.toNat kettle.toNat answers s.pwrState)).countTrip hit) := by
  let t := (s.reach (s.thm.roundAt + 10 * Config.ms)).rollCal
  refine ⟨((t.roundCounted ctl stack).roundLate late).roundHit t.thm.sensors media supply.toNat kettle.toNat s.pwrState, t.thm.sensors, ?_⟩
  show execHousekeepingRound ctl stack media supply kettle answers late s = _
  unfold execHousekeepingRound
  rw [if_neg (by rcases h with h | h | h <;> simp [h])]
  rfl

end Sys2Proof.Machine

namespace Sys2Proof.Proofs

open Sys2Proof Sys2Proof.Machine Sys2Proof.Safety Sys2Proof.Laws

/-- R477, R484. -/
theorem roundsAreCounted : Sys2Proof.Claims.RoundsAreCounted := by
  intro s ctl stack media supply kettle answers late
  refine ⟨fun hrun htrips => ?_, fun h1 h2 h3 => ?_⟩
  · obtain ⟨hit, old, hexec⟩ := housekeepingRound_eq hrun ctl stack media supply kettle answers late
    obtain ⟨u, hu⟩ : ∃ u, u = (s.reach (s.thm.roundAt + 10 * Config.ms)).rollCal := ⟨_, rfl⟩
    have huv : u.roundView = (s.reach (s.thm.roundAt + 10 * Config.ms)).roundView := by rw [hu, rollCal_roundView]
    rw [← hu] at hexec
    obtain ⟨v, hv⟩ : ∃ v, v = (((u.roundCounted ctl stack).roundLate late).roundJudged old media supply.toNat kettle.toNat answers
      s.pwrState) := ⟨_, rfl⟩
    rw [← hv] at hexec
    have hvv : v.roundView = { s.roundView with
        now := max s.now (s.thm.roundAt + 10 * Config.ms), means := (supply.toNat, kettle.toNat)
        counts := ((s.thm.rounds + 1) % 2 ^ 24, max s.now (s.thm.roundAt + 10 * Config.ms),
          if late then sat 8 (s.thm.overruns + 1) else s.thm.overruns, s.thm.trips) } := by
      rw [hv, roundJudged_roundView, roundLate_roundView]
      simp only [State.roundView, RoundView.mk.injEq, Prod.mk.injEq] at huv
      obtain ⟨hnow, hpwr, hstk, hsiv, hports, ⟨hrounds, -, hover, htr⟩, ⟨ht, hg, hst, hres⟩, hdef, -⟩ := huv
      simp only [State.roundView, State.roundCounted, hnow, hpwr, hstk, hsiv, hports, hrounds, hover, htr, ht, hg, hst, hres, hdef]
      rfl
    have hvt : v.thm.trips = 0 := by
      have := congrArg (fun r => r.counts.2.2.2) hvv
      exact this.trans htrips
    have hfinal := countTrip_roundView hvt hit
    rw [hvv] at hfinal
    simp only [State.roundView, RoundView.mk.injEq, Prod.mk.injEq] at hfinal hvv
    obtain ⟨hnow, hpwr, hstk, hsiv, hports, ⟨hrounds, hat, hover, htr⟩, -, -, hsupply, hkettle⟩ := hfinal
    obtain ⟨-, -, -, -, -, ⟨hvrounds, hvat, hvover, -⟩, -⟩ := hvv
    refine ⟨_, hexec, hrounds.trans hvrounds, hnow, (hat.trans hvat).trans hnow.symm, hover.trans hvover, hsupply, hkettle, hpwr, ?_,
      hstk, hsiv, hports⟩
    rw [htr]
    split <;> decide
  · show execHousekeepingRound ctl stack media supply kettle answers late s = _
    rw [execHousekeepingRound, if_pos ⟨h1, h2, h3⟩]

/-- Settles O55. -/
theorem testsAndRounds : Obligations.TestsAndRounds := ⟨disruptiveTestsStartOrWait, roundsAreCounted⟩

end Sys2Proof.Proofs
end

section
/-!
SUPPORT. Authorised commands and the vault copies they wait for (12_protection.md R358, R369 to R371).
-/

namespace Sys2Proof.Machine

open Sys2Proof Sys2Proof.Safety Sys2Proof.Laws

/-! ### The authorisation block (R370) -/

theorem authorised_noSecret {s : State} {p : Path} {opcode : Nat} {payload blk : List Byte} {body : State → State}
    (hl : 32 ≤ blk.length) (hn : s.prot.secret = none) :
    s.authorised p opcode payload blk body = body { s with prot := { s.prot with nonce := none } } := by
  rw [State.authorised, State.authorise, if_neg (by omega), hn]

theorem authorised_short {s : State} {p : Path} {opcode : Nat} {payload blk : List Byte} {body : State → State}
    (hl : blk.length < 32) : s.authorised p opcode payload blk body = s.fail p opcode rcInvalid := by
  rw [State.authorised, State.authorise, if_pos hl]

/-- The third failed block starts a lockout of 10 s. -/
theorem authorised_thirdFailure {s : State} {p : Path} {opcode : Nat} {payload blk key : List Byte} {body : State → State}
    (hl : 32 ≤ blk.length) (hk : s.prot.secret = some key) (hlock : s.prot.lockedUntil = none)
    (hpass : s.blockPasses key opcode payload blk = false) (hfails : s.prot.authFails = 2) :
    s.authorised p opcode payload blk body = State.outcome { s with prot := { s.prot with
      nonce := none, authFails := 0, lockedUntil := some (s.now + 10 * Config.sec) } } p opcode 2 := by
  rw [State.authorised, State.authorise, if_neg (by omega), hk]
  simp only [hlock, hpass, hfails, Option.isSome_none, Bool.false_eq_true, if_false, if_true]

theorem ideSecurePath_withProt (s : State) (prot : Prot) (p : Path) :
    ({ s with prot := prot } : State).ideSecurePath p = s.ideSecurePath p := by
  cases p <;> rfl

/-! ### The queue of vault changes (R358) -/

/-- The first change queued starts at once. -/
theorem addJob_alone {s : State} (h : s.prot.jobs = []) (j : VaultJob) :
    s.addJob j = State.startJobs 1 { s with prot := { s.prot with jobs := [j] } } := by
  rw [State.addJob, h]
  simp only [List.isEmpty_nil, if_true, State.vaultJob, h, List.nil_append]

theorem startJobs_idle {s : State} (h : s.prot.jobs = []) : State.startJobs 1 s = s := by
  rw [State.startJobs, h]

/-- The only command under way is the one a change answers. -/
theorem answerJob_alone {s : State} {j : VaultJob} {p : Path} {at' : Nat} {args : List Nat} {rest : List Byte} (hp : j.path = some p)
    (hr : s.mbx.runs = [⟨p, j.opcode, at', false, args, rest⟩]) (k : Nat) :
    s.answerJob j k = State.reply { s with mbx := { s.mbx with runs := [] } } p j.opcode rcOk (leBytes 4 k) := by
  rw [State.answerJob, hp]
  simp [State.answerRun, hr, State.endRun]

/-- A written copy changes the regions and what is known of them alone. -/
theorem storeVault_eq (s : State) (latch : Nat) : ∃ nor seq a b new, s.storeVault latch = { s with
    nor := nor, prot := { s.prot with vaultSeq := seq, vaultA := a, vaultB := b, vaultNewB := new } } := by
  unfold State.storeVault
  split
  · exact ⟨_, _, s.prot.vaultA, _, _, rfl⟩
  · exact ⟨_, _, _, s.prot.vaultB, _, rfl⟩

theorem releaseLinks_eq (s : State) : ∃ ports, s.releaseLinks = { s with ports := ports } := by
  unfold State.releaseLinks
  refine List.foldlRecOn (motive := fun t : State => ∃ ports, t = { s with ports := ports }) (List.range 32) _ ⟨s.ports, rfl⟩
    (fun t ht n _ => ?_)
  obtain ⟨ports, rfl⟩ := ht
  exact ⟨_, rfl⟩

/-- The end of an alarm clears the latch and what it counted, and deasserts ALARM. -/
theorem clearLid_eq (s : State) (action requester : Nat) : ∃ ports rails, s.clearLid action requester = { s with
    prot := { s.prot with lid := false, cause := 0, counted := [], lastSlices := [] }, boot := { s.boot with blocked := false }
    ports := ports, rails := rails, out := s.out ++ [.pin "ALARM" false] } := by
  obtain ⟨ports, h⟩ := releaseLinks_eq ((State.record { s with
    prot := { s.prot with lid := false, cause := 0, counted := [], lastSlices := [] }
    boot := { s.boot with blocked := false } } 0x6003 action requester 0 0).emit (.pin "ALARM" false))
  exact ⟨ports, _, h⟩

/-- What a written copy leaves of a state once its change has left the queue: the regions and what is known of them alone differ. -/
def Durable (t u : State) : Prop := ∃ nor seq a b new, u = { t with
  nor := nor, prot := { t.prot with vaultSeq := seq, vaultA := a, vaultB := b, vaultNewB := new, jobs := [] } }

/-- The only change queued has its copy written: its work is done, it leaves the queue and it is followed up. -/
theorem vaultWritten_alone {s t : State} {j : VaultJob} (h : s.prot.jobs = [j]) (ht : s.doWork j.work = t) :
    ∃ u, Durable t u ∧ s.vaultWritten true = State.startJobs 1 (u.afterWork j) := by
  obtain ⟨nor, seq, a, b, new, hv⟩ := storeVault_eq t (s.latchFor j.work)
  refine ⟨_, ⟨nor, seq, a, b, new, rfl⟩, ?_⟩
  rw [State.vaultWritten, h]
  simp only [if_true, ht, hv, List.length_nil, Nat.zero_add]

/-- Such a change that answers its command ends it with outcome 0. -/
theorem vaultWritten_answers {s t : State} {j : VaultJob} {p : Path} {at' : Nat} {args : List Nat} {rest : List Byte}
    (h : s.prot.jobs = [j]) (ht : s.doWork j.work = t) (hp : j.path = some p)
    (hr : t.mbx.runs = [⟨p, j.opcode, at', false, args, rest⟩]) (ha : ∀ u : State, u.afterWork j = u.answerJob j 0) :
    ∃ u, Durable t u ∧
      s.vaultWritten true = State.reply { u with mbx := { u.mbx with runs := [] } } p j.opcode rcOk (leBytes 4 0) := by
  obtain ⟨u, hu, hv⟩ := vaultWritten_alone h ht
  have hjobs : u.prot.jobs = [] := by obtain ⟨nor, seq, a, b, new, rfl⟩ := hu; rfl
  have hruns : u.mbx.runs = [⟨p, j.opcode, at', false, args, rest⟩] := by obtain ⟨nor, seq, a, b, new, rfl⟩ := hu; exact hr
  refine ⟨u, hu, ?_⟩
  rw [hv, ha, answerJob_alone hp hruns]
  exact startJobs_idle (s := State.reply _ _ _ _ _) hjobs

theorem execVaultCopyWritten_vault (s : State) (ok : Bool) : execVaultCopyWritten 0 ok s = .next (s.vaultWritten ok) := rfl

/-- A command that starts and queues the only change: what is so from then on. -/
structure Queued (s t : State) (p : Path) (args : List Nat) (j : VaultJob) : Prop where
  jobs : t.prot.jobs = [j]
  runs : t.mbx.runs = [⟨p, j.opcode, s.now, false, args, []⟩]
  out : t.out = s.out
  slots : t.slots = s.slots
  prot : t.prot = { s.prot with jobs := [j] }

theorem queued_of_idle {s : State} (hj : s.prot.jobs = []) (hr : s.mbx.runs = []) (p : Path) (args : List Nat) (j : VaultJob) :
    ∃ t, (s.startRun p j.opcode args []).addJob j = State.startJobs 1 t ∧ Queued s t p args j := by
  refine ⟨_, addJob_alone (s := s.startRun p j.opcode args []) hj j, rfl, ?_, rfl, rfl, rfl⟩
  show s.mbx.runs ++ _ = _
  rw [hr]
  rfl

/-! ### Clear Alarm (R369) -/

/-- In lid down, with a vault to write to, Clear Alarm queues the change that clears the latch. -/
theorem clearAlarm_of_lid {s : State} {p : Path} {blk : List Byte} {action : Nat} (hserves : Serves s p ownerOnly)
    (hlen : 32 ≤ blk.length) (hnone : s.prot.secret = none) (ha : action < 2) (hlid : s.prot.lid = true)
    (husable : s.vaultUsable = true) (hjobs : s.prot.jobs = []) (hruns : s.mbx.runs = []) :
    ∃ t, s.clearAlarm p action blk = t ∧
      Queued { s with prot := { s.prot with nonce := none } } t p [action] ⟨.clear action, some p, 0xC020⟩ := by
  have husable' : ¬ (action = 0 ∧ ¬ ({ s with prot := { s.prot with nonce := none } } : State).vaultUsable = true) :=
    fun h => h.2 husable
  obtain ⟨t, ht, hq⟩ := queued_of_idle (s := { s with prot := { s.prot with nonce := none } }) hjobs hruns p [action]
    ⟨.clear action, some p, 0xC020⟩
  have hstart : State.startJobs 1 t = t := by rw [State.startJobs, hq.jobs]
  refine ⟨t, ?_, hq⟩
  rw [State.clearAlarm, State.command_of_serves hserves, authorised_noSecret hlen hnone, if_neg (by omega), if_neg (by simp [hlid]),
    if_neg husable', ht, hstart]

/-- Outside lid down there is no alarm to clear. -/
theorem clearAlarm_of_noLid {s : State} {p : Path} {blk : List Byte} {action : Nat} (hserves : Serves s p ownerOnly)
    (hlen : 32 ≤ blk.length) (hnone : s.prot.secret = none) (ha : action < 2) (hlid : s.prot.lid = false) :
    s.clearAlarm p action blk = answered { s with prot := { s.prot with nonce := none } } p 0xC020 0 (leBytes 4 1) := by
  rw [State.clearAlarm, State.command_of_serves hserves, authorised_noSecret hlen hnone, if_neg (by omega), if_pos (by simp [hlid])]
  rfl

/-- The copy of the only change, a Clear Alarm without reformat, ends the alarm and answers. -/
theorem vaultWritten_clear {s t : State} {p : Path} (hq : Queued s t p [0] ⟨.clear 0, some p, 0xC020⟩) (hlid : t.prot.lid = true) :
    ∃ u, t.vaultWritten true = u ∧ u.prot.lid = false ∧ u.prot.cause = 0 ∧ u.prot.counted = [] ∧ u.prot.lastSlices = [] ∧
      u.out = t.out ++ [.pin "ALARM" false, .mailbox p 0xC020 0 (leBytes 4 0)] := by
  obtain ⟨x, ⟨nor, seq, a, b, new, hx⟩, hv⟩ := vaultWritten_alone hq.jobs (t := t) (by simp [State.doWork])
  have hxlid : x.prot.lid = true := by rw [hx]; exact hlid
  have hxjobs : x.prot.jobs = [] := by rw [hx]
  have hxruns : x.mbx.runs = [⟨p, 0xC020, s.now, false, [0], []⟩] := by rw [hx]; exact hq.runs
  have hxout : x.out = t.out := by rw [hx]
  obtain ⟨ports, rails, hc⟩ := clearLid_eq x 0 (((some p).map pathNum).getD 0x20)
  have hend : x.afterWork ⟨.clear 0, some p, 0xC020⟩ =
      (x.clearLid 0 (((some p).map pathNum).getD 0x20)).answerJob ⟨.clear 0, some p, 0xC020⟩ 0 := by
    simp only [State.afterWork, hxlid, if_true, State.finishClear, Nat.zero_ne_one, if_false]
  rw [hend, hc, answerJob_alone rfl hxruns] at hv
  refine ⟨_, hv.trans (startJobs_idle (s := State.reply _ _ _ _ _) hxjobs), ?_⟩
  refine ⟨rfl, rfl, rfl, rfl, ?_⟩
  show (x.out ++ _) ++ _ = _
  rw [hxout, List.append_assoc]
  rfl

end Sys2Proof.Machine

namespace Sys2Proof.Proofs

open Sys2Proof Sys2Proof.Machine Sys2Proof.Safety Sys2Proof.Laws

/-- R370, R371. -/
theorem nonceAndLockout : Sys2Proof.Claims.NonceAndLockout := by
  intro p s
  refine ⟨fun h => ?_, fun n hn => ?_, fun at' ha => ?_⟩
  · refine ⟨leBytes 8 (Config.freeWord s.free).toNat ++ leBytes 8 (Config.freeWord (s.free + 1)).toNat, by simp, ?_⟩
    exact (exec_served (c := .getAuthNonce p) h rfl).trans rfl
  · show execNonceExpiry s = _
    rw [execNonceExpiry, hn]
    rfl
  · show execAuthLockoutEnd s = _
    rw [execAuthLockoutEnd, ha]
    rfl

/-- R370, R371. -/
theorem ownerSecretIsSet : Sys2Proof.Claims.OwnerSecretIsSet := by
  intro p s input hserves
  have hexec := exec_served (c := .setOwnerSecret p input) hserves rfl
  refine ⟨fun hlen => ?_, fun hlen hnone => ⟨fun hide => ?_, fun hide hjobs hruns => ?_⟩, fun hlen key hkey hlock hfail hfails => ?_⟩
  · exact hexec.trans (congrArg _ (authorised_short (by simp; omega)))
  · rw [authorised_noSecret (by simp; omega) hnone, ideSecurePath_withProt, hide] at hexec
    exact hexec
  · rw [authorised_noSecret (by simp; omega) hnone, ideSecurePath_withProt, hide] at hexec
    obtain ⟨t, ht, hq⟩ := queued_of_idle (s := { s with prot := { s.prot with nonce := none } }) hjobs hruns p []
      ⟨.secret (input.take 32), some p, 0xC014⟩
    have hstart : State.startJobs 1 t = t := by rw [State.startJobs, hq.jobs]
    refine ⟨t, hexec.trans (congrArg _ (ht.trans hstart)), by rw [hq.prot], by rw [hq.prot]; exact hnone, hq.out, ?_⟩
    obtain ⟨u, ⟨nor, seq, a, b, new, hu⟩, hv⟩ := vaultWritten_answers
      (t := { t with prot := { t.prot with secret := some (input.take 32) } }) hq.jobs rfl rfl hq.runs (fun _ => rfl)
    have hsecret : u.prot.secret = some (input.take 32) := by rw [hu]
    have hout : u.out = s.out := by rw [hu]; exact hq.out
    exact ⟨_, (execVaultCopyWritten_vault t true).trans (congrArg Host.Outcome.next hv), hsecret, congrArg (· ++ _) hout⟩
  · rw [authorised_thirdFailure (by simp; omega) hkey hlock hfail hfails] at hexec
    exact hexec

/-- R369. -/
theorem clearAlarmOutcomes : Sys2Proof.Claims.ClearAlarmOutcomes := by
  intro p s blk action hserves hlen hnone
  refine ⟨fun haction => ?_, fun hlid => ⟨?_, ?_⟩, fun hlid husable hjobs hruns => ?_⟩
  · have hexec := exec_served (c := .clearAlarmReformat p action blk) hserves rfl
    rw [authorised_noSecret hlen hnone, if_pos haction] at hexec
    exact hexec
  · exact congrArg Host.Outcome.next (clearAlarm_of_noLid hserves hlen hnone (action := 0) (by decide) hlid)
  · exact congrArg Host.Outcome.next (clearAlarm_of_noLid hserves hlen hnone (action := 1) (by decide) hlid)
  · obtain ⟨t, ht, hq⟩ := clearAlarm_of_lid hserves hlen hnone (action := 0) (by decide) hlid husable hjobs hruns
    obtain ⟨t', ht', hq'⟩ := clearAlarm_of_lid hserves hlen hnone (action := 1) (by decide) hlid husable hjobs hruns
    have hlid' : t.prot.lid = true := by rw [hq.prot]; exact hlid
    obtain ⟨u, hu, h1, h2, h3, h4, hout⟩ := vaultWritten_clear hq hlid'
    refine ⟨⟨t, congrArg _ ht, hlid', by rw [hq.prot], hq.out, u,
      (execVaultCopyWritten_vault t true).trans (congrArg Host.Outcome.next hu), h1, h2, h3, h4, ?_, ?_⟩,
      ⟨t', congrArg _ ht', by rw [hq'.prot]; exact hlid, by rw [hq'.prot], hq'.out, hq'.jobs⟩⟩
    · rw [hout]
      simp
    · rw [hout]
      simp

/-- Settles O32. -/
theorem authorisation : Obligations.Authorisation := ⟨nonceAndLockout, ownerSecretIsSet, clearAlarmOutcomes⟩

end Sys2Proof.Proofs
end

section
/-!
SUPPORT. Key slots: what a command lists, generates and erases (12_protection.md R358, R371, R372).
-/

namespace Sys2Proof.Machine

open Sys2Proof Sys2Proof.Safety Sys2Proof.Laws

/-! ### Rows of bytes -/

/-- A field of a message made of rows of one length stands in its row. -/
theorem field_flatten {w : Nat} {rows : List (List Byte)} (hw : ∀ x ∈ rows, x.length = w) {k i n : Nat} {x : List Byte}
    (hx : rows[k]? = some x) (h : i + n ≤ w) : field rows.flatten (w * k + i) n = field x i n := by
  induction rows generalizing k with
  | nil => simp at hx
  | cons y ys ih =>
    have hy : y.length = w := hw y (by simp)
    cases k with
    | zero =>
      obtain rfl : y = x := by simpa using hx
      rw [List.flatten_cons, Nat.mul_zero, Nat.zero_add, field_append_left (by omega)]
    | succ k =>
      rw [List.flatten_cons, field_append_right (by rw [hy, Nat.mul_succ]; omega),
        ← ih (fun z hz => hw z (List.mem_cons_of_mem _ hz)) hx]
      congr 1
      rw [hy, Nat.mul_succ]
      omega

/-- The word of a key slot in Get Key Info. -/
def keyWord (x : KeySlot) : List Byte := leBytes 4 (x.state + x.gen.toNat * 2 ^ 16)

theorem keyWord_fields {x : KeySlot} (h : x.state < 2 ^ 16) :
    field (keyWord x) 0 2 = x.state ∧ field (keyWord x) 2 2 = x.gen.toNat := by
  have hg : x.gen.toNat < 2 ^ 16 := x.gen.isLt
  have hlow : (byteOf (x.state + x.gen.toNat * 2 ^ 16)).toNat + 256 * (byteOf ((x.state + x.gen.toNat * 2 ^ 16) / 256)).toNat =
      x.state := by
    simp only [byteOf, BitVec.toNat_ofNat]
    omega
  have hhigh : (byteOf ((x.state + x.gen.toNat * 2 ^ 16) / 256 / 256)).toNat +
      256 * (byteOf ((x.state + x.gen.toNat * 2 ^ 16) / 256 / 256 / 256)).toNat = x.gen.toNat := by
    simp only [byteOf, BitVec.toNat_ofNat]
    omega
  exact ⟨hlow, hhigh⟩

/-! ### Key slots of the state -/

theorem slot_updSlot_self (s : State) (n : Nat) (f : KeySlot → KeySlot) : (s.updSlot n f).slot n = f (s.slot n) := by
  rw [State.slot_updSlot, if_pos rfl]

theorem slot_updSlot_ne (s : State) {n k : Nat} (h : k ≠ n) (f : KeySlot → KeySlot) : (s.updSlot n f).slot k = s.slot k := by
  rw [State.slot_updSlot, if_neg h]

theorem slot_of_slots {s t : State} (h : t.slots = s.slots) (k : Nat) : t.slot k = s.slot k := by
  rw [State.slot, State.slot, h]

/-! ### Erasure (R372) -/

/-- Frames that land move within the stockpot, with what names them. -/
theorem landingMove_eq (s : State) : ∃ stk rails siv, s.landingMove = { s with stk := stk, rails := rails, siv := siv } := by
  unfold State.landingMove
  simp only [State.setFrame]
  split
  · exact ⟨_, _, _, rfl⟩
  · exact ⟨s.stk, s.rails, s.siv, rfl⟩

theorem landAll_eq (n : Nat) (s : State) : ∃ stk rails siv, State.landAll n s = { s with stk := stk, rails := rails, siv := siv } := by
  induction n generalizing s with
  | zero => exact ⟨s.stk, s.rails, s.siv, rfl⟩
  | succ n ih =>
    obtain ⟨_, _, _, h⟩ := landingMove_eq s
    obtain ⟨_, _, _, h'⟩ := ih s.landingMove
    rw [h] at h'
    exact ⟨_, _, _, by rw [State.landAll, h, h']⟩

/-- No frame outside the metadata quota is RESIDENT under a slot. -/
def Evicted (n : Nat) (frames : SMap Frame) : Prop :=
  ∀ e ∈ frames, metaRegion.has e.1 = false → e.2.keyslot = n → e.2.state ≠ .resident

theorem mem_setFrame {s : State} {f : Nat} {x : Frame} {e : Nat × Frame} (h : e ∈ (s.setFrame f x).stk.frames) :
    e ∈ s.stk.frames ∨ e = (f, x) :=
  SMap.mem_upd (f := fun _ => x) h

/-- A landing frame is outside the metadata quota. -/
theorem meta_of_landing {f : Nat} (h : landingRegion.has f = true) : metaRegion.has f = false := by
  simp only [Region.has, Bool.and_eq_true, Bool.and_eq_false_iff, decide_eq_true_eq, decide_eq_false_iff_not] at h ⊢
  simp only [landingRegion, metaRegion] at h ⊢
  omega

theorem landingMove_evicted {s : State} {n : Nat} (h : Evicted n s.stk.frames) : Evicted n s.landingMove.stk.frames := by
  unfold State.landingMove
  split
  next f x g hf hg =>
    intro e he hmeta hslot
    have hland : landingRegion.has f = true := List.find?_some (p := fun e : Nat × Frame => landingRegion.has e.1) hf
    have hx := h (f, x) (List.mem_of_find?_eq_some hf) (meta_of_landing hland)
    rcases mem_setFrame he with he | rfl
    · rcases mem_setFrame he with he | rfl
      · exact h e he hmeta hslot
      · simp [Frame.free]
    · exact hx hslot
  next => exact h

theorem landAll_evicted {n : Nat} (k : Nat) {s : State} (h : Evicted n s.stk.frames) : Evicted n (State.landAll k s).stk.frames := by
  induction k generalizing s with
  | zero => exact h
  | succ k ih => exact ih (landingMove_evicted h)

/-- An erasure empties its slot; what it takes from the stockpot aside, the rest stands. -/
theorem eraseSlot_eq (s : State) (n : Nat) : ∃ stk rails siv, s.eraseSlot n = { s.updSlot n (fun k => { k with state := 0, keyId := 0 }) with
    stk := stk, rails := rails, siv := siv } := by
  obtain ⟨_, _, _, h⟩ := landAll_eq (s.used landingRegion) { s.updSlot n (fun k => { k with state := 0, keyId := 0 }) with
    stk := { (s.updSlot n (fun k => { k with state := 0, keyId := 0 })).stk with
      frames := ((s.updSlot n (fun k => { k with state := 0, keyId := 0 })).stk.frames.filter (fun e =>
        !((decide (e.2.keyslot = n) && !metaRegion.has e.1) && decide (e.2.state = .resident)))).map
        (fun e => (e.1, if (decide (e.2.keyslot = n) && !metaRegion.has e.1) then { e.2 with erased := true } else e.2)) } }
  exact ⟨_, _, _, h⟩

theorem eraseSlot_evicted (s : State) (n : Nat) : Evicted n (s.eraseSlot n).stk.frames := by
  refine landAll_evicted _ (fun e he hmeta hslot => ?_)
  obtain ⟨x, hx, rfl⟩ := List.mem_map.mp he
  have hkept := (List.mem_filter.mp hx).2
  have hmeta' : metaRegion.has x.1 = false := hmeta
  by_cases hs : x.2.keyslot = n
  · simp only [hs, hmeta', decide_true, Bool.not_false, Bool.and_true, Bool.true_and, Bool.not_eq_true', decide_eq_false_iff_not] at hkept
    simpa only [hs, hmeta', decide_true, Bool.not_false, Bool.and_true, if_true] using hkept
  · simp only [hs, decide_false, Bool.false_and, Bool.false_eq_true, if_false] at hslot

/-! ### The walks of the ladles (R243, R372) -/

/-- Beyond what is noted, `t` differs from `s` in the ladles alone. -/
def Walked (s t : State) : Prop := Noted { s with ladles := t.ladles } t

theorem walked_trans {s t u : State} (h : Walked s t) (h' : Walked t u) : Walked s u := by
  obtain ⟨tly, live, out, ev, reports, ht, hlive⟩ := h
  obtain ⟨tly', live', out', ev', reports', hu, hlive'⟩ := h'
  refine noted_trans (t := { t with ladles := u.ladles }) ⟨tly, live, out, ev, reports, ?_, hlive⟩ ⟨tly', live', out', ev', reports', hu, hlive'⟩
  rw [ht]

theorem ladleClear_walked (s : State) (p : Nat) : Walked s (s.ladleRange p 0 0) := by
  unfold State.ladleRange State.heldIrq
  simp only [if_true]
  split
  · obtain ⟨tly, live, out, ev, reports, h, hlive⟩ := noted_raise (s.updLadle p (fun l => l.clear)) (.ldl p) 3
    exact ⟨tly, live, out, ev, reports, by rw [h]; rfl, hlive⟩
  · exact noted_refl _

theorem startWalk_walked (s : State) (p : Nat) : Walked s (s.startInvalidation p 0 0) :=
  walked_trans (ladleClear_walked s p) (noted_refl _)

theorem ladles_ladleClear (s : State) (p : Nat) : (s.ladleRange p 0 0).ladles = (s.updLadle p (fun l => l.clear)).ladles := by
  unfold State.ladleRange State.heldIrq
  simp only [if_true]
  split
  · obtain ⟨tly, live, out, ev, reports, h, hlive⟩ := noted_raise (s.updLadle p (fun l => l.clear)) (.ldl p) 3
    rw [h]
  · rfl

/-- A ladle whose walk starts is busy, and every other one stays as busy as it was. -/
theorem invBusy_startWalk (s : State) (p q : Nat) :
    ((s.startInvalidation p 0 0).ladle q).invBusy = if q = p then true else (s.ladle q).invBusy := by
  have hclear : (s.ladleRange p 0 0).ladle q = if q = p then (s.ladle p).clear else s.ladle q := by
    rw [State.ladle, ladles_ladleClear]
    exact State.ladle_updLadle s p q _
  rw [State.startInvalidation, State.ladle_updLadle]
  split
  · rfl
  next h => rw [hclear, if_neg h]

theorem walkLadles_walked (s : State) : Walked s s.walkLadles :=
  List.foldlRecOn (motive := fun t => Walked s t) (List.range 8) _ (noted_refl _) fun t ht p _ => walked_trans ht (startWalk_walked t p)

theorem invBusy_foldl (ps : List Nat) (s : State) (q : Nat) (h : q ∈ ps ∨ (s.ladle q).invBusy = true) :
    ((ps.foldl (fun t p => t.startInvalidation p 0 0) s).ladle q).invBusy = true := by
  induction ps generalizing s with
  | nil => simpa using h
  | cons p ps ih =>
    refine ih _ ?_
    rw [invBusy_startWalk]
    split
    · exact .inr rfl
    next hq => exact h.imp_left fun hmem => (List.mem_cons.mp hmem).resolve_left hq

theorem invBusy_walkLadles (s : State) {q : Nat} (h : q < 8) : (s.walkLadles.ladle q).invBusy = true :=
  invBusy_foldl _ s q (.inl (List.mem_range.mpr h))

/-- A command that now waits for the walks is under way as before. -/
theorem armWalks_eq (s : State) (j : VaultJob) (slot : Nat) : ∃ runs : List MbxRun, runs.length = s.mbx.runs.length ∧
    s.armWalks j slot = { s with mbx := { s.mbx with runs := runs } } := by
  unfold State.armWalks
  split
  · exact ⟨_, List.length_map _, rfl⟩
  · exact ⟨s.mbx.runs, rfl, rfl⟩

/-! ### Every slot in use is erased (R372) -/

/-- What the erasure of every slot in use does to one slot. -/
theorem slot_eraseAll (ns : List Nat) (s : State) (k : Nat) :
    ((ns.foldl (fun t n => (t.eraseSlot n).pendSlot n true) s).slot k).state = if k ∈ ns then 0 else (s.slot k).state := by
  induction ns generalizing s with
  | nil => simp
  | cons n ns ih =>
    obtain ⟨_, _, _, h⟩ := eraseSlot_eq s n
    have hslots : (s.eraseSlot n).slot k = (s.updSlot n (fun k => { k with state := 0, keyId := 0 })).slot k :=
      slot_of_slots (by rw [h]) k
    rw [List.foldl_cons, ih]
    by_cases hk : k = n
    · subst hk
      simp only [List.mem_cons, true_or, if_true, State.pendSlot, slot_updSlot_self, hslots, ite_self]
    · simp only [List.mem_cons, hk, false_or, State.pendSlot, slot_updSlot_ne _ hk, hslots]

theorem eraseAll_eq (ns : List Nat) (s : State) : ∃ stk rails siv slots,
    ns.foldl (fun t n => (t.eraseSlot n).pendSlot n true) s = { s with stk := stk, rails := rails, siv := siv, slots := slots } := by
  induction ns generalizing s with
  | nil => exact ⟨s.stk, s.rails, s.siv, s.slots, rfl⟩
  | cons n ns ih =>
    obtain ⟨_, _, _, h⟩ := eraseSlot_eq s n
    obtain ⟨_, _, _, _, h'⟩ := ih ((s.eraseSlot n).pendSlot n true)
    rw [List.foldl_cons, h', h]
    exact ⟨_, _, _, _, rfl⟩

/-- A slot that is in use is listed. -/
theorem mem_usedSlots {s : State} {k : Nat} (h : (s.slot k).state = 1 ∨ (s.slot k).state = 2) : k ∈ s.usedSlots := by
  rw [State.slot, SMap.getD] at h
  cases hf : s.slots.find k with
  | none => simp [hf, KeySlot.empty] at h
  | some x =>
    rw [hf] at h
    exact List.mem_map.mpr ⟨(k, x), List.mem_filter.mpr ⟨SMap.mem_of_find hf, by simpa using h⟩, rfl⟩

theorem slot_eraseUsed (s : State) (k : Nat) :
    ((s.usedSlots.foldl (fun t n => (t.eraseSlot n).pendSlot n true) s).slot k).state ≠ 1 ∧
      ((s.usedSlots.foldl (fun t n => (t.eraseSlot n).pendSlot n true) s).slot k).state ≠ 2 := by
  rw [slot_eraseAll]
  split
  · decide
  next h => exact ⟨fun h1 => h (mem_usedSlots (.inl h1)), fun h2 => h (mem_usedSlots (.inr h2))⟩

/-! ### A new key (R371) -/

/-- A slot that is loaded has a new key and a generation one higher; nothing else of the slots changes. -/
theorem loadSlots_one (s : State) (n : Nat) : ∃ key, s.loadSlots [n] = State.updSlot { s with free := s.free + 1 } n (fun k =>
    { state := 1, gen := if k.gen = 0xFFFF then k.gen else k.gen + 1, keyId := key, pending := false }) := ⟨_, rfl⟩

theorem gen_next (g : BitVec 16) : (if g = 0xFFFF then g else g + 1).toNat = min 0xFFFF (g.toNat + 1) := by
  split
  next h => subst h; decide
  next h =>
    have : g.toNat ≠ 0xFFFF := fun h' => h (BitVec.eq_of_toNat_eq h')
    have := g.isLt
    have hadd : (g + 1).toNat = (g.toNat + 1) % 2 ^ 16 := BitVec.toNat_add g 1
    omega

end Sys2Proof.Machine

namespace Sys2Proof.Proofs

open Sys2Proof Sys2Proof.Machine Sys2Proof.Safety Sys2Proof.Laws

/-- R371. -/
theorem keyInfoLayout : Sys2Proof.Claims.KeyInfoLayout := by
  intro p s group hserves
  have hexec := exec_served (c := .getKeyInfo p group) hserves rfl
  refine ⟨fun hg hown => ?_, fun hbad => ?_⟩
  · rw [if_neg (by simp [hown]; omega)] at hexec
    refine ⟨_, hexec, ?_, fun k hk hstate => ?_⟩
    · simp [List.length_flatten, Function.comp_def]
    · have hrow : ((List.range 64).map (fun k => keyWord (s.slot (group.toNat * 64 + k))))[k]? =
          some (keyWord (s.slot (group.toNat * 64 + k))) := by simp [hk]
      have hrows : ∀ x ∈ (List.range 64).map (fun k => keyWord (s.slot (group.toNat * 64 + k))), x.length = 4 := by
        simp [keyWord]
      obtain ⟨hlow, hhigh⟩ := keyWord_fields hstate
      exact ⟨(field_flatten hrows hrow (i := 0) (n := 2) (by decide)).trans hlow,
        (field_flatten hrows hrow (i := 2) (n := 2) (by decide)).trans hhigh⟩
  · rw [if_pos (by simpa using hbad)] at hexec
    exact hexec

/-- A command on a slot of a path's own groups queues its change and starts it. -/
theorem slotCommand_queued {p : Path} {s : State} {opcode : Nat} {n : BitVec 16} {w : KeyWork} {args : List Nat} (h : Serves s p anyone)
    (hn : n.toNat < 1024) (hown : s.ownsGroup p (n.toNat / 64) = true) (hjobs : s.prot.jobs = []) (hruns : s.mbx.runs = []) :
    ∃ t, s.slotCommand p opcode n.toNat w args = State.startJobs 1 t ∧ Queued s t p args ⟨w, some p, opcode⟩ := by
  rw [State.slotCommand, State.command_of_serves h, if_neg (by simp [hown]; omega)]
  exact queued_of_idle hjobs hruns p args ⟨w, some p, opcode⟩

/-- A change whose slot is not in the state it needs ends with outcome 1. -/
theorem answerJob_refused {s t : State} {p : Path} {args : List Nat} {j : VaultJob} (h : Queued s t p args j) (hp : j.path = some p) :
    ∃ u, { t.answerJob j 1 with prot := { (t.answerJob j 1).prot with jobs := [] } } = u ∧
      u.out = s.out ++ [.mailbox p j.opcode 0 (leBytes 4 1)] ∧ u.slots = s.slots ∧ u.mbx.runs = [] := by
  rw [answerJob_alone hp h.runs]
  exact ⟨_, rfl, congrArg (· ++ _) h.out, h.slots, rfl⟩

/-- The vault cannot be written: the slot of a key that was generated stays EMPTY and the command answers 2. -/
theorem vaultFailed_generate {t : State} {p : Path} {at' n : Nat} {args : List Nat} (hjobs : t.prot.jobs = [⟨.generate n 0, some p, 0xC011⟩])
    (hruns : t.mbx.runs = [⟨p, 0xC011, at', false, args, []⟩]) :
    ∃ u, t.vaultWritten false = u ∧ u.slots = (t.pendSlot n false).slots ∧ .mailbox p 0xC011 0 (leBytes 4 2) ∈ u.out ∧
      u.mbx.runs = [] := by
  obtain ⟨x, hx⟩ : ∃ x, x = (t.spoilVault.record 0x6004 (if t.olderIsB then 1 else 0) 0 0 0).raise .key 6 := ⟨_, rfl⟩
  have hnoted : Noted t.spoilVault x := by rw [hx]; exact noted_trans (noted_record _ _ _ _ _ _) (noted_raise _ _ _)
  have hxslots : x.slots = t.slots := by obtain ⟨_, _, _, _, _, h, -⟩ := hnoted; rw [h]; rfl
  have hxruns : x.mbx.runs = [⟨p, 0xC011, at', false, args, []⟩] := by obtain ⟨_, _, _, _, _, h, -⟩ := hnoted; rw [h]; exact hruns
  have hv : t.vaultWritten false = State.startJobs 1 { (x.pendSlot n false).answerJob ⟨.generate n 0, some p, 0xC011⟩ 2 with
      prot := { ((x.pendSlot n false).answerJob ⟨.generate n 0, some p, 0xC011⟩ 2).prot with jobs := [] } } := by
    rw [State.vaultWritten, hjobs]
    simp only [Bool.false_eq_true, if_false, State.vaultFailed, ← hx, List.length_nil, Nat.zero_add]
  rw [answerJob_alone (s := x.pendSlot n false) (j := ⟨.generate n 0, some p, 0xC011⟩) rfl hxruns 2, startJobs_idle rfl] at hv
  have hpend : (x.pendSlot n false).slots = (t.pendSlot n false).slots := by
    rw [State.pendSlot, State.pendSlot, State.updSlot_slots, State.updSlot_slots, hxslots]
  exact ⟨_, hv, hpend, List.mem_append_right _ (List.mem_singleton.mpr rfl), rfl⟩

/-- R371, R358. -/
theorem generatedKeyLoadsWhenDurable : Sys2Proof.Claims.GeneratedKeyLoadsWhenDurable := by
  intro p s n hserves hn hown hjobs hruns
  obtain ⟨t, ht, hq⟩ := slotCommand_queued (opcode := 0xC011) (w := .generate n.toNat 0) (args := [n.toNat]) hserves hn hown hjobs hruns
  have hslot : ∀ k, t.slot k = s.slot k := slot_of_slots hq.slots
  refine ⟨fun hempty => ?_, fun hused => ?_⟩
  · have hstart : State.startJobs 1 t = t.pendSlot n.toNat true := by
      rw [State.startJobs, hq.jobs]
      simp only [hslot, hempty, ne_eq, not_true_eq_false, if_false]
    have hpend : ∀ k, k ≠ n.toNat → (t.pendSlot n.toNat true).slot k = s.slot k := fun k hk =>
      (slot_updSlot_ne t hk _).trans (hslot k)
    have hpendSelf : (t.pendSlot n.toNat true).slot n.toNat = { s.slot n.toNat with pending := true } := by
      rw [State.pendSlot, slot_updSlot_self, hslot]
    refine ⟨t.pendSlot n.toNat true, congrArg Host.Outcome.next (ht.trans hstart), hq.out, fun k => ?_, ?_, ?_⟩
    · by_cases hk : k = n.toNat
      · rw [hk, hpendSelf]
      · rw [hpend k hk]
    · obtain ⟨key, hwork⟩ := loadSlots_one (t.pendSlot n.toNat true) n.toNat
      obtain ⟨u, ⟨nor, seq, a, b, new, hu⟩, hv⟩ := vaultWritten_answers (s := t.pendSlot n.toNat true) hq.jobs hwork rfl hq.runs (fun _ => rfl)
      have huslot : ∀ k, u.slot k = (State.updSlot (t.pendSlot n.toNat true) n.toNat (fun k => ({
          state := 1, gen := if k.gen = 0xFFFF then k.gen else k.gen + 1, keyId := key, pending := false } : KeySlot))).slot k :=
        slot_of_slots (by rw [hu]; rfl)
      have huself := (huslot n.toNat).trans (slot_updSlot_self _ _ _)
      have hout : u.out = s.out := by rw [hu]; exact hq.out
      refine ⟨_, (execVaultCopyWritten_vault _ true).trans (congrArg Host.Outcome.next hv), ?_, ?_, fun k hk => ?_,
        congrArg (· ++ _) hout, rfl⟩
      · exact congrArg KeySlot.state huself
      · refine (congrArg (fun x => x.gen.toNat) huself).trans ?_
        rw [hpendSelf]
        exact gen_next _
      · exact (huslot k).trans ((slot_updSlot_ne _ hk _).trans (hpend k hk))
    · obtain ⟨u, hu, huslots, hout, hend⟩ := vaultFailed_generate (t := t.pendSlot n.toNat true) hq.jobs hq.runs
      have huslot := slot_of_slots huslots
      refine ⟨u, (execVaultCopyWritten_vault _ false).trans (congrArg Host.Outcome.next hu), ?_, fun k hk => ?_, hout, hend⟩
      · rw [huslot, State.pendSlot, slot_updSlot_self, hpendSelf]
        exact hempty
      · rw [huslot, State.pendSlot, slot_updSlot_ne _ hk]
        exact hpend k hk
  · have hstart : State.startJobs 1 t = { t.answerJob ⟨.generate n.toNat 0, some p, 0xC011⟩ 1 with
        prot := { (t.answerJob ⟨.generate n.toNat 0, some p, 0xC011⟩ 1).prot with jobs := [] } } := by
      rw [State.startJobs, hq.jobs]
      simp only [hslot, hused, ne_eq, not_false_eq_true, if_true, State.startJobs]
    obtain ⟨u, hu, hrest⟩ := answerJob_refused hq rfl
    exact ⟨u, congrArg Host.Outcome.next (ht.trans (hstart.trans hu)), hrest⟩

/-- R372. -/
theorem erasedKeyIsEmptyAtOnce : Sys2Proof.Claims.ErasedKeyIsEmptyAtOnce := by
  intro p s n hserves hn hown hjobs hruns
  obtain ⟨t, ht, hq⟩ := slotCommand_queued (opcode := 0xC012) (w := .erase n.toNat) (args := [n.toNat, 0]) hserves hn hown hjobs hruns
  have hslot : ∀ k, t.slot k = s.slot k := slot_of_slots hq.slots
  refine ⟨fun hused => ?_, fun hempty => ?_⟩
  · have hstart : State.startJobs 1 t =
        (((t.eraseSlot n.toNat).pendSlot n.toNat true).walkLadles).armWalks ⟨.erase n.toNat, some p, 0xC012⟩ n.toNat := by
      rw [State.startJobs, hq.jobs]
      simp only [hslot, hused, if_false]
    obtain ⟨stk, rails, siv, he⟩ := eraseSlot_eq t n.toNat
    obtain ⟨tly, live, out, ev, reports, hw, -⟩ := walkLadles_walked ((t.eraseSlot n.toNat).pendSlot n.toNat true)
    obtain ⟨runs, hlen, ha⟩ := armWalks_eq ((t.eraseSlot n.toNat).pendSlot n.toNat true).walkLadles ⟨.erase n.toNat, some p, 0xC012⟩ n.toNat
    obtain ⟨x, hx⟩ : ∃ x, x = ((t.eraseSlot n.toNat).pendSlot n.toNat true).walkLadles := ⟨_, rfl⟩
    rw [← hx] at ha hw hlen hstart
    have hxslots : x.slots = ((t.eraseSlot n.toNat).pendSlot n.toNat true).slots := by rw [hw]
    have hxstk : x.stk = (t.eraseSlot n.toNat).stk := by rw [hw]; rfl
    have hxruns : x.mbx.runs.length = 1 := by
      rw [hw]
      show (t.eraseSlot n.toNat).mbx.runs.length = 1
      rw [he]
      exact congrArg List.length hq.runs
    have hefirst : ∀ k, (t.eraseSlot n.toNat).slot k = (t.updSlot n.toNat (fun k => { k with state := 0, keyId := 0 })).slot k :=
      slot_of_slots (by rw [he])
    rw [ha] at hstart
    refine ⟨_, congrArg Host.Outcome.next (ht.trans hstart), ?_⟩
    have hfinal : ∀ k, State.slot { x with mbx := { x.mbx with runs := runs } } k = ((t.eraseSlot n.toNat).pendSlot n.toNat true).slot k :=
      slot_of_slots hxslots
    have hself : ((t.eraseSlot n.toNat).pendSlot n.toNat true).slot n.toNat =
        { s.slot n.toNat with state := 0, keyId := 0, pending := true } := by
      rw [State.pendSlot, slot_updSlot_self, hefirst, slot_updSlot_self, hslot]
    refine ⟨?_, ?_, fun k hk => ?_, ?_, fun q hqlt => ?_, hlen.trans hxruns⟩
    · rw [hfinal, hself]
    · rw [hfinal, hself]
    · rw [hfinal, State.pendSlot, slot_updSlot_ne _ hk, hefirst, slot_updSlot_ne _ hk, hslot]
    · show Evicted n.toNat x.stk.frames
      rw [hxstk]
      exact eraseSlot_evicted t n.toNat
    · show (x.ladle q).invBusy = true
      rw [hx]
      exact invBusy_walkLadles _ hqlt
  · have hstart : State.startJobs 1 t = { t.answerJob ⟨.erase n.toNat, some p, 0xC012⟩ 1 with
        prot := { (t.answerJob ⟨.erase n.toNat, some p, 0xC012⟩ 1).prot with jobs := [] } } := by
      rw [State.startJobs, hq.jobs]
      simp only [hslot, hempty, if_true, State.startJobs]
    obtain ⟨u, hu, hrest⟩ := answerJob_refused hq rfl
    exact ⟨u, congrArg Host.Outcome.next (ht.trans (hstart.trans hu)), hrest⟩

/-- A regeneration of every slot starts with the erasure of those in use. -/
theorem startJobs_regenerate {s t : State} {p : Path} {args : List Nat} {opcode : Nat} (hq : Queued s t p args ⟨.regenerate, some p, opcode⟩) :
    ∃ u, State.startJobs 1 t = u ∧ (∀ n, (u.slot n).state ≠ 1 ∧ (u.slot n).state ≠ 2) ∧ u.out = s.out ∧
      u.prot.jobs = [⟨.regenerate, some p, opcode⟩] ∧ u.mbx.runs = [⟨p, opcode, s.now, false, args, []⟩] := by
  have hstart : State.startJobs 1 t = t.usedSlots.foldl (fun t n => (t.eraseSlot n).pendSlot n true) t := by
    rw [State.startJobs, hq.jobs]
  obtain ⟨_, _, _, _, h⟩ := eraseAll_eq t.usedSlots t
  refine ⟨_, hstart, slot_eraseUsed t, ?_, ?_, ?_⟩
  · rw [h]
    exact hq.out
  · rw [h]
    exact hq.jobs
  · rw [h]
    exact hq.runs

/-- R372. -/
theorem eraseAllEmptiesEverySlot : Sys2Proof.Claims.EraseAllEmptiesEverySlot := by
  intro p s hserves hjobs hruns
  constructor
  · obtain ⟨t, ht, hq⟩ := queued_of_idle hjobs hruns p [0, 0] ⟨.regenerate, some p, 0x4401⟩
    obtain ⟨u, hu, hslots, hout, hujobs, -⟩ := startJobs_regenerate hq
    exact ⟨u, (exec_served (c := .secureErase p) hserves rfl).trans (congrArg Host.Outcome.next (ht.trans hu)), hslots, hout, hujobs⟩
  · obtain ⟨t, ht, hq⟩ := queued_of_idle hjobs hruns p [0, 0] ⟨.regenerate, some p, 0x4400⟩
    obtain ⟨u, hu, hslots, hout, hujobs, huruns⟩ := startJobs_regenerate hq
    have hexec := exec_served (c := .sanitize p) hserves rfl
    rw [ht, hu] at hexec
    simp only [huruns, List.find?_cons_of_pos, decide_true, Bool.not_false, Bool.and_self] at hexec
    exact ⟨_, hexec, hslots, congrArg (· ++ _) hout, hujobs⟩

/-- Settles O31. -/
theorem keySlots : Obligations.KeySlots :=
  ⟨keyInfoLayout, generatedKeyLoadsWhenDurable, erasedKeyIsEmptyAtOnce, eraseAllEmptiesEverySlot⟩

end Sys2Proof.Proofs
end

section
/-!
SUPPORT. Poison commands and Scan Media (02_host_ports.md R64).
-/

namespace Sys2Proof.Machine

open Sys2Proof Sys2Proof.Safety Sys2Proof.Laws

theorem field_errorList (ls : List Nat) : field (errorList ls) 10 2 = ls.length % 2 ^ 16 := by
  simp [errorList, List.append_assoc]

/-- The poisoned lines of a range of one slice of four lines. -/
theorem poisonLines_one {s : State} {q x : Nat} (h : s.knownSlices q 1 = [x]) :
    ((((s.knownSlices q 1).map (fun x => ((List.range 4).filter (fun k => (s.poisonOf x).getLsbD k)).map (fun k => x * 4 + k))).flatten.filter
      (fun l => inSpan (4 * q) 4 l)).take 4095).length =
      ((List.range 4).filter (fun k => (s.poisonOf x).getLsbD k && inSpan (4 * q) 4 (x * 4 + k))).length := by
  have hlen : ∀ ls : List Nat, ls.length ≤ 4095 → (ls.take 4095).length = ls.length := fun ls hls => by
    rw [List.take_of_length_le hls]
  have hfilter : (((List.range 4).filter (fun k => (s.poisonOf x).getLsbD k)).map (fun k => x * 4 + k)).filter (fun l => inSpan (4 * q) 4 l) =
      ((List.range 4).filter (fun k => (s.poisonOf x).getLsbD k && inSpan (4 * q) 4 (x * 4 + k))).map (fun k => x * 4 + k) := by
    rw [List.filter_map, List.filter_filter]
    congr 1
    refine List.filter_congr fun k _ => ?_
    rw [Bool.and_comm]
    rfl
  rw [h, List.map_singleton, List.flatten_singleton, hfilter, hlen, List.length_map]
  rw [List.length_map]
  exact (List.length_filter_le _ _).trans (by simp)

/-- A request to the pass takes the next number; the rails and the reads in flight aside, nothing else changes. -/
theorem request_eq (s : State) (op : MOp) (a : Nat) (rq : Requester) (cls : DlClass) (pu : Purpose) : ∃ rails inflight,
    s.request op a rq cls pu = { s with
      pass := { s.pass with nextReq := s.pass.nextReq + 1 }, rails := rails, med := { s.med with inflight := inflight } } := by
  unfold State.request State.place_ State.addInflight
  dsimp only
  by_cases hop : op = .read
  · simp only [hop, true_and, if_true]
    split
    · exact ⟨_, s.med.inflight.upd 0 (pbOfAddr a) (· + 1), rfl⟩
    · exact ⟨_, s.med.inflight.upd 0 (pbOfAddr a) (· + 1), rfl⟩
  · simp only [hop, false_and, if_false]
    exact ⟨_, s.med.inflight, rfl⟩

theorem requests_eq {α : Type} (op : MOp) (a : α → Nat) (rq : Requester) (cls : DlClass) (pu : Purpose) (xs : List α) (s : State) :
    ∃ rails inflight, xs.foldl (fun u x => u.request op (a x) rq cls pu) s = { s with
      pass := { s.pass with nextReq := s.pass.nextReq + xs.length }, rails := rails, med := { s.med with inflight := inflight } } := by
  induction xs generalizing s with
  | nil => exact ⟨s.rails, s.med.inflight, rfl⟩
  | cons x xs ih =>
    obtain ⟨_, _, h⟩ := request_eq s op (a x) rq cls pu
    obtain ⟨rails, inflight, h'⟩ := ih (s.request op (a x) rq cls pu)
    refine ⟨rails, inflight, ?_⟩
    rw [List.foldl_cons, h', h, List.length_cons, Nat.add_comm xs.length 1, ← Nat.add_assoc]

/-- The ranges a path may operate on do not depend on the requests, the commands under way and what is sent. -/
theorem mayRange_scanned (s : State) (p : Path) (first n : Nat) (pass : Pass) (rails : Rails) (inflight : SMap Nat) (mbx : Mailbox)
    (out : List Output) : State.mayRange { s with
      pass := pass, rails := rails, med := { s.med with inflight := inflight }, mbx := mbx, out := out } p first n =
    s.mayRange p first n := by
  cases p <;> rfl

end Sys2Proof.Machine

namespace Sys2Proof.Proofs

open Sys2Proof Sys2Proof.Machine Sys2Proof.Safety Sys2Proof.Laws

/-- R64. -/
theorem poisonCommands : Sys2Proof.Claims.PoisonCommands := by
  intro p s dpa
  refine ⟨fun hserves halign hmay => ?_, fun hserves halign hcap data => ⟨fun t ht => ?_, fun hnone => ?_, fun t ht => ?_⟩,
    fun hserves data hbad => ⟨?_, ?_⟩⟩
  · have hn : (dpa.toNat / 64 + (4 : BitVec 64).toNat + 3) / 4 - dpa.toNat / 256 = 1 := by
      show (dpa.toNat / 64 + 4 + 3) / 4 - dpa.toNat / 256 = 1
      omega
    have hexec := exec_served (c := .getPoisonList p dpa 4) hserves rfl
    dsimp only at hexec
    rw [hn, if_pos ⟨by omega, hmay⟩] at hexec
    refine ⟨_, hexec, fun x hx => ?_⟩
    have hline : dpa.toNat / 64 = 4 * (dpa.toNat / 256) := by omega
    have hcount := poisonLines_one hx
    rw [field_errorList, hline]
    refine (congrArg (· % 2 ^ 16) hcount).trans (Nat.mod_eq_of_lt ?_)
    exact Nat.lt_of_le_of_lt (List.length_filter_le _ _) (by simp)
  · have hexec := exec_served (c := .clearPoison p dpa data) hserves rfl
    rw [if_neg (by omega), ht] at hexec
    exact hexec
  · have hexec := exec_served (c := .clearPoison p dpa data) hserves rfl
    rw [if_neg (by omega), hnone] at hexec
    exact hexec
  · have hexec := exec_served (c := .injectPoison p dpa) hserves rfl
    have hdraw : s.draw.2.stewardWrite (dpa.toNat / 64) (Config.freeLine s.draw.1) true = some t := ht
    rw [if_neg (by omega)] at hexec
    dsimp only at hexec
    rw [hdraw] at hexec
    exact hexec
  · have hexec := exec_served (c := .clearPoison p dpa data) hserves rfl
    rw [if_pos hbad] at hexec
    exact hexec
  · have hexec := exec_served (c := .injectPoison p dpa) hserves rfl
    rw [if_pos hbad] at hexec
    exact hexec

/-- A scan of a range that is under way: the reads asked for, the command in the background. -/
theorem execScanMedia_starts {p : Path} {s : State} {dpa lines : BitVec 64} (hserves : Serves s p anyone) (hruns : s.mbx.runs = [])
    (hmay : s.mayRange p (dpa.toNat / 256) ((dpa.toNat / 64 + lines.toNat + 3) / 4 - dpa.toNat / 256) = true) : ∃ rails inflight,
    exec (.scanMedia p dpa lines) s = .next { s with
      pass := { s.pass with nextReq := s.pass.nextReq +
        (s.codewordsOf (dpa.toNat / 256) ((dpa.toNat / 64 + lines.toNat + 3) / 4 - dpa.toNat / 256)).length }
      rails := rails, med := { s.med with inflight := inflight }
      mbx := { s.mbx with scan := [], runs := [⟨p, 0x4304, s.now, true, [], []⟩] }
      out := s.out ++ [.background p 0x4304] } := by
  obtain ⟨rails, inflight, hreq⟩ := requests_eq .read id .taster .taster (.scanMedia (pathNum p))
    (s.codewordsOf (dpa.toNat / 256) ((dpa.toNat / 64 + lines.toNat + 3) / 4 - dpa.toNat / 256))
    { s with mbx := { s.mbx with scan := [] } }
  refine ⟨rails, inflight, ?_⟩
  have hexec := exec_served (c := .scanMedia p dpa lines) hserves rfl
  rw [if_neg (by simp [hmay]), if_neg (by simp [hruns])] at hexec
  dsimp only [id] at hreq hexec
  rw [hreq] at hexec
  simp only [State.startRun, hruns, List.nil_append, List.getLast?_singleton, State.toBackground, List.map_singleton, if_true] at hexec
  exact hexec

/-- R64. -/
theorem scanMediaCommands : Sys2Proof.Claims.ScanMediaCommands := by
  intro p s hserves
  refine ⟨fun dpa lines hmay => ⟨?_, fun hruns => ?_⟩, ?_⟩
  · have hexec := exec_served (c := .getScanMediaCapabilities p dpa lines) hserves rfl
    rw [if_pos hmay] at hexec
    exact ⟨fun k => freeOf k 4, hexec⟩
  · obtain ⟨rails, inflight, hexec⟩ := execScanMedia_starts hserves hruns hmay
    refine ⟨_, hexec, rfl, rfl, rfl, rfl, ?_⟩
    have hserves' : Serves { s with
        pass := { s.pass with nextReq := s.pass.nextReq +
          (s.codewordsOf (dpa.toNat / 256) ((dpa.toNat / 64 + lines.toNat + 3) / 4 - dpa.toNat / 256)).length }
        rails := rails, med := { s.med with inflight := inflight }
        mbx := { s.mbx with scan := [], runs := [⟨p, 0x4304, s.now, true, [], []⟩] }
        out := s.out ++ [.background p 0x4304] } p anyone := hserves
    refine (exec_served (c := .scanMedia p dpa lines) hserves' rfl).trans ?_
    dsimp only
    rw [if_neg (by rw [mayRange_scanned, hmay]; decide), if_pos (by simp)]
    rfl
  · have hexec := exec_served (c := .getScanMediaResults p) hserves rfl
    have hmine : s.mbx.scan = [] ∨ (∀ l, s.mayRange p l 1 = false) →
        (((s.mbx.scan.map (fun e => (List.range e.2).map (fun k => e.1 * 4 + k))).flatten.filter
          (fun l => s.mayRange p (l / 4) 1)).take 4095) = [] := by
      rintro (hscan | hmay)
      · rw [hscan]
        rfl
      · simp [hmay]
    refine ⟨_, hexec, fun hempty => ?_⟩
    rw [hmine hempty]
    exact ⟨by decide, by decide⟩

/-- Settles O30. -/
theorem poisonAndScan : Obligations.PoisonAndScan := ⟨poisonCommands, scanMediaCommands⟩

end Sys2Proof.Proofs
end

section
/-!
SUPPORT. Upkeep reports and retirements (07_upkeep.md R227 to R230, 14_faults_and_recovery.md R401).
-/

namespace Sys2Proof.Machine

open Sys2Proof Sys2Proof.Safety Sys2Proof.Laws

/-! ### What a retirement leaves (R227, R401) -/

theorem SMap.find_mapVal {α β : Type} (m : SMap α) (f : Nat → α → β) (k : Nat) : (m.mapVal f).find k = (m.find k).map (f k) := by
  induction m with
  | nil => rfl
  | cons e m ih =>
    simp only [SMap.mapVal, List.map_cons, SMap.find] at ih ⊢
    split
    next h => simp [h]
    next => exact ih

/-- Which burners a table shows retired. -/
def retiredBurners (m : SMap Burner) (b : Nat) : Bool := (m.getD b .fresh).retired

/-- Which dies a table shows retired. -/
def retiredOf (m : SMap Die) (k : Nat) : Bool := (m.getD k .absent).retired

@[simp] theorem retiredBurners_mapVal (m : SMap Burner) {f : Nat → Burner → Burner} (hf : ∀ k x, (f k x).retired = x.retired) :
    retiredBurners (m.mapVal f) = retiredBurners m := by
  funext b
  simp only [retiredBurners, SMap.getD, SMap.find_mapVal]
  cases m.find b with
  | none => rfl
  | some x => exact hf b x

@[simp] theorem retiredOf_mapVal (m : SMap Die) {f : Nat → Die → Die} (hf : ∀ k x, (f k x).retired = x.retired) :
    retiredOf (m.mapVal f) = retiredOf m := by
  funext k
  simp only [retiredOf, SMap.getD, SMap.find_mapVal]
  cases m.find k with
  | none => rfl
  | some x => exact hf k x

theorem retiredOf_upd (m : SMap Die) (k : Nat) {f : Die → Die} (hf : ∀ x, (f x).retired = x.retired) :
    retiredOf (m.upd .absent k f) = retiredOf m := by
  funext j
  simp only [retiredOf, SMap.getD_upd]
  split
  next h => rw [hf, h]
  next => rfl

/-- What says which units are out of service, and the commands that wait for a retirement to be durable. -/
def State.units (s : State) : W32 × Nat × W32 × List MbxRun × (Nat → Bool) × (Nat → Bool) :=
  (s.upk.retiredMask, s.upk.lastRetired, s.pass.maskBrn, s.mbx.runs, retiredBurners s.burners, retiredOf s.dies)

@[simp] theorem State.units_mk (pending now free out fuses regs ports loads nextLoad rails stk siv med dies burners upk pass ladles
    spr ctxs chans tly spk clk thm flt reports slots prot pwrState recovery hooks cmt mbx mec pwr nor boot stw) :
    (State.mk pending now free out fuses regs ports loads nextLoad rails stk siv med dies burners upk pass ladles spr ctxs chans tly
      spk clk thm flt reports slots prot pwrState recovery hooks cmt mbx mec pwr nor boot stw).units =
    (upk.retiredMask, upk.lastRetired, pass.maskBrn, mbx.runs, retiredBurners burners, retiredOf dies) := (rfl)

@[simp] theorem State.units_fold (t : State) :
    (t.upk.retiredMask, t.upk.lastRetired, t.pass.maskBrn, t.mbx.runs, retiredBurners t.burners, retiredOf t.dies) = t.units := (rfl)

@[simp] theorem units_ite (c : Prop) [Decidable c] (a b : State) : (if c then a else b).units = if c then a.units else b.units :=
  apply_ite _ _ _ _

@[simp] theorem units_foldl {α : Type} {f : State → α → State} (hf : ∀ t x, (f t x).units = t.units) (xs : List α) (s : State) :
    (xs.foldl f s).units = s.units := foldl_keeps State.units hf xs s

theorem units_of_noted {s t : State} (h : Noted s t) : t.units = s.units := by
  obtain ⟨_, _, _, _, _, rfl, _⟩ := h
  rfl

@[simp] theorem State.raise_units (s : State) (p : RPage) (i : Nat) : (s.raise p i).units = s.units := units_of_noted (noted_raise s p i)
@[simp] theorem State.record_units (s : State) (code p0 p1 p2 p3 : Nat) : (s.record code p0 p1 p2 p3).units = s.units := (rfl)
@[simp] theorem State.tally_units (s : State) (e : TEv) (k : Nat) : (s.tally e k).units = s.units := units_of_noted (noted_tally s e k)
@[simp] theorem State.updBlk_units (s : State) (x : Nat) (f : Block → Block) : (s.updBlk x f).units = s.units := (rfl)
@[simp] theorem State.updBlock4_units (s : State) (b ce k : Nat) (f : Block → Block) : (s.updBlock4 b ce k f).units = s.units :=
  units_foldl (fun t _ => State.updBlk_units t _ f) _ s
@[simp] theorem State.request_units (s : State) (op : MOp) (a : Nat) (rq : Requester) (cls : DlClass) (pu : Purpose) :
    (s.request op a rq cls pu).units = s.units := by
  obtain ⟨_, _, h⟩ := request_eq s op a rq cls pu
  rw [h]
  rfl
@[simp] theorem State.stage_units (s : State) (r : JRec) : (s.stage r).units = s.units := (rfl)
@[simp] theorem State.writeMark_units (s : State) : s.writeMark.units = s.units := by simp [State.writeMark]
@[simp] theorem State.cool_units (s : State) : s.cool.units = s.units := by simp [State.cool]
@[simp] theorem State.startCkpt_units (s : State) (early : Bool) : (s.startCkpt early).units = s.units := by simp [State.startCkpt]
@[simp] theorem State.withdraw_units (s : State) (S : Nat) : (s.withdraw S).units = s.units := by simp [State.withdraw]
@[simp] theorem State.rebuiltOne_units (s : State) (S : Nat) : (s.rebuiltOne S).units = s.units := by simp [State.rebuiltOne]
@[simp] theorem State.updStripe_units (s : State) (S : Nat) (f : Block → Block) : (s.updStripe S f).units = s.units := by
  simp [State.updStripe]
@[simp] theorem State.freeStripe_units (s : State) (S : Nat) : (s.freeStripe S).units = s.units := by
  simp [State.freeStripe, State.dropSlots]
@[simp] theorem State.freeEmptied_units (s : State) : s.freeEmptied.units = s.units := by simp [State.freeEmptied]
@[simp] theorem State.queueForced_units (s : State) (prec S : Nat) : (s.queueForced prec S).units = s.units := by simp [State.queueForced]
@[simp] theorem State.queueRebuild_units (s : State) (Ss : List Nat) : (s.queueRebuild Ss).units = s.units := by
  simp [State.queueRebuild]
@[simp] theorem State.judgeSpares_units (s : State) : s.judgeSpares.units = s.units := by simp [State.judgeSpares]
@[simp] theorem State.remapMember_units (s : State) (S b p0 : Nat) : (s.remapMember S b p0).units = s.units := by
  unfold State.remapMember
  split <;> simp
@[simp] theorem State.retireBlock_units (s : State) (b ce k : Nat) : (s.retireBlock b ce k).units = s.units := by
  simp [State.retireBlock, State.countBlock]
@[simp] theorem State.retireBlocks_units (s : State) (b ce : Nat) : (s.retireBlocks b ce).units = s.units := by simp [State.retireBlocks]
@[simp] theorem State.failRequest_units (s : State) (q : MReq) : (s.failRequest q).units = s.units := by
  unfold State.failRequest
  cases q.op <;> rfl
@[simp] theorem State.failRequests_units (s : State) (p : MReq → Bool) : (s.failRequests p).units = s.units := by
  simp [State.failRequests, Die.without]
@[simp] theorem State.noteRetire_units (s : State) (r : Report) (outcome : Nat) : (s.noteRetire r outcome).units = s.units := by
  simp [State.noteRetire]
@[simp] theorem State.judgeRebuilt_units (s : State) (b : Nat) : (s.judgeRebuilt b).units = s.units := by simp [State.judgeRebuilt]
@[simp] theorem State.emit_units (s : State) (o : Output) : (s.emit o).units = s.units := (rfl)

theorem updDie_units (s : State) (b ce : Nat) {f : Die → Die} (hf : ∀ x, (f x).retired = x.retired) :
    (s.updDie b ce f).units = s.units := by
  simp only [State.updDie, State.units_mk, retiredOf_upd _ _ hf, State.units_fold]

@[simp] theorem State.settleDie_units (s : State) (b ce : Nat) : (s.settleDie b ce).units = s.units := by
  simp [State.settleDie, State.suspend, State.resume, State.frameTo, updDie_units]

theorem retiredBurners_upd (m : SMap Burner) (b : Nat) :
    retiredBurners (m.upd .fresh b (fun x => { x with retired := true })) = fun k => decide (k = b) || retiredBurners m k := by
  funext k
  simp only [retiredBurners, SMap.getD_upd]
  by_cases h : k = b
  · simp [h]
  · simp [h]

/-- The burner that is silenced is retired and masked; nothing else of the units changes. -/
theorem silence_units (s : State) (b : Nat) : (s.silence b).units = (s.upk.retiredMask, s.upk.lastRetired,
    s.pass.maskBrn ||| BitVec.ofNat 32 (2 ^ b), s.mbx.runs, fun k => decide (k = b) || retiredBurners s.burners k, retiredOf s.dies) := by
  obtain ⟨t, ht⟩ : ∃ t, t = (List.range 10).foldl (fun u ce => u.settleDie b ce) s := ⟨_, rfl⟩
  have hview : t.units = s.units := by
    rw [ht]
    exact units_foldl (fun u ce => State.settleDie_units u b ce) _ s
  simp only [State.units, Prod.mk.injEq] at hview
  obtain ⟨hmask, hlast, hbrn, hruns, hburners, hdies⟩ := hview
  rw [State.silence, ← ht, State.failRequests_units, State.maskLane, if_pos rfl, State.units_mk]
  simp only [State.updBurner, hmask, hlast, hbrn, hruns, hdies, retiredBurners_upd, hburners]

/-- The burner that retires is out, its bit set and its lane masked, and it is the last one retired; the commands that wait and the
dies stay as they were. -/
theorem retireBurner_units (s : State) (b : Nat) : (s.retireBurner b).units = (s.upk.retiredMask ||| BitVec.ofNat 32 (2 ^ b), b,
    s.pass.maskBrn ||| BitVec.ofNat 32 (2 ^ b), s.mbx.runs, fun k => decide (k = b) || retiredBurners s.burners k, retiredOf s.dies) := by
  have h := silence_units s b
  simp only [State.units, Prod.mk.injEq] at h
  obtain ⟨hmask, -, hbrn, hruns, hburners, hdies⟩ := h
  simp only [State.retireBurner, State.startCkpt_units, State.judgeRebuilt_units, State.freeEmptied_units, State.queueRebuild_units,
    State.markRetired, State.units_mk, hmask, hbrn, hruns, hburners, hdies]

/-- The die that retires is out; the commands that wait stay as they were. -/
theorem retireDie_units (s : State) (b ce : Nat) : (s.retireDie b ce).units = (s.upk.retiredMask, s.upk.lastRetired, s.pass.maskBrn,
    s.mbx.runs, retiredBurners s.burners, fun k => decide (k = b * 10 + ce) || retiredOf s.dies k) := by
  have hdie : retiredOf (s.dies.upd .absent (b * 10 + ce) (fun d => { d with retired := true, held := false, retryAt := none })) =
      fun k => decide (k = b * 10 + ce) || retiredOf s.dies k := by
    funext k
    simp only [retiredOf, SMap.getD_upd]
    by_cases h : k = b * 10 + ce
    · simp [h]
    · simp [h]
  simp only [State.retireDie, State.startCkpt_units, State.failRequests_units, State.retireBlocks_units, State.updDie, State.units_mk, hdie]

theorem failInPlace_units (s : State) (r : Report) : (s.failInPlace r).units = s.units := by
  simp only [State.failInPlace, State.noteRetire_units, State.failRequests_units, units_ite]
  split
  · exact (updDie_units _ _ _ (f := fun d => { d with failed := true, held := false, retryAt := none }) fun _ => rfl).trans rfl
  · rfl

/-- A die that is out stays out, and the commands that wait go on, when its burner is judged. -/
theorem decideBurner_keeps (s : State) (r : Report) (b : Nat) :
    (s.decideBurner r b).mbx.runs = s.mbx.runs ∧ retiredOf (s.decideBurner r b).dies = retiredOf s.dies := by
  have hview : ∀ {t : State}, (t.mbx.runs = t.units.2.2.2.1 ∧ retiredOf t.dies = t.units.2.2.2.2.2) := ⟨rfl, rfl⟩
  unfold State.decideBurner
  dsimp only
  split
  · exact ⟨rfl, rfl⟩
  · split
    · rw [hview.1, hview.2, failInPlace_units]
      exact ⟨rfl, rfl⟩
    · rw [hview.1, hview.2, State.noteRetire_units, retireBurner_units]
      exact ⟨rfl, rfl⟩

/-! ### Reports (R228, R229) -/

/-- The bits of a byte made of eight flags. -/
theorem byteOf_flags : ∀ b0 b1 b2 b3 b4 b5 b6 b7 : Bool,
    let x := byteOf (flag b0 0 + flag b1 1 + flag b2 2 + flag b3 3 + flag b4 4 + flag b5 5 + flag b6 6 + flag b7 7)
    x.getLsbD 0 = b0 ∧ x.getLsbD 2 = b2 ∧ x.getLsbD 3 = b3 ∧ x.getLsbD 4 = b4 ∧ x.getLsbD 6 = b6 ∧ x.getLsbD 7 = b7 := by
  decide

theorem floorOf_lt (n : Nat) : floorOf n < 2 ^ 32 := by
  unfold floorOf
  split <;> decide

theorem length_bitsSet (x : W32) : (bitsSet 32 x.toNat).length = ((List.range 32).filter (fun k => x.getLsbD k)).length := rfl

end Sys2Proof.Machine

namespace Sys2Proof.Proofs

open Sys2Proof Sys2Proof.Machine Sys2Proof.Safety Sys2Proof.Laws

/-- R228, R229. -/
theorem upkeepReports : Sys2Proof.Claims.UpkeepReports := by
  intro p s hserves
  constructor
  · refine ⟨_, exec_served (c := .upkeepStatus p) hserves rfl, by simp, fun hf => ?_, ?_, ?_, ?_, fun hw => ?_⟩
    · simpa [List.append_assoc] using hf
    · simpa [List.append_assoc] using floorOf_lt s.dieCount
    · exact byteOf_flags _ _ _ _ _ _ _ _
    · simpa [List.append_assoc] using s.upk.driftClk.isLt
    · simpa [List.append_assoc] using hw
  · refine ⟨_, exec_served (c := .rebuildStatus p) hserves rfl, by simp, fun h => ?_, ?_, fun h => ?_, fun h => ?_, fun h => ?_⟩
    · simpa [List.append_assoc] using h
    · have hcount : (bitsSet 32 s.upk.retiredMask.toNat).length < 256 :=
        Nat.lt_of_le_of_lt (List.length_filter_le _ _) (by simp)
      rw [← length_bitsSet]
      simpa [List.append_assoc] using hcount
    · simpa [List.append_assoc] using h
    · simpa [List.append_assoc] using h
    · simpa [List.append_assoc] using h

theorem getLsbD_withBit (m : W32) {b : Nat} (h : b < 32) : (m ||| BitVec.ofNat 32 (2 ^ b)).getLsbD b = true := by
  simp only [BitVec.getLsbD_or, BitVec.getLsbD_ofNat, h, decide_true, Bool.true_and, Nat.testBit_two_pow_self, Bool.or_true]

/-- RETIRE_BURNER goes ahead: the burner is out, and the command waits for the checkpoint. -/
theorem execRetireBurner_retires {p : Path} {s : State} {b : Byte} (hserves : Serves s p ownerOnly) (hb : b.toNat < 32)
    (hmask : s.upk.retiredMask.getLsbD b.toNat = false) (htwo : ¬ 2 ≤ (bitsSet 32 s.upk.retiredMask.toNat).length)
    (hidle : s.upk.rebuildState = 0) (hlost : s.tooManyLost (fun _ x => decide (x = b.toNat)) = false) :
    ∃ t, exec (.retireBurner p b) s = .next t ∧ (t.burner b.toNat).retired = true ∧ t.upk.retiredMask.getLsbD b.toNat = true ∧
      t.upk.lastRetired = b.toNat ∧ t.pass.maskBrn.getLsbD b.toNat = true ∧
      (⟨p, 0xC061, s.now, false, [s.siv.ckptNum + 1], []⟩ : MbxRun) ∈ t.mbx.runs := by
  have hexec := exec_served (c := .retireBurner p b) hserves rfl
  dsimp only at hexec
  rw [if_neg (by omega), if_neg (by simpa [bitOf] using hmask), if_neg htwo, if_neg (by simpa using hidle), if_neg (by simpa using hlost)]
    at hexec
  have hview := (State.noteRetire_units _ ⟨0, 2, b.toNat⟩ 1).trans (retireBurner_units (s.startRun p 0xC061 [s.siv.ckptNum + 1] []) b.toNat)
  obtain ⟨t, ht⟩ : ∃ t, t = ((s.startRun p 0xC061 [s.siv.ckptNum + 1] []).retireBurner b.toNat).noteRetire ⟨0, 2, b.toNat⟩ 1 := ⟨_, rfl⟩
  rw [← ht] at hexec hview
  simp only [State.units, Prod.mk.injEq] at hview
  obtain ⟨hm, hlast, hbrn, hruns, hburners, -⟩ := hview
  refine ⟨t, hexec, ?_, ?_, hlast, ?_, ?_⟩
  · have hout : retiredBurners t.burners b.toNat = true := by simp [hburners]
    exact hout
  · rw [hm]
    exact getLsbD_withBit _ hb
  · rw [hbrn]
    exact getLsbD_withBit _ hb
  · rw [hruns]
    exact List.mem_append_right _ (List.mem_singleton.mpr rfl)

/-- RETIRE_DIE goes ahead: the die is out, and the command waits for the checkpoint. -/
theorem execRetireDie_retires {p : Path} {s : State} {b ce : Byte} (hserves : Serves s p ownerOnly) (hb : b.toNat < 32)
    (hce : ce.toNat < s.dieCount) (hmask : s.upk.retiredMask.getLsbD b.toNat = false) (hretired : (s.die b.toNat ce.toNat).retired = false)
    (hfailed : (s.die b.toNat ce.toNat).failed = false)
    (hlost : s.tooManyLost (fun S x => decide (x = b.toNat) && decide (s.stripeCe S = ce.toNat)) = false) :
    ∃ t, exec (.retireDie p b ce) s = .next t ∧ (t.die b.toNat ce.toNat).retired = true ∧
      (⟨p, 0xC063, s.now, false, [s.siv.ckptNum + 1], []⟩ : MbxRun) ∈ t.mbx.runs := by
  have hexec := exec_served (c := .retireDie p b ce) hserves rfl
  dsimp only at hexec
  rw [if_neg (by omega), if_neg (by omega), if_neg (by simpa [bitOf] using hmask), if_neg (by simp [hretired, hfailed]),
    if_neg (by simpa using hlost)] at hexec
  obtain ⟨t, ht⟩ : ∃ t, t = ((s.startRun p 0xC063 [s.siv.ckptNum + 1] []).retireDie b.toNat ce.toNat).noteRetire
    ⟨0, 1, dieId b.toNat ce.toNat⟩ 1 := ⟨_, rfl⟩
  have hview := (State.noteRetire_units _ ⟨0, 1, dieId b.toNat ce.toNat⟩ 1).trans
    (retireDie_units (s.startRun p 0xC063 [s.siv.ckptNum + 1] []) b.toNat ce.toNat)
  rw [← ht] at hexec hview
  simp only [State.units, Prod.mk.injEq] at hview
  obtain ⟨-, -, -, hruns, -, hdies⟩ := hview
  have hdie : retiredOf t.dies (b.toNat * 10 + ce.toNat) = true := by simp [hdies]
  have hmem : (⟨p, 0xC063, s.now, false, [s.siv.ckptNum + 1], []⟩ : MbxRun) ∈ t.mbx.runs := by
    rw [hruns]
    exact List.mem_append_right _ (List.mem_singleton.mpr rfl)
  obtain ⟨hkruns, hkdies⟩ := decideBurner_keeps t ⟨0, 1, dieId b.toNat ce.toNat⟩ b.toNat
  split at hexec
  · refine ⟨_, hexec, ?_, hkruns ▸ hmem⟩
    rw [← hkdies] at hdie
    exact hdie
  · exact ⟨t, hexec, hdie, hmem⟩

/-- R229, R230, R401. -/
theorem unitsAreRetired : Sys2Proof.Claims.UnitsAreRetired := by
  intro p s hserves
  refine ⟨fun b hb => ⟨?_, fun ce => ?_⟩, fun b hb => ?_, fun b ce hb => ?_⟩
  · have hexec := exec_served (c := .retireBurner p b) hserves rfl
    rw [if_pos hb] at hexec
    exact hexec
  · have hexec := exec_served (c := .retireDie p b ce) hserves rfl
    rw [if_pos hb] at hexec
    exact hexec
  · dsimp only
    rw [← length_bitsSet]
    refine ⟨fun hmask => ?_, fun hmask => ⟨fun htwo => ?_, fun htwo hbusy => ?_, fun htwo hidle hlost => ?_, fun htwo hidle hlost => ?_⟩⟩
    · have hexec := exec_served (c := .retireBurner p b) hserves rfl
      dsimp only at hexec
      rw [if_neg (by omega), if_pos (by simpa [bitOf] using hmask)] at hexec
      exact hexec
    · have hexec := exec_served (c := .retireBurner p b) hserves rfl
      dsimp only at hexec
      rw [if_neg (by omega), if_neg (by simpa [bitOf] using hmask), if_pos htwo] at hexec
      exact hexec
    · have hexec := exec_served (c := .retireBurner p b) hserves rfl
      dsimp only at hexec
      rw [if_neg (by omega), if_neg (by simpa [bitOf] using hmask), if_neg htwo, if_pos hbusy] at hexec
      exact hexec
    · have hexec := exec_served (c := .retireBurner p b) hserves rfl
      dsimp only at hexec
      rw [if_neg (by omega), if_neg (by simpa [bitOf] using hmask), if_neg htwo, if_neg (by simpa using hidle), if_pos hlost] at hexec
      exact hexec
    · exact execRetireBurner_retires hserves hb hmask htwo hidle hlost
  · dsimp only
    refine ⟨fun hce => ?_, fun hce => ⟨fun hmask => ?_, fun hmask => ⟨fun hout => ?_, fun hretired hfailed =>
      ⟨fun hlost => ?_, fun hlost => ?_⟩⟩⟩⟩
    · have hexec := exec_served (c := .retireDie p b ce) hserves rfl
      dsimp only at hexec
      rw [if_neg (by omega), if_pos hce] at hexec
      exact hexec
    · have hexec := exec_served (c := .retireDie p b ce) hserves rfl
      dsimp only at hexec
      rw [if_neg (by omega), if_neg (by omega), if_pos (by simpa [bitOf] using hmask)] at hexec
      exact hexec
    · have hexec := exec_served (c := .retireDie p b ce) hserves rfl
      dsimp only at hexec
      rw [if_neg (by omega), if_neg (by omega), if_neg (by simpa [bitOf] using hmask), if_pos (by simpa using hout)] at hexec
      exact hexec
    · have hexec := exec_served (c := .retireDie p b ce) hserves rfl
      dsimp only at hexec
      rw [if_neg (by omega), if_neg (by omega), if_neg (by simpa [bitOf] using hmask), if_neg (by simp [hretired, hfailed]),
        if_pos hlost] at hexec
      exact hexec
    · exact execRetireDie_retires hserves hb hce hmask hretired hfailed hlost

/-- Settles O44. -/
theorem upkeepCommands : Obligations.UpkeepCommands := ⟨upkeepReports, unitsAreRetired⟩

end Sys2Proof.Proofs
end

section
/-!
SUPPORT. Global persistent flush phase 2 (02_host_ports.md R60) where the Ingress accept rail names a write that is no longer queued
(03_stockpot.md R89).
-/

namespace Sys2Proof.Proofs

open Sys2Proof Sys2Proof.Machine Sys2Proof.Safety

/-- Link 0 is up with nothing in its ingress queue, and its Ingress accept rail still names sequence number 0. -/
def deviceWithStaleAccept : State :=
  { State.reset with
    ports := { State.reset.ports with links := [(0, { Link.down with up := true })] }
    rails := { State.reset.rails with accept := [(0, Rail.empty.push 64 0 0)] } }

/-- How many sequence numbers wait on the Ingress accept rail of link 0. -/
def acceptsWaiting (s : State) : Nat := (s.rails.accept.getD 0 .empty).waiting.length

theorem acceptsWaiting_emit (s : State) (o : Output) : acceptsWaiting (s.emit o) = acceptsWaiting s := rfl

theorem acceptsWaiting_sent (s : State) (o : Output) : acceptsWaiting (sent s o) = acceptsWaiting s := rfl

theorem acceptsWaiting_before : acceptsWaiting deviceWithStaleAccept = 1 := by decide

/-- Phase 2 takes the stale sequence number off the rail. -/
theorem acceptsWaiting_after :
    acceptsWaiting ((List.range 32).foldl (fun t k => t.drainIngress k) deviceWithStaleAccept) = 0 := by decide +kernel

/-- No ingress queue of the device holds a write. -/
theorem iwq_deviceWithStaleAccept (k : Nat) : (deviceWithStaleAccept.link k).iwq = [] := by
  by_cases h : k = 0
  · subst h
    rfl
  · have hk : (deviceWithStaleAccept.link k) = .down := by
      simp [State.link, deviceWithStaleAccept, SMap.getD, SMap.find, Ne.symm h]
    rw [hk]
    rfl

/-- Refutes O36: `GpfPhasesAnswer` wants the state after phase 2 to be the state before it with the answer sent, where every ingress
queue is empty. But accepting every committed entry also takes what is left on the Ingress accept rails: a sequence number there that
names no queued write is passed over, and the rail has changed. -/
theorem not_persistentFlushAndDecoders : ¬ Obligations.PersistentFlushAndDecoders := by
  unfold Obligations.PersistentFlushAndDecoders Claims.GpfPhasesAnswer
  rintro ⟨phases, -⟩
  obtain ⟨-, hphase, -⟩ := phases deviceWithStaleAccept 0
  have h := hphase (by decide) (by decide) (fun k _ => iwq_deviceWithStaleAccept k)
  have hexec : execGpfPhase2 0 deviceWithStaleAccept =
      .next (((List.range 32).foldl (fun t k => t.drainIngress k) deviceWithStaleAccept).emit (.gpf 0 2)) := by
    rw [execGpfPhase2, if_neg (by decide), if_pos (by decide)]
    rfl
  have hcount := congrArg acceptsWaiting (Host.Outcome.next.inj (hexec.symm.trans h))
  rw [acceptsWaiting_emit, acceptsWaiting_sent, acceptsWaiting_after, acceptsWaiting_before] at hcount
  exact absurd hcount (by decide)

end Sys2Proof.Proofs
end

section
/-!
SUPPORT. Answers to the snoops of a tracker whose states have been given already (10_coherence.md R302, R308).
-/

namespace Sys2Proof.Proofs

open Sys2Proof Sys2Proof.Machine Sys2Proof.Safety

/-- An abandoned tracker for line 0 that was served from its copy before (R308), so that its answers' states have been given. -/
def servedTracker : Tracker := ⟨0, 0, .abandon, [], true, none⟩

/-- Its snoop of link 0, not answered yet. -/
def snoopOfLink0 : Snp := ⟨0, 0, 0, 0, 0, 0, some 0, 0, none, []⟩

/-- The entry of line 0, which link 0 holds. -/
def entryOfLine0 : DirE := ⟨0, .exclusive, false, [0], 0, 0⟩

/-- Link 0 is up and is asked for line 0 by the tracker that was served. -/
def deviceWithServedTracker : State :=
  { State.reset with
    ports := { State.reset.ports with links := [(0, { Link.down with up := true })] }
    spr := { State.reset.spr with trackers := [servedTracker], snoops := [snoopOfLink0], dir := [(0, entryOfLine0)] } }

/-- The answer closes the tracker and leaves the directory as it was. -/
theorem dir_snoopAnswer_served : (deviceWithServedTracker.snoopAnswer 0 0 0).spr.dir = [(0, entryOfLine0)] := by decide +kernel

/-- Refutes O38: `SnoopAnswers` wants the answer BIRspI to take the holder out of the directory for every abandoned tracker, but one that
was served from its copy (R308) has had its answers' states given then, and its close gives them no second time. -/
theorem not_coherenceCommands : ¬ Obligations.CoherenceCommands := by
  unfold Obligations.CoherenceCommands Claims.SnoopAnswers
  rintro ⟨answers, -⟩
  obtain ⟨-, closes⟩ := answers deviceWithServedTracker 0 0 ⟨by decide, by decide⟩
  obtain ⟨⟨t, ht, -, -, hdir, -⟩, -⟩ := closes servedTracker snoopOfLink0 0 entryOfLine0 rfl rfl rfl rfl rfl rfl rfl rfl rfl rfl rfl rfl rfl rfl
    rfl rfl
  have hexec : execBiRspI 0 0 deviceWithServedTracker = .next (deviceWithServedTracker.snoopAnswer 0 0 0) := by
    rw [execBiRspI]
    rfl
  have hstate := Host.Outcome.next.inj (hexec.symm.trans ht)
  rw [← hstate, dir_snoopAnswer_served] at hdir
  exact absurd hdir (by decide)

end Sys2Proof.Proofs
end

section
/-!
SUPPORT. Link Control retrain (02_host_ports.md R70) while a hook's release waits for a write of the link (09_ordering.md R286).
-/

namespace Sys2Proof.Proofs

open Sys2Proof Sys2Proof.Machine Sys2Proof.Safety

/-- A committed write of line 0 that waits in an ingress queue. -/
def queuedWrite : IwqEntry := ⟨1, 0, 0, fullMask, 0, .priv, false, true, 3, 0, true, 0, 0, false⟩

/-- A hook that link 0 releases: its release fence waits for the write. -/
def releasingHook : Hook := { Hook.fresh with state := 3, fence := some ⟨0, false, 0, some 0, 0, [0], [], 0, [], false, 0⟩ }

/-- Link 0 is up with the write queued, and the release of hook 0 waits for it. -/
def deviceWithRelease : State :=
  { State.reset with
    ports := { State.reset.ports with links := [(0, { Link.down with up := true, iwq := [queuedWrite] })] }
    rails := { State.reset.rails with accept := [(0, Rail.empty.push 64 1 0)] }
    hooks := [(0, releasingHook)] }

/-- The writes that the release fence of hook 0 waits for. -/
def releaseWaits (s : State) : Option (List Nat) := (s.hook 0).fence.map (fun f => f.waits)

theorem releaseWaits_linkReply (s : State) (p : Path) (n : Nat) : releaseWaits (s.linkReply p n) = releaseWaits s := rfl

theorem releaseWaits_of_hooks {s t : State} (h : t.hooks = s.hooks) : releaseWaits t = releaseWaits s := by
  rw [releaseWaits, State.hook, h]
  rfl

theorem releaseWaits_before : releaseWaits deviceWithRelease = some [0] := by decide

/-- The retrain accepts the write, which the release then waits for no more. -/
theorem releaseWaits_retrain : releaseWaits (deviceWithRelease.retrain 0) = some [] := by decide +kernel

/-- Refutes O37: `LinkControlActions` wants a retrain to leave every hook as it was, but it accepts the link's committed writes (R71
step 2), and the release of a hook that waits for one of them sees it accepted (R286). -/
theorem not_fabricOwnerRole : ¬ Obligations.FabricOwnerRole := by
  unfold Obligations.FabricOwnerRole Claims.LinkControlActions
  rintro ⟨-, actions, -⟩
  have hserves : Serves deviceWithRelease .mctp ownerOnly := ⟨by decide, by decide⟩
  obtain ⟨-, -, -, -, retrain⟩ := actions .mctp deviceWithRelease 0 hserves
  obtain ⟨t, ht, -, -, -, -, -, hhooks, -⟩ := retrain (by decide)
  have hexec := exec_served (c := .linkRetrain .mctp 0) hserves rfl
  have hwaits := releaseWaits_of_hooks hhooks
  rw [← Host.Outcome.next.inj (hexec.symm.trans ht), releaseWaits_linkReply, releaseWaits_before] at hwaits
  exact absurd (releaseWaits_retrain.symm.trans hwaits) (by decide)

end Sys2Proof.Proofs
end

section
/-!
SUPPORT. Discarded and released ranges (04_translation.md R144 to R146, 02_host_ports.md R58, R67).
-/

namespace Sys2Proof.Machine

open Sys2Proof Sys2Proof.Safety Sys2Proof.Laws

/-! ### What a discard leaves of the map and of the stockpot -/

/-- What a frame says of the slice it holds: the slice, whether a discard covers it and whether REDIRTY keeps it. -/
def Frame.claim (x : Frame) : Nat × Bool × Bool := (x.slice, x.discarded, x.redirty)

/-- What resolves a slice, and the extents of the links. -/
def State.resolved (s : State) : SMap LoafE × List (Nat × Nat × Bool × Bool) × (Nat → List Extent) :=
  (s.siv.loafs, s.stk.frames.map (fun e => (e.1, e.2.claim)), fun n => (s.ports.links.getD n .down).extents)

@[simp] theorem State.resolved_mk (pending now free out fuses regs ports loads nextLoad rails stk siv med dies burners upk pass ladles
    spr ctxs chans tly spk clk thm flt reports slots prot pwrState recovery hooks cmt mbx mec pwr nor boot stw) :
    (State.mk pending now free out fuses regs ports loads nextLoad rails stk siv med dies burners upk pass ladles spr ctxs chans tly
      spk clk thm flt reports slots prot pwrState recovery hooks cmt mbx mec pwr nor boot stw).resolved =
    (siv.loafs, stk.frames.map (fun e => (e.1, e.2.claim)), fun n => (ports.links.getD n .down).extents) := (rfl)

@[simp] theorem State.resolved_fold (t : State) :
    (t.siv.loafs, t.stk.frames.map (fun e => (e.1, e.2.claim)), fun n => (t.ports.links.getD n .down).extents) = t.resolved := (rfl)

@[simp] theorem resolved_ite (c : Prop) [Decidable c] (a b : State) :
    (if c then a else b).resolved = if c then a.resolved else b.resolved :=
  apply_ite _ _ _ _

@[simp] theorem resolved_foldl {α : Type} {f : State → α → State} (hf : ∀ t x, (f t x).resolved = t.resolved) (xs : List α) (s : State) :
    (xs.foldl f s).resolved = s.resolved := foldl_keeps State.resolved hf xs s

theorem resolved_of_noted {s t : State} (h : Noted s t) : t.resolved = s.resolved := by
  obtain ⟨_, _, _, _, _, rfl, _⟩ := h
  rfl

@[simp] theorem State.raise_resolved (s : State) (p : RPage) (i : Nat) : (s.raise p i).resolved = s.resolved :=
  resolved_of_noted (noted_raise s p i)
@[simp] theorem State.record_resolved (s : State) (code p0 p1 p2 p3 : Nat) : (s.record code p0 p1 p2 p3).resolved = s.resolved := (rfl)
@[simp] theorem State.emit_resolved (s : State) (o : Output) : (s.emit o).resolved = s.resolved := (rfl)
@[simp] theorem State.reply_resolved (s : State) (p : Path) (opcode rc : Nat) (payload : List Byte) :
    (s.reply p opcode rc payload).resolved = s.resolved := (rfl)
@[simp] theorem State.updBlk_resolved (s : State) (x : Nat) (f : Block → Block) : (s.updBlk x f).resolved = s.resolved := (rfl)
@[simp] theorem State.updBlock4_resolved (s : State) (b ce k : Nat) (f : Block → Block) :
    (s.updBlock4 b ce k f).resolved = s.resolved := resolved_foldl (fun t _ => State.updBlk_resolved t _ f) _ s
@[simp] theorem State.stage_resolved (s : State) (r : JRec) : (s.stage r).resolved = s.resolved := (rfl)
@[simp] theorem State.stageDiscard_resolved (s : State) (first n : Nat) : (s.stageDiscard first n).resolved = s.resolved := by
  simp [State.stageDiscard]
@[simp] theorem State.writeMark_resolved (s : State) : s.writeMark.resolved = s.resolved := by simp [State.writeMark]
@[simp] theorem State.withdraw_resolved (s : State) (S : Nat) : (s.withdraw S).resolved = s.resolved := by simp [State.withdraw]
@[simp] theorem State.rebuiltOne_resolved (s : State) (S : Nat) : (s.rebuiltOne S).resolved = s.resolved := by
  simp [State.rebuiltOne]
@[simp] theorem State.updStripe_resolved (s : State) (S : Nat) (f : Block → Block) : (s.updStripe S f).resolved = s.resolved := by
  simp [State.updStripe]
@[simp] theorem State.freeStripe_resolved (s : State) (S : Nat) : (s.freeStripe S).resolved = s.resolved := by
  simp [State.freeStripe, State.dropSlots]
@[simp] theorem State.freeEmptied_resolved (s : State) : s.freeEmptied.resolved = s.resolved := by simp [State.freeEmptied]

@[simp] theorem State.retireAddr_resolved (s : State) (a : Nat) : (s.retireAddr a).resolved = s.resolved := (rfl)
@[simp] theorem State.retireQuad_resolved (s : State) (q : Nat) : (s.retireQuad q).resolved = s.resolved := by simp [State.retireQuad]
@[simp] theorem State.retireEntry_resolved (s : State) (e : SliceE) : (s.retireEntry e).resolved = s.resolved := by
  simp [State.retireEntry]
@[simp] theorem State.retireLoaf_resolved (s : State) (l : Nat) : (s.retireLoaf l).resolved = s.resolved := by simp [State.retireLoaf]
@[simp] theorem State.freeBlock_resolved (s : State) (b : Nat) : (s.freeBlock b).resolved = s.resolved := (rfl)

/-- A change of a link that keeps its extents keeps the extents of all. -/
theorem setLink_resolved (s : State) (n : Nat) {f : Link → Link} (hf : ∀ l, (f l).extents = l.extents) :
    (s.setLink n f).resolved = s.resolved := by
  have hext : (fun k => ((s.setLink n f).ports.links.getD k .down).extents) = fun k => (s.ports.links.getD k .down).extents := by
    funext k
    show ((s.setLink n f).link k).extents = (s.link k).extents
    rw [State.link_setLink]
    split
    next h => rw [hf, h]
    next => rfl
  exact congrArg (fun x => (s.siv.loafs, s.stk.frames.map (fun e => (e.1, e.2.claim)), x)) hext

@[simp] theorem State.postEvent_resolved (s : State) (n log : Nat) (bytes : List Byte) : (s.postEvent n log bytes).resolved = s.resolved := by
  unfold State.postEvent
  dsimp only
  split
  · simp [setLink_resolved]
  · simp [setLink_resolved]

@[simp] theorem State.postCapacity_resolved (s : State) (n type : Nat) (e : Extent) : (s.postCapacity n type e).resolved = s.resolved := by
  simp [State.postCapacity, State.draw]

@[simp] theorem claims_mapVal (m : SMap Frame) {f : Nat → Frame → Frame} (hf : ∀ k x, (f k x).claim = x.claim) :
    (m.mapVal f).map (fun e => (e.1, e.2.claim)) = m.map (fun e => (e.1, e.2.claim)) := by
  simp [SMap.mapVal, hf]

@[simp] theorem State.judgeCapacity_resolved (s : State) : s.judgeCapacity.resolved = s.resolved := by
  unfold State.judgeCapacity
  split
  next => rfl
  next =>
    extract_lets f floor hyst mode upk alert t verified
    have ht : t.resolved = s.resolved := by simp [t, alert]
    clear_value verified t
    have hheld := claims_mapVal t.stk.frames (f := fun _ x => { x with held := false }) (fun _ _ => rfl)
    split
    · split
      · simp +zetaDelta [hheld, ht]
      · exact ht
    · simp [ht]

/-! ### The map's part (R144, R146) -/

theorem loaf_of_resolved {s t : State} (h : t.resolved = s.resolved) (l : Nat) : t.loaf l = s.loaf l := by
  have hloafs : t.siv.loafs = s.siv.loafs := congrArg Prod.fst h
  rw [State.loaf, State.loaf, hloafs]

theorem extents_of_resolved {s t : State} (h : t.resolved = s.resolved) (k : Nat) : (t.link k).extents = (s.link k).extents := by
  simp only [State.resolved, Prod.mk.injEq] at h
  obtain ⟨-, -, hext⟩ := h
  exact congrFun hext k

/-- A loaf that is discarded has FMT 0, and the others stay. -/
theorem loaf_discardLoaf (s : State) (l k : Nat) :
    (s.discardLoaf l).loaf k = if k = l then { s.loaf l with fmt := 0, loc := 0 } else s.loaf k := by
  obtain ⟨t, ht⟩ : ∃ t, t = if (s.loaf l).fmt = 2 then (s.retireLoaf l).freeBlock (s.loaf l).loc else s.retireLoaf l := ⟨_, rfl⟩
  have hk : t.loaf k = s.loaf k := loaf_of_resolved (by simp [ht]) k
  have hset : s.discardLoaf l = t.setLoaf l { s.loaf l with fmt := 0, loc := 0 } := by rw [ht]; rfl
  rw [hset, State.loaf_setLoaf, hk]

theorem discardLoaf_claims (s : State) (l : Nat) : (s.discardLoaf l).resolved.2 = s.resolved.2 := by
  obtain ⟨t, ht⟩ : ∃ t, t = if (s.loaf l).fmt = 2 then (s.retireLoaf l).freeBlock (s.loaf l).loc else s.retireLoaf l := ⟨_, rfl⟩
  have hres : t.resolved = s.resolved := by simp [ht]
  have hset : s.discardLoaf l = t.setLoaf l { s.loaf l with fmt := 0, loc := 0 } := by rw [ht]; rfl
  rw [hset]
  show t.resolved.2 = s.resolved.2
  rw [hres]

/-- The loaves of a list are discarded; one that had FMT 0 keeps it. -/
theorem loaf_discardLoaves {l : Nat} (es : List (Nat × LoafE)) : ∀ s : State, (s.loaf l).fmt = 0 ∨ l ∈ es.map (·.1) →
    ((es.foldl (fun u e => u.discardLoaf e.1) s).loaf l).fmt = 0 := by
  induction es with
  | nil => simp
  | cons e es ih =>
    intro s h
    refine ih (s.discardLoaf e.1) ?_
    rw [loaf_discardLoaf]
    by_cases hl : l = e.1
    · rw [if_pos hl]
      exact .inl rfl
    · rw [if_neg hl]
      simpa [hl] using h

/-- A loaf that the map does not list is unmapped. -/
theorem fmt_of_unlisted {s : State} {l : Nat} (h : ∀ e ∈ s.siv.loafs, e.1 ≠ l) : (s.loaf l).fmt = 0 := by
  cases hf : s.siv.loafs.find l with
  | none => simp [State.loaf, SMap.getD, hf, LoafE.unmapped]
  | some v => exact absurd rfl (h _ (SMap.mem_of_find hf))

/-- The loaves wholly within a discarded range have FMT 0; the frames and the extents are not touched. -/
theorem discardWhole_empties (s : State) (first n : Nat) : (s.discardWhole first n).resolved.2 = s.resolved.2 ∧
    ∀ l, inSpan (wholeLoaves first n).1 (wholeLoaves first n).2 l = true → ((s.discardWhole first n).loaf l).fmt = 0 := by
  obtain ⟨es, hes⟩ : ∃ es, es = s.siv.loafs.filter (fun e => inSpan (wholeLoaves first n).1 (wholeLoaves first n).2 e.1) := ⟨_, rfl⟩
  obtain ⟨t, ht⟩ : ∃ t, t = es.foldl (fun u e => u.discardLoaf e.1) s := ⟨_, rfl⟩
  have hres : (s.discardWhole first n).resolved = t.resolved := by
    rw [ht, hes]
    exact State.stageDiscard_resolved _ _ _
  have hclaims : t.resolved.2 = s.resolved.2 := by
    rw [ht]
    exact foldl_keeps (fun u : State => u.resolved.2) (fun u e => discardLoaf_claims u e.1) es s
  refine ⟨(congrArg Prod.snd hres).trans hclaims, fun l hl => ?_⟩
  rw [loaf_of_resolved hres, ht]
  refine loaf_discardLoaves es s ?_
  by_cases hmem : ∃ e ∈ s.siv.loafs, e.1 = l
  · obtain ⟨e, he, rfl⟩ := hmem
    rw [hes]
    exact .inr (List.mem_map.mpr ⟨e, List.mem_filter.mpr ⟨he, hl⟩, rfl⟩)
  · exact .inl (fmt_of_unlisted (fun e he hk => hmem ⟨e, he, hk⟩))

/-! ### A range of whole loaves from its ordering point (R144 to R146) -/

/-- No frame of a range is its slice's any more. -/
def Covered (first n : Nat) (frames : SMap Frame) : Prop :=
  ∀ e ∈ frames, inSpan first n e.2.slice = true → e.2.discarded = true ∧ e.2.redirty = false

/-- The loaves of a range have FMT 0, and its frames are discarded. -/
def Emptied (first n : Nat) (s : State) : Prop :=
  (∀ slice, inSpan first n slice = true → (s.loaf (slice / 256)).fmt = 0) ∧ Covered first n s.stk.frames

theorem SMap.set_default {α : Type} [DecidableEq α] (m : SMap α) (d : α) (k : Nat) : m.set d k d = m.del k := if_pos rfl

theorem SMap.mem_del {α : Type} {m : SMap α} {k : Nat} {e : Nat × α} (h : e ∈ m.del k) : e ∈ m := (List.mem_filter.mp h).1

theorem mem_setFrame_free {s : State} {f : Nat} {e : Nat × Frame} (h : e ∈ (s.setFrame f .free).stk.frames) : e ∈ s.stk.frames := by
  rw [State.setFrame, SMap.set_default] at h
  exact SMap.mem_del h

theorem landingMove_covered {s : State} {first n : Nat} (h : Covered first n s.stk.frames) : Covered first n s.landingMove.stk.frames := by
  unfold State.landingMove
  split
  next f x g hf hg =>
    intro e he hspan
    have hx : (f, x) ∈ s.stk.frames := List.mem_of_find?_eq_some hf
    rcases mem_setFrame he with he | rfl
    · exact h e (mem_setFrame_free he) hspan
    · exact h (f, x) hx hspan
  next => exact h

theorem landAll_covered {first n : Nat} (k : Nat) {s : State} (h : Covered first n s.stk.frames) :
    Covered first n (State.landAll k s).stk.frames := by
  induction k generalizing s with
  | zero => exact h
  | succ k ih => exact ih (landingMove_covered h)

/-- What a discard of the map starts from: the loaves, the journal's staging, the ports. -/
def State.mapSide (s : State) : SMap LoafE × List JRec × HostPorts := (s.siv.loafs, s.siv.staging, s.ports)

theorem landAll_mapSide (k : Nat) (s : State) : (State.landAll k s).mapSide = s.mapSide := by
  induction k generalizing s with
  | zero => rfl
  | succ k ih =>
    refine (ih s.landingMove).trans ?_
    unfold State.landingMove State.setFrame
    split
    · dsimp only [State.mapSide]
    · rfl

theorem discardFrames_mapSide (s : State) (first n : Nat) : (s.discardFrames first n).mapSide = s.mapSide := landAll_mapSide _ _

/-- The frames of a range without REDIRTY are freed or discarded. -/
theorem discardFrames_covered {s : State} {first n : Nat}
    (h : ∀ e ∈ s.stk.frames, inSpan first n e.2.slice = true → e.2.redirty = false) :
    Covered first n (s.discardFrames first n).stk.frames := by
  refine landAll_covered _ (fun e he hspan => ?_)
  obtain ⟨x, hx, rfl⟩ := List.mem_map.mp he
  have hmem : x ∈ s.stk.frames := (List.mem_filter.mp hx).1
  by_cases hs : inSpan first n x.2.slice = true
  · dsimp only
    rw [if_pos hs]
    exact ⟨rfl, h x hmem hs⟩
  · dsimp only at hspan
    rw [if_neg hs] at hspan
    exact absurd hspan hs

/-- The ladles' part leaves the map, the stockpot and the ports. -/
theorem discardLadles_keeps (s : State) (first n : Nat) :
    (s.discardLadles first n).mapSide = s.mapSide ∧ (s.discardLadles first n).stk = s.stk := by
  have hnoted : ∀ (before : Nat) (p : Nat) (t : State), Noted t (t.heldIrq before p) := fun before p t => by
    unfold State.heldIrq
    split
    · exact noted_raise t _ _
    · exact noted_refl t
  have hheld : ∀ (before p : Nat) (t : State), (t.heldIrq before p).mapSide = t.mapSide ∧ (t.heldIrq before p).stk = t.stk :=
    fun before p t => by
      obtain ⟨_, _, _, _, _, h, _⟩ := hnoted before p t
      rw [h]
      exact ⟨rfl, rfl⟩
  constructor
  · refine foldl_keeps State.mapSide (fun t p => ?_) _ s
    exact (hheld _ _ _).1
  · refine foldl_keeps State.stk (fun t p => ?_) _ s
    exact (hheld _ _ _).2

theorem covered_of_claims {s t : State} {first n : Nat} (h : t.resolved.2.1 = s.resolved.2.1) (hs : Covered first n s.stk.frames) :
    Covered first n t.stk.frames := by
  intro e he hspan
  have hclaim : (e.1, e.2.claim) ∈ s.stk.frames.map (fun e => (e.1, e.2.claim)) := by
    have hmem : (e.1, e.2.claim) ∈ t.resolved.2.1 := List.mem_map.mpr ⟨e, he, rfl⟩
    rw [h] at hmem
    exact hmem
  obtain ⟨x, hx, heq⟩ := List.mem_map.mp hclaim
  simp only [Frame.claim, Prod.mk.injEq] at heq
  obtain ⟨-, hslice, hdiscarded, hredirty⟩ := heq
  rw [← hdiscarded, ← hredirty]
  exact hs x hx (by rw [hslice]; exact hspan)

theorem emptied_of_resolved {s t : State} {first n : Nat} (h : t.resolved = s.resolved) (hs : Emptied first n s) : Emptied first n t := by
  obtain ⟨hfmt, hcov⟩ := hs
  refine ⟨fun slice hslice => ?_, covered_of_claims (by rw [h]) hcov⟩
  rw [loaf_of_resolved h]
  exact hfmt slice hslice

/-- What empties a range of whole loaves. -/
theorem discardRange_empties {s : State} {first n : Nat} (hfirst : first % 256 = 0) (hn : n % 256 = 0) (hpos : 0 < n)
    (hredirty : ∀ e ∈ s.stk.frames, inSpan first n e.2.slice = true → e.2.redirty = false) (hroom : s.stagingRoom 1 = true) :
    (s.discardRange first n).1 = [] ∧ Emptied first n (s.discardRange first n).2 ∧
      ∀ k, ((s.discardRange first n).2.link k).extents = (s.link k).extents := by
  obtain ⟨t, ht⟩ : ∃ t, t = (s.discardFrames first n).discardLadles first n := ⟨_, rfl⟩
  obtain ⟨hside, hstk⟩ := discardLadles_keeps (s.discardFrames first n) first n
  rw [← ht] at hside hstk
  have hsideS : t.mapSide = s.mapSide := hside.trans (discardFrames_mapSide s first n)
  simp only [State.mapSide, Prod.mk.injEq] at hsideS
  obtain ⟨hloafs, hstaging, hports⟩ := hsideS
  have hroomT : t.stagingRoom 1 = true := by rw [State.stagingRoom, hstaging]; exact hroom
  have hcov : Covered first n t.stk.frames := by rw [hstk]; exact discardFrames_covered hredirty
  have hwhole : wholeLoaves first n = (first / 256, n / 256) := by
    simp only [wholeLoaves, Prod.mk.injEq]
    omega
  have hruns : discardRuns first n = [(first, n)] := by
    have hw : n / 256 ≠ 0 := by omega
    have hfront : first / 256 * 256 = first := Nat.div_mul_cancel (Nat.dvd_of_mod_eq_zero hfirst)
    have hback : n / 256 * 256 = n := Nat.div_mul_cancel (Nat.dvd_of_mod_eq_zero hn)
    have hend : (first / 256 + n / 256) * 256 = first + n := by rw [Nat.add_mul, hfront, hback]
    simp [discardRuns, partRuns, hwhole, hw, hfront, hback, hend]
  have hrun : t.discardRun first n = some (t.discardWhole first n) := by
    rw [State.discardRun, if_pos ⟨hfirst, hn⟩, if_pos hroomT]
  have hparts : State.discardParts (discardRuns first n) t = ([], t.discardWhole first n) := by
    simp only [hruns, State.discardParts, hrun]
  have hrange : s.discardRange first n = ([], (t.discardWhole first n).freeEmptied.judgeCapacity) := by
    simp only [State.discardRange, ← ht, hparts, List.isEmpty_nil, if_true]
  have hres : (s.discardRange first n).2.resolved = (t.discardWhole first n).resolved := by rw [hrange]; simp
  obtain ⟨hclaims, hfmt⟩ := discardWhole_empties t first n
  have hkeep : (s.discardRange first n).2.resolved.2 = t.resolved.2 := by rw [hres, hclaims]
  refine ⟨by rw [hrange], ⟨fun slice hslice => ?_, covered_of_claims (congrArg Prod.fst hkeep) hcov⟩, fun k => ?_⟩
  · rw [loaf_of_resolved hres]
    refine hfmt _ ?_
    simp only [hwhole, inSpan, Bool.and_eq_true, decide_eq_true_eq] at hslice ⊢
    omega
  · have hext : ((s.discardRange first n).2.link k).extents = (t.link k).extents := congrFun (congrArg Prod.snd hkeep) k
    rw [hext, State.link, State.link, hports]

/-- Every slice of a range that is emptied resolves to zeros. -/
theorem zeros_of_emptied {s : State} {first n slice : Nat} (h : Emptied first n s) (hslice : inSpan first n slice = true) (line : Nat) :
    s.lookup slice line = .zeros ∧ s.resident slice = none := by
  obtain ⟨hfmt, hcov⟩ := h
  constructor
  · rw [State.lookup, hfmt slice hslice]
    exact ite_self _
  · have hnone : s.stk.frames.filter (fun e => decide (e.1 < 401408) && decide (e.2.slice = slice) &&
        (!e.2.discarded || e.2.redirty)) = [] := by
      refine List.filter_eq_nil_iff.mpr (fun e he hkeep => ?_)
      simp only [Bool.and_eq_true, decide_eq_true_eq, Bool.or_eq_true, Bool.not_eq_true'] at hkeep
      obtain ⟨⟨_, rfl⟩, hkeep⟩ := hkeep
      obtain ⟨hd, hr⟩ := hcov e he hslice
      rw [hd, hr] at hkeep
      simp at hkeep
    rw [State.resident, hnone]
    rfl

/-! ### A discard of a command (R67, R320) -/

theorem discardRanges_one (s : State) (r : Nat × Nat) : s.discardRanges [r] = s.discardRange r.1 r.2 := by
  simp [State.discardRanges]

/-- A discard of one range that waits for nothing is done at once, and the command goes on or answers. -/
theorem discardFor_resolved {s : State} {first n : Nat} (p : Path) (opcode bytes : Nat) (own : Option Nat)
    (hdir : ∀ e ∈ s.spr.dir, inSpan first n (e.2.line / 4) = false) (hflush : s.inFlush first n = false)
    (hwrites : s.writesWait own [(first, n)] = false) :
    (s.discardFor p opcode bytes [(first, n)] own).resolved = (s.discardRange first n).2.resolved := by
  have hnone : s.flushRanges [(first, n)] = s := by
    have hls : s.spr.dir.filter (fun e => [(first, n)].any (fun r => inSpan r.1 r.2 (e.2.line / 4))) = [] := by
      refine List.filter_eq_nil_iff.mpr (fun e he => ?_)
      simp [hdir e he]
    unfold State.flushRanges
    rw [hls]
    rfl
  have hwait : ([(first, n)].any (fun r => s.inFlush r.1 r.2) || s.writesWait own [(first, n)]) = false := by
    simp [hflush, hwrites]
  unfold State.discardFor
  simp only [hnone, hwait, discardRanges_one]
  generalize s.discardRange first n = y
  obtain ⟨runs, u⟩ := y
  dsimp only
  obtain ⟨t, ht⟩ : ∃ t, t = u.startRun p opcode (bytes :: runArgs runs) [] := ⟨_, rfl⟩
  have hres : t.resolved = u.resolved := by rw [ht]; rfl
  simp only [Bool.false_eq_true, if_false, ← ht]
  split
  next => exact hres
  next r _ => simp [State.toBackground, State.endRun, hres]

end Sys2Proof.Machine

namespace Sys2Proof.Proofs

open Sys2Proof Sys2Proof.Machine Sys2Proof.Safety Sys2Proof.Laws

theorem discardedLoavesReadZero : Claims.DiscardedLoavesReadZero := by
  unfold Claims.DiscardedLoavesReadZero
  intro p s dpa len hserves
  refine ⟨fun hdpa hlen hpos hmay hredirty hdir hflush hroom c hc => ?_, fun hbad => ?_⟩
  · have hslices : sliceRange dpa.toNat len.toNat = true := by
      simp only [sliceRange, Bool.and_eq_true, decide_eq_true_eq]
      omega
    have hrange : (sliceRange dpa.toNat len.toNat && s.mayRange p (dpa.toNat / 256) (len.toNat / 256)) = true := by
      rw [hslices, hmay]
      rfl
    obtain ⟨opcode, bytes, hexec⟩ : ∃ opcode bytes,
        exec c s = .next (s.discardFor p opcode bytes [(dpa.toNat / 256, len.toNat / 256)] none) := by
      rcases hc with rfl | rfl
      · have hexec := exec_served (c := .discardRange p dpa len) hserves rfl
        rw [if_pos hrange] at hexec
        exact ⟨_, _, hexec⟩
      · have hexec := exec_served (c := .mediaOperationsZero p [(dpa, len)]) hserves rfl
        rw [if_pos (by simpa using hrange)] at hexec
        exact ⟨_, _, hexec⟩
    have hres := discardFor_resolved p opcode bytes none hdir hflush rfl
    obtain ⟨-, hempty, -⟩ := discardRange_empties (s := s) (first := dpa.toNat / 256) (n := len.toNat / 256)
      (by omega) (by omega) (by omega) hredirty hroom
    exact ⟨_, hexec, fun slice line hslice => zeros_of_emptied (emptied_of_resolved hres hempty) hslice line⟩
  · have hslices : sliceRange dpa.toNat len.toNat = false := by
      simp only [sliceRange, Bool.and_eq_false_iff, decide_eq_false_iff_not]
      omega
    have hone := exec_served (c := .discardRange p dpa len) hserves rfl
    have htwo := exec_served (c := .mediaOperationsZero p [(dpa, len)]) hserves rfl
    rw [if_neg (by simp [hslices])] at hone htwo
    exact ⟨hone, htwo⟩

/-- An extent without its own range leaves nothing. -/
theorem withoutAll_whole (e : Extent) (h : 0 < e.len) : withoutAll [e] [(e.base, e.len)] = [] := by
  simp only [withoutAll, List.foldl_cons, List.foldl_nil, List.map_cons, List.map_nil, List.flatten_cons, List.flatten_nil,
    List.append_nil, Extent.without]
  rw [if_neg (by omega), if_neg (by omega), if_neg (by omega)]
  rfl

theorem releasedExtentsReadZero : Claims.ReleasedExtentsReadZero := by
  unfold Claims.ReleasedExtentsReadZero
  intro p s n e hext hpos hfit hredirty hdir hflush hroom hwrites c hc
  have hcov : e.covers (e.base, e.len) = true := by simp [Extent.covers]
  have hmay : [(e.base, e.len)].any (fun r => decide (r.2 = 0) || !(s.link n.val).extents.any (fun e => e.covers r)) = false := by
    simp [hext, hcov, Nat.ne_of_gt hpos]
  have hfits : fitsWithout (s.link n.val).extents [(e.base, e.len)] = true := by
    simp [fitsWithout, hext, withoutAll_whole e hpos]
  obtain ⟨t, ht⟩ : ∃ t, t = s.setLink n.val (fun l => { l with
      extents := withoutAll l.extents [(e.base, e.len)], releasing := withoutAll l.releasing [(e.base, e.len)] }) := ⟨_, rfl⟩
  obtain ⟨opcode, hexec⟩ : ∃ opcode, exec c s = .next (t.discardFor p opcode (unitBytes [(e.base, e.len)])
      [(e.base * 2 ^ 20, e.len * 2 ^ 20)] (some n.val)) := by
    rcases hc with ⟨rfl, hserves, hlink⟩ | ⟨rfl, hserves⟩
    · have hexec := exec_served (c := .releaseDynamicCapacity p [(e.base, e.len)]) hserves rfl
      dsimp only at hexec
      rw [hlink, if_neg (by simp [hmay]), if_neg (by simp [hfits]), ← ht] at hexec
      exact ⟨_, hexec⟩
    · have hexec := exec_served (c := .initiateDynamicCapacityRelease p n true [(e.base, e.len)]) hserves rfl
      dsimp only at hexec
      rw [if_neg (by simp [hmay]), if_neg (by simp [hfits]), if_pos rfl, ← ht] at hexec
      exact ⟨_, hexec⟩
  have hempties : (t.link n.val).extents = [] := by
    rw [ht, link_setLink_self, hext, withoutAll_whole e hpos]
  have hwritesT : t.writesWait (some n.val) [(e.base * 2 ^ 20, e.len * 2 ^ 20)] = false := by
    rw [← hwrites]
    simp only [State.writesWait, ht, link_setLink_self]
  have hres := discardFor_resolved p opcode (unitBytes [(e.base, e.len)]) (some n.val) (s := t) (by rw [ht]; exact hdir)
    (by rw [ht]; exact hflush) hwritesT
  obtain ⟨-, hempty, hexts⟩ := discardRange_empties (s := t) (first := e.base * 2 ^ 20) (n := e.len * 2 ^ 20)
    (by omega) (by omega) (by omega) (by rw [ht]; exact hredirty) (by rw [ht]; exact hroom)
  refine ⟨_, hexec, ?_, fun slice line hslice => zeros_of_emptied (emptied_of_resolved hres hempty) hslice line⟩
  rw [extents_of_resolved hres, hexts, hempties]

/-- Settles O29: a discard of whole loaves frees or marks the frames of the range and sets its loaves to FMT 0, and what ends or
goes on with the command changes neither; the release of an extent is the discard of its range. -/
theorem discards : Obligations.Discards := ⟨discardedLoavesReadZero, releasedExtentsReadZero⟩

end Sys2Proof.Proofs
end

section
/-!
SUPPORT. What taking a link down, stopping the whisks and emptying the queues leave as it was: the power state, the standby part, the
start's progress, the key slots, the lid latch and its secrets, PERST#, and of each link whether it is up, held and presenting memory.
-/

namespace Sys2Proof.Machine

open Sys2Proof Sys2Proof.Safety Sys2Proof.Laws

/-- What a link's own commands alone change: its state, what holds it, and its fences. -/
def linkKey (l : Link) : Bool × Bool × Bool × Bool × Bool × Bool × List Bar0Write × List Bar0Write :=
  (l.up, l.retraining, l.held, l.memActive, l.disabled, l.fences.isEmpty, l.holds, l.blocked)

@[simp] theorem linkKey_mk (up retraining held width rate flit256 memActive ideIo ideMem degraded disabled downCount downSince viral msix
    insecure nextSeq lastAck lastAckCopy credits stalled iwq unowned decoders selectors extents offered releasing events eventIrq
    lostEvents fences fenceSerial fenceLast holds blocked invMark owed) :
    linkKey (Link.mk up retraining held width rate flit256 memActive ideIo ideMem degraded disabled downCount downSince viral msix
      insecure nextSeq lastAck lastAckCopy credits stalled iwq unowned decoders selectors extents offered releasing events eventIrq
      lostEvents fences fenceSerial fenceLast holds blocked invMark owed) =
    (up, retraining, held, memActive, disabled, fences.isEmpty, holds, blocked) := (rfl)

@[simp] theorem linkKey_fold (l : Link) :
    (l.up, l.retraining, l.held, l.memActive, l.disabled, l.fences.isEmpty, l.holds, l.blocked) = linkKey l := (rfl)

/-- The keys of a table of links. -/
def linkKeys (m : SMap Link) (n : Nat) : Bool × Bool × Bool × Bool × Bool × Bool × List Bar0Write × List Bar0Write :=
  linkKey (m.getD n .down)

/-- The lid latch, the secret and the sessions of the protection block; its counts of alarms left out. -/
def Prot.latch (p : Prot) := (p.lid, p.cause, p.secret, p.doe, p.ideKeys)

@[simp] theorem Prot.latch_counts (p : Prot) (i o : Nat) : { p with integrity := i, other := o }.latch = p.latch := (rfl)

/-- What the operations below leave as it was. -/
def State.core (s : State) :=
  (s.pwrState, s.pwr, s.boot, s.slots, s.prot.latch, s.ports.perst, s.ports.simmerLink, linkKeys s.ports.links)

@[simp] theorem State.core_mk (pending now free out fuses regs ports loads nextLoad rails stk siv med dies burners upk pass ladles
    spr ctxs chans tly spk clk thm flt reports slots prot pwrState recovery hooks cmt mbx mec pwr nor boot stw) :
    (State.mk pending now free out fuses regs ports loads nextLoad rails stk siv med dies burners upk pass ladles spr ctxs chans tly
      spk clk thm flt reports slots prot pwrState recovery hooks cmt mbx mec pwr nor boot stw).core =
    (pwrState, pwr, boot, slots, prot.latch, ports.perst, ports.simmerLink, linkKeys ports.links) := (rfl)

@[simp] theorem State.core_fold (t : State) :
    (t.pwrState, t.pwr, t.boot, t.slots, t.prot.latch, t.ports.perst, t.ports.simmerLink, linkKeys t.ports.links) = t.core := (rfl)

@[simp] theorem core_ite (c : Prop) [Decidable c] (a b : State) :
    (if c then a else b).core = if c then a.core else b.core := apply_ite _ _ _ _

@[simp] theorem core_fst_ite {β : Type} (c : Prop) [Decidable c] (a b : State × β) :
    (if c then a else b).1.core = if c then a.1.core else b.1.core := apply_ite (fun x : State × β => x.1.core) _ _ _

@[simp] theorem core_snd_ite {β : Type} (c : Prop) [Decidable c] (a b : β × State) :
    (if c then a else b).2.core = if c then a.2.core else b.2.core := apply_ite (fun x : β × State => x.2.core) _ _ _

@[simp] theorem core_foldl {α : Type} {f : State → α → State} (hf : ∀ t x, (f t x).core = t.core) (xs : List α) (s : State) :
    (xs.foldl f s).core = s.core := foldl_keeps State.core hf xs s

theorem core_of_noted {s t : State} (h : Noted s t) : t.core = s.core := by
  obtain ⟨_, _, _, _, _, rfl, _⟩ := h
  rfl

/-- The state that an operation gives, if it gives one, has the core as it was. -/
def CoreOn (s : State) (o : Option State) : Prop := ∀ t, o = some t → t.core = s.core

@[simp] theorem coreOn_none (s : State) : CoreOn s none := by simp [CoreOn]
@[simp] theorem coreOn_some (s t : State) : CoreOn s (some t) ↔ t.core = s.core := by simp [CoreOn]

theorem CoreOn.core {s t : State} {o : Option State} (ho : CoreOn s o) (h : o = some t) : t.core = s.core := ho t h

/-- A change of a link that keeps its key keeps the keys of all. -/
@[simp] theorem linkKeys_upd (m : SMap Link) (n : Nat) {f : Link → Link} (hf : ∀ l, linkKey (f l) = linkKey l) :
    linkKeys (m.upd .down n f) = linkKeys m := by
  funext k
  simp only [linkKeys, SMap.getD_upd]
  split
  next h => rw [hf, h]
  next => rfl

@[simp] theorem State.setLink_core (s : State) (n : Nat) {f : Link → Link} (hf : ∀ l, linkKey (f l) = linkKey l) :
    (s.setLink n f).core = s.core := by
  simp only [State.setLink, State.core_mk, linkKeys_upd _ _ hf, State.core_fold]

@[simp] theorem State.emit_core (s : State) (o : Output) : (s.emit o).core = s.core := (rfl)
@[simp] theorem State.draw_core (s : State) : s.draw.2.core = s.core := (rfl)
@[simp] theorem State.setFrame_core (s : State) (f : Nat) (x : Frame) : (s.setFrame f x).core = s.core := (rfl)
@[simp] theorem State.updFrame_core (s : State) (f : Nat) (g : Frame → Frame) : (s.updFrame f g).core = s.core := (rfl)
@[simp] theorem State.setLoaf_core (s : State) (l : Nat) (e : LoafE) : (s.setLoaf l e).core = s.core := (rfl)
@[simp] theorem State.setSliceE_core (s : State) (b k : Nat) (e : SliceE) : (s.setSliceE b k e).core = s.core := (rfl)
@[simp] theorem State.addInflight_core (s : State) (a : Nat) : (s.addInflight a).core = s.core := (rfl)
@[simp] theorem State.dropInflight_core (s : State) (a : Nat) : (s.dropInflight a).core = s.core := (rfl)
@[simp] theorem State.updDie_core (s : State) (b ce : Nat) (f : Die → Die) : (s.updDie b ce f).core = s.core := (rfl)
@[simp] theorem State.updLadle_core (s : State) (p : Nat) (f : Ladle → Ladle) : (s.updLadle p f).core = s.core := (rfl)
@[simp] theorem State.record_core (s : State) (code p0 p1 p2 p3 : Nat) : (s.record code p0 p1 p2 p3).core = s.core := (rfl)
@[simp] theorem State.updCtx_core (s : State) (n : Nat) (f : Ctx → Ctx) : (s.updCtx n f).core = s.core := (rfl)
@[simp] theorem State.translate_core (s : State) (i : Nat) (q : TReq) (prio : Nat) :
    (s.translate i q prio).core = s.core := (rfl)

/-! ### Flags -/

@[simp] theorem State.setIrqStat_core (s : State) (p : RPage) (v : W32) : (s.setIrqStat p v).core = s.core := (rfl)
@[simp] theorem State.sendMsix_core (s : State) (p : RPage) : (s.sendMsix p).core = s.core := by simp [State.sendMsix]
@[simp] theorem State.raise_core (s : State) (p : RPage) (i : Nat) : (s.raise p i).core = s.core := by simp [State.raise]
@[simp] theorem State.bump_core (k fuel n : Nat) (s : State) : (s.bump k fuel n).core = s.core :=
  core_of_noted (noted_bump k fuel n s)
@[simp] theorem State.tally_core (s : State) (e : TEv) (k : Nat) : (s.tally e k).core = s.core := by simp [State.tally]
@[simp] theorem State.sample_core (s : State) (source : Nat) (e : TEv) (elapsed : Nat) :
    (s.sample source e elapsed).core = s.core := by simp [State.sample]

/-! ### Alarms -/

@[simp] theorem State.alarm_core (s : State) (kind : Nat) (a : Access) :
    (s.alarm kind a).core = s.core := by simp [State.alarm]

/-! ### Ladles -/

@[simp] theorem State.heldIrq_core (before : Nat) (p : Nat) (s : State) :
    (s.heldIrq before p).core = s.core := by simp [State.heldIrq]
@[simp] theorem State.ladleInvalidate_core (s : State) (p line : Nat) :
    (s.ladleInvalidate p line).core = s.core := by simp [State.ladleInvalidate]
@[simp] theorem State.ladleUpdate_core (s : State) (p line keyslot : Nat) (data : Line) (mask : Mask) (poison : Bool) :
    (s.ladleUpdate p line keyslot data mask poison).core = s.core := by simp [State.ladleUpdate]
@[simp] theorem State.openFill_core (s : State) (p line keyslot : Nat) :
    (s.openFill p line keyslot).1.core = s.core := by simp [State.openFill]
@[simp] theorem State.closeFill_core (s : State) (p i : Nat) (data : Option Line) :
    (s.closeFill p i data).core = s.core := by
  unfold State.closeFill
  dsimp only
  split <;> simp


/-! ### Map -/

@[simp] theorem State.stage_core (s : State) (r : JRec) : (s.stage r).core = s.core := (rfl)
@[simp] theorem State.retireAddr_core (s : State) (a : Nat) : (s.retireAddr a).core = s.core := (rfl)
@[simp] theorem State.retireEntry_core (s : State) (e : SliceE) :
    (s.retireEntry e).core = s.core := by simp [State.retireEntry]
@[simp] theorem State.queueDemotions_core (s : State) : s.queueDemotions.core = s.core := by simp [State.queueDemotions]
@[simp] theorem State.allocBlock_core (s : State) : s.allocBlock.2.core = s.core := by simp [State.allocBlock]
@[simp] theorem State.promote_core (s : State) (l : Nat) : (s.promote l).core = s.core := by simp [State.promote]
@[simp] theorem State.toSlices_coreOn (s : State) (l : Nat) : CoreOn s (s.toSlices l) := by
  unfold State.toSlices
  split_ifs <;> simp

@[simp] theorem State.poisonSlice_core (s : State) (slice : Nat) (mask : BitVec 4) :
    (s.poisonSlice slice mask).core = s.core := by simp [State.poisonSlice]

/-! ### Stockpot -/

@[simp] theorem State.postInvalidates_core (s : State) (port : Option Nat) (line : Nat) :
    (s.postInvalidates port line).core = s.core := by simp [State.postInvalidates]
@[simp] theorem State.invalidateOthers_core (s : State) (port : Option Nat) (line : Nat) :
    (s.invalidateOthers port line).core = s.core := by simp [State.invalidateOthers]
@[simp] theorem State.occIrq_core (before s : State) : (before.occIrq s).core = s.core := by simp [State.occIrq]
@[simp] theorem State.pantryWrite_coreOn (s : State) (w : WriteIn) : CoreOn s (s.pantryWrite w) := by
  unfold State.pantryWrite
  dsimp only
  split
  · simp
  · split
    · next h => simpa using (s.toSlices_coreOn _).core h
    · split <;> simp

@[simp] theorem State.acceptData_coreOn (s : State) (w : WriteIn) : CoreOn s (s.acceptData w) := by
  unfold State.acceptData
  dsimp only
  repeat' split
  all_goals simp

@[simp] theorem State.writeAlarm_core (s : State) (w : WriteIn) :
    (s.writeAlarm w).core = s.core := by simp [State.writeAlarm]
@[simp] theorem State.accept_coreOn (s : State) (w : WriteIn) : CoreOn s (s.accept w) := by
  unfold State.accept
  dsimp only
  split
  · simp
  · next t h =>
    have ht : t.core = s.core := by
      split at h
      · exact (s.pantryWrite_coreOn _).core h
      · exact (s.acceptData_coreOn _).core h
    cases (s.keyWrite w).port <;> simp [ht]

@[simp] theorem State.feedAccept_core (s : State) (n : Nat) : (s.feedAccept n).core = s.core := by simp [State.feedAccept]
@[simp] theorem State.freeEntry_core (s : State) (n : Nat) (q : BitVec 16) :
    (s.freeEntry n q).core = s.core := by simp [State.freeEntry]
@[simp] theorem State.acknowledge_core (s : State) (n : Nat) (q : BitVec 16) :
    (s.acknowledge n q).core = s.core := by simp [State.acknowledge]
@[simp] theorem State.noteAccepted_core (s : State) (n arr : Nat) :
    (s.noteAccepted n arr).core = s.core := by simp [State.noteAccepted]
@[simp] theorem State.countUnavail_core (s : State) (from_ : Nat) :
    (s.countUnavail from_).core = s.core := by simp [State.countUnavail]
@[simp] theorem State.account_core (s : State) : s.account.core = s.core := by
  unfold State.account
  split <;> simp

@[simp] theorem State.noteWait_core (s : State) (started : Nat) :
    (s.noteWait started).core = s.core := by simp [State.noteWait]

/-! ### Stripes -/

@[simp] theorem State.place_core (s : State) (q : MReq) : (s.place_ q).core = s.core := by simp [State.place_]
@[simp] theorem State.request_core (s : State) (op : MOp) (addr : Nat) (rq : Requester) (cls : DlClass) (pu : Purpose) :
    (s.request op addr rq cls pu).core = s.core := by simp [State.request]

/-! ### Pass -/

@[simp] theorem State.setMask_core (s : State) (r : Requester) (v : Bool) : (s.setMask r v).core = s.core := by
  unfold State.setMask
  split <;> simp

@[simp] theorem State.dropRequests_core (s : State) (gone : MReq → Bool) :
    (s.dropRequests gone).core = s.core := by simp [State.dropRequests]
@[simp] theorem State.bumpEpoch_core (s : State) (o : Nat) : (s.bumpEpoch o).core = s.core := (rfl)

/-! ### Dies -/

@[simp] theorem State.frameTo_core (s : State) (b ce opcode planes : Nat) (rest : List Nat) :
    (s.frameTo b ce opcode planes rest).core = s.core := (rfl)
@[simp] theorem State.suspend_core (s : State) (b ce : Nat) : (s.suspend b ce).core = s.core := by simp [State.suspend]
@[simp] theorem State.resume_core (s : State) (b ce : Nat) : (s.resume b ce).core = s.core := (rfl)

/-! ### Spice -/

@[simp] theorem State.updSpr_core (s : State) (f : Spice → Spice) : (s.updSpr f).core = s.core := (rfl)
@[simp] theorem State.updDir_core (s : State) (line : Nat) (f : DirE → Option DirE) : (s.updDir line f).core = s.core := by
  unfold State.updDir
  split <;> simp

@[simp] theorem State.removeHolder_core (s : State) (line g : Nat) :
    (s.removeHolder line g).core = s.core := by simp [State.removeHolder]
@[simp] theorem State.dirDrop_core (s : State) (line : Nat) : (s.dirDrop line).core = s.core := by simp [State.dirDrop]
@[simp] theorem State.dirPut_core (s : State) (line : Nat) (st : DState) (ptrs : List Nat) (bcast : Bool) (keyId : Nat) :
    (s.dirPut line st ptrs bcast keyId).core = s.core := by
  unfold State.dirPut
  split <;> simp

@[simp] theorem State.dirTouch_core (s : State) (line : Nat) : (s.dirTouch line).core = s.core := by simp [State.dirTouch]
@[simp] theorem State.addSharer_core (s : State) (line g keyId : Nat) : (s.addSharer line g keyId).core = s.core := by
  unfold State.addSharer
  split <;> simp

@[simp] theorem State.setOwner_core (s : State) (line g keyId : Nat) (st : DState) :
    (s.setOwner line g keyId st).core = s.core := by simp [State.setOwner]
@[simp] theorem State.sendSnoops_core (s : State) : s.sendSnoops.core = s.core := by
  unfold State.sendSnoops
  refine core_foldl (fun t x => ?_) _ _
  dsimp only
  repeat' split
  all_goals simp

@[simp] theorem State.openTracker_core (s : State) (line : Nat) (act : TAct) (kind keyId : Nat) (hs : List Nat) :
    (s.openTracker line act kind keyId hs).core = s.core := by simp [State.openTracker]
@[simp] theorem State.evict_core (s : State) (e : DirE) (act : TAct) : (s.evict e act).core = s.core := by simp [State.evict]
@[simp] theorem State.waitQueue_core (s : State) (r : CReq) : (s.waitQueue r).core = s.core := by simp [State.waitQueue]
@[simp] theorem State.grantReq_core (s : State) (r : CReq) : (s.grantReq r).1.core = s.core := by
  unfold State.grantReq
  repeat' split
  all_goals simp

@[simp] theorem State.tryReq_core (s : State) (r : CReq) : (s.tryReq r).1.core = s.core := by
  unfold State.tryReq
  repeat' split
  all_goals simp

@[simp] theorem State.applyAnswer_core (s : State) (x : Snp) : (s.applyAnswer x).core = s.core := by
  unfold State.applyAnswer
  split <;> simp


/-! ### Loads -/

@[simp] theorem State.answerLoad_core (s : State) (id : Nat) (l : Load) (data : Line) (poison media : Bool) :
    (s.answerLoad id l data poison media).core = s.core := by simp [State.answerLoad]

@[simp] theorem State.potLookup_core (s : State) (line keyslot requester : Nat) :
    (s.potLookup line keyslot requester).2.core = s.core := by
  unfold State.potLookup
  repeat' split
  all_goals simp

@[simp] theorem State.parkLookup_core (s : State) (q : TReq) : (s.parkLookup q).core = s.core := (rfl)
@[simp] theorem State.pathLoad_core (s : State) (id : Nat) (l : Load) : (s.pathLoad id l).core = s.core := by
  unfold State.pathLoad
  dsimp only
  repeat' split
  all_goals simp

@[simp] theorem State.commitWrite_core (s : State) (n : Nat) (u : UWrite) (wt : WinType) :
    (s.commitWrite n u wt).core = s.core := by simp [State.commitWrite]
@[simp] theorem State.serveGranted_core (s : State) (r : CReq) (m : Nat) : (s.serveGranted r m).core = s.core := by
  unfold State.serveGranted
  repeat' split
  all_goals simp

@[simp] theorem State.submit_core (s : State) (r : CReq) : (s.submit r).core = s.core := by
  unfold State.submit
  dsimp only
  split <;> simp

@[simp] theorem State.applyMeta_core (s : State) (n line keyId m : Nat) (heldAt : Bool) :
    (s.applyMeta n line keyId m heldAt).core = s.core := by
  unfold State.applyMeta
  repeat' split
  all_goals simp

@[simp] theorem State.metaAtAccept_core (s : State) (n : Nat) (e : IwqEntry) : (s.metaAtAccept n e).core = s.core := by
  unfold State.metaAtAccept
  repeat' split
  all_goals simp

@[simp] theorem State.retrySet_core (s : State) (set : Nat) : (s.retrySet set).core = s.core := by
  unfold State.retrySet
  refine core_foldl (fun t x => ?_) _ _
  dsimp only
  split <;> simp

@[simp] theorem State.closeTracker_core (s : State) (k : Tracker) : (s.closeTracker k).core = s.core := by
  unfold State.closeTracker
  dsimp only
  split <;> simp

@[simp] theorem State.forwardTrackers_core (s : State) : s.forwardTrackers.core = s.core := by
  unfold State.forwardTrackers
  split
  · rfl
  · refine core_foldl (fun t k => ?_) _ s
    split
    · dsimp only
      repeat' split
      all_goals simp
    · rfl

@[simp] theorem State.settleSpice_core (n : Nat) (s : State) : (State.settleSpice n s).core = s.core := by
  induction n generalizing s with
  | zero => rfl
  | succ n ih =>
    unfold State.settleSpice
    split <;> simp [ih]

@[simp] theorem State.pumpFlush_core (s : State) : s.pumpFlush.core = s.core := by
  unfold State.pumpFlush
  refine core_foldl (fun t x => ?_) _ _
  repeat' split
  all_goals simp

@[simp] theorem State.spice_core (s : State) : s.spice.core = s.core := by simp [State.spice]
@[simp] theorem State.goOn_core (s : State) (id : Nat) (l : Load) : (s.goOn id l).core = s.core := by simp [State.goOn]
@[simp] theorem State.resumeLoads_core (s : State) (n : Nat) : (s.resumeLoads n).core = s.core := by
  unfold State.resumeLoads
  refine core_foldl (fun t x => ?_) _ _
  split <;> simp

@[simp] theorem State.afterAccept_core (s : State) (n : Nat) (e : IwqEntry) :
    (s.afterAccept n e).core = s.core := by simp [State.afterAccept]
theorem State.acceptHead_core {s : State} {n : Nat} {landing : Bool} {x : Option IwqEntry × State}
    (h : s.acceptHead n landing = some x) : x.2.core = s.core := by
  unfold State.acceptHead at h
  split at h
  · cases h
  · dsimp only at h
    split at h
    · cases h
      simp
    · split at h
      · cases h
        simp
      · obtain ⟨t, ht, rfl⟩ := Option.map_eq_some_iff.1 h
        simpa using (State.accept_coreOn _ _).core ht

@[simp] theorem State.drainLoop_core (n k : Nat) (s : State) : (State.drainLoop n k s).core = s.core := by
  induction k generalizing s with
  | zero => rfl
  | succ k ih =>
    unfold State.drainLoop
    split
    · rfl
    · next h => simpa [ih] using State.acceptHead_core h
    · next h => simpa [ih] using State.acceptHead_core h

@[simp] theorem State.drainIngress_core (s : State) (n : Nat) :
    (s.drainIngress n).core = s.core := by simp [State.drainIngress]

/-! ### Fences -/

@[simp] theorem State.breakHooks_core (s : State) (owner link : Nat) (epoch : Bool) :
    (s.breakHooks owner link epoch).core = s.core := by simp [State.breakHooks]

/-! ### Links -/

@[simp] theorem State.dropLoad_core (s : State) (id : Nat) : (s.dropLoad id).core = s.core := by
  unfold State.dropLoad
  repeat' split
  all_goals simp

@[simp] theorem State.dropLoads_core (s : State) (n : Nat) : (s.dropLoads n).core = s.core := by simp [State.dropLoads]
@[simp] theorem State.stopCtx_core (s : State) (i cause : Nat) : (s.stopCtx i cause).core = s.core := by simp [State.stopCtx]
@[simp] theorem State.stopChannel_core (s : State) (c cause : Nat) :
    (s.stopChannel c cause).core = s.core := by simp [State.stopChannel]
@[simp] theorem State.stopGranted_core (s : State) (n : Nat) : (s.stopGranted n).core = s.core := by simp [State.stopGranted]
@[simp] theorem State.forgetHolder_core (s : State) (g : Nat) :
    (s.forgetHolder g).core = s.core := by simp [State.forgetHolder]
@[simp] theorem State.resendSnoops_core (s : State) (n : Nat) :
    (s.resendSnoops n).core = s.core := by simp [State.resendSnoops]
@[simp] theorem State.ownerGone_core (s : State) (n : Nat) : (s.ownerGone n).core = s.core := by simp [State.ownerGone]

/-! ### Resets -/

@[simp] theorem State.kettleOff_core (s : State) (testing : Bool) :
    (s.kettleOff testing).core = s.core := by simp [State.kettleOff]
@[simp] theorem State.flushDie_core (s : State) (b ce : Nat) : (s.flushDie b ce).core = s.core := by simp [State.flushDie]
@[simp] theorem State.flushBurners_core (s : State) : s.flushBurners.core = s.core := by simp [State.flushBurners]

end Sys2Proof.Machine
end

section
/-!
SUPPORT. Links go down, are held, and train (02_host_ports.md R71 to R80, 16_bring_up.md R452).
-/

namespace Sys2Proof.Machine

open Sys2Proof Sys2Proof.Safety Sys2Proof.Laws

/-! ### A link-down (R71) -/

/-- The part of the core that is not a link's or a session's. -/
def State.standing (s : State) :=
  (s.pwrState, s.pwr, s.boot, s.slots, s.prot.lid, s.prot.cause, s.prot.secret, s.ports.perst, s.ports.simmerLink)

theorem standing_of_core {s t : State} (h : t.core = s.core) : t.standing = s.standing := by
  simp only [State.core, Prot.latch, Prod.mk.injEq] at h
  obtain ⟨hstate, hpwr, hboot, hslots, ⟨hlid, hcause, hsecret, -⟩, hperst, hsimmer, -⟩ := h
  simp only [State.standing, hstate, hpwr, hboot, hslots, hlid, hcause, hsecret, hperst, hsimmer]

theorem sessions_of_core {s t : State} (h : t.core = s.core) : t.prot.doe = s.prot.doe ∧ t.prot.ideKeys = s.prot.ideKeys := by
  simp only [State.core, Prot.latch, Prod.mk.injEq] at h
  obtain ⟨-, -, -, -, ⟨-, -, -, hdoe, hkeys⟩, -⟩ := h
  exact ⟨hdoe, hkeys⟩

theorem key_of_core {s t : State} (h : t.core = s.core) (k : Nat) : linkKey (t.link k) = linkKey (s.link k) := by
  simp only [State.core, Prod.mk.injEq] at h
  obtain ⟨-, -, -, -, -, -, -, hkeys⟩ := h
  exact congrFun hkeys k

/-- The link that goes down: steps 1 and 2 of R71. -/
def Link.fallen (l : Link) (now : Nat) : Link :=
  { l with
    up := false, retraining := false, memActive := false, ideIo := false, ideMem := false, msix := false, insecure := []
    downCount := sat 8 (l.downCount + 1), downSince := now, unowned := [] }

/-- What goes with the link: the requests a commit holds back, and its sessions. -/
def State.unlinked (s : State) (n : Nat) : State :=
  { s with
    cmt := { s.cmt with requests := s.cmt.requests.filter (fun r => decide (reqLink r ≠ n)) }
    prot := { s.prot with doe := s.prot.doe.del n, ideKeys := s.prot.ideKeys.del n } }

/-- A link-down up to the end of the link's fences (R71, steps 1 to 3). -/
def State.quieted (s : State) (n : Nat) : State :=
  ((((s.unlinked n).setLink n (fun l => l.fallen s.now)).drainIngress n).dropLoads n).abortFences n

/-- A link-down up to its mask and its record. -/
def State.parted (s : State) (n : Nat) : State :=
  let t := s.quieted n
  let t := if t.partnerUp n then (t.breakHooks 64 n false).resendSnoops n else t.ownerGone n
  (t.setLink n (fun l => { l with credits := 256, owed := 0, stalled := false })).account

theorem linkDown_eq {s : State} {n : Nat} (h : (s.link n).up = true ∨ (s.link n).retraining = true) (reason : Nat) :
    ∃ e r, s.linkDown n reason = ((s.parted n).setMask (.link n) true).record 0x1001 n reason e r := by
  unfold State.linkDown
  rw [if_neg (by rcases h with h | h <;> simp [h])]
  exact ⟨_, _, rfl⟩

theorem linkDown_down {s : State} {n : Nat} (hup : (s.link n).up = false) (hre : (s.link n).retraining = false) (reason : Nat) :
    s.linkDown n reason = s := by
  unfold State.linkDown
  rw [if_pos (by simp [hup, hre])]

theorem parted_core (s : State) (n : Nat) : (s.parted n).core = (s.quieted n).core := by
  simp [State.parted]

theorem quieted_core (s : State) (n : Nat) : ∃ t : State, s.quieted n = t.abortFences n ∧
    t.core = ((s.unlinked n).setLink n (fun l => l.fallen s.now)).core :=
  ⟨_, rfl, by simp⟩

/-- What a link-down leaves of the rest. -/
theorem linkDown_standing (s : State) (n reason : Nat) : (s.linkDown n reason).standing = s.standing := by
  by_cases h : (s.link n).up = true ∨ (s.link n).retraining = true
  · obtain ⟨e, r, hdown⟩ := linkDown_eq h reason
    obtain ⟨t, hq, ht⟩ := quieted_core s n
    calc (s.linkDown n reason).standing = (s.parted n).standing := by rw [hdown]; exact standing_of_core (by simp)
      _ = (s.quieted n).standing := standing_of_core (parted_core s n)
      _ = t.standing := by rw [hq]; rfl
      _ = s.standing := (standing_of_core ht).trans rfl
  · simp only [not_or, Bool.not_eq_true] at h
    rw [linkDown_down h.1 h.2]

/-- The key of a link that went down, and of the others. -/
theorem linkDown_key {s : State} {n : Nat} (h : (s.link n).up = true ∨ (s.link n).retraining = true) (reason k : Nat) :
    linkKey ((s.linkDown n reason).link k) = if k = n then
      (false, false, (s.link n).held, false, (s.link n).disabled, true, [], []) else linkKey (s.link k) := by
  obtain ⟨e, r, hdown⟩ := linkDown_eq h reason
  obtain ⟨t, hq, ht⟩ := quieted_core s n
  have hparted : linkKey ((s.linkDown n reason).link k) = linkKey ((t.abortFences n).link k) := by
    rw [hdown, ← hq]
    exact (key_of_core (by simp) k).trans (key_of_core (parted_core s n) k)
  have hkey := key_of_core ht k
  rw [hparted, State.abortFences, State.link_setLink]
  rw [State.link_setLink] at hkey
  split
  next hk =>
    subst hk
    rw [if_pos rfl] at hkey
    simp only [linkKey, Link.fallen, Prod.mk.injEq] at hkey ⊢
    obtain ⟨hup, hre, hheld, hmem, hdis, -⟩ := hkey
    exact ⟨hup, hre, hheld, hmem, hdis, rfl, trivial⟩
  next hk =>
    rw [if_neg hk] at hkey
    exact hkey

/-! ### Links that are held (R76) -/

theorem holdLink_standing (s : State) (n reason : Nat) : (s.holdLink n reason).standing = s.standing :=
  (rfl : (s.holdLink n reason).standing = (s.linkDown n reason).standing).trans (linkDown_standing s n reason)

/-- A link that is held is down; the others stay up or down, held or not. -/
theorem holdLink_link (s : State) (n reason k : Nat) :
    ((s.holdLink n reason).link k).up = (!decide (k = n) && (s.link k).up) ∧
      ((s.holdLink n reason).link k).held = (decide (k = n) || (s.link k).held) := by
  have hlink : (s.holdLink n reason).link k = if k = n then { (s.linkDown n reason).link n with held := true }
      else (s.linkDown n reason).link k := State.link_setLink _ _ _ _
  by_cases h : (s.link n).up = true ∨ (s.link n).retraining = true
  · have hkey := linkDown_key h reason k
    rw [hlink]
    by_cases hk : k = n
    · subst hk
      rw [if_pos rfl] at hkey ⊢
      simp only [linkKey, Prod.mk.injEq] at hkey
      obtain ⟨hup, -⟩ := hkey
      simp [hup]
    · rw [if_neg hk] at hkey ⊢
      simp only [linkKey, Prod.mk.injEq] at hkey
      obtain ⟨hup, -, hheld, -⟩ := hkey
      simp [hk, hup, hheld]
  · simp only [not_or, Bool.not_eq_true] at h
    obtain ⟨hup, hre⟩ := h
    rw [hlink, linkDown_down hup hre]
    by_cases hk : k = n
    · subst hk
      simp [hup]
    · simp [hk]

theorem holdEach_standing (ns : List Nat) (reason : Nat) (s : State) :
    (ns.foldl (fun u n => u.holdLink n reason) s).standing = s.standing :=
  foldl_keeps State.standing (fun u n => holdLink_standing u n reason) ns s

/-- The links of a list are held, and down; the others stay as they were in that. -/
theorem holdEach_link (ns : List Nat) (reason k : Nat) : ∀ s : State,
    ((ns.foldl (fun u n => u.holdLink n reason) s).link k).up = (!ns.contains k && (s.link k).up) ∧
      ((ns.foldl (fun u n => u.holdLink n reason) s).link k).held = (ns.contains k || (s.link k).held) := by
  induction ns with
  | nil => simp
  | cons n ns ih =>
    intro s
    obtain ⟨hup, hheld⟩ := ih (s.holdLink n reason)
    obtain ⟨hup', hheld'⟩ := holdLink_link s n reason k
    rw [List.foldl_cons, hup, hheld, hup', hheld', List.contains_cons]
    constructor
    · by_cases hk : k = n
      · simp [hk]
      · simp [hk, beq_eq_false_iff_ne.mpr hk]
    · by_cases hk : k = n
      · simp [hk]
      · simp [hk, beq_eq_false_iff_ne.mpr hk]

theorem holdLinks_standing (s : State) : s.holdLinks.standing = s.standing := holdEach_standing _ 5 s

theorem holdLinks_link {n : Nat} (h : n < 32) (s : State) : (s.holdLinks.link n).up = false ∧ (s.holdLinks.link n).held = true := by
  obtain ⟨hup, hheld⟩ := holdEach_link (List.range 32) 5 n s
  have hmem : (List.range 32).contains n = true := by simp [h]
  rw [hmem] at hup hheld
  exact ⟨hup, hheld⟩

/-! ### Links that train (R76, R452) -/

/-- The ports, the masks of the links and the memory side. -/
def State.fabric (s : State) : HostPorts × W32 × Stockpot × Sieve × Media := (s.ports, s.pass.maskLink, s.stk, s.siv, s.med)

theorem fabric_of_noted {s t : State} (h : Noted s t) : t.fabric = s.fabric := by
  obtain ⟨_, _, _, _, _, rfl, _⟩ := h
  rfl

theorem resendMsix_fabric (s : State) (n : Nat) : (s.resendMsix n).fabric = s.fabric := by
  unfold State.resendMsix
  split
  · refine foldl_keeps State.fabric (fun _ _ => ?_) _ s
    rfl
  · rfl

theorem sendSnoops_fabric (s : State) : s.sendSnoops.fabric = s.fabric := by
  refine foldl_keeps State.fabric (fun t e => ?_) _ s
  dsimp only
  split
  · rfl
  · split
    · rfl
    · split
      · rfl
      · exact (fabric_of_noted (noted_trans (noted_tally _ _ _) (noted_emit _ _))).trans rfl

theorem account_fabric (s : State) : s.account.fabric = s.fabric := by
  unfold State.account
  split
  · rfl
  · unfold State.countUnavail
    dsimp only
    split
    · rfl
    · rfl
  · rfl

/-- What a link's training leaves once the link is set: its mask is lowered. -/
theorem trained_fabric (u : State) (n : Nat) : ((u.setMask (.link n) false).resendMsix n).sendSnoops.account.fabric =
    (u.ports, u.pass.maskLink &&& ~~~ BitVec.ofNat 32 (2 ^ n), u.stk, u.siv, u.med) := by
  rw [account_fabric, sendSnoops_fabric, resendMsix_fabric]
  rfl

/-- Whether a link may train does not depend on what holds a link now. -/
theorem mayTrain_setHeld (s : State) (n k : Nat) (held : Bool) : (s.setLink n (fun l => { l with held := held })).mayTrain k = s.mayTrain k := by
  have hdis : ((s.setLink n (fun l => { l with held := held })).link k).disabled = (s.link k).disabled := by
    rw [State.link_setLink]
    split
    next h => rw [h]
    next => rfl
  unfold State.mayTrain
  rw [hdis]
  rfl

theorem setLink_perst (s : State) (n : Nat) (f : Link → Link) : (s.setLink n f).ports.perst = s.ports.perst := rfl

/-- Each link of a list is held where it may not train. -/
theorem releaseEach (ns : List Nat) : ∀ s : State,
    let t := ns.foldl (fun t n => t.setLink n (fun l => { l with held := !t.mayTrain n })) s
    ∀ k, t.mayTrain k = s.mayTrain k ∧ (t.link k).up = (s.link k).up ∧ (k ∈ ns → (t.link k).held = !s.mayTrain k) ∧
      (k ∉ ns → (t.link k).held = (s.link k).held) := by
  induction ns with
  | nil => simp
  | cons n ns ih =>
    intro s t k
    obtain ⟨u, hu⟩ : ∃ u, u = s.setLink n (fun l => { l with held := !s.mayTrain n }) := ⟨_, rfl⟩
    obtain ⟨htrain, hup, hin, hout⟩ := ih u k
    have htrainU : u.mayTrain k = s.mayTrain k := by rw [hu]; exact mayTrain_setHeld _ _ _ _
    have hlink : u.link k = if k = n then { s.link n with held := !s.mayTrain n } else s.link k := by
      rw [hu]
      exact State.link_setLink _ _ _ _
    have ht : t = ns.foldl (fun t n => t.setLink n (fun l => { l with held := !t.mayTrain n })) u := by rw [hu]; rfl
    rw [ht]
    refine ⟨htrain.trans htrainU, hup.trans ?_, fun hk => ?_, fun hk => ?_⟩
    · rw [hlink]
      split
      next h => rw [h]
      next => rfl
    · by_cases hmem : k ∈ ns
      · rw [hin hmem, htrainU]
      · have hkn : k = n := by simpa [hmem] using hk
        rw [hout hmem, hlink, if_pos hkn, hkn]
    · simp only [List.mem_cons, not_or] at hk
      obtain ⟨hkn, hmem⟩ := hk
      rw [hout hmem, hlink, if_neg hkn]

/-- The link that went down has its credits back. -/
theorem parted_credits (s : State) (n : Nat) : ((s.parted n).link n).credits = 256 := by
  obtain ⟨u, hu⟩ : ∃ u : State, s.parted n = (u.setLink n (fun l => { l with credits := 256, owed := 0, stalled := false })).account :=
    ⟨_, rfl⟩
  have hports := congrArg Prod.fst (account_fabric (u.setLink n (fun l => { l with credits := 256, owed := 0, stalled := false })))
  rw [hu]
  exact (congrArg (fun p : HostPorts => (p.links.getD n .down).credits) hports).trans
    (congrArg Link.credits (link_setLink_self u n _))

theorem parted_sessions (s : State) (n : Nat) :
    (s.parted n).prot.doe = s.prot.doe.del n ∧ (s.parted n).prot.ideKeys = s.prot.ideKeys.del n := by
  obtain ⟨t, hq, ht⟩ := quieted_core s n
  obtain ⟨hdoe, hkeys⟩ := sessions_of_core (parted_core s n)
  obtain ⟨hdoe', hkeys'⟩ := sessions_of_core ht
  rw [hdoe, hkeys, hq]
  exact ⟨hdoe', hkeys'⟩

end Sys2Proof.Machine

namespace Sys2Proof.Proofs

open Sys2Proof Sys2Proof.Machine Sys2Proof.Safety Sys2Proof.Laws

theorem linkTrains : Claims.LinkTrains := by
  unfold Claims.LinkTrains
  intro s n w r flit msix hsimmer
  have hsim : decide (s.pwrState = .simmer) = false := decide_eq_false hsimmer
  have hexec : exec (.linkUp n w r flit msix) s = execLinkUp n w r flit msix s := rfl
  unfold execLinkUp at hexec
  rw [hsim] at hexec
  dsimp only at hexec
  refine ⟨fun hup hheld hmay hw hr hgood hwidth => ?_, fun hbad => ?_⟩
  · rw [if_neg (by simp [hup, hheld, hmay, hw, hr]; omega)] at hexec
    obtain ⟨f, hf⟩ : ∃ f : Link → Link, f = fun l : Link => { l with
        up := true, retraining := false, width := w.val, rate := if flit then r.val else min 5 r.val, flit256 := flit
        memActive := s.mayPresent && !false, msix := msix
        degraded := decide ((s.goodLanes n.val).2 < s.subLanes n.val) && !false && decide (w.val < widthCode (s.subLanes n.val))
        fenceSerial := 0 } := ⟨_, rfl⟩
    obtain ⟨t, ht⟩ : ∃ t, exec (.linkUp n w r flit msix) s = .next t ∧ t.fabric = ((s.setLink n.val f).ports,
        s.pass.maskLink &&& ~~~ BitVec.ofNat 32 (2 ^ n.val), s.stk, s.siv, s.med) := by
      rw [hf]
      exact ⟨_, hexec, trained_fabric _ _⟩
    obtain ⟨hnext, hfabric⟩ := ht
    simp only [State.fabric, Prod.mk.injEq] at hfabric
    obtain ⟨hports, hmask, hstk, hsiv, hmed⟩ := hfabric
    have hlink : ∀ k, t.link k = (s.setLink n.val f).link k := fun k => by rw [State.link, State.link, hports]
    have hself : t.link n.val = f (s.link n.val) := (hlink n.val).trans (link_setLink_self s n.val f)
    refine ⟨t, hnext, ?_, ?_, ?_, ?_, ?_, ?_, ?_, fun k hk => (hlink k).trans (link_setLink_ne s f hk), hstk, hsiv, hmed⟩
    · rw [hself, hf]
    · rw [hself, hf]
    · rw [hself, hf]
    · rw [hself, hf]
    · rw [hself, hf]
      exact Bool.and_true _
    · rw [hself, hf]
    · rw [hmask]
      rw [BitVec.getLsbD_and, BitVec.getLsbD_not, BitVec.getLsbD_ofNat, Nat.testBit_two_pow_self]
      simp
  · rw [hexec, if_pos]
    simp only [Bool.or_eq_true, Bool.not_eq_true', decide_eq_true_eq]
    tauto

theorem linkGoesDown : Claims.LinkGoesDown := by
  unfold Claims.LinkGoesDown
  intro s n surprise
  refine ⟨fun h => ?_, fun hup hre => congrArg Host.Outcome.next (linkDown_down hup hre _)⟩
  obtain ⟨reason, hreason⟩ : ∃ reason, reason = if surprise then 1 else 0 := ⟨_, rfl⟩
  have hkey := linkDown_key h reason n.val
  rw [if_pos rfl] at hkey
  simp only [linkKey, Prod.mk.injEq, List.isEmpty_iff] at hkey
  obtain ⟨hup, hre, -, hmem, -, hfences, hholds, hblocked⟩ := hkey
  obtain ⟨t, ht⟩ : ∃ t, t = s.linkDown n.val reason := ⟨_, rfl⟩
  have hexec : exec (.linkDown n surprise) s = .next t := by rw [ht, hreason]; rfl
  obtain ⟨e, r, hdown⟩ := linkDown_eq h reason
  rw [← ht] at hup hre hmem hfences hholds hblocked hdown
  obtain ⟨hdoe, hkeys⟩ := parted_sessions s n.val
  refine ⟨t, hexec, hup, hre, hmem, hfences, hholds, hblocked, ?_, ?_, ?_, ?_, ⟨0x1001, BitVec.ofNat 64 n.val, BitVec.ofNat 64 reason,
    BitVec.ofNat 64 e, BitVec.ofNat 64 r⟩, ?_, rfl, rfl, ?_⟩
  · have hlink : t.link n.val = (s.parted n.val).link n.val := by rw [hdown]; rfl
    rw [hlink, parted_credits]
  · have heq : t.prot.doe = (s.parted n.val).prot.doe := by rw [hdown]; rfl
    rw [heq, hdoe, SMap.find_del_self]
  · have heq : t.prot.ideKeys = (s.parted n.val).prot.ideKeys := by rw [hdown]; rfl
    rw [heq, hkeys, SMap.find_del_self]
  · have heq : t.pass.maskLink = (s.parted n.val).pass.maskLink ||| BitVec.ofNat 32 (2 ^ n.val) := by rw [hdown]; rfl
    rw [heq, getLsbD_withBit _ n.isLt]
  · have heq : t.rails.event.waiting = (s.parted n.val).rails.event.waiting ++ [⟨0x1001, BitVec.ofNat 64 n.val,
        BitVec.ofNat 64 reason, BitVec.ofNat 64 e, BitVec.ofNat 64 r⟩] := by rw [hdown]; exact Rail.waiting_push _ _ _ _
    rw [heq, List.getLast?_concat]
  · rw [hreason]
    cases surprise <;> rfl

theorem perstHoldsItsLinks : Claims.PerstHoldsItsLinks := by
  unfold Claims.PerstHoldsItsLinks
  intro s p
  constructor
  · obtain ⟨u, hu⟩ : ∃ u : State, u = { s with ports := { s.ports with perst := insertNew s.ports.perst p.val } } := ⟨_, rfl⟩
    obtain ⟨ns, hns⟩ : ∃ ns, ns = (List.range 4).map (fun k => p.val * 4 + k) := ⟨_, rfl⟩
    obtain ⟨t, ht⟩ : ∃ t, t = ns.foldl (fun x n => x.holdLink n 2) u := ⟨_, rfl⟩
    have hexec : exec (.perstAssert p) s = .next t := by rw [ht, hns, List.foldl_map, hu]; rfl
    have hperst : t.ports.perst = insertNew s.ports.perst p.val := by
      have hstand : t.standing = u.standing := by rw [ht]; exact holdEach_standing ns 2 u
      simp only [State.standing, Prod.mk.injEq] at hstand
      obtain ⟨-, -, -, -, -, -, -, hperst, -⟩ := hstand
      rw [hperst, hu]
    have hin : t.ports.perst.contains p.val = true := by rw [hperst, contains_insertNew]; simp
    refine ⟨t, hexec, List.contains_iff_mem.mp hin, fun k hk => ?_⟩
    have hmem : ns.contains (p.val * 4 + k) = true := by
      rw [hns]
      exact List.contains_iff_mem.mpr (List.mem_map.mpr ⟨k, List.mem_range.mpr hk, rfl⟩)
    obtain ⟨hup, hheld⟩ := holdEach_link ns 2 (p.val * 4 + k) u
    rw [hmem, ← ht] at hup hheld
    refine ⟨hup, hheld, ?_⟩
    have hport : (p.val * 4 + k) / 4 = p.val := by omega
    simp only [State.mayTrain, hport, hin, Bool.not_true, Bool.and_false, Bool.false_and]
  · obtain ⟨u, hu⟩ : ∃ u : State, u = { s with ports := { s.ports with perst := s.ports.perst.filter (fun q => q != p.val) } } :=
      ⟨_, rfl⟩
    have hexec : exec (.perstDeassert p) s = .next u.releaseLinks := by rw [hu]; rfl
    obtain ⟨ports, hports⟩ := releaseLinks_eq u
    have heach := releaseEach (List.range 32) u
    have hperst : u.releaseLinks.ports.perst = u.ports.perst := foldl_keeps (fun x : State => x.ports.perst) (fun t k => setLink_perst t k _) _ u
    have hout : u.releaseLinks.out = s.out := by rw [hports, hu]
    refine ⟨_, hexec, ?_, fun n hn => ?_, hout⟩
    · rw [hperst, hu]
      simp
    · obtain ⟨htrain, hup, hin, -⟩ := heach n
      refine ⟨(hin (List.mem_range.mpr hn)).trans (congrArg not htrain.symm), hup.trans ?_⟩
      rw [hu]
      rfl

/-- Settles O35: a link-down runs its steps on the links, the hooks, the directory and the whisks, none of which changes whether a
link is up, held or presents memory; the link's own fences and sessions end with it. -/
theorem linksComeAndGo : Obligations.LinksComeAndGo := ⟨linkTrains, linkGoesDown, perstHoldsItsLinks⟩

end Sys2Proof.Proofs
end

section
/-!
SUPPORT. Forced lid down and raw accesses (12_protection.md R366, R367, R373, R376).
-/

namespace Sys2Proof.Machine

open Sys2Proof Sys2Proof.Safety Sys2Proof.Laws

/-! ### Lid down (R367) -/

/-- Lid down holds every link; the latch and its cause are set, and the rest of the device's standing stays. -/
theorem lidDown_latches {s : State} (h : s.prot.lid = false) (cause : Nat) :
    (s.lidDown cause).standing = (s.pwrState, s.pwr, s.boot, s.slots, true, cause, s.prot.secret, s.ports.perst, s.ports.simmerLink) ∧
      ∀ n < 32, ((s.lidDown cause).link n).up = false ∧ ((s.lidDown cause).link n).held = true := by
  obtain ⟨t, ht⟩ : ∃ t : State, t = (({ s with prot := { s.prot with lid := true, cause := cause } } : State).raise .key 5).emit
      (.pin "ALARM" true) := ⟨_, rfl⟩
  obtain ⟨u, hu⟩ : ∃ u : State, u = (List.range 64).foldl (fun u c => u.stopChannel c 2) t.holdLinks := ⟨_, rfl⟩
  have hcore : u.core = t.holdLinks.core := by rw [hu]; simp
  have hstand : u.standing = (s.pwrState, s.pwr, s.boot, s.slots, true, cause, s.prot.secret, s.ports.perst, s.ports.simmerLink) := by
    rw [standing_of_core hcore, holdLinks_standing, ht]
    exact standing_of_core (core_of_noted (noted_trans (noted_raise _ _ _) (noted_emit _ _)))
  have hlinks : ∀ n < 32, (u.link n).up = false ∧ (u.link n).held = true := fun n hn => by
    have hkey := key_of_core hcore n
    simp only [linkKey, Prod.mk.injEq] at hkey
    obtain ⟨hup, -, hheld, -⟩ := hkey
    rw [hup, hheld]
    exact holdLinks_link hn t
  have hlid : s.lidDown cause = if (u.record 0x6002 cause 0 0 0).vaultUsable then
      (u.record 0x6002 cause 0 0 0).vaultJob ⟨.latch cause, none, 0⟩ else u.record 0x6002 cause 0 0 0 := by
    rw [hu, ht, State.lidDown, if_neg (by simp [h])]
    rfl
  rw [hlid]
  split
  · exact ⟨hstand, hlinks⟩
  · exact ⟨hstand, hlinks⟩

/-! ### Raw accesses (R373) -/

/-- An alarm counts no blocked access and touches no memory. -/
theorem alarm_keeps (s : State) (kind : Nat) (a : Access) : (s.alarm kind a).prot.rawBlocked = s.prot.rawBlocked ∧
    (s.alarm kind a).stk = s.stk ∧ (s.alarm kind a).siv = s.siv ∧ (s.alarm kind a).med = s.med := by
  unfold State.alarm
  extract_lets who w0 w1 w2 w3 t prot u v x
  have hu : u.prot.rawBlocked = s.prot.rawBlocked ∧ u.stk = s.stk ∧ u.siv = s.siv ∧ u.med = s.med := ⟨rfl, rfl, rfl, rfl⟩
  have hv : Noted u v := by
    dsimp only [v]
    split
    · exact noted_raise _ _ _
    · exact noted_refl _
  obtain ⟨_, _, _, _, _, heq, _⟩ := noted_trans hv (noted_tally v (s.alarmEv a.requester) 1)
  have hx : x.prot.rawBlocked = u.prot.rawBlocked ∧ x.stk = u.stk ∧ x.siv = u.siv ∧ x.med = u.med := by
    dsimp only [x]
    rw [heq]
    exact ⟨rfl, rfl, rfl, rfl⟩
  obtain ⟨hb, hstk, hsiv, hmed⟩ := hu
  obtain ⟨hb', hstk', hsiv', hmed'⟩ := hx
  exact ⟨hb'.trans hb, hstk'.trans hstk, hsiv'.trans hsiv, hmed'.trans hmed⟩

theorem rawBlock_keeps (s : State) (debug : Bool) (recorded slice saddr : Nat) :
    (s.rawBlock debug recorded slice saddr).prot.rawBlocked = min (s.prot.rawBlocked + 1) (2 ^ 32 - 1) ∧
      (s.rawBlock debug recorded slice saddr).stk = s.stk ∧ (s.rawBlock debug recorded slice saddr).siv = s.siv ∧
      (s.rawBlock debug recorded slice saddr).med = s.med :=
  alarm_keeps _ _ _

theorem lineBytes_zero : lineBytes 0 = List.replicate 64 0 := by decide +kernel

/-- A page that holds a sector is programmed. -/
theorem programmed_of_sector {s : State} {a : Nat} {x : Sector} (h : s.sector a = some x) : s.programmed a = true := by
  have hmod : a % 64 < 64 := Nat.mod_lt _ (by decide)
  have haddr : a / 64 * 64 + a % 64 = a := by omega
  refine (Bool.or_eq_true _ _).mpr (.inr (List.any_eq_true.mpr ⟨a % 64, List.mem_range.mpr hmod, ?_⟩))
  rw [haddr, h]
  rfl

end Sys2Proof.Machine

namespace Sys2Proof.Proofs

open Sys2Proof Sys2Proof.Machine Sys2Proof.Safety Sys2Proof.Laws

theorem forcedLidTakesEveryLinkDown : Claims.ForcedLidTakesEveryLinkDown := by
  unfold Claims.ForcedLidTakesEveryLinkDown
  intro path s hw
  have hexec : exec (.forceLid path) s = .next (s.lidDown 4) := by
    show execForceLid path s = _
    rw [execForceLid, portWrite_of_writes hw rfl, if_pos (mayWrite_of_writes hw)]
  refine ⟨fun hlid => ?_, fun hlid => ?_⟩
  · obtain ⟨hstand, hlinks⟩ := lidDown_latches hlid 4
    simp only [State.standing, Prod.mk.injEq] at hstand
    obtain ⟨-, -, -, hslots, hlid', hcause, hsecret, -⟩ := hstand
    exact ⟨_, hexec, hlid', hcause, hlinks, hslots, hsecret⟩
  · rw [hexec, State.lidDown, if_pos hlid]

theorem rawAccessNeverShowsKeyedData : Claims.RawAccessNeverShowsKeyedData := by
  unfold Claims.RawAccessNeverShowsKeyedData
  intro s debug line
  refine ⟨fun hkeyed => ⟨?_, fun data => ?_⟩, fun hkeyed f hf hvalid hpoison => ?_, fun a x hx hkind => ?_⟩
  · obtain ⟨u, hu⟩ : ∃ u, u = s.rawBlock debug ((s.recordedSlot (line.toNat / 4)).getD 0) (line.toNat / 4) 0 := ⟨_, rfl⟩
    have hexec : exec (.rawAccess debug (.readDpa line)) s = .next (u.emit (.raw debug (List.replicate 64 0) [] true)) := by
      show execRawAccess debug (.readDpa line) s = _
      simp only [execRawAccess, hkeyed, if_true, ← hu, lineBytes_zero]
    obtain ⟨hblocked, hstk, hsiv, hmed⟩ := rawBlock_keeps s debug ((s.recordedSlot (line.toNat / 4)).getD 0) (line.toNat / 4) 0
    rw [← hu] at hblocked hstk hsiv hmed
    exact ⟨_, hexec, List.getLast?_concat, hblocked, hstk, hsiv, hmed⟩
  · have hexec : exec (.rawAccess debug (.writeDpa line data)) s =
        .next (s.rawBlock debug ((s.recordedSlot (line.toNat / 4)).getD 0) (line.toNat / 4) 0) := by
      show execRawAccess debug (.writeDpa line data) s = _
      simp only [execRawAccess, hkeyed, if_true]
    exact ⟨_, hexec, rawBlock_keeps _ _ _ _ _⟩
  · have hline : s.rawLine line.toNat = (((s.frame f).data.get (line.toNat % 4), false), s) := by
      simp only [State.rawLine, hf, hvalid, hpoison, if_true]
    show execRawAccess debug (.readDpa line) s = _
    simp only [execRawAccess, hkeyed, hline, Bool.false_eq_true, if_false]
    rfl
  · have hdata : x.isData = true := by rcases hkind with h | h | h <;> simp [Sector.isData, h]
    obtain ⟨spare, hspare⟩ : ∃ spare, spare = (((s.pageDomAt a.toNat).drop (a.toNat % 64 * 288)).take 288).drop 256 ++
      Config.codeParity (s.cwBytes a.toNat) := ⟨_, rfl⟩
    have hexec : exec (.rawAccess debug (.readMedia a)) s =
        .next ((s.rawBlock debug x.keyslot x.unit a.toNat).emit (.raw debug (List.replicate 256 0) spare false)) := by
      show execRawAccess debug (.readMedia a) s = _
      simp only [execRawAccess, State.rawSector, programmed_of_sector hx, hx, hdata, Bool.not_true, Bool.false_eq_true, if_false, if_true,
        hspare]
    obtain ⟨-, -, -, hmed⟩ := rawBlock_keeps s debug x.keyslot x.unit a.toNat
    exact ⟨_, spare, hexec, List.getLast?_concat, hmed⟩

/-- Settles O33: lid down holds every link, and neither the links nor the whisks that stop touch the latch; a raw access to a keyed line
or to a sector of user data is counted, and gives zeros. -/
theorem lidDownAndRawAccess : Obligations.LidDownAndRawAccess := ⟨forcedLidTakesEveryLinkDown, rawAccessNeverShowsKeyedData⟩

end Sys2Proof.Proofs
end

section
/-!
SUPPORT. The start of Flush, the down sequence, and warm resets (15_power.md R421, R431, R432, 16_bring_up.md R453).
-/

namespace Sys2Proof.Machine

open Sys2Proof Sys2Proof.Safety Sys2Proof.Laws

/-! ### Flush (R431, R432) -/

@[simp] theorem State.stopWhisks_core (s : State) : s.stopWhisks.core = s.core := by simp [State.stopWhisks]

/-- What is abandoned on the SPI NOR is its own, the vault's and the ledger's. -/
theorem abandonNor_eq (s : State) : ∃ free nor flt prot, s.abandonNor = { s with free := free, nor := nor, flt := flt, prot := prot } ∧
    prot.latch = s.prot.latch := by
  unfold State.abandonNor
  split
  · exact ⟨_, _, _, _, rfl, rfl⟩
  · exact ⟨_, _, _, _, rfl, rfl⟩

/-- The standby part once a Flush has started. -/
def Power.flushing (p : Power) (cause now : Nat) (state : PState) : Power :=
  { p with
    cause := cause, flushAt := now, fromSimmer := decide (state = .simmer), charging := false, testing := false, abandoned := false }

/-- The device as a Flush starts, with the charger and the test load still on. -/
def State.flushStart (s : State) (cause : Nat) : State :=
  { s.rootStart with
    pwrState := .flush, regs := { s.regs with entry := [] }, pwr := s.pwr.flushing cause s.now s.pwrState
    cmt := { s.cmt with pending := false, ports := [], waiting := [], requests := [] } }

/-- The device once the links and the burners have stopped for a Flush: the stockpot is frozen. -/
def State.flushFrozen (t : State) : State :=
  { t with
    stk := { t.stk with frozen := true }
    thm := { t.thm with testState := if t.thm.testState = 1 then 3 else t.thm.testState }
    boot := { t.boot with seq := .flush, tap := if 3 ≤ t.boot.tap then 0 else t.boot.tap } }

theorem flush_eq {s : State} (hf : s.pwrState.flushable = true) (ha : s.pwr.armed = true) (cause : Nat) :
    s.flush cause = ((((((s.abandonNor.flushStart cause).kettleOff s.abandonNor.pwr.testing).stopWhisks).holdLinks).flushBurners).dropRequests
      MReq.isProgram).flushFrozen := by
  unfold State.flush
  rw [if_neg (by simp [hf]), if_neg (by simp [ha])]
  dsimp only [State.flushFrozen, State.flushStart, Power.flushing]

/-- A Flush that is armed: the power state, the standby part, the latch and the pins; the stockpot is frozen, the start's sequence
is Flush, and every link is down and held. -/
theorem flush_armed {s : State} (hf : s.pwrState.flushable = true) (ha : s.pwr.armed = true) (cause : Nat) :
    (s.flush cause).pwrState = .flush ∧ (s.flush cause).pwr = s.pwr.flushing cause s.now s.pwrState ∧
      (s.flush cause).boot.seq = .flush ∧ (s.flush cause).stk.frozen = true ∧
      ∀ n < 32, ((s.flush cause).link n).up = false := by
  obtain ⟨free, nor, flt, prot, hnor, -⟩ := abandonNor_eq s
  obtain ⟨u, hu⟩ : ∃ u, u = s.abandonNor.flushStart cause := ⟨_, rfl⟩
  obtain ⟨v, hv⟩ : ∃ v : State, v = ((u.kettleOff s.abandonNor.pwr.testing).stopWhisks).holdLinks := ⟨_, rfl⟩
  obtain ⟨w, hw⟩ : ∃ w : State, w = v.flushBurners.dropRequests MReq.isProgram := ⟨_, rfl⟩
  have hflush : s.flush cause = w.flushFrozen := by rw [flush_eq hf ha, hw, hv, hu]
  have hcore : w.core = v.core := by rw [hw]; simp
  have hstand : w.standing = u.standing := by
    rw [standing_of_core hcore, hv, holdLinks_standing]
    exact standing_of_core (by simp)
  simp only [State.standing, Prod.mk.injEq] at hstand
  obtain ⟨hstate, hpwr, -⟩ := hstand
  rw [hflush]
  refine ⟨hstate.trans (by rw [hu]; rfl), hpwr.trans (by rw [hu, hnor]; rfl), rfl, rfl, fun n hn => ?_⟩
  have hkey := key_of_core hcore n
  simp only [linkKey, Prod.mk.injEq] at hkey
  obtain ⟨hup, -⟩ := hkey
  refine hup.trans ?_
  rw [hv]
  exact (holdLinks_link hn _).1

/-! ### The down sequence (R421) -/

/-- The standby part once the rails go down. -/
def Power.disarmed (p : Power) : Power := { p with armed := false, charging := false, testing := false }

theorem kettleOff_eq (s : State) (testing : Bool) : ∃ out, s.kettleOff testing = { s with out := out } := by
  unfold State.kettleOff
  cases testing
  · exact ⟨_, rfl⟩
  · exact ⟨_, rfl⟩

/-- No link is up once the core is dark. -/
theorem darken_link (s : State) (n : Nat) : (s.darken.link n).up = false := by
  simp only [State.link, State.darken, SMap.getD, SMap.find_mapVal]
  cases s.ports.links.find n with
  | none => rfl
  | some l => rfl

/-- The state in which the rails start to go down. -/
theorem powerDown_eq (s : State) : ∃ t : State, s.powerDown = (match s.enabledRails with | [] => t | i :: _ => t.lowerRail i) ∧
    t.pwrState = .shutdown ∧ t.pwr = s.pwr.disarmed ∧ t.stk = s.stk ∧ t.now = s.now ∧ ∀ n, (t.link n).up = false := by
  obtain ⟨free, nor, flt, prot, hnor, -⟩ := abandonNor_eq s
  obtain ⟨u, hu⟩ : ∃ u : State, u = { s.abandonNor.darken with
      pwrState := .shutdown
      pwr := s.abandonNor.darken.pwr.disarmed
      boot := { s.abandonNor.darken.boot with seq := .idle, ready := false } }.emit (.pin "ALIVE" false) := ⟨_, rfl⟩
  obtain ⟨out, hout⟩ := kettleOff_eq u s.abandonNor.darken.pwr.testing
  obtain ⟨t, ht⟩ : ∃ t, t = u.kettleOff s.abandonNor.darken.pwr.testing := ⟨_, rfl⟩
  have hpwr : t.pwr = s.pwr.disarmed := by rw [ht, hout, hu, hnor]; rfl
  have hrails : t.enabledRails = s.enabledRails := by rw [State.enabledRails, hpwr]; rfl
  have hlinks : ∀ n, (t.link n).up = false := fun n => by
    have hlink : t.link n = s.abandonNor.darken.link n := by rw [ht, hout, hu]; rfl
    rw [hlink, darken_link]
  refine ⟨t, ?_, by rw [ht, hout, hu]; rfl, hpwr, by rw [ht, hout, hu, hnor]; rfl, by rw [ht, hout, hu, hnor]; rfl, hlinks⟩
  rw [← hrails, ht, hu]
  rfl

/-- Once the rails go down: the power state, the standby part but for its rails, the stockpot, the links. -/
theorem powerDown_standby (s : State) : s.powerDown.pwrState = .shutdown ∧
    s.powerDown.pwr = { s.pwr.disarmed with rails := s.powerDown.pwr.rails } ∧ s.powerDown.stk = s.stk ∧
    ∀ n, (s.powerDown.link n).up = false := by
  obtain ⟨t, hdown, hstate, hpwr, hstk, -, hlinks⟩ := powerDown_eq s
  rw [hdown]
  split
  next => exact ⟨hstate, by rw [hpwr], hstk, hlinks⟩
  next i rs _ =>
    refine ⟨hstate, ?_, hstk, hlinks⟩
    have hlow : (t.lowerRail i).pwr = { t.pwr with rails := (t.lowerRail i).pwr.rails } := rfl
    refine hlow.trans ?_
    rw [hpwr]

end Sys2Proof.Machine
end

section
/-!
SUPPORT. Warm resets begin, and commits are judged (16_bring_up.md R451, R453, R471, R472).
-/

namespace Sys2Proof.Machine

open Sys2Proof Sys2Proof.Safety Sys2Proof.Laws

/-! ### A warm reset (R453) -/

/-- A warm reset with no frame held: the links are down, the pre-reset phase begins, and the power state stays. -/
theorem warmReset_begins {s : State} (hstate : s.pwrState = .boil ∨ s.pwrState = .simmer) (hheld : s.heldFrames = false) (trap : Bool) :
    (s.warmReset trap).boot.seq = .preReset ∧ (s.warmReset trap).boot.began = s.now ∧ (s.warmReset trap).boot.trapped = trap ∧
      (s.warmReset trap).cmt.pending = false ∧ (∀ n, n < 32 → ((s.warmReset trap).link n).up = false) ∧
      (s.warmReset trap).pwrState = s.pwrState := by
  obtain ⟨u, hu⟩ : ∃ u, u = s.holdLinks.stopWhisks := ⟨_, rfl⟩
  have hcore : u.core = s.holdLinks.core := by rw [hu]; simp
  have hstand : u.standing = s.standing := (standing_of_core hcore).trans (holdLinks_standing s)
  simp only [State.standing, Prod.mk.injEq] at hstand
  obtain ⟨hpwrState, -⟩ := hstand
  have hwarm : s.warmReset trap = { u with
      cmt := { u.cmt with pending := false, ports := [], waiting := [], requests := [] }
      boot := { u.boot with seq := .preReset, began := s.now, trapped := trap } } := by
    unfold State.warmReset
    rw [if_neg (by rcases hstate with h | h <;> simp [h]), if_neg (by simp [hheld]), hu]
  rw [hwarm]
  refine ⟨rfl, rfl, rfl, rfl, fun n hn => ?_, hpwrState⟩
  have hkey := key_of_core hcore n
  simp only [linkKey, Prod.mk.injEq] at hkey
  obtain ⟨hup, -⟩ := hkey
  exact hup.trans (holdLinks_link hn s).1

/-- A warm reset with frames held in pantry bare is a Flush. -/
theorem warmReset_flushes {s : State} (hstate : s.pwrState = .boil ∨ s.pwrState = .simmer) (hheld : s.heldFrames = true) (trap : Bool) :
    s.warmReset trap = ({ s with boot := { s.boot with trapped := trap } } : State).flush 3 := by
  unfold State.warmReset
  rw [if_neg (by rcases hstate with h | h <;> simp [h]), if_pos hheld]

/-! ### A commit (R471) -/

/-- What judging the staged sets leaves: the stockpot and the ports. -/
theorem judgeStaged_keeps (s : State) (cs : SMap W32) (serial : BitVec 8) :
    (s.judgeStaged cs serial).2.stk = s.stk ∧ (s.judgeStaged cs serial).2.ports = s.ports := by
  obtain ⟨view, hview⟩ : ∃ view : State → Stockpot × HostPorts, view = fun t => (t.stk, t.ports) := ⟨_, rfl⟩
  have hlive : ∀ (t : State) (p : RPage) (o : Nat) (v : W32), view (t.setLive p o v) = view t := fun _ _ _ _ => by rw [hview]; rfl
  have hjudged : ∀ (t : State) (p : RPage) (bad : Option Nat), view (t.judged p bad serial) = view t := fun t p bad => hlive _ _ _ _
  have hmark : view (s.markWindows (s.withChanges cs) (pagesOf cs)) = view s := by
    refine foldl_keeps view (fun t p => ?_) _ s
    split
    · exact foldl_keeps view (fun x k => hlive _ _ _ _) _ t
    · rfl
  unfold State.judgeStaged
  extract_lets t ps win full u v w spr x
  have hv : view v = view s := (foldl_keeps view (fun x p => hjudged x p _) _ u).trans hmark
  have hw : view w = view s := by
    dsimp only [w]
    split
    · exact (hjudged v _ _).trans hv
    · split
      · exact hv
      · exact (hjudged v _ _).trans hv
  have hx : view x = view s := by
    dsimp only [x]
    split
    · rw [← hw, hview]
    · exact hv
  rw [hview] at hx
  exact ⟨congrArg Prod.fst hx, congrArg Prod.snd hx⟩

/-- Changes that stand become pending (R471). -/
theorem startCommit_stands {s : State} (path : Path) (hc : s.changes ≠ []) (hgood : (s.judgeStaged s.changes (s.cmt.serial + 1)).1 = true) :
    ∃ span quiesce, s.startCommit path = { (s.judgeStaged s.changes (s.cmt.serial + 1)).2 with
      cmt := { s.cmt with
        serial := s.cmt.serial + 1, span := span, quiesce := quiesce, pending := true, by_ := some path, result := 2, since := s.now
        changes := s.changes
        ports := if decide ((pagesOf s.changes).length = 1) || (List.range 32).all (fun n => !(s.link n).memActive) then []
          else affectedPorts (pagesOf s.changes) } } := by
  unfold State.startCommit
  dsimp only
  rw [if_neg (by simpa using hc), if_neg (by rw [hgood]; decide)]
  exact ⟨_, _, rfl⟩

/-- Changes that do not stand are refused (R471). -/
theorem startCommit_fails {s : State} (path : Path) (hc : s.changes ≠ []) (hbad : (s.judgeStaged s.changes (s.cmt.serial + 1)).1 = false) :
    ∃ span quiesce, s.startCommit path = { (s.judgeStaged s.changes (s.cmt.serial + 1)).2 with
      cmt := { s.cmt with serial := s.cmt.serial + 1, span := span, quiesce := quiesce, result := 4 } } := by
  unfold State.startCommit
  dsimp only
  rw [if_neg (by simpa using hc), if_pos (by rw [hbad]; rfl)]
  exact ⟨_, _, rfl⟩

/-- The listed value of a key that a filter over keys keeps. -/
theorem SMap.find_filter_key {α : Type} (m : SMap α) (q : Nat → Bool) {k : Nat} (hk : q k = true) :
    SMap.find (m.filter (fun e => q e.1)) k = m.find k := by
  induction m with
  | nil => rfl
  | cons e m ih =>
    by_cases he : e.1 = k
    · simp [SMap.find, he, hk]
    · cases hq : q e.1
      · simp [SMap.find, he, hq, ih]
      · simp [SMap.find, he, hq, ih]

/-- The shadow of a staged register, once every shadow is reloaded, is its live value. -/
theorem getShadow_discardShadows (s : State) {p : RPage} {o : Nat} {r : RegRow} (hl : locate (p.base + o) = some (p, o))
    (hr : p.row o = some r) (hstaged : r.staged = true) : s.discardShadows.getShadow p o = s.getLive p o := by
  have hfind := SMap.find_filter_key s.regs.live (fun k => match locate k with
    | none => false
    | some (p, o) => match p.row o with
      | none => false
      | some r => r.staged) (k := p.base + o) (by simp only [hl, hr, hstaged])
  exact congrArg (fun x => Option.getD x (p.house s.fuses.grade o)) hfind

end Sys2Proof.Machine

namespace Sys2Proof.Proofs

open Sys2Proof Sys2Proof.Machine Sys2Proof.Safety Sys2Proof.Laws

theorem warmResetBegins : Claims.WarmResetBegins := by
  unfold Claims.WarmResetBegins
  intro s path hw hrec
  have hexec : ∀ t, (if s.boot.ready && decide (s.boot.seq ≠ .preReset) then s.warmReset false else s) = t →
      exec (.warmReset path) s = .next t := by
    intro t ht
    show execWarmReset path s = _
    rw [execWarmReset, portWrite_of_writes hw rfl]
    simp only [mayWrite_of_writes hw, hrec, Bool.false_or, Bool.true_or, Bool.true_and]
    exact congrArg Host.Outcome.next ht
  refine ⟨fun hready hseq hstate hheld => ?_, fun hready hseq hstate hheld harmed => ?_, fun hnot => hexec s ?_⟩
  · refine ⟨_, hexec _ (if_pos (by simp [hready, hseq])), warmReset_begins hstate hheld false⟩
  · have hflush := flush_armed (s := { s with boot := { s.boot with trapped := false } })
      (by rcases hstate with h | h <;> simp [h, PState.flushable]) harmed 3
    rw [← warmReset_flushes hstate hheld false] at hflush
    obtain ⟨hpwrState, hpwr, -⟩ := hflush
    exact ⟨_, hexec _ (if_pos (by simp [hready, hseq])), hpwrState, by rw [hpwr]; rfl⟩
  · rw [if_neg]
    rcases hnot with h | h <;> simp [h]

theorem commitsAreJudged : Claims.CommitsAreJudged := by
  unfold Claims.CommitsAreJudged
  intro s path hw
  have hcommit : exec (.commit path) s = .next (if s.takesKey path then s.startCommit path else s) := by
    show execCommit path s = _
    rw [execCommit, portWrite_of_writes hw rfl]
  have hdiscard : exec (.discard path) s = .next (if s.takesKey path then s.discardShadows else s) := by
    show execDiscard path s = _
    rw [execDiscard, portWrite_of_writes hw rfl]
  have htakes : s.takesKey path = !s.cmt.pending := by rw [State.takesKey, mayWrite_of_writes hw, Bool.true_and]
  refine ⟨fun hp hc => ?_, fun hp hc hgood hmem => ?_, fun hp hc hbad => ?_, fun hp => ?_, fun hp => ?_⟩
  · rw [hcommit, htakes, hp, State.startCommit, hc]
    rfl
  · obtain ⟨span, quiesce, hstart⟩ := startCommit_stands path hc hgood
    obtain ⟨hstk, hports⟩ := judgeStaged_keeps s s.changes (s.cmt.serial + 1)
    rw [hcommit, htakes, hp]
    refine ⟨_, congrArg Host.Outcome.next hstart, rfl, rfl, rfl, rfl, ?_, rfl, rfl, hstk, hports⟩
    exact if_pos (by simp [hmem])
  · obtain ⟨span, quiesce, hstart⟩ := startCommit_fails path hc hbad
    obtain ⟨hstk, -⟩ := judgeStaged_keeps s s.changes (s.cmt.serial + 1)
    rw [hcommit, htakes, hp]
    exact ⟨_, congrArg Host.Outcome.next hstart, hp, rfl, rfl, hstk⟩
  · rw [hdiscard, htakes, hp]
    exact ⟨_, rfl, rfl, fun p o r hl hr hs => getShadow_discardShadows s hl hr hs⟩
  · rw [hcommit, hdiscard, htakes, hp]
    exact ⟨rfl, rfl⟩

/-- Settles O59: a warm reset holds the links and stops the whisks, which leaves the power state, or is a Flush; judging the staged sets
writes registers alone. -/
theorem resetsAndCommits : Obligations.ResetsAndCommits := ⟨warmResetBegins, commitsAreJudged⟩

end Sys2Proof.Proofs
end

section
/-!
SUPPORT. The kettle and the triggers of Flush (15_power.md R427 to R434, 16_bring_up.md R453).
-/

namespace Sys2Proof.Machine

open Sys2Proof Sys2Proof.Safety Sys2Proof.Laws

/-! ### The capacitance test (R427, R428) -/

theorem emit_emit (s : State) (a b : Output) : (s.emit a).emit b = { s with out := s.out ++ [a, b] } := by
  have hout : s.out ++ [a] ++ [b] = s.out ++ [a, b] := List.append_assoc _ _ _
  exact congrArg (fun out => { s with out := out }) hout

/-- The standby part, the clock, and whether the test's interrupt bit is set. -/
def State.gauge (s : State) : Power × Nat × Bool := (s.pwr, s.now, (s.irqStat .pwr).getLsbD 3)

theorem record_gauge (s : State) (code p0 p1 p2 p3 : Nat) : (s.record code p0 p1 p2 p3).gauge = s.gauge := rfl

theorem standby_of_noted {s t : State} (h : Noted s t) : t.pwr = s.pwr ∧ t.now = s.now := by
  obtain ⟨_, _, _, _, _, rfl, _⟩ := h
  exact ⟨rfl, rfl⟩

/-- Once its bit is set, the test's interrupt stays, whichever event follows. -/
theorem raise_gauge {s : State} (h : (s.irqStat .pwr).getLsbD 3 = true) (p : RPage) (i : Nat) : (s.raise p i).gauge = s.gauge := by
  obtain ⟨hpwr, hnow⟩ := standby_of_noted (noted_raise s p i)
  have hbit : ((s.raise p i).irqStat .pwr).getLsbD 3 = true := by
    rw [irqStat_raise]
    split
    · rw [BitVec.getLsbD_or, h, Bool.true_or]
    · exact h
  rw [State.gauge, State.gauge, hpwr, hnow, hbit, h]

theorem testEnds_gauge {s : State} (h : (s.irqStat .pwr).getLsbD 3 = true) (test result : Nat) :
    (s.testEnds test result).gauge = s.gauge := by
  unfold State.testEnds
  split
  · exact raise_gauge (s := { s with thm := { s.thm with testState := 0, testResult := result } }) h _ _
  · rfl

theorem presentMemory_gauge (s : State) : s.presentMemory.gauge = s.gauge := by
  unfold State.presentMemory
  split
  · rfl
  · rfl

/-- The standby part once the capacitance test has ended (R427, R428). -/
def State.judgedBank (s : State) (uf : Option Nat) : Power :=
  { s.pwr with
    testing := false, charging := true, testReq := false, test := if uf.isNone then 3 else 0, cap := uf.getD s.pwr.cap, capAt := s.now
    hold := s.vHold (uf.getD s.pwr.cap)
    weak := uf.isSome && decide (uf.getD s.pwr.cap < s.kettleWeakAt)
    fault := match uf with
      | none => true
      | some c => s.kettleShort c
    armed := s.pwr.armed || (decide (s.pwrState = .starting) && !s.pwr.armed) }

/-- The test's end: what it finds, and its interrupt. -/
theorem kettleDone_gauge (s : State) (uf : Option Nat) : (s.kettleDone uf).gauge = (s.judgedBank uf, s.now, true) := by
  unfold State.kettleDone
  extract_lets bad c hold weak start pwr t u v w x y
  have hv : v.gauge = (s.judgedBank uf, s.now, true) := by
    have hbit : ((u.raise .pwr 3).irqStat .pwr).getLsbD 3 = true := irqStat_raise_self u .pwr (by decide)
    obtain ⟨hpwr, hnow⟩ := standby_of_noted (noted_raise u .pwr 3)
    have hraise : (u.raise .pwr 3).gauge = (s.judgedBank uf, s.now, true) := by
      rw [State.gauge, hbit, hpwr, hnow]
      rfl
    exact (record_gauge _ _ _ _ _ _).trans hraise
  have hvbit : (v.irqStat .pwr).getLsbD 3 = true := congrArg (fun g => g.2.2) hv
  have hw : w.gauge = v.gauge := by
    dsimp only [w]
    split
    · exact (record_gauge _ _ _ _ _ _).trans (raise_gauge hvbit _ _)
    · rfl
  have hx : x.gauge = w.gauge := by
    dsimp only [x]
    split
    · exact record_gauge _ _ _ _ _ _
    · rfl
  have hy : y.gauge = x.gauge := by
    dsimp only [y]
    split
    · exact record_gauge _ _ _ _ _ _
    · rfl
  have hyv : y.gauge = (s.judgedBank uf, s.now, true) := hy.trans (hx.trans (hw.trans hv))
  have hybit : (y.irqStat .pwr).getLsbD 3 = true := congrArg (fun g => g.2.2) hyv
  rw [presentMemory_gauge, testEnds_gauge hybit, hyv]

/-- What a measured bank allows is read from the registers. -/
theorem bank_of_regs {s t : State} (hregs : t.regs = s.regs) (hfuses : t.fuses = s.fuses) (c : Nat) :
    t.vHold c = s.vHold c ∧ t.kettleShort c = s.kettleShort c ∧ t.kettleWeakAt = s.kettleWeakAt := by
  have hfld : ∀ o hi lo, t.liveFld .pwr o hi lo = s.liveFld .pwr o hi lo := fun o hi lo => by
    rw [State.liveFld, State.liveFld, State.getLive, State.getLive, hregs, hfuses]
  have hmargin : t.kettleMargin = s.kettleMargin := by rw [State.kettleMargin, State.kettleMargin, hfld]
  have hneed : t.kettleNeed = s.kettleNeed := by rw [State.kettleNeed, State.kettleNeed, hfld]
  have hready : t.kettleReady = s.kettleReady := by rw [State.kettleReady, State.kettleReady, hfld]
  refine ⟨?_, ?_, ?_⟩
  · rw [State.vHold, State.vHold, hmargin, hneed]
  · rw [State.kettleShort, State.kettleShort, hready, hmargin, hneed]
  · rw [State.kettleWeakAt, State.kettleWeakAt, hfld]

/-- The discharge that gives the bank's capacitance, whatever it is: stated for every `c`, so that nothing here computes one. -/
theorem kettleDone_measures {s u : State} {now kettle : Nat} (hu : u = { s with now := now, pwr := { s.pwr with kettle := kettle } })
    (c : Nat) :
    (u.kettleDone (some c)).now = now ∧ (u.kettleDone (some c)).pwr.cap = c ∧ (u.kettleDone (some c)).pwr.testing = false ∧
      (u.kettleDone (some c)).pwr.charging = true ∧ (u.kettleDone (some c)).pwr.testReq = false ∧
      (u.kettleDone (some c)).pwr.test = 0 ∧ (u.kettleDone (some c)).pwr.kettle = kettle ∧
      (u.kettleDone (some c)).pwr.hold = s.vHold c ∧ (u.kettleDone (some c)).pwr.fault = s.kettleShort c ∧
      (u.kettleDone (some c)).pwr.weak = decide (c < s.kettleWeakAt) ∧
      (u.kettleDone (some c)).pwr.armed = (s.pwr.armed || decide (s.pwrState = .starting)) ∧
      ((u.kettleDone (some c)).irqStat .pwr).getLsbD 3 = true := by
  have hgauge := kettleDone_gauge u (some c)
  simp only [State.gauge, Prod.mk.injEq] at hgauge
  obtain ⟨hpwr, hnow, hbit⟩ := hgauge
  obtain ⟨hhold, hshort, hweak⟩ := bank_of_regs (s := s) (t := u) (by rw [hu]) (by rw [hu]) c
  refine ⟨hnow.trans (by rw [hu]), ?_, ?_, ?_, ?_, ?_, ?_, ?_, ?_, ?_, ?_, hbit⟩
  all_goals rw [hpwr]
  · rfl
  · rfl
  · rfl
  · rfl
  · rfl
  · rw [State.judgedBank, hu]
  · exact hhold
  · exact hshort
  · rw [State.judgedBank, hweak]
    rfl
  · rw [State.judgedBank, hu]
    show (s.pwr.armed || (decide (s.pwrState = .starting) && !s.pwr.armed)) = _
    cases s.pwr.armed <;> simp

/-! ### Triggers (R431) -/

theorem trigger_flushable {s : State} (h : s.pwrState.flushable = true) (cause : Nat) : s.trigger cause = s.flush cause := by
  unfold State.trigger
  rw [if_neg]
  intro hr
  rw [hr] at h
  cases h

theorem flush_unarmed {s : State} (hf : s.pwrState.flushable = true) (ha : s.pwr.armed = false) (cause : Nat) :
    s.flush cause = s.powerDown := by
  unfold State.flush
  rw [if_neg (by simp [hf]), if_pos (by simp [ha])]

theorem trigger_flushing {s : State} (h : s.pwrState = .flush) (cause : Nat) : s.trigger cause = s := by
  unfold State.trigger State.flush
  rw [if_neg (by simp [h]), if_pos (by simp [h, PState.flushable])]

end Sys2Proof.Machine

namespace Sys2Proof.Proofs

open Sys2Proof Sys2Proof.Machine Sys2Proof.Safety Sys2Proof.Laws

theorem kettleIsMeasured : Claims.KettleIsMeasured := by
  unfold Claims.KettleIsMeasured
  intro s
  refine ⟨fun v hcharging htesting hdue hready => ?_, fun us htesting => ⟨fun hus => ?_, fun hus => ?_, ?_⟩,
    fun v harmed hflushable hhold hsupply hlow => ?_, fun v hhold hhigh => ?_⟩
  · show execKettleReady v s = _
    rw [execKettleReady]
    dsimp only
    rw [if_pos]
    · exact congrArg Host.Outcome.next (emit_emit _ _ _)
    · refine ⟨hcharging, by simp [htesting], ?_, hready⟩
      rcases hdue with h | ⟨h, h'⟩
      · simp [h]
      · simp [h, h']
  · obtain ⟨u, hu⟩ : ∃ u : State, u = { s with
        now := max s.now (s.pwr.testAt + us.toNat * Config.us), pwr := { s.pwr with kettle := s.pwr.v0 * 9 / 10 } } := ⟨_, rfl⟩
    have hexec : exec (.kettleTestDischarge us) s = .next (u.kettleDone (some (kettleC us.toNat))) := by
      show execKettleTestDischarge us s = _
      rw [execKettleTestDischarge, if_pos ⟨htesting, hus⟩, hu]
      rfl
    exact ⟨_, hexec, kettleDone_measures hu _⟩
  · show execKettleTestDischarge us s = _
    rw [execKettleTestDischarge, if_neg (by omega)]
  · obtain ⟨u, hu⟩ : ∃ u : State, u = s.reach (s.pwr.testAt + 400 * Config.ms) := ⟨_, rfl⟩
    have hexec : exec .kettleTestTimeout s = .next (u.kettleDone none) := by
      show execKettleTestTimeout s = _
      rw [execKettleTestTimeout, if_pos htesting, hu]
    have hgauge := kettleDone_gauge u none
    simp only [State.gauge, Prod.mk.injEq] at hgauge
    obtain ⟨hpwr, hnow, hbit⟩ := hgauge
    refine ⟨_, hexec, hnow.trans (by rw [hu]; rfl), ?_, ?_, ?_, ?_, hbit⟩
    all_goals rw [hpwr, hu]
    · rfl
    · rfl
    · rfl
    · rfl
  · have hexec : exec (.writeHold v) s = .next (({ s with pwr := { s.pwr with writeHold := true, kettle := v.toNat } } : State).raise .pwr 1) := by
      show execWriteHold v s = _
      rw [execWriteHold, if_pos ⟨harmed, hflushable, by simp [hhold], decide_eq_true hsupply, hlow⟩]
    exact ⟨_, hexec, irqStat_raise_self _ .pwr (by decide), noted_raise _ _ _⟩
  · have hexec : exec (.writeHoldEnd v) s = .next { s with
        pwr := { s.pwr with writeHold := false, kettle := v.toNat }
        ports := { s.ports with links := s.ports.links.mapVal (fun _ (l : Link) =>
          { l with credits := l.credits + l.owed, owed := 0 }) } } := by
      show execWriteHoldEnd v s = _
      rw [execWriteHoldEnd, if_pos ⟨hhold, hhigh⟩]
    refine ⟨_, hexec, rfl, fun n => ?_⟩
    simp only [State.link, SMap.getD, SMap.find_mapVal]
    cases s.ports.links.find n with
    | none => exact ⟨rfl, rfl, rfl, rfl⟩
    | some l => exact ⟨rfl, rfl, rfl, rfl⟩

/-- What a command of the triggers does: it takes note of the pin it reports, and triggers; a kettle at its floor triggers where Flush is
armed. -/
theorem trigger_of_exec (s : State) {c : Instr} {cause : Nat}
    (h : (c, cause) ∈ [(Instr.supplyFail, 1), (Instr.kettleFloor, 2), (Instr.flushReq true, 3), (Instr.referenceClockAbsent, 5)]) :
    (∃ ok req, exec c s = .next (({ s with pwr := { s.pwr with supplyOk := ok, flushReq := req } } : State).trigger cause)) ∨
      (c = .kettleFloor ∧ s.pwr.armed = false ∧ exec c s = .next s) := by
  simp only [List.mem_cons, Prod.mk.injEq, List.not_mem_nil, or_false] at h
  rcases h with ⟨rfl, rfl⟩ | ⟨rfl, rfl⟩ | ⟨rfl, rfl⟩ | ⟨rfl, rfl⟩
  · exact .inl ⟨_, _, rfl⟩
  · cases ha : s.pwr.armed
    · refine .inr ⟨rfl, rfl, ?_⟩
      show execKettleFloor s = _
      rw [execKettleFloor, if_neg (by simp [ha])]
    · refine .inl ⟨s.pwr.supplyOk, s.pwr.flushReq, ?_⟩
      show execKettleFloor s = _
      rw [execKettleFloor, if_pos ha]
  · exact .inl ⟨_, _, rfl⟩
  · exact .inl ⟨s.pwr.supplyOk, s.pwr.flushReq, rfl⟩

theorem flushIsTriggered : Claims.FlushIsTriggered := by
  unfold Claims.FlushIsTriggered
  intro s
  refine ⟨fun c cause hc => ⟨fun hf ha => ?_, fun hf ha hfloor => ?_, fun hflush => ?_⟩, rfl, fun us hf => ?_, fun hflush => ?_,
    fun hflush => ?_⟩
  · rcases trigger_of_exec s hc with ⟨ok, req, hexec⟩ | ⟨-, ha', -⟩
    · obtain ⟨u, hu⟩ : ∃ u : State, u = { s with pwr := { s.pwr with supplyOk := ok, flushReq := req } } := ⟨_, rfl⟩
      have hfu : u.pwrState.flushable = true := by rw [hu]; exact hf
      rw [← hu, trigger_flushable hfu] at hexec
      obtain ⟨hstate, hpwr, hseq, hfrozen, hlinks⟩ := flush_armed hfu (by rw [hu]; exact ha) cause
      exact ⟨_, hexec, hstate, by rw [hpwr]; rfl, by rw [hpwr, hu]; rfl, by rw [hpwr]; rfl, hfrozen, hlinks, hseq⟩
    · rw [ha] at ha'
      cases ha'
  · rcases trigger_of_exec s hc with ⟨ok, req, hexec⟩ | ⟨hfloor', -⟩
    · obtain ⟨u, hu⟩ : ∃ u : State, u = { s with pwr := { s.pwr with supplyOk := ok, flushReq := req } } := ⟨_, rfl⟩
      have hfu : u.pwrState.flushable = true := by rw [hu]; exact hf
      rw [← hu, trigger_flushable hfu, flush_unarmed hfu (by rw [hu]; exact ha)] at hexec
      obtain ⟨hstate, -, hstk, hlinks⟩ := powerDown_standby u
      exact ⟨_, hexec, hstate, hstk.trans (by rw [hu]), hlinks⟩
    · exact absurd hfloor' hfloor
  · rcases trigger_of_exec s hc with ⟨ok, req, hexec⟩ | ⟨-, -, hexec⟩
    · obtain ⟨u, hu⟩ : ∃ u : State, u = { s with pwr := { s.pwr with supplyOk := ok, flushReq := req } } := ⟨_, rfl⟩
      have hfu : u.pwrState = .flush := by rw [hu]; exact hflush
      rw [← hu, trigger_flushing hfu] at hexec
      exact ⟨u, hexec, hfu, by rw [hu], by rw [hu], by rw [hu]⟩
    · exact ⟨_, hexec, hflush, rfl, rfl, rfl⟩
  · have hexec : exec (.brownout us) s = .next ((s.raise .pwr 0).record 0x8001 us.val 0 0 0) := by
      show execBrownout us s = _
      rw [execBrownout, if_pos hf]
    refine ⟨_, hexec, noted_trans (noted_raise _ _ _) (noted_record _ _ _ _ _ _), irqStat_raise_self s .pwr (by decide), ?_⟩
    exact (Rail.waiting_push _ _ _ _).trans (by rw [State.raise_rails]; rfl)
  · obtain ⟨u, hu⟩ : ∃ u : State, u = { s with pwr := { s.pwr with abandoned := true } } := ⟨_, rfl⟩
    have hexec : exec .flushAbandon s = .next u.powerDown := by
      show execFlushAbandon s = _
      rw [execFlushAbandon, if_pos hflush, hu]
    obtain ⟨hstate, hpwr, -, hlinks⟩ := powerDown_standby u
    exact ⟨_, hexec, hstate, by rw [hpwr, hu]; rfl, by rw [hpwr, hu]; rfl, hlinks⟩
  · show execFlushAbandon s = _
    rw [execFlushAbandon, if_neg hflush]

theorem warmResetTimesOut : Claims.WarmResetTimesOut := by
  unfold Claims.WarmResetTimesOut
  intro s
  refine ⟨fun hseq hf ha => ?_, fun hseq => ?_⟩
  · have hexec : exec .warmResetTimeout s = .next ((s.reach (s.boot.began + 50 * Config.ms)).flush 3) := by
      show execWarmResetTimeout s = _
      rw [execWarmResetTimeout, if_pos hseq]
    obtain ⟨hstate, hpwr, -⟩ := flush_armed (s := s.reach (s.boot.began + 50 * Config.ms)) hf ha 3
    exact ⟨_, hexec, hstate, by rw [hpwr]; rfl, by rw [hpwr]; rfl⟩
  · show execWarmResetTimeout s = _
    rw [execWarmResetTimeout, if_neg hseq]

/-- Settles O57: the capacitance test's end judges the bank and notes it; a trigger starts Flush where it is armed, takes the rails down
where it is not, and does nothing once Flush runs. -/
theorem kettleAndFlush : Obligations.KettleAndFlush := ⟨kettleIsMeasured, flushIsTriggered, warmResetTimesOut⟩

end Sys2Proof.Proofs
end

section
/-!
SUPPORT. VAUX, and the rails on their way up and down (15_power.md R417 to R423, R436, R440).
-/

namespace Sys2Proof.Machine

open Sys2Proof Sys2Proof.Safety Sys2Proof.Laws

/-! ### Rails -/

theorem mem_enabledRails {s : State} {k : Nat} : k ∈ s.enabledRails ↔ k < 8 ∧ (s.rail k).enabled = true := by
  simp [State.enabledRails, State.rail]

/-- The rails whose enable is high depend on the enables alone. -/
theorem enabledRails_congr {s t : State} (h : ∀ k, k < 8 → (t.rail k).enabled = (s.rail k).enabled) : t.enabledRails = s.enabledRails :=
  congrArg List.reverse (List.filter_congr (fun k hk => h k (List.mem_range.mp hk)))

/-- The rails up to one are the highest first. -/
theorem enabledRails_upTo {s : State} {i : Fin 8} (h : ∀ k, k < 8 → (s.rail k).enabled = decide (k ≤ i.val)) :
    s.enabledRails = (List.range (i.val + 1)).reverse := by
  have hupTo : ∀ i : Fin 8, (List.range 8).filter (fun k => decide (k ≤ i.val)) = List.range (i.val + 1) := by decide
  rw [← hupTo i]
  exact congrArg List.reverse (List.filter_congr (fun k hk => h k (List.mem_range.mp hk)))

theorem rail_lowerRail (s : State) (i k : Nat) : (s.lowerRail i).rail k =
    if k = i then { s.rail i with enabled := false, dropping := true, since := s.now } else s.rail k :=
  State.rail_updRail s i k _

/-- The standby part but for its rails, the power state, the clock and the latch. -/
def State.lowered (s : State) : PState × Power × Nat := (s.pwrState, { s.pwr with rails := [] }, s.now)

theorem lowerEach_lowered (ks : List Nat) (s : State) : (ks.foldl (fun u k => u.lowerRail k) s).lowered = s.lowered := by
  refine foldl_keeps State.lowered (fun _ _ => ?_) ks s
  rfl

/-- The rails of a list are lowered, and no other rises. -/
theorem lowerEach_enabled (ks : List Nat) (k : Nat) : ∀ s : State, (s.rail k).enabled = false ∨ k ∈ ks →
    ((ks.foldl (fun u k => u.lowerRail k) s).rail k).enabled = false := by
  induction ks with
  | nil => simp
  | cons j ks ih =>
    intro s h
    refine ih (s.lowerRail j) ?_
    rw [rail_lowerRail]
    by_cases hj : k = j
    · exact .inl (by rw [if_pos hj])
    · rw [if_neg hj]
      exact h.imp id (fun hmem => by simpa [hj] using hmem)

/-- Every rail is off its enable once all that were up are lowered. -/
theorem lowerAll_enabled {s t : State} (h : ∀ k, (t.rail k).enabled = (s.rail k).enabled) {k : Nat} (hk : k < 8) :
    ((s.enabledRails.foldl (fun u k => u.lowerRail k) t).rail k).enabled = false := by
  refine lowerEach_enabled _ k t ?_
  rw [h]
  cases he : (s.rail k).enabled
  · exact .inl rfl
  · exact .inr (mem_enabledRails.mpr ⟨hk, he⟩)

/-- Every rail at once (R421, R423): the standby part but for its rails, and every enable low. -/
theorem cutRails_standby (s : State) : s.cutRails.pwrState = .shutdown ∧
    s.cutRails.pwr = { s.pwr.disarmed with rails := s.cutRails.pwr.rails } ∧ ∀ k, k < 8 → (s.cutRails.rail k).enabled = false := by
  obtain ⟨free, nor, flt, prot, hnor, -⟩ := abandonNor_eq s
  obtain ⟨u, hu⟩ : ∃ u : State, u = { s.abandonNor.darken with
      pwrState := .shutdown
      pwr := s.abandonNor.darken.pwr.disarmed
      boot := { s.abandonNor.darken.boot with seq := .idle, ready := false } } := ⟨_, rfl⟩
  obtain ⟨out, hout⟩ := kettleOff_eq (u.emit (.pin "ALIVE" false)) s.abandonNor.darken.pwr.testing
  obtain ⟨t, ht⟩ : ∃ t, t = (u.emit (.pin "ALIVE" false)).kettleOff s.abandonNor.darken.pwr.testing := ⟨_, rfl⟩
  have hcut : s.cutRails = u.enabledRails.foldl (fun u i => u.lowerRail i) t := by
    rw [ht, hu]
    rfl
  have htpwr : t.pwr = u.pwr := by rw [ht, hout]; rfl
  have hupwr : u.pwr = s.pwr.disarmed := by rw [hu, hnor]; rfl
  have hstate : t.pwrState = .shutdown := by rw [ht, hout, hu]; rfl
  have hlow := lowerEach_lowered u.enabledRails t
  rw [← hcut] at hlow
  simp only [State.lowered, Prod.mk.injEq] at hlow
  obtain ⟨hlstate, hlpwr, -⟩ := hlow
  refine ⟨hlstate.trans hstate, ?_, fun k hk => ?_⟩
  · have heta : s.cutRails.pwr = { { s.cutRails.pwr with rails := [] } with rails := s.cutRails.pwr.rails } := rfl
    rw [heta, hlpwr, htpwr, hupwr]
  · rw [hcut]
    exact lowerAll_enabled (fun k => by rw [State.rail, State.rail, htpwr]) hk

/-- A rail is enabled (R419): its regulator's faults are cleared, and its enable rises. -/
theorem raiseRail_eq (s : State) (i : Nat) : s.raiseRail i = { s.updRail i (fun r => { r with
      enabled := true, good := false, qualified := false, dropping := false, since := s.now, goodAt := s.now, requal := 0 }) with
    out := s.out ++ s.pmbSends i 0x03 ++ [.pin (enName i) true] } := by
  rw [State.raiseRail, pmb_eq]
  rfl

theorem rail_raiseRail (s : State) (i k : Nat) : (s.raiseRail i).rail k = if k = i then { s.rail i with
    enabled := true, good := false, qualified := false, dropping := false, since := s.now, goodAt := s.now, requal := 0 }
    else s.rail k := by
  rw [raiseRail_eq]
  exact State.rail_updRail s i k _

/-- What enabling a rail leaves: the power state, the clock, the start, the fuses, the records; and its pin is the last message. -/
theorem raiseRail_keeps (s : State) (i : Nat) : (s.raiseRail i).lowered = s.lowered ∧ (s.raiseRail i).boot = s.boot ∧
    (s.raiseRail i).fuses = s.fuses ∧ (s.raiseRail i).spk = s.spk ∧ (s.raiseRail i).out.getLast? = some (.pin (enName i) true) := by
  rw [raiseRail_eq]
  exact ⟨rfl, rfl, rfl, rfl, List.getLast?_concat⟩

/-! ### A rail that fails (R422) -/

/-- The rails go down from the highest one; the standby part stays but for its rails. -/
theorem powerDown_rails {s : State} {i : Nat} {is : List Nat} (h : s.enabledRails = i :: is) (k : Nat) :
    s.powerDown.rail k = if k = i then { s.rail i with enabled := false, dropping := true, since := s.now } else s.rail k := by
  obtain ⟨t, hdown, -, hpwr, -, hnow, -⟩ := powerDown_eq s
  have hrail : ∀ j, t.rail j = s.rail j := fun j => by rw [State.rail, State.rail, hpwr]; rfl
  rw [hdown, h]
  refine (rail_lowerRail t i k).trans ?_
  rw [hrail, hrail, hnow]

theorem pmb_rail (s : State) (i code k : Nat) : (s.pmb i code 0).rail k = s.rail k := by
  rw [pmb_eq]
  rfl

/-- A rail that fails while the rails up to it are enabled: the fault is latched with its code, and the rails start down from it. -/
theorem railFail_standby {s : State} {i : Fin 8} (hupTo : ∀ k, k < 8 → (s.rail k).enabled = decide (k ≤ i.val)) (code : Nat)
    (status : BitVec 16) : (s.railFail code i.val status).pwrState = .shutdown ∧ (s.railFail code i.val status).pwr.latched = true ∧
      (s.railFail code i.val status).pwr.code = code ∧ (s.railFail code i.val status).pwr.rail = i.val ∧
      (s.railFail code i.val status).pwr.pmbStatus = status ∧ ((s.railFail code i.val status).rail i.val).enabled = false ∧
      ((s.railFail code i.val status).rail i.val).dropping = true ∧
      ∀ k, k < i.val → ((s.railFail code i.val status).rail k).enabled = true := by
  obtain ⟨u, hu⟩ : ∃ u, u = ((s.pmb i.val 0x79 0).updRail i.val (fun r => { r with status := status })).latchFault code i.val status :=
    ⟨_, rfl⟩
  have hrail : ∀ k, u.rail k = if k = i.val then { s.rail i.val with status := status } else s.rail k := fun k => by
    rw [hu]
    show ((s.pmb i.val 0x79 0).updRail i.val (fun r => { r with status := status })).rail k = _
    rw [State.rail_updRail, pmb_rail, pmb_rail]
  have henabled : ∀ k, k < 8 → (u.rail k).enabled = decide (k ≤ i.val) := fun k hk => by
    rw [hrail, ← hupTo k hk]
    split
    next h => rw [h]
    next => rfl
  have hfirst : u.enabledRails = i.val :: (List.range i.val).reverse := by
    rw [enabledRails_upTo henabled, List.range_succ, List.reverse_append]
    rfl
  have hfail : s.railFail code i.val status = u.powerDown := by rw [hu]; rfl
  obtain ⟨hstate, hpwr, -⟩ := powerDown_standby u
  have hlatched : u.pwr.latched = true ∧ u.pwr.code = code ∧ u.pwr.rail = i.val ∧ u.pwr.pmbStatus = status := by
    rw [hu]
    exact ⟨rfl, rfl, rfl, rfl⟩
  obtain ⟨hl, hc, hr, hp⟩ := hlatched
  rw [hfail]
  refine ⟨hstate, by rw [hpwr]; exact hl, by rw [hpwr]; exact hc, by rw [hpwr]; exact hr, by rw [hpwr]; exact hp, ?_, ?_, fun k hk => ?_⟩
  · rw [powerDown_rails hfirst, if_pos rfl]
  · rw [powerDown_rails hfirst, if_pos rfl]
  · rw [powerDown_rails hfirst, if_neg (Nat.ne_of_lt hk), henabled k (by omega)]
    exact decide_eq_true (Nat.le_of_lt hk)

/-! ### VAUX and the core's start (R417, R440) -/

theorem yvSends_eq (cmd : Nat) (xs : List Nat) : ∀ s : State, xs.foldl (fun u k => u.yvSend (k + 1) cmd) s =
    { s with out := s.out ++ xs.map (fun k => .yulvoga (yvFrame (k + 1) cmd)) } := by
  induction xs with
  | nil => intro s; simp
  | cons x xs ih =>
    intro s
    rw [List.foldl_cons, ih, List.map_cons]
    show { s with out := (s.out ++ [_]) ++ _ } = _
    rw [List.append_assoc, List.singleton_append]

/-- A table of one value over some keys. -/
theorem SMap.find_const {α : Type} (v : α) (xs : List Nat) (k : Nat) :
    SMap.find (xs.map (fun a => (a, v))) k = if k ∈ xs then some v else none := by
  induction xs with
  | nil => simp [SMap.find]
  | cons x xs ih =>
    by_cases hx : x = k
    · simp [SMap.find, hx]
    · simp [SMap.find, hx, ih, Ne.symm hx]

theorem dropTests_eq (q : List (Nat × Nat)) : ∀ s : State, ∃ rails, s.dropTests q = { s with rails := rails } := by
  induction q with
  | nil => exact fun s => ⟨s.rails, rfl⟩
  | cons e q ih =>
    intro s
    obtain ⟨rails, h⟩ := ih (s.record 0x8008 e.1 e.2 0 0)
    exact ⟨rails, h⟩

/-- What a cold start keeps: the clock, the fuses, the ring of records; the kettle is unmeasured. -/
theorem coldCore_keeps (s : State) : s.coldCore.pwr = s.restartPower false ∧ s.coldCore.now = s.now ∧
    s.coldCore.fuses = s.fuses ∧ s.coldCore.spk.ring = s.spk.ring := by
  obtain ⟨free, nor, flt, prot, hnor, -⟩ := abandonNor_eq s
  unfold State.coldCore
  extract_lets u mask r
  have hu : u.pwr = s.pwr ∧ u.now = s.now ∧ u.fuses = s.fuses ∧ u.spk = s.spk := by
    dsimp only [u]
    rw [hnor]
    exact ⟨rfl, rfl, rfl, rfl⟩
  clear_value u
  obtain ⟨hpwr, hnow, hfuses, hspk⟩ := hu
  generalize hdrop : State.dropTests _ u.thm.deferred = t
  obtain ⟨rails, hrails⟩ := dropTests_eq u.thm.deferred _
  rw [hdrop] at hrails
  rw [hrails]
  refine ⟨?_, hnow, hfuses, ?_⟩
  · show u.restartPower false = _
    rw [State.restartPower, State.restartPower, hpwr]
  · show u.spk.ring = _
    rw [hspk]

/-! ### A rail that qualifies (R419, R420) -/

/-- The rail that qualifies, and the address strap where it is VIO. -/
def State.qualify (s : State) (i strap : Nat) : State :=
  let t := (s.reach ((s.rail i).goodAt + 50 * Config.us)).updRail i (fun x => { x with good := true, qualified := true })
  if i = 4 then { t with boot := { t.boot with smbAddr := 0x64 + strap } } else t

theorem qualify_keeps (s : State) (i strap : Nat) : (s.qualify i strap).now = max s.now ((s.rail i).goodAt + 50 * Config.us) ∧
    (s.qualify i strap).pwrState = s.pwrState ∧ (s.qualify i strap).out = s.out ∧
    (i = 4 → (s.qualify i strap).boot.smbAddr = 0x64 + strap) ∧
    ∀ k, (s.qualify i strap).rail k = if k = i then { s.rail i with good := true, qualified := true } else s.rail k := by
  have hrail := fun k => State.rail_updRail (s.reach ((s.rail i).goodAt + 50 * Config.us)) i k
    (fun x => { x with good := true, qualified := true })
  unfold State.qualify
  dsimp only
  split
  · exact ⟨rfl, rfl, rfl, fun _ => rfl, hrail⟩
  next h => exact ⟨rfl, rfl, rfl, fun h' => absurd h' h, hrail⟩

/-- The rails up to one have qualified: the next is enabled, or the core starts. -/
theorem execRailQualified_eq {s : State} {i : Fin 8} {strap : Fin 4} (hramp : s.pwrState = .ramping)
    (hnot : (s.rail i.val).qualified = false) (hupTo : ∀ k, k < 8 → (s.rail k).enabled = decide (k ≤ i.val))
    (hbelow : ∀ k, k < i.val → (s.rail k).qualified = true)
    (htime : max s.now ((s.rail i.val).goodAt + 50 * Config.us) ≤ (s.rail i.val).since + 10 * Config.ms) :
    execRailQualified i strap s = .next (if i.val + 1 = 8 then (s.qualify i.val strap.val).enterStarting
      else (s.qualify i.val strap.val).raiseRail (i.val + 1)) := by
  obtain ⟨-, -, -, -, hrail⟩ := qualify_keeps s i.val strap.val
  have hall : (List.range 8).filter (fun k => ((s.qualify i.val strap.val).rail k).enabled) = List.range (i.val + 1) := by
    have hupTo' : ∀ i : Fin 8, (List.range 8).filter (fun k => decide (k ≤ i.val)) = List.range (i.val + 1) := by decide
    rw [← hupTo' i]
    refine List.filter_congr (fun k hk => ?_)
    rw [hrail, ← hupTo k (List.mem_range.mp hk)]
    split
    next h => rw [h]
    next => rfl
  have hqual : (List.range (i.val + 1)).all (fun k => ((s.qualify i.val strap.val).rail k).qualified) = true := by
    refine List.all_eq_true.mpr (fun k hk => ?_)
    rw [hrail]
    split
    next => rfl
    next h => exact hbelow k (by have := List.mem_range.mp hk; omega)
  rw [execRailQualified]
  dsimp only
  rw [if_pos ⟨hramp, by rw [hupTo i.val i.isLt]; simp, by simp [hnot], htime⟩]
  show (if ((List.range 8).filter (fun k => ((s.qualify i.val strap.val).rail k).enabled)).all
      (fun k => ((s.qualify i.val strap.val).rail k).qualified) = true then
    (if ((List.range 8).filter (fun k => ((s.qualify i.val strap.val).rail k).enabled)).length = 8 then
      Host.Outcome.next (s.qualify i.val strap.val).enterStarting
      else .next ((s.qualify i.val strap.val).raiseRail
        ((List.range 8).filter (fun k => ((s.qualify i.val strap.val).rail k).enabled)).length)) else _) = _
  rw [hall, if_pos hqual, List.length_range]
  split
  · rfl
  · rfl

theorem railQualified_goesOn {s : State} {i : Fin 8} {strap : Fin 4} (hramp : s.pwrState = .ramping)
    (hnot : (s.rail i.val).qualified = false) (hupTo : ∀ k, k < 8 → (s.rail k).enabled = decide (k ≤ i.val))
    (hbelow : ∀ k, k < i.val → (s.rail k).qualified = true)
    (htime : max s.now ((s.rail i.val).goodAt + 50 * Config.us) ≤ (s.rail i.val).since + 10 * Config.ms) :
    ∃ t, exec (.railQualified i strap) s = .next t ∧
      t.now = max s.now ((s.rail i.val).goodAt + 50 * Config.us) ∧ (t.rail i.val).qualified = true ∧
      (∀ k, k ≠ i.val → k ≠ i.val + 1 → t.rail k = s.rail k) ∧ (i.val = 4 → t.boot.smbAddr = 0x64 + strap.val) ∧
      (i.val < 7 → t.pwrState = .ramping ∧ (t.rail (i.val + 1)).enabled = true ∧ (t.rail (i.val + 1)).since = t.now ∧
        t.out.getLast? = some (.pin (enName (i.val + 1)) true)) ∧
      (i.val = 7 → t.pwrState = .starting ∧ t.boot.seq = .start ∧ t.out = s.out ++ [.pin "ALIVE" true]) := by
  have hexec : exec (.railQualified i strap) s = _ := execRailQualified_eq hramp hnot hupTo hbelow htime
  obtain ⟨hnow, hstate, hout, hsmb, hrail⟩ := qualify_keeps s i.val strap.val
  obtain ⟨u, hu⟩ : ∃ u, u = s.qualify i.val strap.val := ⟨_, rfl⟩
  rw [← hu] at hexec hnow hstate hout hsmb hrail
  have hself : (u.rail i.val).qualified = true := by rw [hrail, if_pos rfl]
  by_cases h7 : i.val = 7
  · rw [if_pos (by omega)] at hexec
    have hpwr : u.enterStarting.pwr = u.pwr := rfl
    have hrail' : ∀ k, u.enterStarting.rail k = u.rail k := fun k => by rw [State.rail, State.rail, hpwr]
    refine ⟨_, hexec, hnow, by rw [hrail']; exact hself, fun k hk _ => by rw [hrail', hrail, if_neg hk], fun h => by omega,
      fun h => by omega, fun _ => ⟨rfl, rfl, ?_⟩⟩
    rw [← hout]
    rfl
  · rw [if_neg (by omega)] at hexec
    obtain ⟨hlow, hboot, -, -, hlast⟩ := raiseRail_keeps u (i.val + 1)
    simp only [State.lowered, Prod.mk.injEq] at hlow
    obtain ⟨hstate', -, hnow'⟩ := hlow
    refine ⟨_, hexec, hnow'.trans hnow, ?_, fun k hk hk' => ?_, fun h => ?_, fun _ => ⟨?_, ?_, ?_, hlast⟩, fun h => absurd h h7⟩
    · rw [rail_raiseRail, if_neg (by omega), hself]
    · rw [rail_raiseRail, if_neg hk', hrail, if_neg hk]
    · rw [hboot, hsmb h]
    · rw [hstate', hstate, hramp]
    · rw [rail_raiseRail, if_pos rfl]
    · rw [rail_raiseRail, if_pos rfl, hnow']

end Sys2Proof.Machine

namespace Sys2Proof.Proofs

open Sys2Proof Sys2Proof.Machine Sys2Proof.Safety Sys2Proof.Laws

theorem vauxComesAndGoes : Claims.VauxComesAndGoes := by
  unfold Claims.VauxComesAndGoes
  intro s
  refine ⟨fun addr answers hv => ?_, fun hv addr answers => ?_, fun second => ?_⟩
  · obtain ⟨known, hknown⟩ : ∃ known : SMap YvSlave, known = if addr.val = 0 then
        ((List.range 16).filter (fun a => decide (1 ≤ a) && bitOf answers a)).map (fun a => (a, { YvSlave.none with present := true }))
      else [] := ⟨_, rfl⟩
    obtain ⟨u, hu⟩ : ∃ u : State, u = { s with
      pwrState := if s.pwr.latched then .fault else .cold
      pwr := { s.pwr with
        vaux := true, yvAddr := addr.val, coldAt := s.now, frameAt := s.now, slaves := known, yvLastOn := 0, yvLastAddr := 0
        code := if s.pwr.latched then s.pwr.code else 0, rail := if s.pwr.latched then s.pwr.rail else 0
        pmbStatus := if s.pwr.latched then s.pwr.pmbStatus else 0 } } := ⟨_, rfl⟩
    have hexec : exec (.vauxGood addr answers) s = .next { u with out := s.out ++
        (if addr.val = 0 then (List.range 15).map (fun k => .yulvoga (yvFrame (k + 1) 0x01)) else []) } := by
      show execVauxGood addr answers s = _
      rw [execVauxGood, if_neg (by simp [hv])]
      dsimp only
      rw [← hknown, ← hu]
      split
      · rw [yvSends_eq]
        rw [hu]
      · rw [List.append_nil, hu]
    have hslaves : addr.val = 0 → ∀ a, 1 ≤ a → a < 16 → (known.getD a .none).present = answers.getLsbD a := fun haddr a h1 h16 => by
      rw [hknown, if_pos haddr, SMap.getD, SMap.find_const]
      cases ha : answers.getLsbD a
      · rw [if_neg (by simp [bitOf, ha])]
        rfl
      · rw [if_pos (by simp [bitOf, ha, h1, h16])]
        rfl
    refine ⟨_, hexec, ?_, ?_, ?_, ?_, ?_, ?_, ?_, ?_, ?_⟩
    all_goals rw [hu]
    exact hslaves
  · show execVauxGood addr answers s = _
    rw [execVauxGood, if_pos hv]
  · obtain ⟨free, nor, flt, prot, hnor, -⟩ := abandonNor_eq s
    obtain ⟨u, hu⟩ : ∃ u : State, u = { s.abandonNor.darken with pwrState := .shutdown }.allOff := ⟨_, rfl⟩
    have hlinks : ∀ n, (u.link n).up = false := fun n => by
      have hlink : u.link n = s.abandonNor.darken.link n := by rw [hu]; rfl
      rw [hlink, darken_link]
    have hrest : u.fuses = s.fuses ∧ u.out = s.out := by
      rw [hu, hnor]
      exact ⟨rfl, rfl⟩
    have hexec : exec (.vauxLoss second) s = .next { u with
        pwrState := .cold
        pwr := { u.pwr with
          vaux := false, vauxLost := s.now, rails := [], armed := false, charging := false, testing := false, powerOn := false
          latched := s.pwr.latched && !second, offHeld := s.pwr.offHeld && !second }
        boot := { u.boot with seq := .idle, ready := false } } := by
      rw [hu]
      rfl
    obtain ⟨hfuses, hout⟩ := hrest
    exact ⟨_, hexec, rfl, rfl, rfl, rfl, rfl, rfl, rfl, hlinks, hfuses, hout⟩

theorem railsComeUp : Claims.RailsComeUp := by
  unfold Claims.RailsComeUp
  intro s
  refine ⟨fun supply hcold hvaux hreq => ⟨fun hstop => ?_, fun hlatched hoff haddr hsupply => ?_⟩, fun i hramp hnot hupTo =>
    ⟨fun strap hbelow htime => ?_, fun status => ?_, fun status => ⟨fun hthree => ?_, fun hthree => ?_⟩⟩⟩
  · show execStartRamping supply s = _
    rw [execStartRamping]
    refine if_neg ?_
    rintro ⟨-, -, -, hl, ho, -⟩
    rcases hstop with h | h
    · exact hl h
    · exact ho h
  · obtain ⟨u, hu⟩ : ∃ u, u = s.reach (max (s.pwr.coldAt + 500 * Config.ms) (s.pwr.supplyGoodAt + 100 * Config.ms)) := ⟨_, rfl⟩
    obtain ⟨hpwr, hnow, hfuses, hring⟩ := coldCore_keeps u
    obtain ⟨v, hv⟩ : ∃ v : State, v = { u.coldCore with
        pwrState := .ramping, clk := { u.coldCore.clk with running := false }
        pwr := { u.coldCore.pwr with supply := supply.toNat, supplyOk := true, powerOn := false }
        boot := { u.coldCore.boot with seq := .idle, began := u.now } } := ⟨_, rfl⟩
    have hexec : exec (.startRamping supply) s = .next (v.raiseRail 0) := by
      show execStartRamping supply s = _
      rw [execStartRamping]
      dsimp only
      rw [if_pos ⟨hcold, hvaux, by simp [hreq], by simp [hlatched], by simp [hoff], haddr, hsupply⟩, hv, hu]
    obtain ⟨hlow, -, hvfuses, hvspk, hlast⟩ := raiseRail_keeps v 0
    simp only [State.lowered, Prod.mk.injEq] at hlow
    obtain ⟨hstate, hstandby, hvnow⟩ := hlow
    have hvrail : ∀ k, v.rail k = s.rail k := fun k => by
      rw [hv]
      show u.coldCore.pwr.rails.getD k .off = _
      rw [hpwr, hu]
      rfl
    refine ⟨_, hexec, hstate.trans (by rw [hv]), ?_, ?_, fun k hk => ?_, ?_, ?_, hlast, ?_, ?_⟩
    · rw [rail_raiseRail, if_pos rfl]
    · rw [rail_raiseRail, if_pos rfl]
    · rw [rail_raiseRail, if_neg hk, hvrail]
    · refine (congrArg Power.armed hstandby).trans ?_
      rw [hv]
      show u.coldCore.pwr.armed = false
      rw [hpwr]
      rfl
    · rw [hvnow, hv]
      refine hnow.trans ?_
      rw [hu]
      rfl
    · rw [hvfuses, hv]
      refine hfuses.trans ?_
      rw [hu]
      rfl
    · rw [hvspk, hv]
      refine hring.trans ?_
      rw [hu]
      rfl
  · exact railQualified_goesOn hramp hnot hupTo hbelow htime
  · have hexec : exec (.railRampTimeout i status) s = .next ((s.reach ((s.rail i.val).since + 10 * Config.ms)).railFail 1 i.val status) := by
      show execRailRampTimeout i status s = _
      rw [execRailRampTimeout, if_pos ⟨hramp, by rw [hupTo i.val i.isLt]; simp, by simp [hnot]⟩]
    exact ⟨_, hexec, railFail_standby (s := s.reach ((s.rail i.val).since + 10 * Config.ms)) hupTo 1 status⟩
  · have hexec : exec (.powerGoodLoss i status) s = .next (s.railFail 2 i.val status) := by
      show execPowerGoodLoss i status s = _
      rw [execPowerGoodLoss, if_neg (by rw [hupTo i.val i.isLt]; simp), if_pos hramp, if_pos hthree]
    obtain ⟨hstate, hl, hc, hr, hp, he, -⟩ := railFail_standby hupTo 2 status
    exact ⟨_, hexec, hstate, hl, hc, hr, hp, he⟩
  · obtain ⟨u, hu⟩ : ∃ u, u = s.updRail i.val (fun x => { x with good := false, qualified := false, goodAt := s.now, requal := x.requal + 1 }) :=
      ⟨_, rfl⟩
    have hexec : exec (.powerGoodLoss i status) s = .next (u.raise .pwr 5) := by
      show execPowerGoodLoss i status s = _
      rw [execPowerGoodLoss, if_neg (by rw [hupTo i.val i.isLt]; simp), if_pos hramp, if_neg hthree, hu]
    obtain ⟨hpwr, -⟩ := standby_of_noted (noted_raise u .pwr 5)
    have hrail : ∀ k, (u.raise .pwr 5).rail k = u.rail k := fun k => by rw [State.rail, State.rail, hpwr]
    have hstate : (u.raise .pwr 5).pwrState = s.pwrState := by
      obtain ⟨_, _, _, _, _, h, _⟩ := noted_raise u .pwr 5
      rw [h, hu]
      rfl
    refine ⟨_, hexec, ?_, fun k hk => ?_, irqStat_raise_self u .pwr (by decide), hstate⟩
    · rw [hrail, hu, State.rail_updRail, if_pos rfl]
    · rw [hrail, hu, State.rail_updRail, if_neg hk]

/-- The rail whose sense fell below its threshold is off. -/
theorem execRailOff_eq {s : State} {i : Fin 8} (hshut : s.pwrState = .shutdown) (hdrop : (s.rail i.val).dropping = true)
    (hothers : ∀ j, j < 8 → j ≠ i.val → (s.rail j).dropping = false) : ∃ t : State,
    t = s.updRail i.val (fun r => { r with dropping := false, good := false, qualified := false }) ∧ t.enabledRails = s.enabledRails ∧
      (s.enabledRails = [] → execRailOff i s = .next t.allOff) ∧
      (∀ k ks, s.enabledRails = k :: ks → execRailOff i s = .next (t.lowerRail k)) := by
  obtain ⟨t, ht⟩ : ∃ t, t = s.updRail i.val (fun r => { r with dropping := false, good := false, qualified := false }) := ⟨_, rfl⟩
  have hrail : ∀ k, t.rail k = if k = i.val then { s.rail i.val with dropping := false, good := false, qualified := false }
      else s.rail k := fun k => by rw [ht]; exact State.rail_updRail _ _ _ _
  have henabled : t.enabledRails = s.enabledRails := enabledRails_congr (fun k _ => by
    rw [hrail]
    split
    next h => rw [h]
    next => rfl)
  have hnone : (List.range 8).any (fun j => (t.rail j).dropping) = false := by
    refine List.any_eq_false.mpr (fun j hj => ?_)
    rw [hrail]
    by_cases h : j = i.val
    · simp [h]
    · simp [h, hothers j (List.mem_range.mp hj) h]
  refine ⟨t, ht, henabled, fun h => ?_, fun k ks h => ?_⟩
  · rw [execRailOff, if_pos ⟨hshut, hdrop⟩, ← ht]
    dsimp only
    rw [henabled, h, hnone]
    rfl
  · rw [execRailOff, if_pos ⟨hshut, hdrop⟩, ← ht]
    dsimp only
    rw [henabled, h, hnone]
    rfl

theorem railsGoDown : Claims.RailsGoDown := by
  unfold Claims.RailsGoDown
  intro s i
  refine ⟨fun hshut hdrop hoff => ⟨fun hothers => ?_, ?_⟩, fun hdrop => ⟨?_, ?_⟩, fun hf => ?_, fun hup => ?_⟩
  · obtain ⟨t, ht, henabled, hnil, hcons⟩ := execRailOff_eq hshut hdrop hothers
    have hrail : ∀ k, t.rail k = if k = i.val then { s.rail i.val with dropping := false, good := false, qualified := false }
        else s.rail k := fun k => by rw [ht]; exact State.rail_updRail _ _ _ _
    refine ⟨fun hnone => ?_, fun k ks hks => ?_⟩
    · refine ⟨_, hnil hnone, by rw [ht]; rfl, ?_, by rw [ht]; rfl⟩
      show t.rail i.val = _
      rw [hrail, if_pos rfl]
    · have hk : k ∈ s.enabledRails := by rw [hks]; exact List.mem_cons_self
      have hki : k ≠ i.val := fun h => by
        have henabledK := (mem_enabledRails.mp hk).2
        rw [h, hoff] at henabledK
        cases henabledK
      refine ⟨_, hcons k ks hks, by rw [ht]; exact hshut, ?_, ?_, ?_, fun j hj hjk => ?_, by rw [ht]; rfl⟩
      · rw [rail_lowerRail, if_pos rfl]
      · rw [rail_lowerRail, if_pos rfl]
      · rw [rail_lowerRail, if_neg (Ne.symm hki), hrail, if_pos rfl]
      · rw [rail_lowerRail, if_neg hjk, hrail, if_neg hj]
  · obtain ⟨u, hu⟩ : ∃ u, u = s.reach ((s.rail i.val).since + 10 * Config.ms) := ⟨_, rfl⟩
    obtain ⟨v, hv⟩ : ∃ v, v = u.enabledRails.foldl (fun u k => u.lowerRail k) u := ⟨_, rfl⟩
    have hexec : exec (.dischargeTimeout i) s = .next (v.latchFault 5 i.val (s.rail i.val).status) := by
      show execDischargeTimeout i s = _
      rw [execDischargeTimeout, if_pos ⟨hshut, hdrop⟩, hv, hu]
    have hlow := lowerEach_lowered u.enabledRails u
    rw [← hv] at hlow
    simp only [State.lowered, Prod.mk.injEq] at hlow
    obtain ⟨hstate, -, hnow⟩ := hlow
    refine ⟨_, hexec, hnow.trans (by rw [hu]; rfl), rfl, rfl, rfl, hstate.trans (by rw [hu]; exact hshut), fun k hk => ?_⟩
    show (v.rail k).enabled = false
    rw [hv]
    exact lowerAll_enabled (fun _ => rfl) hk
  · show execRailOff i s = _
    rw [execRailOff, if_neg (by simp [hdrop])]
  · show execDischargeTimeout i s = _
    rw [execDischargeTimeout]
    exact if_neg (by simp [hdrop])
  · obtain ⟨u, hu⟩ : ∃ u, u = s.latchFault 3 i.val (s.rail i.val).status := ⟨_, rfl⟩
    have hexec : exec (.undervoltage i) s = .next (u.flush 7) := by
      show execUndervoltage i s = _
      rw [execUndervoltage, if_pos hf, hu]
    have hfu : u.pwrState.flushable = true := by rw [hu]; exact hf
    have harmed : u.pwr.armed = s.pwr.armed := by rw [hu]; rfl
    have hlatched : u.pwr.latched = true ∧ u.pwr.code = 3 ∧ u.pwr.rail = i.val := by
      rw [hu]
      exact ⟨rfl, rfl, rfl⟩
    obtain ⟨hl, hc, hr⟩ := hlatched
    cases ha : s.pwr.armed
    · obtain ⟨hstate, hpwr, -⟩ := powerDown_standby u
      rw [← flush_unarmed hfu (harmed.trans ha) 7] at hstate hpwr
      exact ⟨_, hexec, by rw [hpwr]; exact hl, by rw [hpwr]; exact hc, by rw [hpwr]; exact hr, fun h => Bool.noConfusion h,
        fun _ => hstate⟩
    · obtain ⟨hstate, hpwr, -, hfrozen, -⟩ := flush_armed hfu (harmed.trans ha) 7
      exact ⟨_, hexec, by rw [hpwr]; exact hl, by rw [hpwr]; exact hc, by rw [hpwr]; exact hr,
        fun _ => ⟨hstate, by rw [hpwr]; rfl, hfrozen⟩, fun h => Bool.noConfusion h⟩
  · obtain ⟨u, hu⟩ : ∃ u, u = s.latchFault 4 i.val (s.rail i.val).status := ⟨_, rfl⟩
    have hexec : exec (.overvoltage i) s = .next u.cutRails := by
      show execOvervoltage i s = _
      rw [execOvervoltage, if_neg (by simpa using hup), hu]
    have hlatched : u.pwr.latched = true ∧ u.pwr.code = 4 ∧ u.pwr.rail = i.val := by
      rw [hu]
      exact ⟨rfl, rfl, rfl⟩
    obtain ⟨hl, hc, hr⟩ := hlatched
    obtain ⟨hstate, hpwr, henabled⟩ := cutRails_standby u
    exact ⟨_, hexec, by rw [hpwr]; exact hl, by rw [hpwr]; exact hc, by rw [hpwr]; exact hr, hstate, by rw [hpwr]; rfl, henabled⟩

/-- Settles O56: the rails rise one after another as the last qualifies, and fall from the highest enabled one; a fault is latched
before they fall, and the down sequence leaves the latch. -/
theorem railSequences : Obligations.RailSequences := ⟨vauxComesAndGoes, railsComeUp, railsGoDown⟩

end Sys2Proof.Proofs
end

section
/-!
SUPPORT. Simmer and the shelf bus (02_host_ports.md R68, R75, 15_power.md R437 to R450).
-/

namespace Sys2Proof.Machine

open Sys2Proof Sys2Proof.Safety Sys2Proof.Laws

/-! ### Simmer entry (R437) -/

/-- Simmer entry begins: every link but the Simmer link is down, and that one presents no memory. -/
theorem enterSimmer_begins (s : State) (p : Path) (n : Nat) : (s.enterSimmer p n).boot.seq = .simmer p ∧
    (s.enterSimmer p n).boot.simmerAt = s.now ∧ (s.enterSimmer p n).ports.simmerLink = n ∧
    ((s.enterSimmer p n).link n).memActive = false ∧ ∀ k, k < 32 → k ≠ n → ((s.enterSimmer p n).link k).up = false := by
  obtain ⟨u, hu⟩ : ∃ u : State, u = { s.startRun p 0xC002 [1] [] with
      ports := { (s.startRun p 0xC002 [1] []).ports with simmerLink := n }
      boot := { (s.startRun p 0xC002 [1] []).boot with seq := .simmer p, simmerAt := s.now } } := ⟨_, rfl⟩
  obtain ⟨ks, hks⟩ : ∃ ks, ks = (List.range 32).filter (fun k => decide (k ≠ n)) := ⟨_, rfl⟩
  obtain ⟨v, hv⟩ : ∃ v, v = ks.foldl (fun u k => u.holdLink k 5) u := ⟨_, rfl⟩
  have henter : s.enterSimmer p n = v.setLink n (fun l => { l with memActive := false }) := by
    have hfold : (List.range 32).foldl (fun u k => if k = n then u else u.holdLink k 5) u = v := by
      rw [hv, hks, List.foldl_filter]
      refine congrArg (fun f => List.foldl f u (List.range 32)) (funext fun t => funext fun k => ?_)
      by_cases hk : k = n
      · simp [hk]
      · simp [hk]
    rw [← hfold, hu]
    rfl
  have hstand : v.standing = u.standing := by rw [hv]; exact holdEach_standing ks 5 u
  simp only [State.standing, Prod.mk.injEq] at hstand
  obtain ⟨-, -, hboot, -, -, -, -, -, hsimmer⟩ := hstand
  rw [henter]
  refine ⟨(congrArg Boot.seq hboot).trans (by rw [hu]), (congrArg Boot.simmerAt hboot).trans (by rw [hu]),
    hsimmer.trans (by rw [hu]), by rw [link_setLink_self], fun k hk hkn => ?_⟩
  rw [link_setLink_ne v _ hkn]
  obtain ⟨hup, -⟩ := holdEach_link ks 5 k u
  have hmem : ks.contains k = true := by rw [hks]; simp [hk, hkn]
  rw [hmem, ← hv] at hup
  exact hup

/-! ### The wake (R438) -/

/-- A burner of a list is training once all of them begin, and the rest of the device stays. -/
theorem beginTraining_each (b : Nat) (bs : List Nat) : ∀ s : State, (s.burner b).training = true ∨ b ∈ bs →
    ((bs.foldl State.beginTraining s).burner b).training = true := by
  induction bs with
  | nil => simp
  | cons a bs ih =>
    intro s h
    refine ih (s.beginTraining a) ?_
    have hburner : (s.beginTraining a).burner b = if b = a then
        { s.burner a with training := true, fullBusy := true, trainState := 1, ready := false } else s.burner b := by
      show (s.updBurner a (fun x => { x with training := true, fullBusy := true, trainState := 1, ready := false })).burner b = _
      rw [State.burner_updBurner]
    rw [hburner]
    by_cases hb : b = a
    · exact .inl (by rw [if_pos hb])
    · rw [if_neg hb]
      exact h.imp id (fun hmem => by simpa [hb] using hmem)

/-- The device in Boil again, with the burners that failed their check in training. -/
def State.waking (s : State) (fails : BitVec 32) : State :=
  let t := { s.rootStart with
    pwrState := .boil, regs := { s.regs with entry := [] }, boot := { s.boot with boilAt := s.now }
    siv := { s.siv with selfRefresh := false } }
  (t.liveBurners.filter (fun b => bitOf fails b)).foldl State.beginTraining t

/-- The Simmer link at the bifurcated width that it had in `s`, and a rate. -/
def State.wakeLink (t s : State) (rate : Nat) : State :=
  let n := t.ports.simmerLink
  t.setLink n (fun l => if l.up then { l with
    width := widthCode (s.goodLanes n).2, degraded := decide ((s.goodLanes n).2 < s.subLanes n), rate := if l.flit256 then rate else min 5 rate } else l)

theorem wake_unfold (s : State) (fails : BitVec 32) (rate : Nat) :
    s.wake fails rate = ((s.waking fails).wakeLink s rate).releaseLinks.presentMemory.powerReached 0 := rfl

theorem waking_keeps (s : State) (fails : BitVec 32) : (s.waking fails).pwrState = .boil ∧ (s.waking fails).boot.boilAt = s.now ∧
    (s.waking fails).mbx = s.mbx ∧ (s.waking fails).out = s.out := by
  have hview : ∀ (bs : List Nat) (t : State), ((bs.foldl State.beginTraining t).pwrState, (bs.foldl State.beginTraining t).boot,
      (bs.foldl State.beginTraining t).mbx, (bs.foldl State.beginTraining t).out) = (t.pwrState, t.boot, t.mbx, t.out) := fun bs t => by
    refine foldl_keeps (fun t : State => (t.pwrState, t.boot, t.mbx, t.out)) (fun t b => ?_) bs t
    rfl
  obtain ⟨t, ht⟩ : ∃ t : State, t = { s.rootStart with
    pwrState := .boil, regs := { s.regs with entry := [] }, boot := { s.boot with boilAt := s.now }
    siv := { s.siv with selfRefresh := false } } := ⟨_, rfl⟩
  have hwaking : s.waking fails = (t.liveBurners.filter (fun b => bitOf fails b)).foldl State.beginTraining t := by rw [ht]; rfl
  have h := hview (t.liveBurners.filter (fun b => bitOf fails b)) t
  rw [← hwaking] at h
  simp only [Prod.mk.injEq] at h
  obtain ⟨hstate, hboot, hmbx, hout⟩ := h
  exact ⟨hstate.trans (by rw [ht]), (congrArg Boot.boilAt hboot).trans (by rw [ht]), hmbx.trans (by rw [ht]; rfl),
    hout.trans (by rw [ht]; rfl)⟩

/-- What comes after the training changes the ports alone. -/
theorem presentAfterWake_eq (t s : State) (rate : Nat) : ∃ ports, (t.wakeLink s rate).releaseLinks.presentMemory = { t with ports := ports } := by
  obtain ⟨ports, hports⟩ := releaseLinks_eq (t.wakeLink s rate)
  rw [hports]
  unfold State.presentMemory
  split
  · exact ⟨_, rfl⟩
  · exact ⟨_, rfl⟩

/-- What a wake leaves before its command ends. -/
theorem wake_eq (s : State) (fails : BitVec 32) (rate : Nat) : ∃ t : State, s.wake fails rate = t.powerReached 0 ∧
    t.pwrState = .boil ∧ t.boot.boilAt = s.now ∧ t.mbx = s.mbx ∧ t.out = s.out ∧
    ∀ b ∈ s.liveBurners, fails.getLsbD b = true → (t.burner b).training = true := by
  obtain ⟨ports, hports⟩ := presentAfterWake_eq (s.waking fails) s rate
  obtain ⟨hstate, hboil, hmbx, hout⟩ := waking_keeps s fails
  refine ⟨{ s.waking fails with ports := ports }, by rw [wake_unfold, hports], hstate, hboil, hmbx, hout, fun b hb hfail => ?_⟩
  exact beginTraining_each b _ _ (.inr (List.mem_filter.mpr ⟨hb, hfail⟩))

/-- Ending commands leaves the power state, the start and the burners. -/
theorem endRuns_keeps (s : State) (p : MbxRun → Bool) (rc : Nat) (payload : List Byte) :
    (s.endRuns p rc payload).pwrState = s.pwrState ∧ (s.endRuns p rc payload).boot = s.boot ∧
      (s.endRuns p rc payload).burners = s.burners := by
  have hview := foldl_keeps (fun t : State => (t.pwrState, t.boot, t.burners)) (f := fun (t : State) (r : MbxRun) =>
    match t.mbx.runs.find? (fun x => decide (x = r)) with
    | some x => t.endRun x rc payload
    | none => t) (fun t r => by
      split
      · unfold State.endRun
        split
        · rfl
        · rfl
      · rfl) (s.mbx.runs.filter p) s
  simp only [Prod.mk.injEq] at hview
  exact hview

/-- The one command that waits ends with its answer. -/
theorem endRuns_alone {s : State} {r : MbxRun} {p : MbxRun → Bool} (h : s.mbx.runs = [r]) (hp : p r = true) (hbg : r.bg = false)
    (rc : Nat) (payload : List Byte) :
    s.endRuns p rc payload = ({ s with mbx := { s.mbx with runs := [] } } : State).reply r.path r.opcode rc payload := by
  have hfind : s.mbx.runs.find? (fun x => decide (x = r)) = some r := by simp [h]
  have hrest : s.mbx.runs.filter (fun x => decide (x ≠ r)) = [] := by simp [h]
  have hruns : s.mbx.runs.filter p = [r] := by simp [h, hp]
  rw [State.endRuns, hruns, List.foldl_cons, List.foldl_nil, hfind]
  dsimp only
  rw [State.endRun, hrest, hbg]
  rfl

/-! ### The shelf bus (R442 to R448) -/

/-- A slave that takes a frame answers it. -/
theorem yvCommand_slave {s : State} (h : s.isSlave = true) (body : State → State) :
    s.yvCommand body = body { s with pwr := { s.pwr with frameAt := s.now } } := if_pos h

theorem yvCommand_none {s : State} (h : s.isSlave = false) (body : State → State) : s.yvCommand body = s :=
  if_neg (by simp [h])

/-- The bits of the flags of a STATUS payload. -/
theorem yvFlags_bits : ∀ b0 b1 b2 b3 b4 b5 b6 b7 : Bool,
    let x := byteOf (b0.toNat + 2 * b1.toNat + 4 * b2.toNat + 8 * b3.toNat + 16 * b4.toNat + 32 * b5.toNat + 64 * b6.toNat + 128 * b7.toNat)
    x.getLsbD 1 = b1 ∧ x.getLsbD 2 = b2 ∧ x.getLsbD 6 = b6 := by
  decide

/-- Sending one frame again and again. -/
theorem yvSend_again (addr cmd n : Nat) (s : State) : (List.range n).foldl (fun u _ => u.yvSend addr cmd) s =
    { s with out := s.out ++ List.replicate n (.yulvoga (yvFrame addr cmd)) } := by
  induction n with
  | zero => simp
  | succ n ih =>
    rw [List.range_succ, List.foldl_append, ih, List.replicate_succ']
    show { s with out := (s.out ++ _) ++ [_] } = _
    rw [List.append_assoc]

/-- What the master learns is of the slave, and of the last one that it turned on. -/
theorem yvLearn_keeps (s : State) (a cmd status : Nat) (payload : List Byte) :
    (s.yvLearn a cmd status payload).out = s.out ∧ (s.yvLearn a cmd status payload).pwr.respResult = s.pwr.respResult ∧
      (s.yvLearn a cmd status payload).pwr.respStatus = s.pwr.respStatus := by
  unfold State.yvLearn
  split
  · exact ⟨rfl, rfl, rfl⟩
  · split
    · exact ⟨rfl, rfl, rfl⟩
    · exact ⟨rfl, rfl, rfl⟩
    · exact ⟨rfl, rfl, rfl⟩
    · exact ⟨rfl, rfl, rfl⟩

/-- A trigger of Flush, whatever the power state: OFF_HELD and the frame's time stay. -/
theorem trigger_holds (s : State) (cause : Nat) :
    (s.trigger cause).pwr.offHeld = s.pwr.offHeld ∧ (s.trigger cause).pwr.frameAt = s.pwr.frameAt := by
  obtain ⟨-, hdown, -⟩ := powerDown_standby s
  by_cases hr : s.pwrState = .ramping
  · rw [State.trigger, if_pos hr, hdown]
    exact ⟨rfl, rfl⟩
  · rw [State.trigger, if_neg hr]
    cases hf : s.pwrState.flushable
    · rw [State.flush, if_pos (by simp [hf])]
      exact ⟨rfl, rfl⟩
    · cases ha : s.pwr.armed
      · rw [flush_unarmed hf ha, hdown]
        exact ⟨rfl, rfl⟩
      · obtain ⟨-, hpwr, -⟩ := flush_armed hf ha cause
        rw [hpwr]
        exact ⟨rfl, rfl⟩

end Sys2Proof.Machine

namespace Sys2Proof.Proofs

open Sys2Proof Sys2Proof.Machine Sys2Proof.Safety Sys2Proof.Laws

theorem simmerIsEnteredAndLeft : Claims.SimmerIsEnteredAndLeft := by
  unfold Claims.SimmerIsEnteredAndLeft
  intro s p hserves
  refine ⟨fun link => ?_, fun fails rate => ?_⟩
  · intro n
    have hexec := exec_served (c := .simmerEntry p link) hserves rfl
    refine ⟨fun hsim => ?_, fun hsim hn => ?_, fun hsim hn hup => ⟨fun hbusy => ?_, fun hboil hidle hfree => ?_⟩⟩
    · rw [hexec, if_pos hsim]
      rfl
    · rw [hexec, if_neg hsim]
      dsimp only
      rw [if_pos (hn.imp id (fun h => by simp [n] at h; simp [h]))]
      rfl
    · rw [hexec, if_neg hsim]
      dsimp only
      rw [if_neg (by rintro (h | h); exacts [absurd hn (by omega), h hup]), if_pos hbusy]
      rfl
    · rw [if_neg hsim] at hexec
      dsimp only at hexec
      rw [if_neg (by rintro (h | h); exacts [absurd hn (by omega), h hup]), if_neg (by simp [hboil, hidle, hfree])] at hexec
      exact ⟨_, hexec, enterSimmer_begins s p n⟩
  · have hexec := exec_served (c := .simmerWake p fails rate) hserves rfl
    refine ⟨fun hsim htest => ?_, fun hsim htest => ?_, fun hboil hidle => ?_, fun hsim hboil => ?_⟩
    · rw [if_pos hsim] at hexec
      obtain ⟨u, hu⟩ : ∃ u, u = s.startRun p 0xC002 [0, fails.toNat, rate.val + 1] [] := ⟨_, rfl⟩
      dsimp only at hexec
      rw [← hu, if_neg htest] at hexec
      obtain ⟨v, hwake, hstate, hboilAt, hmbx, hout, hburners⟩ := wake_eq u fails (rate.val + 1)
      rw [hwake] at hexec
      obtain ⟨hstate', hboot', hburners'⟩ := endRuns_keeps v (fun r => decide (r.opcode = 0xC002)) rcOk (leBytes 4 0)
      refine ⟨_, hexec, hstate'.trans hstate, ?_, fun b hb hfail => ?_, fun hruns => ?_⟩
      · refine (congrArg Boot.boilAt hboot').trans (hboilAt.trans ?_)
        rw [hu]
        rfl
      · have hburner : (v.powerReached 0).burner b = v.burner b := by
          rw [State.burner, State.burner, State.powerReached, hburners']
        rw [hburner]
        refine hburners b ?_ hfail
        rw [hu]
        exact hb
      · obtain ⟨r, hr⟩ : ∃ r : MbxRun, r = ⟨p, 0xC002, s.now, false, [0, fails.toNat, rate.val + 1], []⟩ := ⟨_, rfl⟩
        have hone : v.mbx.runs = [r] := by
          rw [hmbx, hu]
          show s.mbx.runs ++ [_] = _
          rw [hruns, hr]
          rfl
        have hend := endRuns_alone (p := fun r => decide (r.opcode = 0xC002)) hone (by rw [hr]; rfl) (by rw [hr]) rcOk (leBytes 4 0)
        have houtS : v.out = s.out := by rw [hout, hu]; rfl
        rw [State.powerReached, hend]
        refine ⟨rfl, ?_⟩
        show _ ∈ (v.out ++ [_]).drop s.out.length
        rw [houtS, List.drop_left, hr]
        exact List.mem_singleton.mpr rfl
    · rw [hexec, if_pos hsim]
      dsimp only
      rw [if_pos htest]
      rfl
    · rw [hexec, if_neg (by simp [hboil]), if_pos ⟨hboil, hidle⟩]
      rfl
    · rw [hexec, if_neg hsim, if_neg (fun h => hboil h.1)]
      rfl

theorem yvStatus_answers {s : State} (h : s.isSlave = true) :
    ∃ t b, exec .yvStatus s = .next t ∧ t = { s with
        pwr := { s.pwr with frameAt := s.now, yvStatus := 0 }, out := s.out ++ [.yulvoga (yvAnswer s.pwr.yvAddr 0 b)] } ∧
      b.length = 12 ∧ field b 0 1 = s.pwrState.code ∧ field b 3 1 = s.pwr.lastCause % 256 ∧
      ∀ x, b[1]? = some x → x.getLsbD 1 = s.pwr.offHeld ∧ x.getLsbD 2 = s.pwr.latched ∧ x.getLsbD 6 = s.prot.lid := by
  obtain ⟨u, hu⟩ : ∃ u : State, u = { s with pwr := { s.pwr with frameAt := s.now } } := ⟨_, rfl⟩
  have hexec : exec .yvStatus s = .next (u.yvReply false 0 u.yvPayload) := by
    show execYvStatus s = _
    rw [execYvStatus, yvCommand_slave h, hu]
  refine ⟨_, u.yvPayload, hexec, by rw [hu]; rfl, rfl, ?_, ?_, fun x hx => ?_⟩
  · rw [hu]
    show (byteOf s.pwrState.code).toNat + 256 * 0 = _
    cases s.pwrState <;> rfl
  · rw [hu]
    show (byteOf s.pwr.lastCause).toNat + 256 * 0 = _
    simp [byteOf]
  · have hbits := yvFlags_bits u.kettleAtReady s.pwr.offHeld s.pwr.latched s.pwr.weak s.pwr.fault s.pwr.writeHold s.prot.lid s.pwr.supplyOk
    obtain rfl : byteOf (u.kettleAtReady.toNat + 2 * s.pwr.offHeld.toNat + 4 * s.pwr.latched.toNat + 8 * s.pwr.weak.toNat +
        16 * s.pwr.fault.toNat + 32 * s.pwr.writeHold.toNat + 64 * s.prot.lid.toNat + 128 * s.pwr.supplyOk.toNat) = x := by
      rw [hu] at hx
      rw [hu]
      exact Option.some.inj hx
    exact hbits

theorem powerOff_answers {s : State} (h : s.isSlave = true) (broadcast : Bool) :
    ∃ t, exec (.powerOff broadcast) s = .next t ∧ t.pwr.offHeld = true ∧ t.pwr.frameAt = s.now ∧
      (s.pwrState.flushable = true → s.pwr.armed = true → t.pwrState = .flush ∧ t.pwr.cause = 4) ∧
      (s.pwrState.flushable = true → s.pwr.armed = false → t.pwrState = .shutdown) ∧ (s.pwrState = .cold → t.pwrState = .cold) := by
  obtain ⟨u, hu⟩ : ∃ u : State, u = ({ s with pwr := { s.pwr with frameAt := s.now, offHeld := true, powerOn := false } } : State).yvReply
      broadcast 0 [] := ⟨_, rfl⟩
  have hexec : exec (.powerOff broadcast) s = .next (u.trigger 4) := by
    show execPowerOff broadcast s = _
    rw [execPowerOff, yvCommand_slave h, hu]
  have hkeeps : u.pwrState = s.pwrState ∧ u.pwr.armed = s.pwr.armed ∧ u.pwr.offHeld = true ∧ u.pwr.frameAt = s.now := by
    rw [hu]
    cases broadcast
    · exact ⟨rfl, rfl, rfl, rfl⟩
    · exact ⟨rfl, rfl, rfl, rfl⟩
  obtain ⟨hstate, harmed, hoff, hframe⟩ := hkeeps
  obtain ⟨hoff', hframe'⟩ := trigger_holds u 4
  refine ⟨_, hexec, hoff'.trans hoff, hframe'.trans hframe, fun hf ha => ?_, fun hf ha => ?_, fun hcold => ?_⟩
  · have hfu : u.pwrState.flushable = true := by rw [hstate]; exact hf
    obtain ⟨hflush, hpwr, -⟩ := flush_armed hfu (harmed.trans ha) 4
    rw [trigger_flushable hfu]
    exact ⟨hflush, by rw [hpwr]; rfl⟩
  · have hfu : u.pwrState.flushable = true := by rw [hstate]; exact hf
    rw [trigger_flushable hfu, flush_unarmed hfu (harmed.trans ha)]
    exact (powerDown_standby u).1
  · have hcoldU : u.pwrState = .cold := hstate.trans hcold
    rw [State.trigger, if_neg (by simp [hcoldU]), State.flush, if_pos (by simp [hcoldU, PState.flushable])]
    exact hcoldU

theorem slavesAnswer : Claims.SlavesAnswer := by
  unfold Claims.SlavesAnswer
  intro s
  refine ⟨fun h => ?_, fun h c hc => ?_⟩
  · intro heard tells
    refine ⟨?_, yvStatus_answers h, ?_, fun hl => ?_, fun hl hcold => ?_, fun hl hcold => ?_, powerOff_answers h, fun hfault => ?_,
      fun hfault => ⟨?_, ?_⟩, ?_, ?_⟩
    · show execYvIdentify s = _
      rw [execYvIdentify, yvCommand_slave h]
      rfl
    · show execKettleInfo s = _
      rw [execKettleInfo, yvCommand_slave h]
      rfl
    · show execPowerOn s = _
      rw [execPowerOn, yvCommand_slave h, if_pos hl]
      rfl
    · show execPowerOn s = _
      rw [execPowerOn, yvCommand_slave h, if_neg (by simp [hl])]
      dsimp only
      rw [if_pos hcold]
      rfl
    · show execPowerOn s = _
      rw [execPowerOn, yvCommand_slave h, if_neg (by simp [hl])]
      dsimp only
      rw [if_neg hcold]
      rfl
    · show execClearFault false s = _
      rw [execClearFault, yvCommand_slave h, if_pos hfault]
      rfl
    · show execClearFault false s = _
      rw [execClearFault, yvCommand_slave h, if_neg hfault]
      rfl
    · show execClearFault true s = _
      rw [execClearFault, yvCommand_slave h, if_neg hfault]
      rfl
    · show execYulvogaBadFrame true s = _
      rw [execYulvogaBadFrame, if_pos rfl, yvCommand_slave h]
      rfl
    · show execYulvogaBadFrame false s = _
      rw [execYulvogaBadFrame, if_neg (by decide), if_pos h]
      rfl
  · have hframe : (∃ body, exec c s = .next (s.yvCommand body)) ∨ c = .yulvogaBadFrame false := by
      simp only [List.mem_cons, List.not_mem_nil, or_false] at hc
      rcases hc with rfl | rfl | rfl | rfl | rfl | rfl | rfl | rfl | rfl | rfl
      iterate 9 exact .inl ⟨_, rfl⟩
      exact .inr rfl
    rcases hframe with ⟨body, hexec⟩ | rfl
    · rw [hexec, yvCommand_none h]
    · show execYulvogaBadFrame false s = _
      rw [execYulvogaBadFrame, if_neg (by decide), if_neg (by simp [h])]

theorem masterSends : Claims.MasterSends := by
  unfold Claims.MasterSends
  intro s path addr cmd again result status payload hw
  obtain ⟨u, hu⟩ : ∃ u, u = s.setLive .pwr 0x64 (at32 addr.val 0 ||| at32 cmd.toNat 4) := ⟨_, rfl⟩
  obtain ⟨n, hn⟩ : ∃ n, n = if result.val = 0 then again.val + 1 else 10 := ⟨_, rfl⟩
  obtain ⟨st, hst⟩ : ∃ st, st = if addr.val = 0 then 0 else status.toNat := ⟨_, rfl⟩
  obtain ⟨v, hv⟩ : ∃ v : State, v = { u with
    out := s.out ++ List.replicate n (.yulvoga (yvFrame addr.val cmd.toNat))
    pwr := { s.pwr with respStatus := st, respResult := result.val } } := ⟨_, rfl⟩
  have hexec : exec (.yvCmdGo path addr cmd again result status payload) s = .next (if s.pwr.yvAddr ≠ 0 then u else
      if result.val = 0 then v.yvLearn addr.val cmd.toNat st payload else v.raise .pwr 7) := by
    show execYvCmdGo path addr cmd again result status payload s = _
    rw [execYvCmdGo, portWrite_of_writes hw rfl, if_neg (by simp [mayWrite_of_writes hw])]
    dsimp only
    rw [yvSend_again, ← hu, ← hn, ← hst, hv, hu]
    rfl
  refine ⟨_, hexec, fun haddr => ?_, fun haddr => ?_⟩
  · rw [if_pos haddr, hu]
    rfl
  · rw [if_neg (by simp [haddr])]
    by_cases hr : result.val = 0
    · rw [if_pos hr] at hn ⊢
      obtain ⟨hout, hres, hstat⟩ := yvLearn_keeps v addr.val cmd.toNat st payload
      refine ⟨by rw [hres, hv], by rw [hstat, hv, hst], ⟨[], ?_⟩, fun h => absurd hr h, fun _ hcmd ha hstatus => ?_⟩
      · rw [hout, hv, hn, if_pos hr, List.append_nil]
      · have hst0 : st = 0 := by rw [hst, if_neg ha, hstatus]; rfl
        have hlearn : v.yvLearn addr.val cmd.toNat st payload = v.updSlave addr.val (fun x => { x with present := true }) := by
          unfold State.yvLearn
          rw [if_neg (by simp [ha, hst0]), hcmd]
          rfl
        have hslave : (v.updSlave addr.val (fun x => { x with present := true })).pwr.slaves.getD addr.val .none =
            { v.pwr.slaves.getD addr.val .none with present := true } := by
          show (v.pwr.slaves.upd .none addr.val (fun x => { x with present := true })).getD addr.val .none = _
          rw [SMap.getD_upd, if_pos rfl]
        rw [hlearn, hslave]
    · rw [if_neg hr] at hn ⊢
      obtain ⟨_, _, out, _, _, hraise, _⟩ := noted_raise v .pwr 7
      have hpwr : (v.raise .pwr 7).pwr = v.pwr := by rw [hraise]
      refine ⟨by rw [hpwr, hv], by rw [hpwr, hv, hst], ⟨out, ?_⟩, fun _ => ⟨irqStat_raise_self v .pwr (by decide), ?_⟩,
        fun h => absurd h hr⟩
      · rw [hraise, hv, hn, if_neg hr]
      · rw [hpwr, hv]

/-- Settles O58: Simmer entry holds every link but one, a wake ends with the command that asked for it, and every frame that a slave or
the master takes is answered or sent as its own equation says. -/
theorem simmerAndYulvoga : Obligations.SimmerAndYulvoga := ⟨simmerIsEnteredAndLeft, slavesAnswer, masterSends⟩

end Sys2Proof.Proofs
end
